-- ==== Sys2Proof/Word.lean ====
section
/-! DEFINITION. The words of the machine (02 Table 2.2; 00, Numbers): 64-bit words, 32-bit control words, bytes. -/

namespace Sys2Proof

/-- A 64-bit register or Chest location. -/
abbrev Word := BitVec 64

/-- A 32-bit control word, or a sequencer register. -/
abbrev Word32 := BitVec 32

/-- A byte of memory. -/
abbrev Byte := BitVec 8

end Sys2Proof
end

