-- ==== Sys2Proof/Syntax.lean ====
section
/-! DEFINITION. The commands of the block: one constructor of `Instr` per row of spec/opcode_table.json, with the operands the rule of the
row gives it.  A command of a core, an engine or a sequencer names who executes it; an event carries what the world outside the model measures (a level, a time, a spectrum, a received frame). -/

namespace Sys2Proof

/-- The three cores programs see (02 R41): the kernel (cores 0 and 1 in lockstep), core 2 and core 3. -/
inductive Core where
  | kernel | core2 | core3
  deriving DecidableEq, Repr

/-- Who executes an instruction: a hub core, a Mill node engine, or a sequencer (0-3 GNSS, 4-7 radio; 03 R71). -/
inductive Engine where
  | hub (c : Core)
  | node (n : Fin 24)
  | seq (q : Fin 8)
  deriving DecidableEq, Repr

/-- A register number of the 5-bit fields of Table 2.5. -/
abbrev Reg := BitVec 5

/-- What a sample port delivers: a frame of 32-bit words, or a gap marker (16 R385). -/
inductive SampleItem where
  | frame (words : List Word32)
  | gap
  deriving DecidableEq, Repr

/-- The filtered inputs of an axis (17 R405). -/
inductive AxisPin where
  | ln | lp | hm
  deriving DecidableEq, Repr

/-- What a poll of one regulator found: whether it acknowledged, and whether any fault bit is set (19 R443). -/
structure RailPoll where
  ack : Bool
  faulty : Bool
  deriving DecidableEq, Repr

/-- The islands of 19 R448, in the order that serves requests made in the same clock. -/
inductive Island where
  | engine (n : Fin 24)
  | quad (q : Fin 4)
  | bank (b : Fin 16)
  | serdes (l : Fin 5)
  deriving DecidableEq, Repr

/-- What a search found (05 Table 5.10): the highest peak. -/
structure SearchPeak where
  code : Nat
  doppler : Int
  metric : Nat
  ratio : Nat
  cn0 : Nat
  deriving DecidableEq, Repr

/-- A satellite as it enters a clock solution (06 R159): one of its channels, as antenna and slot, its elevation in degrees and its C/N0 in
1/16 dB-Hz. -/
structure SolSat where
  ant : Fin 4
  slot : Fin 384
  elev : Int
  cn0 : Nat
  deriving DecidableEq, Repr

/-- What the positioning graph solved for an epoch (06 R158, R159): the satellites that entered, how many were removed as outliers, the post-fit
RMS, the 1σ uncertainty and the offset (ps), and for GPS, Galileo, BeiDou, GLONASS and QZSS the offset as broadcast and as this epoch
estimates it. -/
structure ClockSol where
  sats : List SolSat
  removed : Nat
  rms : Nat
  unc : Nat
  offset : Int
  bcast : List (Option Int)
  est : List (Option Int)
  deriving DecidableEq, Repr

/-- What the tracking image finds in a dump's data (06 R152, R156): a bit or secondary code boundary at its end, or the transmit time of its
end, in ms of the week (GLONASS: of the day). -/
inductive SyncFound where
  | none
  | boundary
  | week (ms : Nat)
  deriving DecidableEq, Repr


/-- A point or a velocity in the Earth-fixed frame, in 0.1 mm or 0.1 mm/s. -/
structure Ecef where
  x : Int
  y : Int
  z : Int
  deriving DecidableEq, Repr

/-- What a satellite's ephemeris gives at a correction epoch (07 R172, R173, R178): its system, PRN (R134), GLONASS slot (0: not known), issue of
data, whether it is healthy with a valid ephemeris, its position and velocity at the transmit time, and its clock in ps. -/
structure CorrSat where
  sys : Nat
  prn : Nat
  slot : Nat
  iod : Nat
  healthy : Bool
  pos : Ecef
  vel : Ecef
  clk : Int
  deriving DecidableEq, Repr

/-- A control message of the pair link (13 Table 13.2); times in the form of T_TX. -/
structure CtlMsg where
  kind : Nat
  unit : Nat
  pref : Bool
  pair : Nat
  holding : Bool
  answer : Bool
  syncrun : Nat
  held : Nat
  seen : Nat
  cycle : Nat
  arg : Nat
  step : Nat
  tTx : Word
  tRx : Word
  pairid : Word
  deriving DecidableEq, Repr


/-- The commands, in the order of the opcode table. -/
inductive Instr where
  /-- CW_WRITE (R11): A write to an S, C or other field of a control word that has no row of its own changes the staged copy or acts under its access code. -/
  | cwWrite (c : Core) (block : BitVec 8) (index : BitVec 12) (value : Word32)
  /-- CWR (R54): Reads the staged copy of S fields and the present value of other fields of a control word. -/
  | cwr (e : Engine) (d : Reg) (block : BitVec 8) (index : BitVec 12)
  /-- CWRL (R54): Reads the live copy of S fields and the present value of other fields of a control word. -/
  | cwrl (e : Engine) (d : Reg) (block : BitVec 8) (index : BitVec 12)
  /-- CWS (R54): Writes s[31:0] to a control word and retires when the block accepts it. -/
  | cws (e : Engine) (r : Reg) (block : BitVec 8) (index : BitVec 12)
  /-- CWRX (R54): As CWR with the block and index taken from a register. -/
  | cwrx (e : Engine) (d a : Reg)
  /-- CWRLX (R54): As CWRL with the block and index taken from a register. -/
  | cwrlx (e : Engine) (d a : Reg)
  /-- CWSX (R54): As CWS with the address and value taken from registers. -/
  | cwsx (e : Engine) (a b : Reg)
  /-- CWAPPLY (R57): Requests an apply of a block and returns the number of the apply that will carry it. -/
  | cwapply (e : Engine) (d a : Reg)
  /-- CWWAIT (R57): Waits until a numbered apply of a block completes and returns its number and result. -/
  | cwwait (e : Engine) (d a b : Reg)
  /-- CWOWN (R55): Takes ownership of a block, overwriting its staged set with its live set. -/
  | cwown (e : Engine) (a : Reg)
  /-- CWDISOWN (R55): Gives up ownership of a block, overwriting its staged set with its live set. -/
  | cwdisown (e : Engine) (a : Reg)
  /-- CWSTAT (R57): Returns the last completed apply number, its result and whether a request is pending. -/
  | cwstat (e : Engine) (d a : Reg)
  /-- APPLY_AT_BOUNDARY (R12): At a block's apply boundary the staged set is checked and copied whole to live. -/
  | applyAtBoundary (block : BitVec 8)
  /-- CYCLE_BOUNDARY (R19): A fleet-cycle boundary advances the cycle number and starts the ingest phase. -/
  | cycleBoundary (late : BitVec 4) (discards : List Nat)
  /-- INGEST_CLOSE (R28): At 2.000 ms the ingest window closes and the compute phase begins. -/
  | ingestClose
  /-- FREEZE (R30): At 6.000 ms Decant closes the dirty set of the cycle and the Decant phase begins. -/
  | freeze
  /-- STALLED_WRITE_RESUME (R30): Decant copies a stalled line and the stalled write completes. -/
  | stalledWriteResume
  /-- RELEASE_PHASE_START (R34): At 8.000 ms outputs of the cycle are armed behind the release gate; in solo the gate opens. -/
  | releasePhaseStart
  /-- GATE_DEADLINE (R35): At 9.900 ms a gate not yet open causes the cycle's armed outputs to be discarded. -/
  | gateDeadline
  /-- SITE_TIME_STEP (R33): At a whole second the counter takes up to 1 ms of the step remainder, shortening or lengthening the cycle's release phase. -/
  | siteTimeStep
  /-- SCRUB_PASS_COMPLETE (R39): A bank scrub engine completes its pass and the pass record is updated. -/
  | scrubPassComplete (us : Nat)
  /-- SCRUB_LATE (R39): A scrub pass exceeds 100 ms and raises 0x0802. -/
  | scrubLate (bank : Fin 16)
  /-- SCRUB_BANK_WAKE (R454): A bank unscrubbed for 50 ms is woken and kept awake until scrubbed. -/
  | scrubBankWake (bank : Fin 16)
  /-- LOCKSTEP_MISMATCH (R44): A compare difference stops both kernel cores, stops heartbeats and releases the claim. -/
  | lockstepMismatch
  /-- LSTEP_SELFTEST (R45): A 1 to HUB.LSTEP.SELFTEST runs the lockstep self-test. -/
  | lstepSelftest (ok : Bool)
  /-- CORE_START (R70): START2 or START3 starts a core at its live entry address at level S. -/
  | coreStart (c : Core)
  /-- CORE_HALT (R70): HALT2 or HALT3 halts a core after its current instruction. -/
  | coreHalt (c : Core)
  /-- INTERRUPT_ENTRY (R64): A pending enabled source is taken and the core enters its handler. -/
  | interruptEntry (c : Core)
  /-- TIMER_COMPARE (R64): TICK reaches TCMP and source 6 becomes pending. -/
  | timerCompare (c : Core)
  /-- CHEST_WRITE_DURABLE (R58): A queued Chest write becomes durable. -/
  | chestWriteDurable (c : Core)
  /-- HOST_MAILBOX_PUT (R62): The host advances PUT of a mailbox and the receiving core's source is raised. -/
  | hostMailboxPut (m : Fin 32) (bytes : List Byte)
  /-- HOST_MAILBOX_GET (R62): The host advances GET of a host-bound mailbox, freeing an entry. -/
  | hostMailboxGet (m : Fin 32)
  /-- ADD (R48): Integer add. -/
  | add (e : Engine) (d a b : Reg)
  /-- SUB (R48): Integer subtract. -/
  | sub (e : Engine) (d a b : Reg)
  /-- AND (R48): Bitwise and. -/
  | and (e : Engine) (d a b : Reg)
  /-- OR (R48): Bitwise or. -/
  | or (e : Engine) (d a b : Reg)
  /-- XOR (R48): Bitwise exclusive or. -/
  | xor (e : Engine) (d a b : Reg)
  /-- SLL (R48): Shift left logical by register. -/
  | sll (e : Engine) (d a b : Reg)
  /-- SRL (R48): Shift right logical by register. -/
  | srl (e : Engine) (d a b : Reg)
  /-- SRA (R48): Shift right arithmetic by register. -/
  | sra (e : Engine) (d a b : Reg)
  /-- SLT (R48): Set if less than, signed. -/
  | slt (e : Engine) (d a b : Reg)
  /-- SLTU (R48): Set if less than, unsigned. -/
  | sltu (e : Engine) (d a b : Reg)
  /-- MIN (R48): Signed minimum. -/
  | min (e : Engine) (d a b : Reg)
  /-- MAX (R48): Signed maximum. -/
  | max (e : Engine) (d a b : Reg)
  /-- MINU (R48): Unsigned minimum. -/
  | minu (e : Engine) (d a b : Reg)
  /-- MAXU (R48): Unsigned maximum. -/
  | maxu (e : Engine) (d a b : Reg)
  /-- ADDW (R48): 32-bit add, sign-extended. -/
  | addw (e : Engine) (d a b : Reg)
  /-- SUBW (R48): 32-bit subtract, sign-extended. -/
  | subw (e : Engine) (d a b : Reg)
  /-- CLZ (R48): Count leading zeros. -/
  | clz (e : Engine) (d a : Reg)
  /-- CTZ (R48): Count trailing zeros. -/
  | ctz (e : Engine) (d a : Reg)
  /-- POPC (R48): Count set bits. -/
  | popc (e : Engine) (d a : Reg)
  /-- BSWAP (R48): Reverse byte order. -/
  | bswap (e : Engine) (d a : Reg)
  /-- SEL (R48): Select a or b by c. -/
  | sel (e : Engine) (d a b c : Reg)
  /-- MUL (R48): Low product. -/
  | mul (e : Engine) (d a b : Reg)
  /-- MULH (R48): High signed product. -/
  | mulh (e : Engine) (d a b : Reg)
  /-- MULHU (R48): High unsigned product. -/
  | mulhu (e : Engine) (d a b : Reg)
  /-- MULW (R48): 32-bit product, sign-extended. -/
  | mulw (e : Engine) (d a b : Reg)
  /-- DIV (R48): Signed quotient, never trapping. -/
  | div (e : Engine) (d a b : Reg)
  /-- DIVU (R48): Unsigned quotient, never trapping. -/
  | divu (e : Engine) (d a b : Reg)
  /-- REM (R48): Signed remainder. -/
  | rem (e : Engine) (d a b : Reg)
  /-- REMU (R48): Unsigned remainder. -/
  | remu (e : Engine) (d a b : Reg)
  /-- MADD (R48): Multiply-add, low 64 bits. -/
  | madd (e : Engine) (d a b c : Reg)
  /-- FADD (R49): Binary64 add. -/
  | fadd (e : Engine) (d a b : Reg)
  /-- FSUB (R49): Binary64 subtract. -/
  | fsub (e : Engine) (d a b : Reg)
  /-- FMUL (R49): Binary64 multiply. -/
  | fmul (e : Engine) (d a b : Reg)
  /-- FDIV (R49): Binary64 divide. -/
  | fdiv (e : Engine) (d a b : Reg)
  /-- FSQRT (R49): Binary64 square root. -/
  | fsqrt (e : Engine) (d a : Reg)
  /-- FMADD (R49): Fused multiply-add. -/
  | fmadd (e : Engine) (d a b c : Reg)
  /-- FMSUB (R49): Fused multiply-subtract. -/
  | fmsub (e : Engine) (d a b c : Reg)
  /-- FNMADD (R49): Negated fused multiply-add. -/
  | fnmadd (e : Engine) (d a b c : Reg)
  /-- FMIN (R49): Floating minimum. -/
  | fmin (e : Engine) (d a b : Reg)
  /-- FMAX (R49): Floating maximum. -/
  | fmax (e : Engine) (d a b : Reg)
  /-- FEQ (R49): Floating equal compare. -/
  | feq (e : Engine) (d a b : Reg)
  /-- FLT (R49): Floating less-than compare. -/
  | flt (e : Engine) (d a b : Reg)
  /-- FLE (R49): Floating less-or-equal compare. -/
  | fle (e : Engine) (d a b : Reg)
  /-- FCLASS (R49): One-hot class of a value. -/
  | fclass (e : Engine) (d a : Reg)
  /-- FITOD (R49): Signed integer to binary64. -/
  | fitod (e : Engine) (d a : Reg)
  /-- FUTOD (R49): Unsigned integer to binary64. -/
  | futod (e : Engine) (d a : Reg)
  /-- FDTOI (R49): Binary64 to signed integer, saturating. -/
  | fdtoi (e : Engine) (d a : Reg)
  /-- FDTOU (R49): Binary64 to unsigned integer, saturating. -/
  | fdtou (e : Engine) (d a : Reg)
  /-- FMVGF (R49): Bit copy from f to g. -/
  | fmvgf (e : Engine) (d a : Reg)
  /-- FMVFG (R49): Bit copy from g to f. -/
  | fmvfg (e : Engine) (d a : Reg)
  /-- FNEG (R49): Negate sign. -/
  | fneg (e : Engine) (d a : Reg)
  /-- FABS (R49): Clear sign. -/
  | fabs (e : Engine) (d a : Reg)
  /-- ADDI (R48): Add immediate. -/
  | addi (e : Engine) (d a : Reg) (imm : BitVec 16)
  /-- ANDI (R48): And zero-extended immediate. -/
  | andi (e : Engine) (d a : Reg) (imm : BitVec 16)
  /-- ORI (R48): Or zero-extended immediate. -/
  | ori (e : Engine) (d a : Reg) (imm : BitVec 16)
  /-- XORI (R48): Exclusive or zero-extended immediate. -/
  | xori (e : Engine) (d a : Reg) (imm : BitVec 16)
  /-- SLTI (R48): Set if less than immediate, signed. -/
  | slti (e : Engine) (d a : Reg) (imm : BitVec 16)
  /-- SLTUI (R48): Set if less than immediate, unsigned. -/
  | sltui (e : Engine) (d a : Reg) (imm : BitVec 16)
  /-- LUI (R46): Load sign-extended immediate shifted left 16. -/
  | lui (e : Engine) (d : Reg) (imm : BitVec 16)
  /-- SLLI (R48): Shift left logical by immediate. -/
  | slli (e : Engine) (d a : Reg) (imm : BitVec 16)
  /-- SRLI (R48): Shift right logical by immediate. -/
  | srli (e : Engine) (d a : Reg) (imm : BitVec 16)
  /-- SRAI (R48): Shift right arithmetic by immediate. -/
  | srai (e : Engine) (d a : Reg) (imm : BitVec 16)
  /-- LB (R50): Load byte, sign-extended. -/
  | lb (e : Engine) (d a : Reg) (imm : BitVec 16)
  /-- LH (R50): Load halfword, sign-extended. -/
  | lh (e : Engine) (d a : Reg) (imm : BitVec 16)
  /-- LW (R50): Load word, sign-extended. -/
  | lw (e : Engine) (d a : Reg) (imm : BitVec 16)
  /-- LD (R50): Load doubleword. -/
  | ld (e : Engine) (d a : Reg) (imm : BitVec 16)
  /-- LBU (R50): Load byte, zero-extended. -/
  | lbu (e : Engine) (d a : Reg) (imm : BitVec 16)
  /-- LHU (R50): Load halfword, zero-extended. -/
  | lhu (e : Engine) (d a : Reg) (imm : BitVec 16)
  /-- LWU (R50): Load word, zero-extended. -/
  | lwu (e : Engine) (d a : Reg) (imm : BitVec 16)
  /-- FLD (R50): Load binary64 into an f register. -/
  | fld (e : Engine) (d a : Reg) (imm : BitVec 16)
  /-- SB (R53): Store byte. -/
  | sb (e : Engine) (d a : Reg) (imm : BitVec 16)
  /-- SH (R53): Store halfword. -/
  | sh (e : Engine) (d a : Reg) (imm : BitVec 16)
  /-- SW (R53): Store word. -/
  | sw (e : Engine) (d a : Reg) (imm : BitVec 16)
  /-- SD (R53): Store doubleword. -/
  | sd (e : Engine) (d a : Reg) (imm : BitVec 16)
  /-- FSD (R53): Store an f register. -/
  | fsd (e : Engine) (d a : Reg) (imm : BitVec 16)
  /-- BEQ (R46): Branch if equal. -/
  | beq (e : Engine) (a b : Reg) (off : BitVec 16)
  /-- BNE (R46): Branch if not equal. -/
  | bne (e : Engine) (a b : Reg) (off : BitVec 16)
  /-- BLT (R46): Branch if less, signed. -/
  | blt (e : Engine) (a b : Reg) (off : BitVec 16)
  /-- BGE (R46): Branch if greater or equal, signed. -/
  | bge (e : Engine) (a b : Reg) (off : BitVec 16)
  /-- BLTU (R46): Branch if less, unsigned. -/
  | bltu (e : Engine) (a b : Reg) (off : BitVec 16)
  /-- BGEU (R46): Branch if greater or equal, unsigned. -/
  | bgeu (e : Engine) (a b : Reg) (off : BitVec 16)
  /-- J (R46): Jump. -/
  | j (e : Engine) (off : BitVec 26)
  /-- JAL (R46): Jump and link to g31. -/
  | jal (e : Engine) (off : BitVec 26)
  /-- JALR (R46): Jump to register plus immediate and link. -/
  | jalr (e : Engine) (d a : Reg) (imm : BitVec 16)
  /-- LLD (R50): Load with a reservation on the line. -/
  | lld (e : Engine) (d a : Reg)
  /-- SCD (R50): Store if the reservation holds. -/
  | scd (e : Engine) (d a b : Reg)
  /-- AMOADD (R50): Atomic fetch and add. -/
  | amoadd (e : Engine) (d a b : Reg)
  /-- AMOSWP (R50): Atomic swap. -/
  | amoswp (e : Engine) (d a b : Reg)
  /-- AMOCAS (R50): Atomic compare and swap. -/
  | amocas (e : Engine) (d a b c : Reg)
  /-- MBSEND (R61): Copies 64 bytes into a mailbox. -/
  | mbsend (e : Engine) (d a b : Reg)
  /-- MBRECV (R60): Moves the oldest message of a mailbox to memory. -/
  | mbrecv (e : Engine) (d a b : Reg)
  /-- MBWAIT (R66): Waits until a mailbox is not empty. -/
  | mbwait (e : Engine) (a : Reg)
  /-- MBSTAT (R61): Returns mailbox occupancy and discarded count. -/
  | mbstat (e : Engine) (d a : Reg)
  /-- QPUSH (R62): Pushes an item onto a queue unit. -/
  | qpush (e : Engine) (d a b c : Reg)
  /-- QPOP (R60): Pops the oldest item of a queue unit. -/
  | qpop (e : Engine) (d a b : Reg)
  /-- QWAIT (R66): Waits until a queue is not empty. -/
  | qwait (e : Engine) (a : Reg)
  /-- QSTAT (R60): Returns a queue's fill and flags. -/
  | qstat (e : Engine) (d a : Reg)
  /-- CHRD (R58): Reads a Chest location. -/
  | chrd (e : Engine) (d a : Reg)
  /-- CHWR (R58): Queues a Chest write. -/
  | chwr (e : Engine) (a b : Reg)
  /-- CHSYNC (R58): Waits until the core's earlier Chest writes are durable. -/
  | chsync (e : Engine)
  /-- KLOAD (R349): Unwraps a blob into a key slot. -/
  | kload (e : Engine) (d a b : Reg)
  /-- KOP (R357): Submits a Keywell job descriptor. -/
  | kop (e : Engine) (d a : Reg)
  /-- KWAIT (R357): Waits for a Keywell job and returns its result. -/
  | kwait (e : Engine) (d a : Reg)
  /-- KRAND (R358): Returns 64 bits from the DRBG. -/
  | krand (e : Engine) (d : Reg)
  /-- KFREE (R350): Empties a key slot not in use. -/
  | kfree (e : Engine) (a : Reg)
  /-- KGEN (R351): Raises the generation of a WRAP key, emptying doomed slots. -/
  | kgen (e : Engine) (d a : Reg)
  /-- BRING (R59): Rings the Bell with HALT, BRAKE or RELEASE. -/
  | bring (e : Engine) (d a : Reg)
  /-- BSTAT (R59): Returns the Bell stop state. -/
  | bstat (e : Engine) (d : Reg)
  /-- CLMRD (R59): Returns the claim this unit holds. -/
  | clmrd (e : Engine) (d : Reg)
  /-- CLMSEEN (R330): Returns the highest claim this unit has seen. -/
  | clmseen (e : Engine) (d : Reg)
  /-- CLMNEXT (R329): Takes and makes durable this unit's next claim number. -/
  | clmnext (e : Engine) (d : Reg)
  /-- HEALTH_CONFIRM (R378): Confirms the trial bundle when its conditions hold. -/
  | healthConfirm (e : Engine) (d : Reg)
  /-- IMGLOAD (R373): Loads an image of the running bundle into its targets. -/
  | imgload (e : Engine) (d a : Reg)
  /-- ERASE (R374): Erases part of STAGE. -/
  | erase (e : Engine) (d a : Reg)
  /-- WRITE (R374): Programs part of STAGE. -/
  | write (e : Engine) (d a : Reg)
  /-- COMMIT (R374): Checks STAGE and sets STATE PENDING. -/
  | commit (e : Engine) (d a : Reg)
  /-- UNCOMMIT (R374): Returns PENDING to FALLBACK or CONFIRMED. -/
  | uncommit (e : Engine) (d a : Reg)
  /-- WRGOLD (R374): Programs the directory or GOLDEN. -/
  | wrgold (e : Engine) (d a : Reg)
  /-- LOCKGOLD (R374): Checks and locks GOLDEN. -/
  | lockgold (e : Engine) (d a : Reg)
  /-- DATA (R374): Programs the data area. -/
  | data (e : Engine) (d a : Reg)
  /-- IDENT (R374): Writes PAIRID and IDENT once. -/
  | ident (e : Engine) (d a : Reg)
  /-- FENCE (R52): Orders memory accesses between cores. -/
  | fence (e : Engine)
  /-- FENCEIO (R52): Orders memory against control word, Chest, mailbox and queue instructions. -/
  | fenceio (e : Engine)
  /-- DCFLUSH (R52): Writes back a data cache line. -/
  | dcflush (e : Engine) (a : Reg)
  /-- DCINV (R52): Invalidates a data cache line. -/
  | dcinv (e : Engine) (a : Reg)
  /-- ICINV (R52): Invalidates the core's instruction cache. -/
  | icinv (e : Engine)
  /-- MFC (R42): Reads a core word. -/
  | mfc (e : Engine) (d : Reg) (idx : BitVec 5)
  /-- MTC (R42): Writes a core word. -/
  | mtc (e : Engine) (a : Reg) (idx : BitVec 5)
  /-- TRAP (R63): Enters the top level with cause 0x09. -/
  | trap (e : Engine) (code : BitVec 5)
  /-- ERET (R63): Returns from an exception. -/
  | eret (e : Engine)
  /-- WFI (R64): Waits for a pending enabled interrupt. -/
  | wfi (e : Engine)
  /-- BRK (R360): Breakpoint, handled by the debug state. -/
  | brk (e : Engine)
  /-- TAKE (R75): Retires the item in service and waits for the next dispatch. -/
  | take (e : Engine) (d : Reg)
  /-- EMIT (R77): Buffers a token for a destination. -/
  | emit (e : Engine) (a b : Reg)
  /-- CANCEL (R75): Buffers a cancel of an item. -/
  | cancel (e : Engine) (a : Reg)
  /-- RCLAIM (R79): Submits a request to the Reeve's claim port. -/
  | rclaim (e : Engine) (d a b c : Reg)
  /-- ABANDON (R78): Ends the item in service as abandoned. -/
  | abandon (e : Engine)
  /-- NODE_OVERTIME (R78): An item runs past its class time limit and is abandoned. -/
  | nodeOvertime (e : Fin 24)
  /-- ARM (R82): Arms a timed action in a sequencer slot. -/
  | arm (e : Engine) (d a b : Reg)
  /-- DISARM (R82): Disarms an action slot. -/
  | disarm (e : Engine) (d a : Reg)
  /-- WAITT (R86): Waits until a TNOW time. -/
  | waitt (e : Engine) (a : Reg)
  /-- WAITE (R86): Waits for an event or a timeout. -/
  | waite (e : Engine) (d a b : Reg)
  /-- XGET (R88): Starts a copy from memory to DMEM. -/
  | xget (e : Engine) (d a b c : Reg)
  /-- XPUT (R88): Starts a copy from DMEM to memory. -/
  | xput (e : Engine) (d a b c : Reg)
  /-- XWAIT (R88): Waits until a transfer completes. -/
  | xwait (e : Engine) (a : Reg)
  /-- ADDS (R80): Saturating add. -/
  | adds (e : Engine) (d a b : Reg)
  /-- SUBS (R80): Saturating subtract. -/
  | subs (e : Engine) (d a b : Reg)
  /-- SHRR (R80): Rounded arithmetic shift right. -/
  | shrr (e : Engine) (d a b : Reg)
  /-- MULQ (R80): Rounded saturating scaled product. -/
  | mulq (e : Engine) (d a b c : Reg)
  /-- PHASE (R80): atan2 in units of 2^-32 cycle. -/
  | phase (e : Engine) (d a b : Reg)
  /-- MAG (R80): Magnitude of a complex value. -/
  | mag (e : Engine) (d a b : Reg)
  /-- NCOW (R89): Stages carrier and code rates of a channel. -/
  | ncow (e : Engine) (a b c : Reg)
  /-- CHCFG (R141): Stages a channel configuration and reserves its lanes. -/
  | chcfg (e : Engine) (d a b : Reg)
  /-- DUMP (R90): Moves the oldest dump record to DMEM. -/
  | dump (e : Engine) (d a : Reg)
  /-- TXLOAD (R84): Copies a frame from DMEM into a TX buffer. -/
  | txload (e : Engine) (d a b c : Reg)
  /-- RXGET (R235): Moves the oldest received frame to DMEM. -/
  | rxget (e : Engine) (d a : Reg)
  /-- QSEQ_RUNAWAY (R86): A sequencer runs 2^20 instructions without a wait and halts. -/
  | qseqRunaway (q : Fin 8)
  /-- ACTION_FIRE (R82): An armed action reaches its clock and fires in hardware. -/
  | actionFire (q slot : Fin 8) (rssi : Int)
  /-- XFER_COMPLETE (R88): A sequencer transfer completes and sets its event. -/
  | xferComplete (q : Fin 8)
  /-- CHANNEL_DUMP (R144): A running channel ends an integration and delivers a dump. -/
  | channelDump (a : Fin 4) (slot : Fin 384) (preamble : Option Bool) (sync : SyncFound)
  /-- RETIRE_ACCEPTED (R95): The scheduler accepts a retire, checks its tokens and applies cancels and tokens. -/
  | retireAccepted (e : Fin 24) (same : List (Fin 24))
  /-- PARKED_RELEASE (R101): A parked retire or hole is released in SEQ order, one per clock. -/
  | parkedRelease (flow : Fin 1024)
  /-- HOLE_RELEASE (R104): NEXT_REL reaches a hole, which is released. -/
  | holeRelease (flow : Fin 1024)
  /-- ENGFAIL_CLEAR (R106): Writing 1 to an ENGFAIL bit returns the engine to dispatch. -/
  | engfailClear (e : Fin 24)
  /-- DISPATCH (R97): The scheduler dispatches the first dispatchable item to a waiting engine. -/
  | dispatch (e : Fin 24)
  /-- INJECT_DOORBELL (R108): The Mill reads the injection ring and accepts entries as tokens. -/
  | injectDoorbell
  /-- INJECT_RESUME (R108): A stalled injection resumes once the entry fits. -/
  | injectResume
  /-- MILL_CUT_START (R109): LEAD_US before the freeze the Mill pauses and writes its cut. -/
  | millCutStart
  /-- MILL_CUT_DONE (R109): The cut's last byte is written and the Mill resumes. -/
  | millCutDone
  /-- MILL_RESTORE (R110): RESTORE on a stopped Mill starts loading the cut. -/
  | millRestore
  /-- MILL_RESTORE_DONE (R110): The restore ends with the cut loaded or the store empty. -/
  | millRestoreDone
  /-- MILL_RUN (R112): RUN starts the Mill and requests engine islands. -/
  | millRun
  /-- MILL_STOP (R113): STOP stops dispatch. -/
  | millStop
  /-- MILL_HWRESET (R96): HWRESET sets STORE.HIGH to STORE.INUSE. -/
  | millHwreset
  /-- ANTENNA_ALIGN (R118): ALIGN starts lane alignment of an antenna. -/
  | antennaAlign (a : Fin 4)
  /-- ALIGN_DONE (R118): Alignment completes as ALIGNED or FAILED. -/
  | alignDone (a : Fin 4) (pattern : Bool) (eye : Nat)
  /-- ANTENNA_RUN (R119): RUN on an aligned antenna starts streams at the next whole millisecond. -/
  | antennaRun (a : Fin 4)
  /-- ANTENNA_STOP (R119): STOP returns an antenna to STOPPED. -/
  | antennaStop (a : Fin 4)
  /-- LANE_LOST (R119): No lane clock edge for 0.5 µs sends the antenna to LOST. -/
  | laneLost (a : Fin 4)
  /-- LANE_SLIP (R119): A stream fill departing from DEPTH by over 16 samples re-centres; the bytes its unit then holds, oldest first. -/
  | laneSlip (st : Fin 12) (codes : List Byte)
  /-- PULSE_BLANK (R123): A window with THRESH hot samples is blanked; the bytes that arrived on the stream's lanes since its last command. -/
  | pulseBlank (st : Fin 12) (codes : List Byte)
  /-- MS_BOUNDARY (R132): At each millisecond GNSSIN applies, steps AGC and releases and engages notches; for each stream the bytes that
  arrived on its lanes since its last command. -/
  | msBoundary (codes : List (List Byte))
  /-- AGC_PERIOD_END (R128): At the end of an AGC period the gain steps by F; the bytes that arrived since the stream's last command. -/
  | agcPeriodEnd (st : Fin 12) (codes : List Byte)
  /-- SPECTRUM_PUBLISH (R124): 50 µs after a millisecond its flatness and median are published. -/
  | spectrumPublish (st : Fin 12)
  /-- AGC_LEARN (R124): LEARN starts averaging the raw spectra for 10,000 ms. -/
  | agcLearn (st : Fin 12)
  /-- LEARN_DONE (R124): The learned average becomes the reference spectrum. -/
  | learnDone (st : Fin 12)
  /-- GRINDER_RUN (R138): RUN starts the Grinder. -/
  | grinderRun
  /-- GRINDER_STOP (R138): STOP sends the Grinder to STOPPING. -/
  | grinderStop
  /-- GRINDER_DOORBELL (R134): The Grinder reads PUT and takes search descriptors. -/
  | grinderDoorbell
  /-- SEARCH_TAKE (R135): An engine takes the next search, with URGENT and REUSE rules. -/
  | searchTake (e : Fin 2)
  /-- CAPTURE_START (R135): A capture starts at the first whole millisecond after taking a search. -/
  | captureStart (e : Fin 2)
  /-- CAPTURE_END (R135): A capture ends after TCOH × NNC ms. -/
  | captureEnd (e : Fin 2)
  /-- SEARCH_DONE (R136): The correlation search ends and its result is written. -/
  | searchDone (e : Fin 2) (peak : SearchPeak)
  /-- RESULT_RESUME (R137): Room in the result ring lets a held result be written. -/
  | resultResume (e : Fin 2)
  /-- CORREL_RUN (R166): RUN starts a correlator quadrant. -/
  | correlRun (a : Fin 4)
  /-- CORREL_STOP (R166): STOP frees every channel of a quadrant. -/
  | correlStop (a : Fin 4)
  /-- CALNOW (R146): CALNOW starts a calibration pass at once. -/
  | calnow
  /-- CAL_PASS_START (R146): Every INTERVAL_S a calibration pass starts. -/
  | calPassStart (a : Fin 4)
  /-- CAL_PASS_DONE (R146): A complete pass updates CALDLY and CALSTAT. -/
  | calPassDone (a : Fin 4) (d0 d1 : BitVec 16) (spread : BitVec 8)
  /-- CAL_PASS_DISCARD (R146): A pass paused over 1 s is discarded. -/
  | calPassDiscard (a : Fin 4)
  /-- CAL_STALE (R146): AGE_S exceeds 10 × INTERVAL_S. -/
  | calStale (a : Fin 4)
  /-- GSEQ_START (R167): START runs a GNSS sequencer with its BOOTARG. -/
  | gseqStart (a : Fin 4)
  /-- GSEQ_HALT (R167): HALT halts a GNSS sequencer as a fault halt. -/
  | gseqHalt (a : Fin 4)
  /-- TRACK_START (R150): A START command puts a free channel into PULLIN from a Grinder result. -/
  | trackStart (a : Fin 4)
  /-- TRACK_ASSIST (R150): An ASSIST command starts a channel from a companion in PLL. -/
  | trackAssist (a : Fin 4)
  /-- TRACK_STOP (R150): A STOP command frees a channel. -/
  | trackStop (a : Fin 4)
  /-- CHANNEL_PLL_LOCK (R151): Lock at or above LOCK_THR for 20 ms moves a channel to PLL. -/
  | channelPllLock (a : Fin 4) (slot : Fin 384)
  /-- PULLIN_EXPIRED (R151): PULLIN_MS elapses, moving the channel to FLL or FREE. -/
  | pullinExpired (a : Fin 4) (slot : Fin 384) (strong : Bool)
  /-- CHANNEL_LOSS (R151): C/N0 below LOSS_CN0 for 100 ms in FLL frees the channel. -/
  | channelLoss (a : Fin 4) (slot : Fin 384)
  /-- PLL_TO_COAST (R151): C/N0 below LOSS_CN0 for 20 ms in PLL moves to COAST. -/
  | pllToCoast (a : Fin 4) (slot : Fin 384)
  /-- PLL_TO_FLL (R151): Lock below LOCK_THR for 20 ms moves PLL to FLL. -/
  | pllToFll (a : Fin 4) (slot : Fin 384)
  /-- COAST_TO_PULLIN (R151): C/N0 recovers for 20 ms in COAST. -/
  | coastToPullin (a : Fin 4) (slot : Fin 384)
  /-- COAST_EXPIRED (R151): COAST_MS elapses and the channel is freed. -/
  | coastExpired (a : Fin 4) (slot : Fin 384)
  /-- MEAS_LATE (R155): A block incomplete at 1.950 ms is written with COUNT 0 and LATE. -/
  | measLate (a : Fin 4)
  /-- CLOCK_SOLUTION (R159): Each epoch the clock solution is solved and qualified or not. -/
  | clockSolution (tsb : List Byte) (sol : ClockSol)
  /-- HOLDOVER_ENTER (R160): The 100th consecutive unqualified epoch enters HOLDOVER. -/
  | holdoverEnter
  /-- HOLDOVER_OUT_OF_LIMIT (R161): Holdover uncertainty exceeds HO_LIMIT_NS. -/
  | holdoverOutOfLimit
  /-- REACQUIRE_DECISION (R162): At the 100th qualified epoch the offset is slewed or stepped. -/
  | reacquireDecision
  /-- FIRST_DECISION (R164): The first decision from FREERUN feeds SET and STEP to the servo. -/
  | firstDecision
  /-- TRACKING_ENTER (R160): 1,000 qualified epochs with no slew enter TRACKING. -/
  | trackingEnter
  /-- CORR_OK_SET (R163): The 1,000th qualified epoch sets CORR_OK. -/
  | corrOkSet
  /-- CORRECTION_EPOCH (R171): At a tenth-second boundary the correction graphs compute frames and messages. -/
  | correctionEpoch (sats : List CorrSat) (fix : Option Ecef)
  /-- SURVEY_DONE (R170): Self-survey ends and the mean is fixed as base position. -/
  | surveyDone (sigma : Nat)
  /-- CORR_STALE (R181): CORR_OK clear or 10 short epochs move NORMAL to STALE. -/
  | corrStale
  /-- CORR_STOPPED (R181): STALE_S elapses and the state becomes STOPPED. -/
  | corrStopped
  /-- CORR_RESUMED (R181): The resume condition returns the state to NORMAL. -/
  | corrResumed
  /-- RESIDUAL_REPORT (R184): A residual report is taken into the residual buffer. -/
  | residualReport (payload : List Byte)
  /-- MAP_BATCH (R185): Once per second the map cells are updated from the residuals. -/
  | mapBatch
  /-- CLAIM (R198): A CLAIM request checks its cells and commits them whole. -/
  | claim (same : List (Fin 24))
  /-- RELEASE (R202): A RELEASE request frees HELD entries of a holder. -/
  | release (same : List (Fin 24))
  /-- CONFIRM (R201): CONFIRM frees a revoked holder's REVOKING entries. -/
  | confirm (same : List (Fin 24))
  /-- CLOSE (R203): CLOSE sets a group's run-time closed bit. -/
  | closeGroup (same : List (Fin 24))
  /-- OPEN (R203): OPEN clears a group's run-time closed bit. -/
  | openGroup (same : List (Fin 24))
  /-- TASK_POST (R205): TASK_POST writes a new OPEN task. -/
  | taskPost (same : List (Fin 24))
  /-- AWARD (R207): AWARD assigns a task to a robot after its checks. -/
  | award (same : List (Fin 24))
  /-- TASK_DONE (R208): TASK_DONE makes an ASSIGNED task DONE. -/
  | taskDone (same : List (Fin 24))
  /-- TASK_CANCEL (R208): TASK_CANCEL makes a task CANCELLED. -/
  | taskCancel (same : List (Fin 24))
  /-- REEVE_LOAD (R191): LOAD reads the lane graph. -/
  | reeveLoad
  /-- GRAPH_LOAD_DONE (R191): The graph check completes with GRAPH_OK or GRAPH_INVALID. -/
  | graphLoadDone
  /-- REEVE_RESTORE (R214): RESTORE loads the Reeve state from the mirror. -/
  | reeveRestore
  /-- REEVE_RESTORE_DONE (R214): The mirror restore completes. -/
  | reeveRestoreDone
  /-- REEVE_RUN (R215): RUN starts the Reeve. -/
  | reeveRun
  /-- REEVE_STOP (R215): STOP sends the Reeve to STOPPING. -/
  | reeveStop
  /-- REEVE_CLEAR (R215): CLEAR empties the Reeve's tables. -/
  | reeveClear
  /-- RADIO_RUN (R249): RUN checks a port's groups, reads the transceiver and starts slot timing. -/
  | radioRun (n : Fin 4) (discards : BitVec 8)
  /-- XCVR_NO_RESPONSE (R249): No STATUS answer within 100 µs sends the port to FAILED. -/
  | xcvrNoResponse (n : Fin 4)
  /-- RADIO_STOP (R249): STOP ends slot timing and disarms the port's actions. -/
  | radioStop (n : Fin 4)
  /-- PORT_TXLOAD (R218): The port loads a frame into the transceiver, writing CYCLE and MIC. -/
  | portTxload (n : Fin 4) (buf : Fin 4)
  /-- PORT_SETCH (R231): The port retunes with SETCH before a span on another channel. -/
  | portSetch (n : Fin 4) (dest : Option (Fin 1024)) (next : Bool)
  /-- LBT_RETRY (R243): After a random deferral the CCA is measured again. -/
  | lbtRetry (n : Fin 4) (rssi : Int)
  /-- TX_COMPLETE (R245): A TX action's outcome is written and its event set. -/
  | txComplete (n : Fin 4)
  /-- RXTS_RISE (R218): RXTS rises and the port latches TNOW. -/
  | rxtsRise (n : Fin 4) (off : Nat)
  /-- RXTS_FALL (R218): RXTS falls and the port issues RXREAD. -/
  | rxtsFall (n : Fin 4) (frame : List Byte) (rssi : BitVec 8) (fcs : Bool)
  /-- FRAME_RECEIVE (R235): A read frame is checked and delivered or dropped. -/
  | frameReceive (n : Fin 4)
  /-- NBRSET (R230): GO requests a neighbour entry update from a staging line. -/
  | nbrset (index : Fin 1024) (line : Fin 8)
  /-- NBRSET_APPLY (R230): At the next slot boundary the image is checked and written. -/
  | nbrsetApply
  /-- SUPERVISION_LOST (R233): No frame for SUPTO cycles sends an entry to LOST. -/
  | supervisionLost (i : Fin 1024)
  /-- HELD_FRAME_EXPIRE (R239): A held frame older than PEND_S is discarded. -/
  | heldFrameExpire (n : Fin 4) (i : Nat)
  /-- BELL_RUN (R276): RUN starts the Bell in STARTUP. -/
  | bellRun
  /-- ESTOP_CHANNEL_OPEN (R253): A channel read open for FILT_US latches its input. -/
  | estopChannelOpen (n : Fin 4) (chanB : Bool)
  /-- ESTOP_TEST_PULSE (R254): Every TPER_MS a test output drops low for TP_US. -/
  | estopTestPulse (n : Fin 4) (chanB : Bool) (readHigh : Bool)
  /-- ESTOP_DISCREPANCY (R255): One channel open longer than DISC_MS sets DISCREP. -/
  | estopDiscrepancy (n : Fin 4)
  /-- ESTSTAT_CLEAR (R255): Writing 1 clears a TESTFAIL or DISCREP bit. -/
  | eststatClear (testfail : BitVec 4) (discrep : BitVec 4)
  /-- STOP_COMMAND (R256): The decoder checks a stop command and latches it. -/
  | stopCommand
  /-- RELEASE_COUNT_DURABLE (R256): A RELEASE command takes effect once its count is durable. -/
  | releaseCountDurable
  /-- PARTNER_RELEASE_MSG (R258): A partner's release message is tested against local sources. -/
  | partnerReleaseMsg
  /-- PARTNER_REPORT_SEND (R259): The local class is sent to the partner every 500 µs or on change. -/
  | partnerReportSend
  /-- PARTNER_REPORT (R259): A partner report replaces the partner term. -/
  | partnerReport (cls : Fin 3)
  /-- PARTNER_REPORT_LOST (R259): No report for 3 ms freezes the partner term. -/
  | partnerReportLost
  /-- BELL_WINDOW (R260): At a Bell window the Bell sends its frame on each port. -/
  | bellWindow (k : Fin 5) (rssi : List Int)
  /-- BELL_CCA_RETRY (R266): Every BO_US within BRETRY_US the Bell measures CCA again. -/
  | bellCcaRetry (port : Fin 4) (rssi : Int)
  /-- SECOND_VOICE (R273): At SECOND_US the other unit sends if no good first-voice frame was heard. -/
  | secondVoice (port : Fin 4) (rssi : Int) (heard : List Byte)
  /-- BELL_ACK (R270): A robot acknowledgement is checked and clears its owed bit. -/
  | bellAck (port : Fin 4) (frame : List Byte) (off : Nat)
  /-- ACK_OVERDUE (R271): A robot still owed 35 ms into the episode raises 0x2483. -/
  | ackOverdue
  /-- QUEUE_ENABLE (R289): ENABLE checks the layout and starts a general unit. -/
  | queueEnable (q : Fin 48)
  /-- QUEUE_DISABLE (R289): DISABLE makes the write side refuse new items. -/
  | queueDisable (q : Fin 48)
  /-- QUEUE_FLUSH (R289): FLUSH empties a disabled unit. -/
  | queueFlush (q : Fin 48)
  /-- MARKER_CLOSE (R283): 1 µs after the first drop the marker is closed and stored. -/
  | markerClose (q : Fin 48)
  /-- QUEUE_ITEM_VISIBLE (R279): A completed item becomes visible at the read side. -/
  | queueItemVisible (q : Fin 48)
  /-- PRIV_STALL (R285): A privileged write stalled for 100 µs raises 0x2882. -/
  | privStall (q : Fin 48)
  /-- PRIV_WRITE_RESUME (R285): Room frees and a stalled privileged write completes. -/
  | privWriteResume (q : Fin 48)
  /-- MILL_RING_POLL (R288): Every 1 µs the unit takes valid Mill ring entries as pushes. -/
  | millRingPoll (q : Fin 48)
  /-- NET_RUN (R292): RUN trains an Ethernet lane. -/
  | netRun (k : Fin 4)
  /-- SERDES_NO_LOCK (R292): No lock within 10 ms fails the port. -/
  | serdesNoLock (k : Fin 4)
  /-- LINK_UP (R292): A port's link comes up. -/
  | linkUp (k : Fin 4) (speed : Fin 4)
  /-- LINK_DOWN (R292): A port's link is lost. -/
  | linkDown (k : Fin 4)
  /-- NET_STOP (R292): STOP turns a lane off after the frame in progress. -/
  | netStop (k : Fin 4)
  /-- ETH_FRAME_RX (R293): A received frame is stamped and forwarded by class. -/
  | ethFrameRx (k : Fin 4) (frame : List Byte) (fcs : Bool) (sub : Nat) (res : List Nat)
  /-- HUB_FRAME_TX (R294): The switch pops a hub-out item and sends the frame. -/
  | hubFrameTx (gated : Bool) (subs : List Nat)
  /-- TX_TIMESTAMP_RETURN (R295): After a TSREQ frame leaves, a KIND 2 item is pushed to IN. -/
  | txTimestampReturn
  /-- TIME_FEED (R305): FEED makes the servo take feed ring entries. -/
  | timeFeed
  /-- FEED_MEAS (R306): A MEAS entry runs the PI law. -/
  | feedMeas
  /-- FEED_SLEW (R307): A SLEW entry adds to the slew remainder. -/
  | feedSlew
  /-- FEED_STEP (R308): A STEP entry adds to the step remainder. -/
  | feedStep
  /-- FEED_HOLD (R306): A HOLD entry moves the servo to HOLD. -/
  | feedHold
  /-- FEED_SET (R309): A SET entry schedules a counter load at the next whole second. -/
  | feedSet
  /-- SET_LOAD (R309): At the next whole second the counter is loaded and the servo goes FREE. -/
  | setLoad
  /-- FEED_TIMEOUT (R305): No accepted MEAS for FEED_TO_MS moves TRACK to HOLD. -/
  | feedTimeout
  /-- SLEW_COMPLETE (R307): The slew remainder reaches 0. -/
  | slewComplete
  /-- TIME_SNAP (R304): SNAP latches the counter. -/
  | timeSnap
  /-- PLINK_RUN (R316): RUN trains the pair link lanes. -/
  | plinkRun
  /-- PLINK_STOP (R316): STOP takes the pair link down. -/
  | plinkStop
  /-- LINK_TRAIN_DONE (R316): Both lanes lock and the link is UP. -/
  | linkTrainDone
  /-- LANE_DEGRADED (R316): One lane loses lock and the link runs on one lane. -/
  | laneDegraded
  /-- PLINK_LINK_DOWN (R316): Both lanes unlock and the link is DOWN. -/
  | plinkLinkDown
  /-- CREDIT_RETURN (R317): The receive side returns in-unit credits. -/
  | creditReturn (unit : Fin 48) (blocks : Nat)
  /-- ALIVE (R318): The kernel refreshes ALIVE, permitting heartbeats and HELLOs. -/
  | alive
  /-- HEARTBEAT_SEND (R318): Every 500 µs a HEARTBEAT is sent. -/
  | heartbeatSend
  /-- HEARTBEAT_RECEIVE (R320): A partner heartbeat updates TOFF, SEEN and partner state. -/
  | heartbeatReceive (m : CtlMsg) (t1 : Word) (t4 : Word)
  /-- HEARTBEAT_TIMEOUT (R319): No heartbeat for 3.0 ms declares the partner lost. -/
  | heartbeatTimeout (part : Bool)
  /-- PARTNER_WIRE_FALL (R319): A HOLDING partner's wire falls and loss is declared. -/
  | partnerWireFall (part : Bool)
  /-- PARTNER_WIRE_RISE (R333): The partner's wire rises, releasing a holding stage. -/
  | partnerWireRise (tie : Bool)
  /-- HELLO_SEND (R321): Every 1 ms a HELLO is sent until one is received. -/
  | helloSend
  /-- HELLO_RECEIVE (R321): A HELLO is answered and checked for pairing. -/
  | helloReceive (m : CtlMsg)
  /-- SEEKING_TIMEOUT (R323): START_WAIT_S without HELLO lets a unit go ALONE. -/
  | seekingTimeout
  /-- LEAVE (R488): A LEAVE message moves the standby to SYNCING or the active to ALONE. -/
  | leave (m : CtlMsg)
  /-- HANDBACK_REQ (R339): The active answers a hand-back request with H. -/
  | handbackReq (m : CtlMsg)
  /-- HANDBACK (R339): The preferred unit receives H and prepares the hand-over. -/
  | handback (m : CtlMsg)
  /-- YIELD (R340): YIELD releases the stage and stops heartbeats. -/
  | yield
  /-- YIELD_END (R340): The partner wire rises or 20 ms pass and heartbeats resume. -/
  | yieldEnd
  /-- HOLD (R331): HOLD sets the claim stage PENDING. -/
  | hold
  /-- CLAIM_STAGE_RELEASE (R331): RELEASE releases the stage at once. -/
  | claimStageRelease
  /-- JOURNAL_RECEIVED (R328): The standby checks a received journal and acknowledges it. -/
  | journalReceived (raw : List Byte) (part : Bool)
  /-- JOURNAL_COMMIT_DONE (R328): The journal's runs are written and C advances. -/
  | journalCommitDone
  /-- JOURNAL_ACK_RECEIVED (R34): The active receives the standby's ACK of a journal. -/
  | journalAckReceived (m : CtlMsg)
  /-- TAKEOVER_DECISION (R335): After any commit PLINK decides take-over or SEEKING. -/
  | takeoverDecision
  /-- PAIR_DROPPED (R334): WHMAX withheld cycles send the active to ALONE. -/
  | pairDropped
  /-- INSYNC_STALE (R488): A standby WHMAX cycles behind leaves INSYNC. -/
  | insyncStale
  /-- ENCRYPT (R357): AES encryption job. -/
  | encrypt
  /-- DECRYPT (R357): AES decryption job. -/
  | decrypt
  /-- MAC (R357): CMAC or HMAC job. -/
  | mac
  /-- MACVERIFY (R357): MAC verification job. -/
  | macverify
  /-- HASH (R357): SHA job. -/
  | hash
  /-- SIGN (R357): ECDSA signing job. -/
  | sign
  /-- VERIFY (R357): ECDSA verification job. -/
  | verify
  /-- ECDH (R357): Key agreement job into a slot. -/
  | ecdh
  /-- GENERATE (R348): Generates a key in a slot and writes its blob. -/
  | generate (pairwiseOk : Bool)
  /-- WRAP (R348): Writes the blob of the key in a slot. -/
  | wrap
  /-- IMPORT (R347): Imports a level-1 key wrapped to the DIK. -/
  | importKey
  /-- PUBKEY (R343): Returns a public key, or the DIK with certificate. -/
  | pubkey
  /-- RAND (R358): Returns DRBG bytes. -/
  | rand
  /-- LCNONCE (R344): Returns a life-cycle nonce. -/
  | lcnonce
  /-- LCSTEP (R344): Makes a life-cycle transition through the journal. -/
  | lcstep
  /-- OWNER (R346): Replaces the owner record. -/
  | owner
  /-- KW_JOB_DONE (R357): A Keywell job completes and its result is kept. -/
  | kwJobDone
  /-- KW_PARTNER_UPDATE (R352): A partner generation update is applied and acknowledged. -/
  | kwPartnerUpdate (msg : List Byte) (mic : List Byte) (targets : List (Nat × Word))
  /-- KW_PARTNER_TIMEOUT (R352): No partner ack within 10 ms returns KW_PARTNER_PENDING. -/
  | kwPartnerTimeout
  /-- KW_MERGE (R352): After HELLOs the Keywells exchange and merge generation entries. -/
  | kwMerge (theirs : List (Nat × Word))
  /-- KW_ENTROPY (R358): A failed health test stops the DRBG. -/
  | kwEntropy
  /-- ENTROPY_RETEST (R358): Every 100 ms the start-up test is repeated. -/
  | entropyRetest (ok : Bool)
  /-- DRBG_RESEED (R358): The DRBG reseeds every RESEED_S. -/
  | drbgReseed
  /-- KW_SELFTEST (R359): SELFTEST runs the Keywell's known-answer tests. -/
  | kwSelftest (ok : Bool)
  /-- DEBUG_UNLOCK (R360): A probe token opens debug access. -/
  | debugUnlock (token : List Byte)
  /-- DEBUG_CLOSE (R360): CLOSE closes debug until reset. -/
  | debugClose
  /-- RESET_ASSERT (R366): RESET_N falls and the device resets. -/
  | resetAssert
  /-- RESET_RELEASE (R366): The start sequence runs from RESET_N rise to kernel entry. -/
  | resetRelease (lockstep : Bool) (ok : Bool) (partialFuse : Bool) (copyOk : Bool)
  /-- RECOVERY_MESSAGE (R371): A host message in recovery writes STAGE or commits it. -/
  | recoveryMessage (msg : List Byte)
  /-- BOOT_REQ_DONE (R372): A BOOT request completes and raises source 59. -/
  | bootReqDone
  /-- XCVR_LOAD_FAIL (R373): A transceiver silent 500 ms after firmware fails its load. -/
  | xcvrLoadFail (n : Fin 4)
  /-- CYCSTART (R376): CYCSTART requests fleet cycles from the next whole second. -/
  | cycstart
  /-- CYCLE_START (R376): SYS leaves PRECYCLE for RUNNING at the whole second. -/
  | cycleStart
  /-- BOOT_RESET (R380): RESET restarts the device with the pair rules. -/
  | bootReset
  /-- TRIAL_EXPIRED (R379): An unconfirmed trial reaches its limit and restarts. -/
  | trialExpired
  /-- LOOP_RUN (R401): RUN starts the loop engine. -/
  | loopRun
  /-- LOOP_STOP (R401): STOP stops every slot and drives MANUAL. -/
  | loopStop
  /-- LOOP_RESTORE (R400): RESTORE loads the loop cut. -/
  | loopRestore
  /-- LOOP_SAMPLE (R388): At its sample clock a slot computes its law and drives its sink. -/
  | loopSample (slot : Fin 32)
  /-- LOOP_CUT (R400): At 5.990 ms the loop cut is latched and written. -/
  | loopCut
  /-- SAMPLE_FRAME (R385): A sample port frame is taken. -/
  | sampleFrame (port : Fin 8) (item : SampleItem)
  /-- START_GRANT (R450): The start queue grants a slot, axis or bridge its start. -/
  | startGrant
  /-- AXIS_RUN (R423): RUN starts the axis block with every axis OFF. -/
  | axisRun
  /-- AXIS_BLOCK_STOP (R423): STOP hard-stops every axis and puts it OFF. -/
  | axisBlockStop
  /-- AXIS_RESTORE (R422): RESTORE loads the axis cut. -/
  | axisRestore
  /-- AXIS_ON (R416): ON enters STARTING or returns HALTED to READY. -/
  | axisOn (a : Fin 8)
  /-- AXIS_OFF (R416): OFF ramps if needed, then turns the axis off. -/
  | axisOff (a : Fin 8)
  /-- MOVE (R409): MOVE plans a profile to TGT. -/
  | move (a : Fin 8)
  /-- VEL (R409): VEL ramps to VTGT. -/
  | vel (a : Fin 8)
  /-- HOME (R414): HOME starts the homing search. -/
  | home (a : Fin 8)
  /-- AXIS_STOP (R416): STOP ramps the axis to standstill. -/
  | axisStop (a : Fin 8)
  /-- SETPOS (R416): SETPOS sets POS and HOMED. -/
  | setpos (a : Fin 8)
  /-- QSTOP (R419): QSTOP ramps an axis at LDEC to HALTED at once. -/
  | qstop (a : Fin 8)
  /-- COARSE_STEP (R409): The generator emits a coarse step as planned position crosses a full step. -/
  | coarseStep (a : Fin 8)
  /-- MICROSTEP_ISSUE (R407): Due microsteps are issued at a PWM period start. -/
  | microstepIssue (a : Fin 8)
  /-- STEP_EDGE (R408): An external STEP edge is one coarse step; it comes `wait` CTRL clocks from now. -/
  | stepEdge (a : Fin 8) (dirHigh : Bool) (wait : Nat)
  /-- LIMIT_STOP (R413): The limit in the direction of motion becomes active and the axis stops. -/
  | limitStop (a : Fin 8)
  /-- HOME_EDGE (R414): The valid home edge latches POS and disarms the source. -/
  | homeEdge (a : Fin 8)
  /-- AXIS_STANDSTILL (R409): A ramp ends at standstill and the axis state settles. -/
  | axisStandstill (a : Fin 8)
  /-- AXIS_CUT (R422): At 5.990 ms the axis cut is latched and written. -/
  | axisCut
  /-- TALLY_RUN (R435): RUN loads totals and starts metering. -/
  | tallyRun
  /-- TALLY_STOP (R435): STOP closes the interval, saves and stops. -/
  | tallyStop
  /-- TALLY_CLEAR (R436): CLEAR zeroes the masked channels' totals. -/
  | tallyClear
  /-- TALLY_SNAP (R437): SNAP latches snapshot counters. -/
  | tallySnap
  /-- INTERVAL_END (R427): A metering interval ends, results are computed, energy accumulated and a save started. -/
  | intervalEnd
  /-- TALLY_SAVE_DONE (R433): A save completes and SAVES advances. -/
  | tallySaveDone
  /-- FLUSH_DONE (R434): The flush row is durable and FLUSHED is set. -/
  | flushDone
  /-- POWER_SEQUENCE_START (R441): With always-on rails good for 1 ms the Kettle begins sequencing rails. -/
  | powerSequenceStart
  /-- RAIL_POWER_GOOD (R441): A polled rail reports power-good and the next step follows. -/
  | railPowerGood
  /-- RAIL_STEP_TIMEOUT (R441): A step without power-good in 10 ms turns rails off. -/
  | railStepTimeout
  /-- SEQUENCE_RETRY (R441): 100 ms after a failed sequence it is retried. -/
  | sequenceRetry
  /-- RAIL_OFF_STEP (R442): The previous rail has fallen and the next is turned off. -/
  | railOffStep
  /-- PMBUS_POLL (R443): Every 10 ms regulator STATUS_WORD is polled. -/
  | pmbusPoll (polls : List RailPoll)
  /-- PMALERT (R443): PMALERT_N low prompts an immediate poll. -/
  | pmalert (polls : List RailPoll)
  /-- AVS_READ (R444): Every 1 ms monitors are read and VDD_CORE trimmed. -/
  | avsRead (codes : List (Option Nat))
  /-- REFCLK_LOST (R446): REFCLK loss resets the device. -/
  | refclkLost
  /-- REFCLK_VALID (R446): REFCLK valid for 10 ms releases reset. -/
  | refclkValid
  /-- PLL_UNLOCK (R447): Loss of PLL lock resets the device. -/
  | pllUnlock
  /-- ISLAND_GRANT (R448): The island queue grants the next power-up. -/
  | islandGrant
  /-- ISLAND_READY (R448): A granted island reports ready. -/
  | islandReady (i : Island)
  /-- ISLAND_FAILED (R449): No ready within 50 us of grant fails the island. -/
  | islandFailed (i : Island)
  /-- ISLFAIL_CLEAR (R449): Writing 1 to ISLFAIL requests the island again. -/
  | islfailClear (i : Island)
  /-- ISLAND_SLEEP (R451): An idle island outside its windows enters DOZE or NAP. -/
  | islandSleep (i : Island)
  /-- ISLAND_WAKE (R451): A sleeping island wakes before its next window. -/
  | islandWake (i : Island)
  /-- DEMAND_WAKE (R452): Demand wakes a sleeping engine or bank. -/
  | demandWake (i : Island)
  /-- SLEEP (R455): SLEEP asks for REST or ANCHOR until WAKE. -/
  | sleep
  /-- DEVICE_WAKE (R456): At the wake time the device wakes from REST or ANCHOR. -/
  | deviceWake
  /-- WAKE_GPIO (R456): A level change on a wake GPIO wakes the device. -/
  | wakeGpio (pin : Fin 8)
  /-- THERMAL_SAMPLE (R457): Every 100 µs TMAX is read against its thresholds. -/
  | thermalSample (temps : List (BitVec 16))
  /-- CRIT_HOLD_EXPIRE (R457): Still at CRIT_C after CRITHOLD_MS, the device resets. -/
  | critHoldExpire
  /-- RAIL_SAMPLE (R459): Every 10 µs each rail is checked. -/
  | railSample (mv : List Nat)
  /-- PFW_ASSERT (R460): PFW asserts, flushing the Tally and stopping grants. -/
  | pfwAssert
  /-- PFW_RELEASE (R461): PFW releases and grants, AVS and the Tally resume. -/
  | pfwRelease
  /-- PFW_RESET (R461): PFW held for PFW_RESET_US resets the device. -/
  | pfwReset
  /-- KW_PARTNER_ACK (R352): The partner's acknowledgement of a generation change arrives on the Keywell channel, and a waiting KGEN returns 0. -/
  | kwPartnerAck
  /-- ESTOP_CHANNEL_CLOSE (R253): An e-stop channel reads high again, clearing its counted-open status and, with no held fault, the input's condition present. -/
  | estopChannelClose (n : Fin 4) (chanB : Bool)
  /-- AXIS_INPUT_CHANGE (R405): A filtered LN, LP or HM input changes level after FILT_US, updating STATa and ending reverse homing moves. -/
  | axisInputChange (a : Fin 8) (pin : AxisPin) (level : Bool)
  /-- POWER_LOSS (R58): The board supply is lost, leaving each Chest location old or new and losing Tally energy since the last save. -/
  | powerLoss
  /-- PFW_RESET_HOLD_END (R461): PFW has stayed released for 10 ms after a PFW reset, and the Kettle releases the device from reset. -/
  | pfwResetHoldEnd
  /-- SOLO_REQUEST_WINDOW_CLOSE (R211): In solo or with no cut configured, the Reeve's request window closes at 5.999 ms. -/
  | soloRequestWindowClose
  deriving DecidableEq, Repr

end Sys2Proof
end

