-- ==== Sys2Proof/Decode.lean ====
section
/-! DEFINITION. The encodings of Wilquex instructions (02 R46, Tables 2.5 to 2.18; 03 R71, Tables 3.1, 3.3, 3.6 and 3.11; 15 R372): which
instruction an engine reads from a word.  The table of commands gives its rows no bits (every "fields" is empty), so no table word spells
a command. -/

namespace Sys2Proof

/-- The command that the word `w` of `nbits` bits spells by the opcode table: none, since the table gives no row bits. -/
def decodeTableWord (_nbits _w : Nat) : Option Instr := none

/-! ### Formats (Table 2.5) -/

/-- The register field at a bit of a word. -/
def regAt (w : BitVec 32) (lsb : Nat) : Reg := (w >>> lsb).truncate 5
/-- The major opcode. -/
def majorOf (w : BitVec 32) : Nat := (w >>> 26).toNat
/-- The function code of format A. -/
def fnOf (w : BitVec 32) : Nat := w.toNat % 64
/-- imm16 of format I, off16 of format B. -/
def immOf (w : BitVec 32) : BitVec 16 := w.truncate 16

/-- An instruction of format A: its function code, which of the fields d, a, b and c it uses, and the instruction. -/
structure ARow where
  fn : Nat
  d : Bool
  a : Bool
  b : Bool
  c : Bool
  build : Engine → Reg → Reg → Reg → Reg → Instr

/-- An instruction with operands d, a and b. -/
def rowDAB (fn : Nat) (f : Engine → Reg → Reg → Reg → Instr) : ARow := ⟨fn, true, true, true, false, fun e d a b _ => f e d a b⟩
/-- An instruction with operands d and a. -/
def rowDA (fn : Nat) (f : Engine → Reg → Reg → Instr) : ARow := ⟨fn, true, true, false, false, fun e d a _ _ => f e d a⟩
/-- An instruction with operands d, a, b and c. -/
def rowDABC (fn : Nat) (f : Engine → Reg → Reg → Reg → Reg → Instr) : ARow := ⟨fn, true, true, true, true, f⟩
/-- An instruction with operand d. -/
def rowD (fn : Nat) (f : Engine → Reg → Instr) : ARow := ⟨fn, true, false, false, false, fun e d _ _ _ => f e d⟩
/-- An instruction with operand a. -/
def rowA (fn : Nat) (f : Engine → Reg → Instr) : ARow := ⟨fn, false, true, false, false, fun e _ a _ _ => f e a⟩
/-- An instruction with operands a and b. -/
def rowAB (fn : Nat) (f : Engine → Reg → Reg → Instr) : ARow := ⟨fn, false, true, true, false, fun e _ a b _ => f e a b⟩
/-- An instruction without operands. -/
def rowNone (fn : Nat) (f : Engine → Instr) : ARow := ⟨fn, false, false, false, false, fun e _ _ _ _ => f e⟩

/-! ### Majors of format A -/

/-- Tables 2.7 and 2.8: majors 0x00 to 0x02. -/
def rowsArith : Nat → List ARow
  | 0x00 => [rowDAB 0x00 .add, rowDAB 0x01 .sub, rowDAB 0x02 .and, rowDAB 0x03 .or, rowDAB 0x04 .xor, rowDAB 0x06 .sll, rowDAB 0x07 .srl,
      rowDAB 0x08 .sra, rowDAB 0x09 .slt, rowDAB 0x0A .sltu, rowDAB 0x0B .min, rowDAB 0x0C .max, rowDAB 0x0D .minu, rowDAB 0x0E .maxu,
      rowDAB 0x10 .addw, rowDAB 0x11 .subw, rowDA 0x12 .clz, rowDA 0x13 .ctz, rowDA 0x14 .popc, rowDA 0x15 .bswap, rowDABC 0x16 .sel]
  | 0x01 => [rowDAB 0x00 .mul, rowDAB 0x01 .mulh, rowDAB 0x02 .mulhu, rowDAB 0x03 .mulw, rowDAB 0x04 .div, rowDAB 0x05 .divu,
      rowDAB 0x06 .rem, rowDAB 0x07 .remu, rowDABC 0x08 .madd]
  | 0x02 => [rowDAB 0x00 .fadd, rowDAB 0x01 .fsub, rowDAB 0x02 .fmul, rowDAB 0x03 .fdiv, rowDA 0x04 .fsqrt, rowDABC 0x05 .fmadd,
      rowDABC 0x06 .fmsub, rowDABC 0x07 .fnmadd, rowDAB 0x08 .fmin, rowDAB 0x09 .fmax, rowDAB 0x0A .feq, rowDAB 0x0B .flt, rowDAB 0x0C .fle,
      rowDA 0x0D .fclass, rowDA 0x10 .fitod, rowDA 0x11 .fdtoi, rowDA 0x12 .futod, rowDA 0x13 .fdtou, rowDA 0x14 .fmvgf, rowDA 0x15 .fmvfg,
      rowDA 0x16 .fneg, rowDA 0x17 .fabs]
  | _ => []

/-- Tables 2.9, 3.3, 3.6 and 3.11: atomics, dataflow, transfers, signal arithmetic, timed events, lanes and ports. -/
def rowsEngine : Nat → List ARow
  | 0x30 => [rowDA 0x00 .lld, rowDAB 0x01 .scd, rowDAB 0x02 .amoadd, rowDAB 0x03 .amoswp, rowDABC 0x04 .amocas]
  | 0x31 => [rowD 0x00 .take, rowAB 0x01 .emit, rowA 0x02 .cancel, rowDABC 0x03 .rclaim, rowNone 0x04 .abandon]
  | 0x32 => [rowDABC 0x00 .xget, rowDABC 0x01 .xput, rowA 0x02 .xwait]
  | 0x33 => [rowDAB 0x00 .adds, rowDAB 0x01 .subs, rowDAB 0x02 .shrr, rowDABC 0x03 .mulq, rowDAB 0x04 .phase, rowDAB 0x05 .mag]
  | 0x3A => [rowDAB 0x00 .arm, rowDA 0x01 .disarm, rowA 0x02 .waitt, rowDAB 0x03 .waite]
  | 0x3B => [⟨0x00, false, true, true, true, fun e _ a b c => .ncow e a b c⟩, rowDAB 0x01 .chcfg, rowDA 0x02 .dump, rowDABC 0x08 .txload,
      rowDA 0x09 .rxget]
  | _ => []

/-- Tables 2.11, 2.14, 2.17 and 2.18 and 15 R372: mailboxes, queues, Chest, Keywell, Bell, claim, extended control words and system.  A
SLOTOP stands for the row that the OP of its descriptor names; here it is ERASE. -/
def rowsSystem : Nat → List ARow
  | 0x34 => [rowDAB 0x00 .mbsend, rowDAB 0x01 .mbrecv, rowA 0x02 .mbwait, rowDA 0x03 .mbstat]
  | 0x35 => [rowDABC 0x00 .qpush, rowDAB 0x01 .qpop, rowA 0x02 .qwait, rowDA 0x03 .qstat]
  | 0x36 => [rowDA 0x00 .chrd, rowAB 0x01 .chwr, rowNone 0x02 .chsync]
  | 0x37 => [rowDAB 0x00 .kload, rowDA 0x01 .kop, rowDA 0x02 .kwait, rowD 0x03 .krand, rowA 0x04 .kfree, rowDA 0x05 .kgen]
  | 0x38 => [rowDA 0x00 .bring, rowD 0x01 .bstat]
  | 0x39 => [rowD 0x00 .clmrd, rowD 0x01 .clmseen, rowD 0x02 .clmnext]
  | 0x3E => [rowDA 0x00 .cwrx, rowDA 0x01 .cwrlx, rowAB 0x02 .cwsx, rowDA 0x08 .cwapply, rowDAB 0x09 .cwwait, rowA 0x0A .cwown,
      rowA 0x0B .cwdisown, rowDA 0x0C .cwstat]
  | 0x3F => [rowNone 0x01 .fence, rowNone 0x02 .fenceio, rowA 0x03 .dcflush, rowA 0x04 .dcinv, rowNone 0x05 .icinv,
      ⟨0x06, true, false, true, false, fun e d _ b _ => .mfc e d b⟩, ⟨0x07, false, true, true, false, fun e _ a b _ => .mtc e a b⟩,
      ⟨0x08, false, false, false, true, fun e _ _ _ c => .trap e c⟩, rowNone 0x09 .eret, rowNone 0x0A .wfi, rowNone 0x0C .brk,
      rowD 0x10 .healthConfirm, rowDA 0x11 .imgload, rowDA 0x12 .erase]
  | _ => []

/-- The instructions of a major of format A. -/
def rowsOf (major : Nat) : List ARow := rowsArith major ++ rowsEngine major ++ rowsSystem major

/-- An instruction of format A: its function code is assigned, and fields it does not use are 0. -/
def decodeA (e : Engine) (w : BitVec 32) : Option Instr :=
  let d := regAt w 21
  let a := regAt w 16
  let b := regAt w 11
  let c := regAt w 6
  match (rowsOf (majorOf w)).find? fun r => r.fn = fnOf w with
  | some r => if (r.d || d = 0) && (r.a || a = 0) && (r.b || b = 0) && (r.c || c = 0) then some (r.build e d a b c) else none
  | none => none

/-! ### Formats I, B, J and C (Table 2.6) -/

/-- An instruction of format I. -/
def insnI (e : Engine) (d a : Reg) (imm : BitVec 16) : Nat → Option Instr
  | 0x04 => some (.addi e d a imm) | 0x05 => some (.andi e d a imm) | 0x06 => some (.ori e d a imm) | 0x07 => some (.xori e d a imm)
  | 0x08 => some (.slti e d a imm) | 0x09 => some (.sltui e d a imm) | 0x0A => if a = 0 then some (.lui e d imm) else none
  | 0x0B => some (.slli e d a imm) | 0x0C => some (.srli e d a imm) | 0x0D => some (.srai e d a imm)
  | 0x10 => some (.lb e d a imm) | 0x11 => some (.lh e d a imm) | 0x12 => some (.lw e d a imm) | 0x13 => some (.ld e d a imm)
  | 0x14 => some (.lbu e d a imm) | 0x15 => some (.lhu e d a imm) | 0x16 => some (.lwu e d a imm) | 0x17 => some (.fld e d a imm)
  | 0x18 => some (.sb e d a imm) | 0x19 => some (.sh e d a imm) | 0x1A => some (.sw e d a imm) | 0x1B => some (.sd e d a imm)
  | 0x1F => some (.fsd e d a imm) | 0x2A => some (.jalr e d a imm)
  | _ => none

/-- A shift amount fits the register width: the immediate's other bits are zero (R46, 03 R80). -/
def shiftFits (e : Engine) (imm : BitVec 16) : Bool :=
  match e with
  | .seq _ => decide (imm.toNat < 32)
  | _ => decide (imm.toNat < 64)

/-- An instruction of formats I, B, J and C. -/
def decodeRest (e : Engine) (w : BitVec 32) : Option Instr :=
  let x := regAt w 21
  let y := regAt w 16
  let imm := immOf w
  match majorOf w with
  | 0x20 => some (.beq e x y imm) | 0x21 => some (.bne e x y imm) | 0x22 => some (.blt e x y imm) | 0x23 => some (.bge e x y imm)
  | 0x24 => some (.bltu e x y imm) | 0x25 => some (.bgeu e x y imm)
  | 0x28 => some (.j e (w.truncate 26)) | 0x29 => some (.jal e (w.truncate 26))
  | 0x3C => some (if w.getLsbD 0 then .cwrl e x ((w >>> 13).truncate 8) ((w >>> 1).truncate 12)
      else .cwr e x ((w >>> 13).truncate 8) ((w >>> 1).truncate 12))
  | 0x3D => if w.getLsbD 0 then none else some (.cws e x ((w >>> 13).truncate 8) ((w >>> 1).truncate 12))
  | m => if (m = 0x0B ∨ m = 0x0C ∨ m = 0x0D) ∧ !shiftFits e imm then none else insnI e x y imm m

/-! ### Profiles (Table 3.1) -/

/-- Whether a profile keeps the instructions of a major, with their function codes where only some are kept. -/
def kept (e : Engine) (major fn : Nat) : Bool :=
  match e with
  | .hub _ => !([0x31, 0x32, 0x33, 0x3A, 0x3B].contains major)
  | .node _ => decide (major < 0x32) || (major = 0x3F && [0x01, 0x06, 0x07, 0x0C].contains fn)
  | .seq _ =>
    major = 0x00 || (major = 0x01 && [0x00, 0x01, 0x02, 0x08].contains fn) ||
    decide ((0x04 ≤ major ∧ major ≤ 0x0D) ∨ (0x20 ≤ major ∧ major ≤ 0x2A)) ||
    [0x10, 0x11, 0x12, 0x14, 0x15, 0x18, 0x19, 0x1A, 0x32, 0x33, 0x3A, 0x3B].contains major ||
    (major = 0x35 && [0x00, 0x01, 0x03].contains fn) || (major = 0x3F && [0x06, 0x0C].contains fn)

/-- Whether the register fields of a word name registers of the engine: a sequencer has sixteen (03 R80). -/
def fieldsFit (e : Engine) (w : BitVec 32) : Bool :=
  match e with
  | .seq _ =>
    let m := majorOf w
    let low := fun (k : Nat) => decide ((regAt w k).toNat < 16)
    if m = 0x28 ∨ m = 0x29 then true
    else if (rowsOf m).isEmpty then low 21 && low 16
    else low 21 && low 16 && (low 11 || m = 0x3F) && low 6
  | _ => true

/-- The instruction that an engine reads from a word; none for an unassigned code, a 1 in a bit that is marked as zero, or an instruction
that its profile does not keep (R46, R71, R80). -/
def decodeInsn (e : Engine) (w : BitVec 32) : Option Instr :=
  if !kept e (majorOf w) (fnOf w) || !fieldsFit e w then none
  else if (rowsOf (majorOf w)).isEmpty then decodeRest e w else decodeA e w

end Sys2Proof
end

