-- ==== Sys2Proof/Machine/Fields.lean ====
section
/-! DEFINITION. The control word space (00 R7, R10, R22; 02 Table 2.12): one `Fld` for every field of every
field map of the spec (Tables 1.10-1.13, 2.21, 4.10, 5.13, 5.14, 6.18, 8.18, 9.19, 10.8, 11.6, 12.10, 13.12,
14.15, 15.9, 16.6, 17.6, 18.5, 19.5), with its block, index, bits, access code, value after start and
consistency group.  Bits that no `Fld` names are reserved (R9).  -/

namespace Sys2Proof

/-- Access codes of Table 0.3. -/
inductive Access where
  | L | S | C | K | X | N
  deriving DecidableEq, Repr

/-- Consistency groups (R14, R487): the group a staged field belongs to, or `none`. -/
inductive Grp where
  | none | gAgc | gAuction | gAvs | gCal | gCfg | gChan | gCoef | gCstop | gEntry | gFeed | gHorizon | gHub | gInput | gJam | gKey | gLayout | gLight | gMode | gNap | gNotch | gPb | gPfw | gPort | gPps | gProf | gPtp | gReg | gReserve | gResync | gRing | gRun | gServo | gSetup | gSleep | gSnap | gTherm | gUtc | gWin | gWm
  deriving DecidableEq, Repr

/-- One field, or one family of fields over an instance number `i` (and `j`): instance `(i, j)` stands in word
`index + s1 * i + j` at bits `[lsb + bs * i + width - 1 : lsb + bs * i]`.  `resets` lists the values after start by
instance, taken cyclically. -/
structure Fld where
  block : Nat
  index : Nat
  s1 : Nat
  n1 : Nat
  n2 : Nat
  lsb : Nat
  width : Nat
  bs : Nat
  acc : Access
  resets : List Nat
  grp : Grp
  deriving DecidableEq, Repr

/-- The word index instance `(i, j)` of a field stands in. -/
def Fld.word (f : Fld) (i j : Nat) : Nat := f.index + f.s1 * i + j

/-- The lowest bit of instance `i` of a field. -/
def Fld.bit (f : Fld) (i : Nat) : Nat := f.lsb + f.bs * i

/-- The key of instance `(i, j)` of a field: block, word index and lowest bit, in one number. -/
def Fld.key (f : Fld) (i j : Nat) : Nat := f.block * 131072 + f.word i j * 32 + f.bit i

/-- The value after start of instance `i` (R10). -/
def Fld.reset (f : Fld) (i : Nat) : Nat :=
  match f.resets with
  | [] => 0
  | [r] => r
  | rs => rs.getD (i % rs.length) 0

/-- The instances of a field that stand in the word of the given index, each with its instance numbers. -/
def Fld.inst (f : Fld) (index : Nat) : List (Nat × Nat) :=
  if f.bs ≠ 0 then
    if index = f.index then (List.range f.n1).map fun i => (i, 0) else []
  else
    let off := index - f.index
    if index < f.index then []
    else if off / f.s1 < f.n1 ∧ off % f.s1 < f.n2 then [(off / f.s1, off % f.s1)] else []

/-! The block IDs of Table 1.1. -/
namespace Blk

def sys : Nat := 0x01
def hub : Nat := 0x02
def fabric : Nat := 0x04
def granary : Nat := 0x08
def chest : Nat := 0x0A
def boot : Nat := 0x0C
def mill : Nat := 0x10
def reeve : Nat := 0x14
def gnssin : Nat := 0x18
def grinder : Nat := 0x19
def correl : Nat := 0x1A
def gseq : Nat := 0x1B
def radio : Nat := 0x20
def bell : Nat := 0x24
def queue : Nat := 0x28
def claim : Nat := 0x2C
def decant : Nat := 0x2D
def plink : Nat := 0x2E
def net : Nat := 0x30
def time : Nat := 0x31
def keywell : Nat := 0x34
def loop : Nat := 0x38
def axis : Nat := 0x39
def tally : Nat := 0x3A
def kettle : Nat := 0x3C
def hostif : Nat := 0x3E
def debug : Nat := 0x3F

/-- The blocks of Table 1.1 (R22). -/
def all : List Nat := [sys, hub, fabric, granary, chest, boot, mill, reeve, gnssin, grinder, correl, gseq, radio, bell, queue, claim, decant, plink, net, time, keywell, loop, axis, tally, kettle, hostif, debug]

/-- The kernel-only blocks of R43. -/
def kernelOnly : List Nat :=
  [sys, hub, chest, boot, bell, claim, decant, plink, keywell, kettle, debug]

end Blk

namespace Fld

/-- SYS.IDENT.PART -/ def sysIdentPart : Fld := ⟨Blk.sys, 0x000, 1, 1, 1, 16, 16, 0, .N, [34304], .none⟩
/-- SYS.IDENT.STEP_MAJOR -/ def sysIdentStepMajor : Fld := ⟨Blk.sys, 0x000, 1, 1, 1, 12, 4, 0, .N, [1], .none⟩
/-- SYS.IDENT.STEP_MINOR -/ def sysIdentStepMinor : Fld := ⟨Blk.sys, 0x000, 1, 1, 1, 8, 4, 0, .N, [2], .none⟩
/-- SYS.IDENT.GRADE -/ def sysIdentGrade : Fld := ⟨Blk.sys, 0x000, 1, 1, 1, 7, 1, 0, .N, [0], .none⟩
/-- SYS.CYCLE.NUMBER -/ def sysCycleNumber : Fld := ⟨Blk.sys, 0x001, 1, 1, 1, 0, 32, 0, .L, [0], .none⟩
/-- SYS.PHASE.PHASE -/ def sysPhasePhase : Fld := ⟨Blk.sys, 0x002, 1, 1, 1, 0, 2, 0, .L, [0], .none⟩
/-- SYS.PHASE.OFFSET_US -/ def sysPhaseOffsetUs : Fld := ⟨Blk.sys, 0x002, 1, 1, 1, 16, 14, 0, .L, [0], .none⟩
/-- SYS.RELEASE.MODE -/ def sysReleaseMode : Fld := ⟨Blk.sys, 0x003, 1, 1, 1, 0, 1, 0, .L, [0], .none⟩
/-- SYS.RELEASE.GATE -/ def sysReleaseGate : Fld := ⟨Blk.sys, 0x003, 1, 1, 1, 1, 1, 0, .L, [0], .none⟩
/-- SYS.RELEASE.WITHHELD -/ def sysReleaseWithheld : Fld := ⟨Blk.sys, 0x003, 1, 1, 1, 2, 1, 0, .C, [0], .none⟩
/-- SYS.RELEASE.ACK_US -/ def sysReleaseAckUs : Fld := ⟨Blk.sys, 0x003, 1, 1, 1, 16, 16, 0, .L, [65535], .none⟩
/-- SYS.LASTREL.CYCLE -/ def sysLastrelCycle : Fld := ⟨Blk.sys, 0x004, 1, 1, 1, 0, 32, 0, .L, [0xffffffff], .none⟩
/-- SYS.COUNT.OVERRUN -/ def sysCountOverrun : Fld := ⟨Blk.sys, 0x005, 1, 1, 1, 0, 16, 0, .L, [0], .none⟩
/-- SYS.COUNT.WITHHELD -/ def sysCountWithheld : Fld := ⟨Blk.sys, 0x005, 1, 1, 1, 16, 16, 0, .L, [0], .none⟩
/-- GRANARY.SCRUB.LAST_PASS_US -/ def granaryScrubLastPassUs : Fld := ⟨Blk.granary, 0x010, 1, 1, 1, 0, 24, 0, .L, [0], .none⟩
/-- GRANARY.SCRUB.PASSES -/ def granaryScrubPasses : Fld := ⟨Blk.granary, 0x010, 1, 1, 1, 24, 8, 0, .L, [0], .none⟩
/-- GRANARY.ECC.CORRECTED -/ def granaryEccCorrected : Fld := ⟨Blk.granary, 0x011, 1, 1, 1, 0, 16, 0, .L, [0], .none⟩
/-- GRANARY.ECC.UNCORR -/ def granaryEccUncorr : Fld := ⟨Blk.granary, 0x011, 1, 1, 1, 16, 1, 0, .K, [0], .none⟩
/-- GRANARY.ECC.LATE -/ def granaryEccLate : Fld := ⟨Blk.granary, 0x011, 1, 1, 1, 17, 1, 0, .C, [0], .none⟩
/-- GRANARY.ECCADDR.WORD -/ def granaryEccaddrWord : Fld := ⟨Blk.granary, 0x012, 1, 1, 1, 3, 23, 0, .L, [0], .none⟩
/-- HUB.LSTEP.SELFTEST -/ def hubLstepSelftest : Fld := ⟨Blk.hub, 0x001, 1, 1, 1, 0, 1, 0, .X, [0], .none⟩
/-- HUB.LSTEP.SELFTEST_OK -/ def hubLstepSelftestOk : Fld := ⟨Blk.hub, 0x001, 1, 1, 1, 1, 1, 0, .L, [1], .none⟩
/-- HUB.LSTEP.MISMATCH -/ def hubLstepMismatch : Fld := ⟨Blk.hub, 0x001, 1, 1, 1, 2, 1, 0, .K, [0], .none⟩
/-- HUB.LSTEP.LAG -/ def hubLstepLag : Fld := ⟨Blk.hub, 0x001, 1, 1, 1, 8, 4, 0, .N, [2], .none⟩
/-- HUB.CORE.KERNEL -/ def hubCoreKernel : Fld := ⟨Blk.hub, 0x002, 1, 1, 1, 0, 8, 0, .L, [5], .none⟩
/-- HUB.CORE.CORE2 -/ def hubCoreCore2 : Fld := ⟨Blk.hub, 0x002, 1, 1, 1, 16, 8, 0, .L, [0], .none⟩
/-- HUB.CORE.CORE3 -/ def hubCoreCore3 : Fld := ⟨Blk.hub, 0x002, 1, 1, 1, 24, 8, 0, .L, [0], .none⟩
/-- HUB.HALTCAUSE.CORE2 -/ def hubHaltcauseCore2 : Fld := ⟨Blk.hub, 0x003, 1, 1, 1, 0, 16, 0, .L, [0], .none⟩
/-- HUB.HALTCAUSE.CORE3 -/ def hubHaltcauseCore3 : Fld := ⟨Blk.hub, 0x003, 1, 1, 1, 16, 16, 0, .L, [0], .none⟩
/-- HUB.ENTRYLO.ADDR_LO -/ def hubEntryloAddrLo : Fld := ⟨Blk.hub, 0x020, 2, 2, 1, 2, 30, 0, .S, [0], .gEntry⟩
/-- HUB.ENTRYHI.ADDR_HI -/ def hubEntryhiAddrHi : Fld := ⟨Blk.hub, 0x021, 2, 2, 1, 0, 8, 0, .S, [0], .gEntry⟩
/-- HUB.ENTRYHI.VALID -/ def hubEntryhiValid : Fld := ⟨Blk.hub, 0x021, 2, 2, 1, 31, 1, 0, .S, [0], .gEntry⟩
/-- HUB.START.START2 -/ def hubStartStart2 : Fld := ⟨Blk.hub, 0x024, 1, 1, 1, 2, 1, 0, .X, [0], .none⟩
/-- HUB.START.START3 -/ def hubStartStart3 : Fld := ⟨Blk.hub, 0x024, 1, 1, 1, 3, 1, 0, .X, [0], .none⟩
/-- HUB.START.HALT2 -/ def hubStartHalt2 : Fld := ⟨Blk.hub, 0x024, 1, 1, 1, 6, 1, 0, .X, [0], .none⟩
/-- HUB.START.HALT3 -/ def hubStartHalt3 : Fld := ⟨Blk.hub, 0x024, 1, 1, 1, 7, 1, 0, .X, [0], .none⟩
/-- HUB.OWN.OWNER -/ def hubOwnOwner : Fld := ⟨Blk.hub, 0x100, 1, 256, 1, 0, 2, 0, .L, ([1, 0, 0, 1, 0, 1, 1, 1, 0, 1, 0, 1, 0, 1, 1, 1, 1, 1, 1, 1, 1, 1, 1, 1, 1, 1, 1, 1, 1, 1, 1, 1, 1, 1, 1, 1, 1, 1, 1, 1, 1, 1, 1, 1, 1, 1, 1, 1] ++ [1, 1, 1, 1, 0, 1, 1, 1, 1, 1, 1, 1, 0, 1, 0, 0, 1, 1, 1, 1, 1, 1, 1, 1, 1, 1, 1, 1, 1, 1, 1, 1, 1, 1, 1, 1, 1, 1, 1, 1, 1, 1, 1, 1, 1, 1, 1, 1] ++ [1, 1, 1, 1, 1, 1, 1, 1, 1, 1, 1, 1, 1, 1, 1, 1, 1, 1, 1, 1, 1, 1, 1, 1, 1, 1, 1, 1, 1, 1, 1, 1, 1, 1, 1, 1, 1, 1, 1, 1, 1, 1, 1, 1, 1, 1, 1, 1] ++ [1, 1, 1, 1, 1, 1, 1, 1, 1, 1, 1, 1, 1, 1, 1, 1, 1, 1, 1, 1, 1, 1, 1, 1, 1, 1, 1, 1, 1, 1, 1, 1, 1, 1, 1, 1, 1, 1, 1, 1, 1, 1, 1, 1, 1, 1, 1, 1] ++ [1, 1, 1, 1, 1, 1, 1, 1, 1, 1, 1, 1, 1, 1, 1, 1, 1, 1, 1, 1, 1, 1, 1, 1, 1, 1, 1, 1, 1, 1, 1, 1, 1, 1, 1, 1, 1, 1, 1, 1, 1, 1, 1, 1, 1, 1, 1, 1] ++ [1, 1, 1, 1, 1, 1, 1, 1, 1, 1, 1, 1, 1, 1, 1, 1]), .none⟩
/-- MILL.CTRL.RUN -/ def millCtrlRun : Fld := ⟨Blk.mill, 0x000, 1, 1, 1, 0, 1, 0, .X, [0], .none⟩
/-- MILL.CTRL.STOP -/ def millCtrlStop : Fld := ⟨Blk.mill, 0x000, 1, 1, 1, 1, 1, 0, .X, [0], .none⟩
/-- MILL.CTRL.RESTORE -/ def millCtrlRestore : Fld := ⟨Blk.mill, 0x000, 1, 1, 1, 2, 1, 0, .X, [0], .none⟩
/-- MILL.CTRL.HWRESET -/ def millCtrlHwreset : Fld := ⟨Blk.mill, 0x000, 1, 1, 1, 3, 1, 0, .X, [0], .none⟩
/-- MILL.STATE.STATE -/ def millStateState : Fld := ⟨Blk.mill, 0x001, 1, 1, 1, 0, 3, 0, .L, [0], .none⟩
/-- MILL.STATE.MODE -/ def millStateMode : Fld := ⟨Blk.mill, 0x001, 1, 1, 1, 4, 2, 0, .L, [1], .none⟩
/-- MILL.STATE.JOINED -/ def millStateJoined : Fld := ⟨Blk.mill, 0x001, 1, 1, 1, 8, 5, 0, .L, [0], .none⟩
/-- MILL.MODE.MODE -/ def millModeMode : Fld := ⟨Blk.mill, 0x002, 1, 1, 1, 0, 2, 0, .S, [1], .gMode⟩
/-- MILL.ENABLE.ENABLE -/ def millEnableEnable : Fld := ⟨Blk.mill, 0x003, 1, 1, 1, 0, 24, 0, .S, [0xffffff], .none⟩
/-- MILL.ENGUP.UP -/ def millEngupUp : Fld := ⟨Blk.mill, 0x004, 1, 1, 1, 0, 24, 0, .L, [0], .none⟩
/-- MILL.ENGFAIL.FAIL -/ def millEngfailFail : Fld := ⟨Blk.mill, 0x005, 1, 1, 1, 0, 24, 0, .C, [0], .none⟩
/-- MILL.LIB.BANK -/ def millLibBank : Fld := ⟨Blk.mill, 0x010, 1, 1, 1, 0, 4, 0, .S, [15], .gLayout⟩
/-- MILL.GRAPH.ADDR -/ def millGraphAddr : Fld := ⟨Blk.mill, 0x011, 1, 1, 1, 0, 32, 0, .S, [0], .gLayout⟩
/-- MILL.NODES.COUNT -/ def millNodesCount : Fld := ⟨Blk.mill, 0x012, 1, 1, 1, 0, 16, 0, .S, [0], .gLayout⟩
/-- MILL.FLOWTAB.ADDR -/ def millFlowtabAddr : Fld := ⟨Blk.mill, 0x013, 1, 1, 1, 0, 32, 0, .S, [0], .gLayout⟩
/-- MILL.INJBASE.ADDR -/ def millInjbaseAddr : Fld := ⟨Blk.mill, 0x014, 1, 1, 1, 0, 32, 0, .S, [0], .gLayout⟩
/-- MILL.INJLEN.ENTRIES -/ def millInjlenEntries : Fld := ⟨Blk.mill, 0x015, 1, 1, 1, 0, 11, 0, .S, [64], .gLayout⟩
/-- MILL.INJECT.DOORBELL -/ def millInjectDoorbell : Fld := ⟨Blk.mill, 0x016, 1, 1, 1, 0, 1, 0, .X, [0], .none⟩
/-- MILL.INJGET.GET -/ def millInjgetGet : Fld := ⟨Blk.mill, 0x017, 1, 1, 1, 0, 32, 0, .L, [0], .none⟩
/-- MILL.CUTBASE.ADDR -/ def millCutbaseAddr : Fld := ⟨Blk.mill, 0x018, 1, 1, 1, 0, 32, 0, .S, [0], .gLayout⟩
/-- MILL.CUT.LEAD_US -/ def millCutLeadUs : Fld := ⟨Blk.mill, 0x019, 1, 1, 1, 0, 8, 0, .S, [40], .none⟩
/-- MILL.CUT.LASTVALID -/ def millCutLastvalid : Fld := ⟨Blk.mill, 0x019, 1, 1, 1, 8, 1, 0, .L, [0], .none⟩
/-- MILL.CUT.LASTSIZE_KB -/ def millCutLastsizeKb : Fld := ⟨Blk.mill, 0x019, 1, 1, 1, 16, 16, 0, .L, [0], .none⟩
/-- MILL.LIMIT.LIMIT_US -/ def millLimitLimitUs : Fld := ⟨Blk.mill, 0x020, 1, 4, 1, 0, 16, 0, .S, [200, 1000, 2000, 20000], .none⟩
/-- MILL.LIMIT.RETRIES -/ def millLimitRetries : Fld := ⟨Blk.mill, 0x020, 1, 4, 1, 16, 3, 0, .S, [2], .none⟩
/-- MILL.RESERVE.POS -/ def millReservePos : Fld := ⟨Blk.mill, 0x024, 1, 1, 1, 0, 8, 0, .S, [4], .gReserve⟩
/-- MILL.RESERVE.PLAN -/ def millReservePlan : Fld := ⟨Blk.mill, 0x024, 1, 1, 1, 8, 8, 0, .S, [16], .gReserve⟩
/-- MILL.RESERVE.BG -/ def millReserveBg : Fld := ⟨Blk.mill, 0x024, 1, 1, 1, 16, 8, 0, .S, [64], .gReserve⟩
/-- MILL.STORE.INUSE -/ def millStoreInuse : Fld := ⟨Blk.mill, 0x030, 1, 1, 1, 0, 15, 0, .L, [0], .none⟩
/-- MILL.STORE.HIGH -/ def millStoreHigh : Fld := ⟨Blk.mill, 0x030, 1, 1, 1, 16, 15, 0, .L, [0], .none⟩
/-- MILL.READY.URG -/ def millReadyUrg : Fld := ⟨Blk.mill, 0x031, 1, 1, 1, 0, 8, 0, .L, [0], .none⟩
/-- MILL.READY.POS -/ def millReadyPos : Fld := ⟨Blk.mill, 0x031, 1, 1, 1, 8, 8, 0, .L, [0], .none⟩
/-- MILL.READY.PLAN -/ def millReadyPlan : Fld := ⟨Blk.mill, 0x031, 1, 1, 1, 16, 8, 0, .L, [0], .none⟩
/-- MILL.READY.BG -/ def millReadyBg : Fld := ⟨Blk.mill, 0x031, 1, 1, 1, 24, 8, 0, .L, [0], .none⟩
/-- MILL.CNT_DISP.COUNT -/ def millCntDispCount : Fld := ⟨Blk.mill, 0x040, 1, 1, 1, 0, 32, 0, .L, [0], .none⟩
/-- MILL.CNT_RET.COUNT -/ def millCntRetCount : Fld := ⟨Blk.mill, 0x041, 1, 1, 1, 0, 32, 0, .L, [0], .none⟩
/-- MILL.CNT_EVT.DISCARDED -/ def millCntEvtDiscarded : Fld := ⟨Blk.mill, 0x042, 1, 1, 1, 0, 16, 0, .L, [0], .none⟩
/-- MILL.CNT_EVT.INVALID -/ def millCntEvtInvalid : Fld := ⟨Blk.mill, 0x042, 1, 1, 1, 16, 16, 0, .L, [0], .none⟩
/-- MILL.CNT_FLOW.HOLES -/ def millCntFlowHoles : Fld := ⟨Blk.mill, 0x043, 1, 1, 1, 0, 16, 0, .L, [0], .none⟩
/-- MILL.CNT_FLOW.FULL -/ def millCntFlowFull : Fld := ⟨Blk.mill, 0x043, 1, 1, 1, 16, 16, 0, .L, [0], .none⟩
/-- MILL.LASTFAULT.CODE -/ def millLastfaultCode : Fld := ⟨Blk.mill, 0x045, 1, 1, 1, 0, 16, 0, .L, [0], .none⟩
/-- MILL.LASTFAULT.ENGINE -/ def millLastfaultEngine : Fld := ⟨Blk.mill, 0x045, 1, 1, 1, 16, 5, 0, .L, [0], .none⟩
/-- GNSSIN.CTRL.RUN -/ def gnssinCtrlRun : Fld := ⟨Blk.gnssin, 0x000, 1, 1, 1, 0, 4, 0, .X, [0], .none⟩
/-- GNSSIN.CTRL.STOP -/ def gnssinCtrlStop : Fld := ⟨Blk.gnssin, 0x000, 1, 1, 1, 4, 4, 0, .X, [0], .none⟩
/-- GNSSIN.CTRL.ALIGN -/ def gnssinCtrlAlign : Fld := ⟨Blk.gnssin, 0x000, 1, 1, 1, 8, 4, 0, .X, [0], .none⟩
/-- GNSSIN.STATE.ANT -/ def gnssinStateAnt : Fld := ⟨Blk.gnssin, 0x001, 0, 4, 1, 0, 4, 4, .L, [0], .none⟩
/-- GNSSIN.FECLK.EN -/ def gnssinFeclkEn : Fld := ⟨Blk.gnssin, 0x002, 1, 1, 1, 0, 4, 0, .S, [0], .gLayout⟩
/-- GNSSIN.FEGAIN.MODE -/ def gnssinFegainMode : Fld := ⟨Blk.gnssin, 0x003, 1, 1, 1, 0, 4, 0, .S, [0], .none⟩
/-- GNSSIN.FEGAIN.SETTLE_US -/ def gnssinFegainSettleUs : Fld := ⟨Blk.gnssin, 0x003, 1, 1, 1, 8, 8, 0, .S, [2], .none⟩
/-- GNSSIN.EVENT.WARN -/ def gnssinEventWarn : Fld := ⟨Blk.gnssin, 0x004, 1, 1, 1, 0, 12, 0, .C, [0], .none⟩
/-- GNSSIN.EVENT.ALARM -/ def gnssinEventAlarm : Fld := ⟨Blk.gnssin, 0x004, 1, 1, 1, 12, 12, 0, .C, [0], .none⟩
/-- GNSSIN.EVENT.LANE -/ def gnssinEventLane : Fld := ⟨Blk.gnssin, 0x004, 1, 1, 1, 24, 4, 0, .C, [0], .none⟩
/-- GNSSIN.LANE.DEPTH -/ def gnssinLaneDepth : Fld := ⟨Blk.gnssin, 0x010, 1, 4, 1, 0, 12, 0, .S, [128], .gLayout⟩
/-- GNSSIN.LANE.EYE_MIN -/ def gnssinLaneEyeMin : Fld := ⟨Blk.gnssin, 0x010, 1, 4, 1, 16, 5, 0, .S, [16], .gLayout⟩
/-- GNSSIN.LSTAT.EYE -/ def gnssinLstatEye : Fld := ⟨Blk.gnssin, 0x014, 1, 4, 1, 0, 6, 0, .L, [0], .none⟩
/-- GNSSIN.LSTAT.DISCONT -/ def gnssinLstatDiscont : Fld := ⟨Blk.gnssin, 0x014, 1, 4, 1, 8, 1, 0, .C, [0], .none⟩
/-- GNSSIN.LSTAT.FILL -/ def gnssinLstatFill : Fld := ⟨Blk.gnssin, 0x014, 1, 4, 1, 16, 12, 0, .L, [0], .none⟩
/-- GNSSIN.CFG.EN -/ def gnssinCfgEn : Fld := ⟨Blk.gnssin, 0x100, 32, 12, 1, 0, 1, 0, .S, [0], .none⟩
/-- GNSSIN.CFG.PB_EN -/ def gnssinCfgPbEn : Fld := ⟨Blk.gnssin, 0x100, 32, 12, 1, 1, 1, 0, .S, [1], .none⟩
/-- GNSSIN.CFG.NOTCH_EN -/ def gnssinCfgNotchEn : Fld := ⟨Blk.gnssin, 0x100, 32, 12, 1, 2, 1, 0, .S, [1], .none⟩
/-- GNSSIN.CFG.AGC_EN -/ def gnssinCfgAgcEn : Fld := ⟨Blk.gnssin, 0x100, 32, 12, 1, 3, 1, 0, .S, [1], .none⟩
/-- GNSSIN.LO.LO_HZ -/ def gnssinLoLoHz : Fld := ⟨Blk.gnssin, 0x101, 32, 12, 1, 0, 32, 0, .S, [0x5e4b6780, 0x4aaf4340, 0x47095938], .gLayout⟩
/-- GNSSIN.AGC.TARGET -/ def gnssinAgcTarget : Fld := ⟨Blk.gnssin, 0x102, 32, 12, 1, 0, 8, 0, .S, [77], .gAgc⟩
/-- GNSSIN.AGC.HYS -/ def gnssinAgcHys : Fld := ⟨Blk.gnssin, 0x102, 32, 12, 1, 8, 8, 0, .S, [8], .gAgc⟩
/-- GNSSIN.AGC.PERIOD -/ def gnssinAgcPeriod : Fld := ⟨Blk.gnssin, 0x102, 32, 12, 1, 16, 7, 0, .S, [10], .gAgc⟩
/-- GNSSIN.AGC.GAIN_EXT -/ def gnssinAgcGainExt : Fld := ⟨Blk.gnssin, 0x102, 32, 12, 1, 24, 6, 0, .S, [32], .none⟩
/-- GNSSIN.AGCSTAT.GAIN -/ def gnssinAgcstatGain : Fld := ⟨Blk.gnssin, 0x103, 32, 12, 1, 0, 6, 0, .L, [32], .none⟩
/-- GNSSIN.AGCSTAT.DEPTH -/ def gnssinAgcstatDepth : Fld := ⟨Blk.gnssin, 0x103, 32, 12, 1, 8, 6, 0, .L, [0], .none⟩
/-- GNSSIN.AGCSTAT.F -/ def gnssinAgcstatF : Fld := ⟨Blk.gnssin, 0x103, 32, 12, 1, 16, 8, 0, .L, [0], .none⟩
/-- GNSSIN.AGCREF.REF -/ def gnssinAgcrefRef : Fld := ⟨Blk.gnssin, 0x104, 32, 12, 1, 0, 6, 0, .S, [32], .gAgc⟩
/-- GNSSIN.AGCREF.LEARN -/ def gnssinAgcrefLearn : Fld := ⟨Blk.gnssin, 0x104, 32, 12, 1, 8, 1, 0, .X, [0], .none⟩
/-- GNSSIN.AGCREF.LEARN_DONE -/ def gnssinAgcrefLearnDone : Fld := ⟨Blk.gnssin, 0x104, 32, 12, 1, 9, 1, 0, .L, [0], .none⟩
/-- GNSSIN.AGCREF.LEARNING -/ def gnssinAgcrefLearning : Fld := ⟨Blk.gnssin, 0x104, 32, 12, 1, 10, 1, 0, .L, [0], .none⟩
/-- GNSSIN.AGCREF.LEARNED -/ def gnssinAgcrefLearned : Fld := ⟨Blk.gnssin, 0x104, 32, 12, 1, 16, 6, 0, .L, [0], .none⟩
/-- GNSSIN.PB.THRESH -/ def gnssinPbThresh : Fld := ⟨Blk.gnssin, 0x105, 32, 12, 1, 0, 5, 0, .S, [6], .gPb⟩
/-- GNSSIN.PB.TAIL -/ def gnssinPbTail : Fld := ⟨Blk.gnssin, 0x105, 32, 12, 1, 8, 8, 0, .S, [32], .gPb⟩
/-- GNSSIN.PB.MAX -/ def gnssinPbMax : Fld := ⟨Blk.gnssin, 0x105, 32, 12, 1, 16, 16, 0, .S, [8192], .gPb⟩
/-- GNSSIN.PBSTAT.DUTY -/ def gnssinPbstatDuty : Fld := ⟨Blk.gnssin, 0x106, 32, 12, 1, 0, 8, 0, .L, [0], .none⟩
/-- GNSSIN.PBSTAT.SAT -/ def gnssinPbstatSat : Fld := ⟨Blk.gnssin, 0x106, 32, 12, 1, 8, 1, 0, .C, [0], .none⟩
/-- GNSSIN.PBSTAT.COUNT -/ def gnssinPbstatCount : Fld := ⟨Blk.gnssin, 0x106, 32, 12, 1, 16, 16, 0, .L, [0], .none⟩
/-- GNSSIN.JAMW.WD -/ def gnssinJamwWd : Fld := ⟨Blk.gnssin, 0x107, 32, 12, 1, 0, 8, 0, .S, [64], .none⟩
/-- GNSSIN.JAMW.WS -/ def gnssinJamwWs : Fld := ⟨Blk.gnssin, 0x107, 32, 12, 1, 8, 8, 0, .S, [32], .none⟩
/-- GNSSIN.JAMW.SREF -/ def gnssinJamwSref : Fld := ⟨Blk.gnssin, 0x107, 32, 12, 1, 16, 8, 0, .S, [240], .none⟩
/-- GNSSIN.JAMT.WARN -/ def gnssinJamtWarn : Fld := ⟨Blk.gnssin, 0x108, 32, 12, 1, 0, 8, 0, .S, [64], .gJam⟩
/-- GNSSIN.JAMT.ALARM -/ def gnssinJamtAlarm : Fld := ⟨Blk.gnssin, 0x108, 32, 12, 1, 8, 8, 0, .S, [160], .gJam⟩
/-- GNSSIN.JAMT.HYS -/ def gnssinJamtHys : Fld := ⟨Blk.gnssin, 0x108, 32, 12, 1, 16, 8, 0, .S, [16], .gJam⟩
/-- GNSSIN.JAMSTAT.INDEX -/ def gnssinJamstatIndex : Fld := ⟨Blk.gnssin, 0x109, 32, 12, 1, 0, 8, 0, .L, [0], .none⟩
/-- GNSSIN.JAMSTAT.FLAT -/ def gnssinJamstatFlat : Fld := ⟨Blk.gnssin, 0x109, 32, 12, 1, 8, 8, 0, .L, [0], .none⟩
/-- GNSSIN.JAMSTAT.WARN -/ def gnssinJamstatWarn : Fld := ⟨Blk.gnssin, 0x109, 32, 12, 1, 16, 1, 0, .L, [0], .none⟩
/-- GNSSIN.JAMSTAT.ALARM -/ def gnssinJamstatAlarm : Fld := ⟨Blk.gnssin, 0x109, 32, 12, 1, 17, 1, 0, .L, [0], .none⟩
/-- GNSSIN.JAMSTAT.VALID -/ def gnssinJamstatValid : Fld := ⟨Blk.gnssin, 0x109, 32, 12, 1, 18, 1, 0, .L, [0], .none⟩
/-- GNSSIN.NDET.ENGAGE_DB -/ def gnssinNdetEngageDb : Fld := ⟨Blk.gnssin, 0x10A, 32, 12, 1, 0, 8, 0, .S, [12], .gNotch⟩
/-- GNSSIN.NDET.RELEASE_DB -/ def gnssinNdetReleaseDb : Fld := ⟨Blk.gnssin, 0x10A, 32, 12, 1, 8, 8, 0, .S, [6], .gNotch⟩
/-- GNSSIN.NDET.HOLD_MS -/ def gnssinNdetHoldMs : Fld := ⟨Blk.gnssin, 0x10A, 32, 12, 1, 16, 8, 0, .S, [100], .gNotch⟩
/-- GNSSIN.NDET.MU -/ def gnssinNdetMu : Fld := ⟨Blk.gnssin, 0x10A, 32, 12, 1, 24, 3, 0, .S, [3], .gNotch⟩
/-- GNSSIN.NCFG.MODE -/ def gnssinNcfgMode : Fld := ⟨Blk.gnssin, 0x110, 32, 12, 8, 0, 2, 0, .S, [1], .gNotch⟩
/-- GNSSIN.NCFG.WIDTH -/ def gnssinNcfgWidth : Fld := ⟨Blk.gnssin, 0x110, 32, 12, 8, 2, 2, 0, .S, [1], .gNotch⟩
/-- GNSSIN.NFREQ.FREQ -/ def gnssinNfreqFreq : Fld := ⟨Blk.gnssin, 0x118, 32, 12, 8, 0, 32, 0, .S, [0], .gNotch⟩
/-- GNSSIN.NSTAT.ENGAGED -/ def gnssinNstatEngaged : Fld := ⟨Blk.gnssin, 0x280, 8, 12, 8, 0, 1, 0, .L, [0], .none⟩
/-- GNSSIN.NSTAT.OVERLAP -/ def gnssinNstatOverlap : Fld := ⟨Blk.gnssin, 0x280, 8, 12, 8, 1, 1, 0, .L, [0], .none⟩
/-- GNSSIN.NSTAT.REMOVED_DB -/ def gnssinNstatRemovedDb : Fld := ⟨Blk.gnssin, 0x280, 8, 12, 8, 8, 8, 0, .L, [0], .none⟩
/-- GNSSIN.NSTAT.FREQ -/ def gnssinNstatFreq : Fld := ⟨Blk.gnssin, 0x280, 8, 12, 8, 16, 16, 0, .L, [0], .none⟩
/-- GRINDER.CTRL.RUN -/ def grinderCtrlRun : Fld := ⟨Blk.grinder, 0x000, 1, 1, 1, 0, 1, 0, .X, [0], .none⟩
/-- GRINDER.CTRL.STOP -/ def grinderCtrlStop : Fld := ⟨Blk.grinder, 0x000, 1, 1, 1, 1, 1, 0, .X, [0], .none⟩
/-- GRINDER.CTRL.DOORBELL -/ def grinderCtrlDoorbell : Fld := ⟨Blk.grinder, 0x000, 1, 1, 1, 2, 1, 0, .X, [0], .none⟩
/-- GRINDER.STATE.STATE -/ def grinderStateState : Fld := ⟨Blk.grinder, 0x001, 1, 1, 1, 0, 2, 0, .L, [0], .none⟩
/-- GRINDER.STATE.BUSY -/ def grinderStateBusy : Fld := ⟨Blk.grinder, 0x001, 0, 2, 1, 4, 1, 1, .L, [0], .none⟩
/-- GRINDER.STATE.PENDING -/ def grinderStatePending : Fld := ⟨Blk.grinder, 0x001, 1, 1, 1, 16, 16, 0, .L, [0], .none⟩
/-- GRINDER.RING.ADDR -/ def grinderRingAddr : Fld := ⟨Blk.grinder, 0x010, 1, 1, 1, 0, 32, 0, .S, [0], .gRing⟩
/-- GRINDER.RINGLEN.ENTRIES -/ def grinderRinglenEntries : Fld := ⟨Blk.grinder, 0x011, 1, 1, 1, 0, 11, 0, .S, [64], .gRing⟩
/-- GRINDER.RES.ADDR -/ def grinderResAddr : Fld := ⟨Blk.grinder, 0x012, 1, 1, 1, 0, 32, 0, .S, [0], .gRing⟩
/-- GRINDER.RESLEN.ENTRIES -/ def grinderReslenEntries : Fld := ⟨Blk.grinder, 0x013, 1, 1, 1, 0, 11, 0, .S, [64], .gRing⟩
/-- GRINDER.GET.COUNT -/ def grinderGetCount : Fld := ⟨Blk.grinder, 0x014, 1, 1, 1, 0, 32, 0, .L, [0], .none⟩
/-- GRINDER.RPUT.COUNT -/ def grinderRputCount : Fld := ⟨Blk.grinder, 0x015, 1, 1, 1, 0, 32, 0, .L, [0], .none⟩
/-- GRINDER.CNT.DONE -/ def grinderCntDone : Fld := ⟨Blk.grinder, 0x020, 1, 1, 1, 0, 16, 0, .L, [0], .none⟩
/-- GRINDER.CNT.DETECT -/ def grinderCntDetect : Fld := ⟨Blk.grinder, 0x020, 1, 1, 1, 16, 16, 0, .L, [0], .none⟩
/-- GRINDER.CNT2.INVALID -/ def grinderCnt2Invalid : Fld := ⟨Blk.grinder, 0x021, 1, 1, 1, 0, 16, 0, .L, [0], .none⟩
/-- GRINDER.CNT2.CAPFAIL -/ def grinderCnt2Capfail : Fld := ⟨Blk.grinder, 0x021, 1, 1, 1, 16, 16, 0, .L, [0], .none⟩
/-- CORREL.CTRL.RUN -/ def correlCtrlRun : Fld := ⟨Blk.correl, 0x000, 1, 1, 1, 0, 4, 0, .X, [0], .none⟩
/-- CORREL.CTRL.STOP -/ def correlCtrlStop : Fld := ⟨Blk.correl, 0x000, 1, 1, 1, 4, 4, 0, .X, [0], .none⟩
/-- CORREL.CTRL.CALNOW -/ def correlCtrlCalnow : Fld := ⟨Blk.correl, 0x000, 1, 1, 1, 8, 1, 0, .X, [0], .none⟩
/-- CORREL.STATE.RUN -/ def correlStateRun : Fld := ⟨Blk.correl, 0x001, 1, 1, 1, 0, 4, 0, .L, [0], .none⟩
/-- CORREL.LATCHBASE.ADDR -/ def correlLatchbaseAddr : Fld := ⟨Blk.correl, 0x002, 1, 1, 1, 0, 32, 0, .S, [0], .gLayout⟩
/-- CORREL.CAL.EN -/ def correlCalEn : Fld := ⟨Blk.correl, 0x003, 1, 1, 1, 0, 1, 0, .S, [1], .gCal⟩
/-- CORREL.CAL.INTERVAL_S -/ def correlCalIntervalS : Fld := ⟨Blk.correl, 0x003, 1, 1, 1, 8, 8, 0, .S, [60], .gCal⟩
/-- CORREL.USE.SLOTS -/ def correlUseSlots : Fld := ⟨Blk.correl, 0x010, 1, 4, 1, 0, 9, 0, .L, [0], .none⟩
/-- CORREL.USE.LANES -/ def correlUseLanes : Fld := ⟨Blk.correl, 0x010, 1, 4, 1, 16, 10, 0, .L, [0], .none⟩
/-- CORREL.CALSTAT.AGE_S -/ def correlCalstatAgeS : Fld := ⟨Blk.correl, 0x014, 1, 4, 1, 0, 24, 0, .L, [0xffffff], .none⟩
/-- CORREL.CALSTAT.SPREAD_PS -/ def correlCalstatSpreadPs : Fld := ⟨Blk.correl, 0x014, 1, 4, 1, 24, 8, 0, .L, [0], .none⟩
/-- CORREL.CALDLY.D0_PS -/ def correlCaldlyD0Ps : Fld := ⟨Blk.correl, 0x018, 1, 4, 1, 0, 16, 0, .L, [0], .none⟩
/-- CORREL.CALDLY.D1_PS -/ def correlCaldlyD1Ps : Fld := ⟨Blk.correl, 0x018, 1, 4, 1, 16, 16, 0, .L, [0], .none⟩
/-- GSEQ.CTRL.START -/ def gseqCtrlStart : Fld := ⟨Blk.gseq, 0x000, 1, 1, 1, 0, 4, 0, .X, [0], .none⟩
/-- GSEQ.CTRL.HALT -/ def gseqCtrlHalt : Fld := ⟨Blk.gseq, 0x000, 1, 1, 1, 4, 4, 0, .X, [0], .none⟩
/-- GSEQ.STATE.SEQ -/ def gseqStateSeq : Fld := ⟨Blk.gseq, 0x001, 0, 4, 1, 0, 2, 2, .L, [0], .none⟩
/-- GSEQ.BOOTARG.ADDR -/ def gseqBootargAddr : Fld := ⟨Blk.gseq, 0x010, 1, 4, 1, 0, 32, 0, .S, [0], .none⟩
/-- GSEQ.FAULT.CODE -/ def gseqFaultCode : Fld := ⟨Blk.gseq, 0x014, 1, 4, 1, 0, 16, 0, .L, [0], .none⟩
/-- REEVE.CTRL.RUN -/ def reeveCtrlRun : Fld := ⟨Blk.reeve, 0x000, 1, 1, 1, 0, 1, 0, .X, [0], .none⟩
/-- REEVE.CTRL.STOP -/ def reeveCtrlStop : Fld := ⟨Blk.reeve, 0x000, 1, 1, 1, 1, 1, 0, .X, [0], .none⟩
/-- REEVE.CTRL.LOAD -/ def reeveCtrlLoad : Fld := ⟨Blk.reeve, 0x000, 1, 1, 1, 2, 1, 0, .X, [0], .none⟩
/-- REEVE.CTRL.RESTORE -/ def reeveCtrlRestore : Fld := ⟨Blk.reeve, 0x000, 1, 1, 1, 3, 1, 0, .X, [0], .none⟩
/-- REEVE.CTRL.CLEAR -/ def reeveCtrlClear : Fld := ⟨Blk.reeve, 0x000, 1, 1, 1, 4, 1, 0, .X, [0], .none⟩
/-- REEVE.STATE.STATE -/ def reeveStateState : Fld := ⟨Blk.reeve, 0x001, 1, 1, 1, 0, 3, 0, .L, [0], .none⟩
/-- REEVE.STATE.GRAPH_OK -/ def reeveStateGraphOk : Fld := ⟨Blk.reeve, 0x001, 1, 1, 1, 4, 1, 0, .L, [0], .none⟩
/-- REEVE.STATE.RESTORE_OK -/ def reeveStateRestoreOk : Fld := ⟨Blk.reeve, 0x001, 1, 1, 1, 5, 1, 0, .L, [0], .none⟩
/-- REEVE.GRAPH.ADDR -/ def reeveGraphAddr : Fld := ⟨Blk.reeve, 0x010, 1, 1, 1, 0, 32, 0, .S, [0], .gLayout⟩
/-- REEVE.GRAPHSIZE.NODES -/ def reeveGraphsizeNodes : Fld := ⟨Blk.reeve, 0x011, 1, 1, 1, 0, 15, 0, .S, [0], .gLayout⟩
/-- REEVE.GRAPHSIZE.SEGS -/ def reeveGraphsizeSegs : Fld := ⟨Blk.reeve, 0x011, 1, 1, 1, 16, 16, 0, .S, [0], .gLayout⟩
/-- REEVE.MIRROR.ADDR -/ def reeveMirrorAddr : Fld := ⟨Blk.reeve, 0x012, 1, 1, 1, 0, 32, 0, .S, [0], .gLayout⟩
/-- REEVE.REVOKE.ADDR -/ def reeveRevokeAddr : Fld := ⟨Blk.reeve, 0x013, 1, 1, 1, 0, 32, 0, .S, [0], .gLayout⟩
/-- REEVE.REVOKELEN.ENTRIES -/ def reeveRevokelenEntries : Fld := ⟨Blk.reeve, 0x014, 1, 1, 1, 0, 9, 0, .S, [64], .gLayout⟩
/-- REEVE.AUCTLO.DEST_LO -/ def reeveAuctloDestLo : Fld := ⟨Blk.reeve, 0x015, 1, 1, 1, 0, 32, 0, .S, [0], .gAuction⟩
/-- REEVE.AUCTHI.DEST_HI -/ def reeveAucthiDestHi : Fld := ⟨Blk.reeve, 0x016, 1, 1, 1, 0, 18, 0, .S, [0], .gAuction⟩
/-- REEVE.AUCTHI.EN -/ def reeveAucthiEn : Fld := ⟨Blk.reeve, 0x016, 1, 1, 1, 31, 1, 0, .S, [0], .gAuction⟩
/-- REEVE.HORIZON.BUCKETS -/ def reeveHorizonBuckets : Fld := ⟨Blk.reeve, 0x020, 1, 1, 1, 0, 5, 0, .S, [20], .gHorizon⟩
/-- REEVE.HORIZON.LEAD -/ def reeveHorizonLead : Fld := ⟨Blk.reeve, 0x020, 1, 1, 1, 8, 5, 0, .S, [10], .gHorizon⟩
/-- REEVE.HORIZON.MAXAGE -/ def reeveHorizonMaxage : Fld := ⟨Blk.reeve, 0x020, 1, 1, 1, 16, 4, 0, .S, [3], .gHorizon⟩
/-- REEVE.HORIZON.MARGIN -/ def reeveHorizonMargin : Fld := ⟨Blk.reeve, 0x020, 1, 1, 1, 24, 4, 0, .S, [3], .gHorizon⟩
/-- REEVE.LIGHT.BAYS -/ def reeveLightBays : Fld := ⟨Blk.reeve, 0x021, 1, 1, 1, 0, 5, 0, .S, [16], .gLight⟩
/-- REEVE.LIGHT.LEAD_S -/ def reeveLightLeadS : Fld := ⟨Blk.reeve, 0x021, 1, 1, 1, 8, 12, 0, .S, [60], .gLight⟩
/-- REEVE.DAYOFF.OFFSET_S -/ def reeveDayoffOffsetS : Fld := ⟨Blk.reeve, 0x022, 1, 1, 1, 0, 17, 0, .S, [0], .gLight⟩
/-- REEVE.BUDGET.BUDGET_S -/ def reeveBudgetBudgetS : Fld := ⟨Blk.reeve, 0x030, 1, 16, 1, 0, 17, 0, .S, [0], .gLight⟩
/-- REEVE.USED.USED_S -/ def reeveUsedUsedS : Fld := ⟨Blk.reeve, 0x040, 1, 16, 1, 0, 17, 0, .L, [0], .none⟩
/-- REEVE.BUCKET.NEXT -/ def reeveBucketNext : Fld := ⟨Blk.reeve, 0x050, 1, 1, 1, 0, 16, 0, .L, [0], .none⟩
/-- REEVE.BUCKET.ROUND -/ def reeveBucketRound : Fld := ⟨Blk.reeve, 0x050, 1, 1, 1, 16, 16, 0, .L, [0], .none⟩
/-- REEVE.RESIDNEXT.RESID -/ def reeveResidnextResid : Fld := ⟨Blk.reeve, 0x051, 1, 1, 1, 0, 32, 0, .L, [1], .none⟩
/-- REEVE.USE.ENTRIES -/ def reeveUseEntries : Fld := ⟨Blk.reeve, 0x052, 1, 1, 1, 0, 17, 0, .L, [0], .none⟩
/-- REEVE.USE.PORTQ -/ def reeveUsePortq : Fld := ⟨Blk.reeve, 0x052, 1, 1, 1, 24, 7, 0, .L, [0], .none⟩
/-- REEVE.POOL.TASKS -/ def reevePoolTasks : Fld := ⟨Blk.reeve, 0x053, 1, 1, 1, 0, 13, 0, .L, [0], .none⟩
/-- REEVE.POOL.OPEN -/ def reevePoolOpen : Fld := ⟨Blk.reeve, 0x053, 1, 1, 1, 16, 13, 0, .L, [0], .none⟩
/-- REEVE.GRAPHCRC.CRC -/ def reeveGraphcrcCrc : Fld := ⟨Blk.reeve, 0x054, 1, 1, 1, 0, 32, 0, .L, [0], .none⟩
/-- REEVE.CNT0.COMMITS -/ def reeveCnt0Commits : Fld := ⟨Blk.reeve, 0x060, 1, 1, 1, 0, 16, 0, .L, [0], .none⟩
/-- REEVE.CNT0.CONFLICTS -/ def reeveCnt0Conflicts : Fld := ⟨Blk.reeve, 0x060, 1, 1, 1, 16, 16, 0, .L, [0], .none⟩
/-- REEVE.CNT1.FULL -/ def reeveCnt1Full : Fld := ⟨Blk.reeve, 0x061, 1, 1, 1, 0, 16, 0, .L, [0], .none⟩
/-- REEVE.CNT1.STALE -/ def reeveCnt1Stale : Fld := ⟨Blk.reeve, 0x061, 1, 1, 1, 16, 16, 0, .L, [0], .none⟩
/-- REEVE.CNT2.PREEMPTS -/ def reeveCnt2Preempts : Fld := ⟨Blk.reeve, 0x062, 1, 1, 1, 0, 16, 0, .L, [0], .none⟩
/-- REEVE.CNT2.REVOKE_FAILS -/ def reeveCnt2RevokeFails : Fld := ⟨Blk.reeve, 0x062, 1, 1, 1, 16, 16, 0, .L, [0], .none⟩
/-- REEVE.FAULT.CODE -/ def reeveFaultCode : Fld := ⟨Blk.reeve, 0x063, 1, 1, 1, 0, 16, 0, .L, [0], .none⟩
/-- REEVE.FAULT.INDEX -/ def reeveFaultIndex : Fld := ⟨Blk.reeve, 0x063, 1, 1, 1, 16, 16, 0, .L, [0], .none⟩
/-- RADIO.CTRL.RUN -/ def radioCtrlRun : Fld := ⟨Blk.radio, 0x000, 1, 1, 1, 0, 4, 0, .X, [0], .none⟩
/-- RADIO.CTRL.STOP -/ def radioCtrlStop : Fld := ⟨Blk.radio, 0x000, 1, 1, 1, 4, 4, 0, .X, [0], .none⟩
/-- RADIO.COUNT.CONN -/ def radioCountConn : Fld := ⟨Blk.radio, 0x001, 1, 1, 1, 0, 8, 0, .L, [0], .none⟩
/-- RADIO.COUNT.SLEEPY -/ def radioCountSleepy : Fld := ⟨Blk.radio, 0x001, 1, 1, 1, 8, 10, 0, .L, [0], .none⟩
/-- RADIO.COUNT.LEGACY -/ def radioCountLegacy : Fld := ⟨Blk.radio, 0x001, 1, 1, 1, 18, 9, 0, .L, [0], .none⟩
/-- RADIO.NBRBASE.ADDR -/ def radioNbrbaseAddr : Fld := ⟨Blk.radio, 0x010, 1, 1, 1, 0, 32, 0, .S, [0], .gLayout⟩
/-- RADIO.PLANBASE.ADDR -/ def radioPlanbaseAddr : Fld := ⟨Blk.radio, 0x011, 1, 1, 1, 0, 32, 0, .S, [0], .gLayout⟩
/-- RADIO.KEY.ROOT -/ def radioKeyRoot : Fld := ⟨Blk.radio, 0x012, 1, 1, 1, 0, 6, 0, .S, [0], .gKey⟩
/-- RADIO.KEY.LROOT -/ def radioKeyLroot : Fld := ⟨Blk.radio, 0x012, 1, 1, 1, 8, 6, 0, .S, [0], .gKey⟩
/-- RADIO.KEY.EPOCH -/ def radioKeyEpoch : Fld := ⟨Blk.radio, 0x012, 1, 1, 1, 16, 8, 0, .S, [0], .gKey⟩
/-- RADIO.NBRSET.INDEX -/ def radioNbrsetIndex : Fld := ⟨Blk.radio, 0x013, 1, 1, 1, 0, 10, 0, .X, [0], .none⟩
/-- RADIO.NBRSET.LINE -/ def radioNbrsetLine : Fld := ⟨Blk.radio, 0x013, 1, 1, 1, 10, 3, 0, .X, [0], .none⟩
/-- RADIO.NBRSET.GO -/ def radioNbrsetGo : Fld := ⟨Blk.radio, 0x013, 1, 1, 1, 31, 1, 0, .X, [0], .none⟩
/-- RADIO.NBRRES.RESULT -/ def radioNbrresResult : Fld := ⟨Blk.radio, 0x014, 1, 1, 1, 0, 16, 0, .L, [0], .none⟩
/-- RADIO.NBRRES.INDEX -/ def radioNbrresIndex : Fld := ⟨Blk.radio, 0x014, 1, 1, 1, 16, 10, 0, .L, [0], .none⟩
/-- RADIO.NBRRES.DONE -/ def radioNbrresDone : Fld := ⟨Blk.radio, 0x014, 1, 1, 1, 31, 1, 0, .L, [0], .none⟩
/-- RADIO.BOOTARG.ADDR -/ def radioBootargAddr : Fld := ⟨Blk.radio, 0x018, 1, 4, 1, 0, 32, 0, .S, [0], .none⟩
/-- RADIO.FAULTN.CODE -/ def radioFaultnCode : Fld := ⟨Blk.radio, 0x01C, 1, 4, 1, 0, 16, 0, .L, [0], .none⟩
/-- RADIO.FAULT.CODE -/ def radioFaultCode : Fld := ⟨Blk.radio, 0x020, 1, 1, 1, 0, 16, 0, .L, [0], .none⟩
/-- RADIO.FAULT.INDEX -/ def radioFaultIndex : Fld := ⟨Blk.radio, 0x020, 1, 1, 1, 16, 10, 0, .L, [0], .none⟩
/-- RADIO.PHY.RATE_KBPS -/ def radioPhyRateKbps : Fld := ⟨Blk.radio, 0x100, 32, 4, 1, 0, 14, 0, .S, [1000], .gPort⟩
/-- RADIO.PHY.PHYOVH -/ def radioPhyPhyovh : Fld := ⟨Blk.radio, 0x100, 32, 4, 1, 16, 5, 0, .S, [12], .gPort⟩
/-- RADIO.PHY.SYNCB -/ def radioPhySyncb : Fld := ⟨Blk.radio, 0x100, 32, 4, 1, 24, 5, 0, .S, [8], .gPort⟩
/-- RADIO.TIM.TXLAT_US -/ def radioTimTxlatUs : Fld := ⟨Blk.radio, 0x101, 32, 4, 1, 0, 6, 0, .S, [12], .gPort⟩
/-- RADIO.TIM.GUARD_US -/ def radioTimGuardUs : Fld := ⟨Blk.radio, 0x101, 32, 4, 1, 8, 6, 0, .S, [20], .gPort⟩
/-- RADIO.TIM.RXGUARD_US -/ def radioTimRxguardUs : Fld := ⟨Blk.radio, 0x101, 32, 4, 1, 16, 6, 0, .S, [20], .gPort⟩
/-- RADIO.TIM.LEADP_US -/ def radioTimLeadpUs : Fld := ⟨Blk.radio, 0x101, 32, 4, 1, 24, 6, 0, .S, [12], .gPort⟩
/-- RADIO.POLL.NSUB -/ def radioPollNsub : Fld := ⟨Blk.radio, 0x102, 32, 4, 1, 0, 2, 0, .S, [1], .gPort⟩
/-- RADIO.POLL.PGUARD_US -/ def radioPollPguardUs : Fld := ⟨Blk.radio, 0x102, 32, 4, 1, 8, 6, 0, .S, [8], .gPort⟩
/-- RADIO.POLL.ANSOFF_US -/ def radioPollAnsoffUs : Fld := ⟨Blk.radio, 0x102, 32, 4, 1, 16, 9, 0, .S, [48], .gPort⟩
/-- RADIO.REG.MODE -/ def radioRegMode : Fld := ⟨Blk.radio, 0x103, 32, 4, 1, 0, 2, 0, .S, [1], .gReg⟩
/-- RADIO.REG.CCA_DBM -/ def radioRegCcaDbm : Fld := ⟨Blk.radio, 0x103, 32, 4, 1, 8, 8, 0, .S, [181], .gReg⟩
/-- RADIO.REG.CW -/ def radioRegCw : Fld := ⟨Blk.radio, 0x103, 32, 4, 1, 16, 6, 0, .S, [8], .gReg⟩
/-- RADIO.REG.TRIES -/ def radioRegTries : Fld := ⟨Blk.radio, 0x103, 32, 4, 1, 24, 4, 0, .S, [4], .gReg⟩
/-- RADIO.LBT.CCA_US -/ def radioLbtCcaUs : Fld := ⟨Blk.radio, 0x104, 32, 4, 1, 0, 8, 0, .S, [15], .gReg⟩
/-- RADIO.LBT.BO_US -/ def radioLbtBoUs : Fld := ⟨Blk.radio, 0x104, 32, 4, 1, 8, 8, 0, .S, [10], .gReg⟩
/-- RADIO.DUTY.DUTY_PM -/ def radioDutyDutyPm : Fld := ⟨Blk.radio, 0x105, 32, 4, 1, 0, 10, 0, .S, [1000], .gReg⟩
/-- RADIO.DUTY.DUTY_WIN_S -/ def radioDutyDutyWinS : Fld := ⟨Blk.radio, 0x105, 32, 4, 1, 16, 12, 0, .S, [3600], .gReg⟩
/-- RADIO.DUTYR.RES_MS -/ def radioDutyrResMs : Fld := ⟨Blk.radio, 0x106, 32, 4, 1, 0, 16, 0, .S, [0], .gReg⟩
/-- RADIO.DWELL.DWELL_MAX_MS -/ def radioDwellDwellMaxMs : Fld := ⟨Blk.radio, 0x107, 32, 4, 1, 0, 16, 0, .S, [400], .gReg⟩
/-- RADIO.DWELL.DWELL_WIN_S -/ def radioDwellDwellWinS : Fld := ⟨Blk.radio, 0x107, 32, 4, 1, 16, 12, 0, .S, [20], .gReg⟩
/-- RADIO.DWELLR.RES_MS -/ def radioDwellrResMs : Fld := ⟨Blk.radio, 0x108, 32, 4, 1, 0, 16, 0, .S, [0], .gReg⟩
/-- RADIO.BCH.BCH -/ def radioBchBch : Fld := ⟨Blk.radio, 0x109, 32, 4, 1, 0, 6, 0, .S, [0], .gReg⟩
/-- RADIO.BCH.BHOP -/ def radioBchBhop : Fld := ⟨Blk.radio, 0x109, 32, 4, 1, 8, 6, 0, .S, [1], .gReg⟩
/-- RADIO.BMAPLO.MAP -/ def radioBmaploMap : Fld := ⟨Blk.radio, 0x10A, 32, 4, 1, 0, 32, 0, .S, [1], .gReg⟩
/-- RADIO.BMAPHI.MAP -/ def radioBmaphiMap : Fld := ⟨Blk.radio, 0x10B, 32, 4, 1, 0, 32, 0, .S, [0], .gReg⟩
/-- RADIO.STAT.STATE -/ def radioStatState : Fld := ⟨Blk.radio, 0x10C, 32, 4, 1, 0, 3, 0, .L, [0], .none⟩
/-- RADIO.STAT.BMISS -/ def radioStatBmiss : Fld := ⟨Blk.radio, 0x10C, 32, 4, 1, 8, 8, 0, .L, [0], .none⟩
/-- RADIO.STAT.DUTY_USED -/ def radioStatDutyUsed : Fld := ⟨Blk.radio, 0x10C, 32, 4, 1, 16, 10, 0, .L, [0], .none⟩
/-- RADIO.CNT0.TX -/ def radioCnt0Tx : Fld := ⟨Blk.radio, 0x10D, 32, 4, 1, 0, 16, 0, .L, [0], .none⟩
/-- RADIO.CNT0.RX -/ def radioCnt0Rx : Fld := ⟨Blk.radio, 0x10D, 32, 4, 1, 16, 16, 0, .L, [0], .none⟩
/-- RADIO.CNT1.MIC -/ def radioCnt1Mic : Fld := ⟨Blk.radio, 0x10E, 32, 4, 1, 0, 16, 0, .L, [0], .none⟩
/-- RADIO.CNT1.REPLAY -/ def radioCnt1Replay : Fld := ⟨Blk.radio, 0x10E, 32, 4, 1, 16, 16, 0, .L, [0], .none⟩
/-- RADIO.CNT2.LBT -/ def radioCnt2Lbt : Fld := ⟨Blk.radio, 0x10F, 32, 4, 1, 0, 16, 0, .L, [0], .none⟩
/-- RADIO.CNT2.LIMIT -/ def radioCnt2Limit : Fld := ⟨Blk.radio, 0x10F, 32, 4, 1, 16, 16, 0, .L, [0], .none⟩
/-- RADIO.CNT3.FCS -/ def radioCnt3Fcs : Fld := ⟨Blk.radio, 0x110, 32, 4, 1, 0, 16, 0, .L, [0], .none⟩
/-- RADIO.CNT3.XDROP -/ def radioCnt3Xdrop : Fld := ⟨Blk.radio, 0x110, 32, 4, 1, 16, 16, 0, .L, [0], .none⟩
/-- BELL.CTRL.RUN -/ def bellCtrlRun : Fld := ⟨Blk.bell, 0x000, 1, 1, 1, 0, 1, 0, .X, [0], .none⟩
/-- BELL.STATE.STATE -/ def bellStateState : Fld := ⟨Blk.bell, 0x001, 1, 1, 1, 0, 3, 0, .L, [4], .none⟩
/-- BELL.STATE.LOCAL -/ def bellStateLocal : Fld := ⟨Blk.bell, 0x001, 1, 1, 1, 4, 2, 0, .L, [0], .none⟩
/-- BELL.STATE.PARTNER -/ def bellStatePartner : Fld := ⟨Blk.bell, 0x001, 1, 1, 1, 6, 2, 0, .L, [0], .none⟩
/-- BELL.STATE.PLIVE -/ def bellStatePlive : Fld := ⟨Blk.bell, 0x001, 1, 1, 1, 8, 1, 0, .L, [0], .none⟩
/-- BELL.STATE.BOUND_OK -/ def bellStateBoundOk : Fld := ⟨Blk.bell, 0x001, 1, 1, 1, 9, 1, 0, .L, [0], .none⟩
/-- BELL.STATE.FIT -/ def bellStateFit : Fld := ⟨Blk.bell, 0x001, 1, 1, 1, 12, 4, 0, .L, [0], .none⟩
/-- BELL.SRC.EST -/ def bellSrcEst : Fld := ⟨Blk.bell, 0x002, 1, 1, 1, 0, 4, 0, .L, [0], .none⟩
/-- BELL.SRC.CMD -/ def bellSrcCmd : Fld := ⟨Blk.bell, 0x002, 1, 1, 1, 4, 1, 0, .L, [0], .none⟩
/-- BELL.SRC.KERNEL -/ def bellSrcKernel : Fld := ⟨Blk.bell, 0x002, 1, 1, 1, 5, 1, 0, .L, [0], .none⟩
/-- BELL.SRC.START -/ def bellSrcStart : Fld := ⟨Blk.bell, 0x002, 1, 1, 1, 6, 1, 0, .L, [1], .none⟩
/-- BELL.SRC.ESTCOND -/ def bellSrcEstcond : Fld := ⟨Blk.bell, 0x002, 1, 1, 1, 8, 4, 0, .L, [0], .none⟩
/-- BELL.EST.EN -/ def bellEstEn : Fld := ⟨Blk.bell, 0x010, 1, 4, 1, 0, 1, 0, .S, [0], .gInput⟩
/-- BELL.EST.CLASS -/ def bellEstClass : Fld := ⟨Blk.bell, 0x010, 1, 4, 1, 1, 2, 0, .S, [1], .gInput⟩
/-- BELL.EST.TEST_EN -/ def bellEstTestEn : Fld := ⟨Blk.bell, 0x010, 1, 4, 1, 3, 1, 0, .S, [1], .gInput⟩
/-- BELL.EST.FILT_US -/ def bellEstFiltUs : Fld := ⟨Blk.bell, 0x010, 1, 4, 1, 8, 8, 0, .S, [20], .gInput⟩
/-- BELL.TEST.TPER_MS -/ def bellTestTperMs : Fld := ⟨Blk.bell, 0x014, 1, 1, 1, 0, 10, 0, .S, [100], .gInput⟩
/-- BELL.TEST.TP_US -/ def bellTestTpUs : Fld := ⟨Blk.bell, 0x014, 1, 1, 1, 16, 10, 0, .S, [200], .gInput⟩
/-- BELL.DISC.DISC_MS -/ def bellDiscDiscMs : Fld := ⟨Blk.bell, 0x015, 1, 1, 1, 0, 13, 0, .S, [500], .gInput⟩
/-- BELL.ESTSTAT.AOPEN -/ def bellEststatAopen : Fld := ⟨Blk.bell, 0x016, 1, 1, 1, 0, 4, 0, .L, [0], .none⟩
/-- BELL.ESTSTAT.BOPEN -/ def bellEststatBopen : Fld := ⟨Blk.bell, 0x016, 1, 1, 1, 4, 4, 0, .L, [0], .none⟩
/-- BELL.ESTSTAT.TESTFAIL -/ def bellEststatTestfail : Fld := ⟨Blk.bell, 0x016, 1, 1, 1, 8, 4, 0, .C, [0], .none⟩
/-- BELL.ESTSTAT.DISCREP -/ def bellEststatDiscrep : Fld := ⟨Blk.bell, 0x016, 1, 1, 1, 12, 4, 0, .C, [0], .none⟩
/-- BELL.CSTOP.MODE -/ def bellCstopMode : Fld := ⟨Blk.bell, 0x018, 0, 4, 1, 0, 2, 2, .S, [0], .gCstop⟩
/-- BELL.CSTOP.LEVEL -/ def bellCstopLevel : Fld := ⟨Blk.bell, 0x018, 1, 1, 1, 16, 4, 0, .L, [0], .none⟩
/-- BELL.KEY.ROOT -/ def bellKeyRoot : Fld := ⟨Blk.bell, 0x020, 1, 1, 1, 0, 6, 0, .S, [0], .gKey⟩
/-- BELL.KEY.CMDROOT -/ def bellKeyCmdroot : Fld := ⟨Blk.bell, 0x020, 1, 1, 1, 8, 6, 0, .S, [0], .gKey⟩
/-- BELL.KEY.EPOCH -/ def bellKeyEpoch : Fld := ⟨Blk.bell, 0x020, 1, 1, 1, 16, 8, 0, .S, [0], .gKey⟩
/-- BELL.COUNT.VALUE -/ def bellCountValue : Fld := ⟨Blk.bell, 0x021, 1, 1, 1, 0, 32, 0, .L, [0], .none⟩
/-- BELL.RESV.VALUE -/ def bellResvValue : Fld := ⟨Blk.bell, 0x022, 1, 1, 1, 0, 32, 0, .L, [0], .none⟩
/-- BELL.FAULT.CODE -/ def bellFaultCode : Fld := ⟨Blk.bell, 0x030, 1, 1, 1, 0, 16, 0, .L, [0], .none⟩
/-- BELL.FAULT.INDEX -/ def bellFaultIndex : Fld := ⟨Blk.bell, 0x030, 1, 1, 1, 16, 10, 0, .L, [0], .none⟩
/-- BELL.WIN.NACK -/ def bellWinNack : Fld := ⟨Blk.bell, 0x100, 16, 4, 1, 0, 4, 0, .S, [0], .gWin⟩
/-- BELL.WIN.AOFF_US -/ def bellWinAoffUs : Fld := ⟨Blk.bell, 0x100, 16, 4, 1, 8, 8, 0, .S, [0], .gWin⟩
/-- BELL.WIN.ASUB_US -/ def bellWinAsubUs : Fld := ⟨Blk.bell, 0x100, 16, 4, 1, 16, 8, 0, .S, [0], .gWin⟩
/-- BELL.WIN.BRETRY_US -/ def bellWinBretryUs : Fld := ⟨Blk.bell, 0x100, 16, 4, 1, 24, 8, 0, .S, [0], .gWin⟩
/-- BELL.WIN2.SECOND_US -/ def bellWin2SecondUs : Fld := ⟨Blk.bell, 0x101, 16, 4, 1, 0, 9, 0, .S, [0], .gWin⟩
/-- BELL.WIN2.KEEP -/ def bellWin2Keep : Fld := ⟨Blk.bell, 0x101, 16, 4, 1, 12, 1, 0, .S, [0], .gWin⟩
/-- BELL.ACK.ROSTER -/ def bellAckRoster : Fld := ⟨Blk.bell, 0x102, 16, 4, 1, 0, 8, 0, .L, [0], .none⟩
/-- BELL.ACK.OWED -/ def bellAckOwed : Fld := ⟨Blk.bell, 0x102, 16, 4, 1, 8, 8, 0, .L, [0], .none⟩
/-- BELL.ACK.ACKED -/ def bellAckAcked : Fld := ⟨Blk.bell, 0x102, 16, 4, 1, 16, 8, 0, .L, [0], .none⟩
/-- BELL.CNT.SENT -/ def bellCntSent : Fld := ⟨Blk.bell, 0x103, 16, 4, 1, 0, 16, 0, .L, [0], .none⟩
/-- BELL.CNT.SKIPPED -/ def bellCntSkipped : Fld := ⟨Blk.bell, 0x103, 16, 4, 1, 16, 16, 0, .L, [0], .none⟩
/-- BELL.OWED.OWED -/ def bellOwedOwed : Fld := ⟨Blk.bell, 0x200, 1, 32, 1, 0, 32, 0, .L, [0], .none⟩
/-- QUEUE.CTRL.ENABLE -/ def queueCtrlEnable : Fld := ⟨Blk.queue, 0x000, 16, 48, 1, 0, 1, 0, .X, [0], .none⟩
/-- QUEUE.CTRL.DISABLE -/ def queueCtrlDisable : Fld := ⟨Blk.queue, 0x000, 16, 48, 1, 1, 1, 0, .X, [0], .none⟩
/-- QUEUE.CTRL.FLUSH -/ def queueCtrlFlush : Fld := ⟨Blk.queue, 0x000, 16, 48, 1, 2, 1, 0, .X, [0], .none⟩
/-- QUEUE.CFG.WRITERS -/ def queueCfgWriters : Fld := ⟨Blk.queue, 0x001, 16, 48, 1, 0, 14, 0, .S, ([0, 0, 0, 0, 0, 0, 0, 0, 0, 0, 0, 0, 0, 0, 0, 0, 0, 0, 0, 0, 0, 0, 0, 0, 0, 0, 0, 0, 0, 0, 0, 0, 0, 0, 0, 0, 0, 0, 0, 0, 12288, 0, 0, 0, 0, 0, 0, 0]), .gLayout⟩
/-- QUEUE.CFG.READER -/ def queueCfgReader : Fld := ⟨Blk.queue, 0x001, 16, 48, 1, 16, 4, 0, .S, ([0, 0, 0, 0, 0, 0, 0, 0, 0, 0, 0, 0, 0, 0, 0, 0, 0, 0, 0, 0, 0, 0, 0, 0, 0, 0, 0, 0, 13, 13, 13, 13, 0, 0, 0, 0, 0, 0, 0, 0, 0, 0, 0, 0, 0, 0, 0, 1]), .gLayout⟩
/-- QUEUE.CFG.GATED -/ def queueCfgGated : Fld := ⟨Blk.queue, 0x001, 16, 48, 1, 20, 1, 0, .S, [0], .gLayout⟩
/-- QUEUE.CFG.LINE -/ def queueCfgLine : Fld := ⟨Blk.queue, 0x001, 16, 48, 1, 21, 3, 0, .S, [0], .none⟩
/-- QUEUE.CFG.NEIRQ -/ def queueCfgNeirq : Fld := ⟨Blk.queue, 0x001, 16, 48, 1, 24, 1, 0, .S, [0], .none⟩
/-- QUEUE.CFG.SIZE -/ def queueCfgSize : Fld := ⟨Blk.queue, 0x001, 16, 48, 1, 25, 3, 0, .S, ([1, 1, 1, 1, 1, 1, 1, 1, 1, 1, 1, 1, 2, 2, 2, 2, 1, 1, 1, 1, 0, 0, 0, 0, 0, 0, 0, 0, 3, 3, 3, 3, 0, 0, 0, 0, 0, 0, 0, 0, 0, 0, 0, 5, 5, 1, 1, 0]), .gLayout⟩
/-- QUEUE.CFG.KWR -/ def queueCfgKwr : Fld := ⟨Blk.queue, 0x001, 16, 48, 1, 28, 1, 0, .S, [0], .none⟩
/-- QUEUE.BASE.ADDR -/ def queueBaseAddr : Fld := ⟨Blk.queue, 0x002, 16, 48, 1, 0, 32, 0, .S, [0], .gLayout⟩
/-- QUEUE.WM.HIGH -/ def queueWmHigh : Fld := ⟨Blk.queue, 0x003, 16, 48, 1, 0, 11, 0, .S, ([48, 48, 48, 48, 48, 48, 48, 48, 48, 48, 48, 48, 96, 96, 96, 96, 48, 48, 48, 48, 24, 24, 24, 24, 24, 24, 24, 24, 192, 192, 192, 192, 24, 24, 24, 24, 24, 24, 24, 24, 24, 24, 24, 768, 768, 48, 48, 24]), .gWm⟩
/-- QUEUE.WM.LOW -/ def queueWmLow : Fld := ⟨Blk.queue, 0x003, 16, 48, 1, 16, 10, 0, .S, ([16, 16, 16, 16, 16, 16, 16, 16, 16, 16, 16, 16, 32, 32, 32, 32, 16, 16, 16, 16, 8, 8, 8, 8, 8, 8, 8, 8, 64, 64, 64, 64, 8, 8, 8, 8, 8, 8, 8, 8, 8, 8, 8, 256, 256, 16, 16, 8]), .gWm⟩
/-- QUEUE.RING.ADDR -/ def queueRingAddr : Fld := ⟨Blk.queue, 0x004, 16, 48, 1, 0, 32, 0, .S, [0], .gLayout⟩
/-- QUEUE.STAT.FILL -/ def queueStatFill : Fld := ⟨Blk.queue, 0x005, 16, 48, 1, 0, 17, 0, .L, [0], .none⟩
/-- QUEUE.STAT.WM -/ def queueStatWm : Fld := ⟨Blk.queue, 0x005, 16, 48, 1, 17, 1, 0, .L, [0], .none⟩
/-- QUEUE.STAT.FULL -/ def queueStatFull : Fld := ⟨Blk.queue, 0x005, 16, 48, 1, 18, 1, 0, .L, [0], .none⟩
/-- QUEUE.STAT.EMPTY -/ def queueStatEmpty : Fld := ⟨Blk.queue, 0x005, 16, 48, 1, 19, 1, 0, .L, [1], .none⟩
/-- QUEUE.STAT.MARKOPEN -/ def queueStatMarkopen : Fld := ⟨Blk.queue, 0x005, 16, 48, 1, 20, 1, 0, .L, [0], .none⟩
/-- QUEUE.STAT.STATE -/ def queueStatState : Fld := ⟨Blk.queue, 0x005, 16, 48, 1, 21, 2, 0, .L, ([0, 0, 0, 0, 0, 0, 0, 0, 0, 0, 0, 0, 0, 0, 0, 0, 0, 0, 0, 0, 0, 0, 0, 0, 0, 0, 0, 0, 0, 0, 0, 0, 0, 0, 0, 0, 0, 0, 0, 0, 1, 1, 1, 1, 1, 1, 1, 1]), .none⟩
/-- QUEUE.CNT.DROPPED -/ def queueCntDropped : Fld := ⟨Blk.queue, 0x006, 16, 48, 1, 0, 16, 0, .L, [0], .none⟩
/-- QUEUE.CNT.WITHHELD -/ def queueCntWithheld : Fld := ⟨Blk.queue, 0x006, 16, 48, 1, 16, 16, 0, .L, [0], .none⟩
/-- NET.CTRL.RUN -/ def netCtrlRun : Fld := ⟨Blk.net, 0x000, 1, 1, 1, 0, 4, 0, .X, [0], .none⟩
/-- NET.CTRL.STOP -/ def netCtrlStop : Fld := ⟨Blk.net, 0x000, 1, 1, 1, 4, 4, 0, .X, [0], .none⟩
/-- NET.STATE.PORT -/ def netStatePort : Fld := ⟨Blk.net, 0x001, 0, 4, 1, 0, 2, 2, .L, [0], .none⟩
/-- NET.HUB.IN -/ def netHubIn : Fld := ⟨Blk.net, 0x002, 1, 1, 1, 0, 6, 0, .S, [0], .gHub⟩
/-- NET.HUB.OUTG -/ def netHubOutg : Fld := ⟨Blk.net, 0x002, 1, 1, 1, 8, 6, 0, .S, [0], .gHub⟩
/-- NET.HUB.OUTU -/ def netHubOutu : Fld := ⟨Blk.net, 0x002, 1, 1, 1, 16, 6, 0, .S, [0], .gHub⟩
/-- NET.MACLO.ADDR -/ def netMacloAddr : Fld := ⟨Blk.net, 0x003, 1, 1, 1, 0, 32, 0, .S, [0], .none⟩
/-- NET.MACHI.ADDR -/ def netMachiAddr : Fld := ⟨Blk.net, 0x004, 1, 1, 1, 0, 16, 0, .S, [0], .none⟩
/-- NET.PTP.DOMAIN -/ def netPtpDomain : Fld := ⟨Blk.net, 0x005, 1, 1, 1, 0, 8, 0, .S, [0], .gPtp⟩
/-- NET.PTP.PROFILE -/ def netPtpProfile : Fld := ⟨Blk.net, 0x005, 1, 1, 1, 8, 2, 0, .S, [0], .gPtp⟩
/-- NET.PTP.TC_EN -/ def netPtpTcEn : Fld := ⟨Blk.net, 0x005, 1, 1, 1, 12, 1, 0, .S, [1], .none⟩
/-- NET.PTP.UDP -/ def netPtpUdp : Fld := ⟨Blk.net, 0x005, 1, 1, 1, 13, 1, 0, .S, [1], .none⟩
/-- NET.PORT.MODE -/ def netPortMode : Fld := ⟨Blk.net, 0x010, 1, 4, 1, 0, 2, 0, .S, [0], .gPort⟩
/-- NET.PORT.AN -/ def netPortAn : Fld := ⟨Blk.net, 0x010, 1, 4, 1, 2, 1, 0, .S, [1], .gPort⟩
/-- NET.PORT.PTP_EN -/ def netPortPtpEn : Fld := ⟨Blk.net, 0x010, 1, 4, 1, 3, 1, 0, .S, [1], .gPort⟩
/-- NET.LAT.RX_PHY -/ def netLatRxPhy : Fld := ⟨Blk.net, 0x014, 1, 4, 1, 0, 16, 0, .S, [0], .none⟩
/-- NET.LAT.TX_PHY -/ def netLatTxPhy : Fld := ⟨Blk.net, 0x014, 1, 4, 1, 16, 16, 0, .S, [0], .none⟩
/-- NET.PDELAY.DELAY -/ def netPdelayDelay : Fld := ⟨Blk.net, 0x018, 1, 4, 1, 0, 24, 0, .S, [0], .none⟩
/-- NET.PSTAT.SPEED -/ def netPstatSpeed : Fld := ⟨Blk.net, 0x01C, 1, 4, 1, 0, 2, 0, .L, [0], .none⟩
/-- NET.PSTAT.LOCK -/ def netPstatLock : Fld := ⟨Blk.net, 0x01C, 1, 4, 1, 2, 1, 0, .L, [0], .none⟩
/-- NET.PSTAT.LINKCHG -/ def netPstatLinkchg : Fld := ⟨Blk.net, 0x01C, 1, 4, 1, 8, 1, 0, .C, [0], .none⟩
/-- NET.CNT.RX -/ def netCntRx : Fld := ⟨Blk.net, 0x020, 1, 4, 1, 0, 16, 0, .L, [0], .none⟩
/-- NET.CNT.TX -/ def netCntTx : Fld := ⟨Blk.net, 0x020, 1, 4, 1, 16, 16, 0, .L, [0], .none⟩
/-- NET.CNTP.STAMPED -/ def netCntpStamped : Fld := ⟨Blk.net, 0x024, 1, 4, 1, 0, 16, 0, .L, [0], .none⟩
/-- NET.CNTP.TCFIX -/ def netCntpTcfix : Fld := ⟨Blk.net, 0x024, 1, 4, 1, 16, 16, 0, .L, [0], .none⟩
/-- NET.CNTB.BELLDROP -/ def netCntbBelldrop : Fld := ⟨Blk.net, 0x028, 1, 1, 1, 0, 16, 0, .L, [0], .none⟩
/-- NET.CNTB.TCDROP -/ def netCntbTcdrop : Fld := ⟨Blk.net, 0x028, 1, 1, 1, 16, 16, 0, .L, [0], .none⟩
/-- NET.FAULT.CODE -/ def netFaultCode : Fld := ⟨Blk.net, 0x029, 1, 1, 1, 0, 16, 0, .L, [0], .none⟩
/-- NET.FAULT.PORT -/ def netFaultPort : Fld := ⟨Blk.net, 0x029, 1, 1, 1, 16, 2, 0, .L, [0], .none⟩
/-- TIME.CTRL.FEED -/ def timeCtrlFeed : Fld := ⟨Blk.time, 0x000, 1, 1, 1, 0, 1, 0, .X, [0], .none⟩
/-- TIME.CTRL.SNAP -/ def timeCtrlSnap : Fld := ⟨Blk.time, 0x000, 1, 1, 1, 1, 1, 0, .X, [0], .none⟩
/-- TIME.STATE.SERVO -/ def timeStateServo : Fld := ⟨Blk.time, 0x001, 1, 1, 1, 0, 2, 0, .L, [0], .none⟩
/-- TIME.STATE.SLEWING -/ def timeStateSlewing : Fld := ⟨Blk.time, 0x001, 1, 1, 1, 4, 1, 0, .L, [0], .none⟩
/-- TIME.STATE.STEP_PENDING -/ def timeStateStepPending : Fld := ⟨Blk.time, 0x001, 1, 1, 1, 5, 1, 0, .L, [0], .none⟩
/-- TIME.STATE.TUNE_SAT -/ def timeStateTuneSat : Fld := ⟨Blk.time, 0x001, 1, 1, 1, 6, 1, 0, .L, [0], .none⟩
/-- TIME.STATE.ANCHORED -/ def timeStateAnchored : Fld := ⟨Blk.time, 0x001, 1, 1, 1, 7, 1, 0, .L, [0], .none⟩
/-- TIME.STATE.STEPSEQ -/ def timeStateStepseq : Fld := ⟨Blk.time, 0x001, 1, 1, 1, 8, 8, 0, .L, [0], .none⟩
/-- TIME.FEEDBASE.ADDR -/ def timeFeedbaseAddr : Fld := ⟨Blk.time, 0x010, 1, 1, 1, 0, 32, 0, .S, [0], .gFeed⟩
/-- TIME.FEEDLEN.ENTRIES -/ def timeFeedlenEntries : Fld := ⟨Blk.time, 0x011, 1, 1, 1, 0, 11, 0, .S, [64], .gFeed⟩
/-- TIME.FEEDGET.COUNT -/ def timeFeedgetCount : Fld := ⟨Blk.time, 0x012, 1, 1, 1, 0, 32, 0, .L, [0], .none⟩
/-- TIME.SERVO.SRC -/ def timeServoSrc : Fld := ⟨Blk.time, 0x013, 1, 1, 1, 0, 3, 0, .S, [0], .gServo⟩
/-- TIME.SERVO.TUNE_EN -/ def timeServoTuneEn : Fld := ⟨Blk.time, 0x013, 1, 1, 1, 4, 1, 0, .S, [0], .gServo⟩
/-- TIME.SERVO.FEED_TO_MS -/ def timeServoFeedToMs : Fld := ⟨Blk.time, 0x013, 1, 1, 1, 16, 16, 0, .S, [1000], .gServo⟩
/-- TIME.KP.KP -/ def timeKpKp : Fld := ⟨Blk.time, 0x014, 1, 1, 1, 0, 32, 0, .S, [6554], .none⟩
/-- TIME.KI.KI -/ def timeKiKi : Fld := ⟨Blk.time, 0x015, 1, 1, 1, 0, 32, 0, .S, [41943], .none⟩
/-- TIME.LIMIT.FMAX_PPM -/ def timeLimitFmaxPpm : Fld := ⟨Blk.time, 0x016, 1, 1, 1, 0, 8, 0, .S, [50], .gServo⟩
/-- TIME.LIMIT.SLEW_PPB -/ def timeLimitSlewPpb : Fld := ⟨Blk.time, 0x016, 1, 1, 1, 16, 10, 0, .S, [50], .gServo⟩
/-- TIME.OUTLIER.OUTLIER_NS -/ def timeOutlierOutlierNs : Fld := ⟨Blk.time, 0x017, 1, 1, 1, 0, 32, 0, .S, [1000], .none⟩
/-- TIME.FADJ.VALUE -/ def timeFadjValue : Fld := ⟨Blk.time, 0x018, 1, 1, 1, 0, 32, 0, .L, [0], .none⟩
/-- TIME.FINT.VALUE -/ def timeFintValue : Fld := ⟨Blk.time, 0x019, 1, 1, 1, 0, 32, 0, .L, [0], .none⟩
/-- TIME.TUNE.CENTER -/ def timeTuneCenter : Fld := ⟨Blk.time, 0x01A, 1, 1, 1, 0, 20, 0, .S, [0x80000], .none⟩
/-- TIME.TUNEGAIN.GAIN -/ def timeTunegainGain : Fld := ⟨Blk.time, 0x01B, 1, 1, 1, 0, 24, 0, .S, [0], .gServo⟩
/-- TIME.TUNEGAIN.INVERT -/ def timeTunegainInvert : Fld := ⟨Blk.time, 0x01B, 1, 1, 1, 24, 1, 0, .S, [0], .gServo⟩
/-- TIME.TUNECODE.CODE -/ def timeTunecodeCode : Fld := ⟨Blk.time, 0x01C, 1, 1, 1, 0, 20, 0, .L, [0x80000], .none⟩
/-- TIME.PPSPER.PERIOD_NS -/ def timePpsperPeriodNs : Fld := ⟨Blk.time, 0x020, 4, 2, 1, 0, 30, 0, .S, [0x3b9aca00], .gPps⟩
/-- TIME.PPSWID.WIDTH_NS -/ def timePpswidWidthNs : Fld := ⟨Blk.time, 0x021, 4, 2, 1, 0, 30, 0, .S, [0x5f5e100], .gPps⟩
/-- TIME.PPSOFF.OFFSET -/ def timePpsoffOffset : Fld := ⟨Blk.time, 0x022, 4, 2, 1, 0, 32, 0, .S, [0], .gPps⟩
/-- TIME.PPSCFG.EN -/ def timePpscfgEn : Fld := ⟨Blk.time, 0x023, 4, 2, 1, 0, 1, 0, .S, [0], .gPps⟩
/-- TIME.PPSCFG.POL -/ def timePpscfgPol : Fld := ⟨Blk.time, 0x023, 4, 2, 1, 1, 1, 0, .S, [0], .gPps⟩
/-- TIME.PPSCFG.MUTE -/ def timePpscfgMute : Fld := ⟨Blk.time, 0x023, 4, 2, 1, 2, 1, 0, .S, [0], .gPps⟩
/-- TIME.PPSCFG.FREE -/ def timePpscfgFree : Fld := ⟨Blk.time, 0x023, 4, 2, 1, 3, 1, 0, .S, [0], .gPps⟩
/-- TIME.REFOUT.SEL -/ def timeRefoutSel : Fld := ⟨Blk.time, 0x028, 1, 1, 1, 0, 2, 0, .S, [0], .none⟩
/-- TIME.UTC.OFFSET_S -/ def timeUtcOffsetS : Fld := ⟨Blk.time, 0x029, 1, 1, 1, 0, 16, 0, .S, [37], .none⟩
/-- TIME.UTC.LEAP61 -/ def timeUtcLeap61 : Fld := ⟨Blk.time, 0x029, 1, 1, 1, 16, 1, 0, .S, [0], .gUtc⟩
/-- TIME.UTC.LEAP59 -/ def timeUtcLeap59 : Fld := ⟨Blk.time, 0x029, 1, 1, 1, 17, 1, 0, .S, [0], .gUtc⟩
/-- TIME.UTC.VALID -/ def timeUtcValid : Fld := ⟨Blk.time, 0x029, 1, 1, 1, 18, 1, 0, .S, [0], .gUtc⟩
/-- TIME.SNAPNS.NS -/ def timeSnapnsNs : Fld := ⟨Blk.time, 0x030, 1, 1, 1, 0, 32, 0, .L, [0], .none⟩
/-- TIME.SNAPSLO.SEC_LO -/ def timeSnapsloSecLo : Fld := ⟨Blk.time, 0x031, 1, 1, 1, 0, 32, 0, .L, [0], .none⟩
/-- TIME.SNAPSHI.SEC_HI -/ def timeSnapshiSecHi : Fld := ⟨Blk.time, 0x032, 1, 1, 1, 0, 16, 0, .L, [0], .none⟩
/-- TIME.SNAPSHI.FRAC -/ def timeSnapshiFrac : Fld := ⟨Blk.time, 0x032, 1, 1, 1, 16, 16, 0, .L, [0], .none⟩
/-- TIME.SLEWREM.NS -/ def timeSlewremNs : Fld := ⟨Blk.time, 0x033, 1, 1, 1, 0, 32, 0, .L, [0], .none⟩
/-- TIME.STEPREM.NS -/ def timeStepremNs : Fld := ⟨Blk.time, 0x034, 1, 1, 1, 0, 32, 0, .L, [0], .none⟩
/-- TIME.CNT.ACCEPTED -/ def timeCntAccepted : Fld := ⟨Blk.time, 0x035, 1, 1, 1, 0, 16, 0, .L, [0], .none⟩
/-- TIME.CNT.REJECTED -/ def timeCntRejected : Fld := ⟨Blk.time, 0x035, 1, 1, 1, 16, 16, 0, .L, [0], .none⟩
/-- TIME.FAULT.CODE -/ def timeFaultCode : Fld := ⟨Blk.time, 0x036, 1, 1, 1, 0, 16, 0, .L, [0], .none⟩
/-- CLAIM.CTRL.HOLD -/ def claimCtrlHold : Fld := ⟨Blk.claim, 0x000, 1, 1, 1, 0, 1, 0, .X, [0], .none⟩
/-- CLAIM.CTRL.RELEASE -/ def claimCtrlRelease : Fld := ⟨Blk.claim, 0x000, 1, 1, 1, 1, 1, 0, .X, [0], .none⟩
/-- CLAIM.STATE.STAGE -/ def claimStateStage : Fld := ⟨Blk.claim, 0x001, 1, 1, 1, 0, 2, 0, .L, [0], .none⟩
/-- CLAIM.STATE.UNIT -/ def claimStateUnit : Fld := ⟨Blk.claim, 0x001, 1, 1, 1, 2, 1, 0, .L, [0], .none⟩
/-- CLAIM.STATE.PREF -/ def claimStatePref : Fld := ⟨Blk.claim, 0x001, 1, 1, 1, 3, 1, 0, .L, [0], .none⟩
/-- CLAIM.STATE.OWNWIRE -/ def claimStateOwnwire : Fld := ⟨Blk.claim, 0x001, 1, 1, 1, 4, 1, 0, .L, [0], .none⟩
/-- CLAIM.STATE.PARTWIRE -/ def claimStatePartwire : Fld := ⟨Blk.claim, 0x001, 1, 1, 1, 5, 1, 0, .L, [0], .none⟩
/-- CLAIM.STATE.PREF_FAULT -/ def claimStatePrefFault : Fld := ⟨Blk.claim, 0x001, 1, 1, 1, 6, 1, 0, .K, [0], .none⟩
/-- CLAIM.STATE.REASON -/ def claimStateReason : Fld := ⟨Blk.claim, 0x001, 1, 1, 1, 8, 16, 0, .L, [0], .none⟩
/-- CLAIM.HELD.CLAIM -/ def claimHeldClaim : Fld := ⟨Blk.claim, 0x002, 1, 1, 1, 0, 32, 0, .L, [0], .none⟩
/-- CLAIM.SEEN.CLAIM -/ def claimSeenClaim : Fld := ⟨Blk.claim, 0x003, 1, 1, 1, 0, 32, 0, .L, [0], .none⟩
/-- CLAIM.CFG.OUTU -/ def claimCfgOutu : Fld := ⟨Blk.claim, 0x004, 1, 1, 1, 0, 1, 0, .S, [0], .none⟩
/-- CLAIM.CFG.PPS0 -/ def claimCfgPps0 : Fld := ⟨Blk.claim, 0x004, 1, 1, 1, 1, 1, 0, .S, [0], .none⟩
/-- CLAIM.CFG.PPS1 -/ def claimCfgPps1 : Fld := ⟨Blk.claim, 0x004, 1, 1, 1, 2, 1, 0, .S, [0], .none⟩
/-- CLAIM.CFG.REFOUT -/ def claimCfgRefout : Fld := ⟨Blk.claim, 0x004, 1, 1, 1, 3, 1, 0, .S, [0], .none⟩
/-- CLAIM.CFG.PWMSAFE -/ def claimCfgPwmsafe : Fld := ⟨Blk.claim, 0x004, 1, 1, 1, 4, 1, 0, .S, [0], .none⟩
/-- CLAIM.GPIOLO.MASK -/ def claimGpioloMask : Fld := ⟨Blk.claim, 0x005, 1, 1, 1, 0, 32, 0, .S, [0], .none⟩
/-- CLAIM.GPIOHI.MASK -/ def claimGpiohiMask : Fld := ⟨Blk.claim, 0x006, 1, 1, 1, 0, 32, 0, .S, [0], .none⟩
/-- CLAIM.CNT.HOLDS -/ def claimCntHolds : Fld := ⟨Blk.claim, 0x007, 1, 1, 1, 0, 16, 0, .L, [0], .none⟩
/-- CLAIM.CNT.RELEASES -/ def claimCntReleases : Fld := ⟨Blk.claim, 0x007, 1, 1, 1, 16, 16, 0, .L, [0], .none⟩
/-- DECANT.STATE.STATE -/ def decantStateState : Fld := ⟨Blk.decant, 0x000, 1, 1, 1, 0, 2, 0, .L, [0], .none⟩
/-- DECANT.STATE.LOCKED -/ def decantStateLocked : Fld := ⟨Blk.decant, 0x000, 1, 1, 1, 2, 1, 0, .L, [0], .none⟩
/-- DECANT.STATE.BUF -/ def decantStateBuf : Fld := ⟨Blk.decant, 0x000, 0, 2, 1, 4, 1, 1, .L, [0], .none⟩
/-- DECANT.SHBASE.ADDR -/ def decantShbaseAddr : Fld := ⟨Blk.decant, 0x010, 1, 8, 1, 0, 24, 0, .S, [0], .gLayout⟩
/-- DECANT.SHLEN.LEN -/ def decantShlenLen : Fld := ⟨Blk.decant, 0x018, 1, 8, 1, 0, 9, 0, .S, [0], .gLayout⟩
/-- DECANT.BUF.ADDR -/ def decantBufAddr : Fld := ⟨Blk.decant, 0x020, 1, 1, 1, 0, 24, 0, .S, [0], .gLayout⟩
/-- DECANT.CFG.KEYSLOT -/ def decantCfgKeyslot : Fld := ⟨Blk.decant, 0x021, 1, 1, 1, 0, 6, 0, .S, [0], .gKey⟩
/-- DECANT.CFG.RESYNC -/ def decantCfgResync : Fld := ⟨Blk.decant, 0x021, 1, 1, 1, 8, 6, 0, .S, [32], .gResync⟩
/-- DECANT.LAST.LINES -/ def decantLastLines : Fld := ⟨Blk.decant, 0x022, 1, 1, 1, 0, 17, 0, .L, [0], .none⟩
/-- DECANT.LAST.RUNS -/ def decantLastRuns : Fld := ⟨Blk.decant, 0x022, 1, 1, 1, 17, 15, 0, .L, [0], .none⟩
/-- DECANT.BASE.CYCLE -/ def decantBaseCycle : Fld := ⟨Blk.decant, 0x023, 1, 1, 1, 0, 32, 0, .L, [0xffffffff], .none⟩
/-- DECANT.CNT.SEALED -/ def decantCntSealed : Fld := ⟨Blk.decant, 0x024, 1, 1, 1, 0, 16, 0, .L, [0], .none⟩
/-- DECANT.CNT.DISCARDED -/ def decantCntDiscarded : Fld := ⟨Blk.decant, 0x024, 1, 1, 1, 16, 16, 0, .L, [0], .none⟩
/-- DECANT.CNT2.OVERCAP -/ def decantCnt2Overcap : Fld := ⟨Blk.decant, 0x025, 1, 1, 1, 0, 16, 0, .L, [0], .none⟩
/-- DECANT.CNT2.LOCKED_WR -/ def decantCnt2LockedWr : Fld := ⟨Blk.decant, 0x025, 1, 1, 1, 16, 16, 0, .L, [0], .none⟩
/-- DECANT.FAULT.CODE -/ def decantFaultCode : Fld := ⟨Blk.decant, 0x026, 1, 1, 1, 0, 16, 0, .L, [0], .none⟩
/-- PLINK.CTRL.RUN -/ def plinkCtrlRun : Fld := ⟨Blk.plink, 0x000, 1, 1, 1, 0, 1, 0, .X, [0], .none⟩
/-- PLINK.CTRL.STOP -/ def plinkCtrlStop : Fld := ⟨Blk.plink, 0x000, 1, 1, 1, 1, 1, 0, .X, [0], .none⟩
/-- PLINK.CTRL.ALIVE -/ def plinkCtrlAlive : Fld := ⟨Blk.plink, 0x000, 1, 1, 1, 2, 1, 0, .X, [0], .none⟩
/-- PLINK.CTRL.YIELD -/ def plinkCtrlYield : Fld := ⟨Blk.plink, 0x000, 1, 1, 1, 3, 1, 0, .X, [0], .none⟩
/-- PLINK.STATE.LINK -/ def plinkStateLink : Fld := ⟨Blk.plink, 0x001, 1, 1, 1, 0, 2, 0, .L, [0], .none⟩
/-- PLINK.STATE.PAIR -/ def plinkStatePair : Fld := ⟨Blk.plink, 0x001, 1, 1, 1, 2, 3, 0, .L, [1], .none⟩
/-- PLINK.STATE.PARTNER -/ def plinkStatePartner : Fld := ⟨Blk.plink, 0x001, 1, 1, 1, 5, 3, 0, .L, [0], .none⟩
/-- PLINK.STATE.PINSYNC -/ def plinkStatePinsync : Fld := ⟨Blk.plink, 0x001, 1, 1, 1, 8, 1, 0, .L, [0], .none⟩
/-- PLINK.STATE.SYNCRUN -/ def plinkStateSyncrun : Fld := ⟨Blk.plink, 0x001, 1, 1, 1, 16, 16, 0, .L, [0], .none⟩
/-- PLINK.CFG.PAIR_EN -/ def plinkCfgPairEn : Fld := ⟨Blk.plink, 0x002, 1, 1, 1, 0, 1, 0, .S, [1], .gCfg⟩
/-- PLINK.CFG.AUTOBACK -/ def plinkCfgAutoback : Fld := ⟨Blk.plink, 0x002, 1, 1, 1, 1, 1, 0, .S, [1], .gCfg⟩
/-- PLINK.CFG.WHMAX -/ def plinkCfgWhmax : Fld := ⟨Blk.plink, 0x002, 1, 1, 1, 4, 4, 0, .S, [5], .gCfg⟩
/-- PLINK.CFG.START_WAIT_S -/ def plinkCfgStartWaitS : Fld := ⟨Blk.plink, 0x002, 1, 1, 1, 8, 8, 0, .S, [5], .gCfg⟩
/-- PLINK.CFG.TSPLIT_NS -/ def plinkCfgTsplitNs : Fld := ⟨Blk.plink, 0x002, 1, 1, 1, 16, 16, 0, .S, [200], .none⟩
/-- PLINK.TOFF.PS -/ def plinkToffPs : Fld := ⟨Blk.plink, 0x003, 1, 1, 1, 0, 32, 0, .L, [0], .none⟩
/-- PLINK.PHELD.CLAIM -/ def plinkPheldClaim : Fld := ⟨Blk.plink, 0x004, 1, 1, 1, 0, 32, 0, .L, [0], .none⟩
/-- PLINK.HBAGE.US -/ def plinkHbageUs : Fld := ⟨Blk.plink, 0x005, 1, 1, 1, 0, 16, 0, .L, [65535], .none⟩
/-- PLINK.H.CYCLE -/ def plinkHCycle : Fld := ⟨Blk.plink, 0x006, 1, 1, 1, 0, 32, 0, .L, [0], .none⟩
/-- PLINK.CNT.TAKEOVERS -/ def plinkCntTakeovers : Fld := ⟨Blk.plink, 0x007, 1, 1, 1, 0, 16, 0, .L, [0], .none⟩
/-- PLINK.CNT.LOSSES -/ def plinkCntLosses : Fld := ⟨Blk.plink, 0x007, 1, 1, 1, 16, 16, 0, .L, [0], .none⟩
/-- PLINK.FAULT.CODE -/ def plinkFaultCode : Fld := ⟨Blk.plink, 0x008, 1, 1, 1, 0, 16, 0, .L, [0], .none⟩
/-- KEYWELL.CTRL.SELFTEST -/ def keywellCtrlSelftest : Fld := ⟨Blk.keywell, 0x000, 1, 1, 1, 0, 1, 0, .X, [0], .none⟩
/-- KEYWELL.STATE.LC -/ def keywellStateLc : Fld := ⟨Blk.keywell, 0x001, 1, 1, 1, 0, 3, 0, .L, [0], .none⟩
/-- KEYWELL.STATE.APPROVED -/ def keywellStateApproved : Fld := ⟨Blk.keywell, 0x001, 1, 1, 1, 3, 1, 0, .L, [0], .none⟩
/-- KEYWELL.STATE.ERROR -/ def keywellStateError : Fld := ⟨Blk.keywell, 0x001, 1, 1, 1, 4, 1, 0, .L, [0], .none⟩
/-- KEYWELL.STATE.ENTROPY_OK -/ def keywellStateEntropyOk : Fld := ⟨Blk.keywell, 0x001, 1, 1, 1, 5, 1, 0, .L, [1], .none⟩
/-- KEYWELL.STATE.ORPHAN_IN_USE -/ def keywellStateOrphanInUse : Fld := ⟨Blk.keywell, 0x001, 1, 1, 1, 6, 1, 0, .L, [0], .none⟩
/-- KEYWELL.STATE.MERGE_DONE -/ def keywellStateMergeDone : Fld := ⟨Blk.keywell, 0x001, 1, 1, 1, 7, 1, 0, .L, [0], .none⟩
/-- KEYWELL.STATE.OWNED -/ def keywellStateOwned : Fld := ⟨Blk.keywell, 0x001, 1, 1, 1, 8, 1, 0, .L, [0], .none⟩
/-- KEYWELL.STATE.QUEUE -/ def keywellStateQueue : Fld := ⟨Blk.keywell, 0x001, 1, 1, 1, 9, 5, 0, .L, [0], .none⟩
/-- KEYWELL.STATE.JOURNAL -/ def keywellStateJournal : Fld := ⟨Blk.keywell, 0x001, 1, 1, 1, 14, 2, 0, .L, [0], .none⟩
/-- KEYWELL.CFG.APPROVED -/ def keywellCfgApproved : Fld := ⟨Blk.keywell, 0x002, 1, 1, 1, 0, 1, 0, .S, [0], .gCfg⟩
/-- KEYWELL.CFG.PR -/ def keywellCfgPr : Fld := ⟨Blk.keywell, 0x002, 1, 1, 1, 1, 1, 0, .S, [0], .gCfg⟩
/-- KEYWELL.CFG.RESEED_S -/ def keywellCfgReseedS : Fld := ⟨Blk.keywell, 0x002, 1, 1, 1, 8, 8, 0, .S, [10], .gCfg⟩
/-- KEYWELL.DEVIDLO.DEVID -/ def keywellDevidloDevid : Fld := ⟨Blk.keywell, 0x003, 1, 1, 1, 0, 32, 0, .N, [0], .none⟩
/-- KEYWELL.DEVIDHI.DEVID -/ def keywellDevidhiDevid : Fld := ⟨Blk.keywell, 0x004, 1, 1, 1, 0, 32, 0, .N, [0], .none⟩
/-- KEYWELL.CNT.JOBS -/ def keywellCntJobs : Fld := ⟨Blk.keywell, 0x005, 1, 1, 1, 0, 16, 0, .L, [0], .none⟩
/-- KEYWELL.CNT.FAILED -/ def keywellCntFailed : Fld := ⟨Blk.keywell, 0x005, 1, 1, 1, 16, 16, 0, .L, [0], .none⟩
/-- KEYWELL.FAULT.CODE -/ def keywellFaultCode : Fld := ⟨Blk.keywell, 0x006, 1, 1, 1, 0, 16, 0, .L, [0], .none⟩
/-- KEYWELL.FAULT.SLOT -/ def keywellFaultSlot : Fld := ⟨Blk.keywell, 0x006, 1, 1, 1, 16, 6, 0, .L, [0], .none⟩
/-- KEYWELL.SLOT.OCC -/ def keywellSlotOcc : Fld := ⟨Blk.keywell, 0x100, 1, 64, 1, 0, 1, 0, .L, [0], .none⟩
/-- KEYWELL.SLOT.CARRY -/ def keywellSlotCarry : Fld := ⟨Blk.keywell, 0x100, 1, 64, 1, 1, 1, 0, .L, [0], .none⟩
/-- KEYWELL.SLOT.INUSE -/ def keywellSlotInuse : Fld := ⟨Blk.keywell, 0x100, 1, 64, 1, 2, 1, 0, .L, [0], .none⟩
/-- KEYWELL.SLOT.TYPE -/ def keywellSlotType : Fld := ⟨Blk.keywell, 0x100, 1, 64, 1, 4, 3, 0, .L, [0], .none⟩
/-- KEYWELL.SLOT.LEVEL -/ def keywellSlotLevel : Fld := ⟨Blk.keywell, 0x100, 1, 64, 1, 8, 2, 0, .L, [0], .none⟩
/-- KEYWELL.SLOT.USAGE -/ def keywellSlotUsage : Fld := ⟨Blk.keywell, 0x100, 1, 64, 1, 16, 10, 0, .L, [0], .none⟩
/-- KEYWELL.SLOTID.KEYID -/ def keywellSlotidKeyid : Fld := ⟨Blk.keywell, 0x140, 1, 64, 1, 0, 32, 0, .L, [0], .none⟩
/-- DEBUG.CTRL.CLOSE -/ def debugCtrlClose : Fld := ⟨Blk.debug, 0x000, 1, 1, 1, 0, 1, 0, .X, [0], .none⟩
/-- DEBUG.STATE.OPEN -/ def debugStateOpen : Fld := ⟨Blk.debug, 0x001, 1, 1, 1, 0, 1, 0, .L, [1], .none⟩
/-- DEBUG.STATE.OPENED -/ def debugStateOpened : Fld := ⟨Blk.debug, 0x001, 1, 1, 1, 1, 1, 0, .L, [0], .none⟩
/-- DEBUG.STATE.ATTACHED -/ def debugStateAttached : Fld := ⟨Blk.debug, 0x001, 1, 1, 1, 2, 1, 0, .L, [0], .none⟩
/-- BOOT.CTRL.CYCSTART -/ def bootCtrlCycstart : Fld := ⟨Blk.boot, 0x000, 1, 1, 1, 0, 1, 0, .X, [0], .none⟩
/-- BOOT.CTRL.RESET -/ def bootCtrlReset : Fld := ⟨Blk.boot, 0x000, 1, 1, 1, 1, 1, 0, .X, [0], .none⟩
/-- BOOT.STATE.SLOT -/ def bootStateSlot : Fld := ⟨Blk.boot, 0x001, 1, 1, 1, 0, 2, 0, .L, [1], .none⟩
/-- BOOT.STATE.REC -/ def bootStateRec : Fld := ⟨Blk.boot, 0x001, 1, 1, 1, 2, 3, 0, .L, [0], .none⟩
/-- BOOT.STATE.TRIALS -/ def bootStateTrials : Fld := ⟨Blk.boot, 0x001, 1, 1, 1, 5, 2, 0, .L, [0], .none⟩
/-- BOOT.STATE.GOLDLOCK -/ def bootStateGoldlock : Fld := ⟨Blk.boot, 0x001, 1, 1, 1, 7, 1, 0, .L, [0], .none⟩
/-- BOOT.STATE.SYSRUN -/ def bootStateSysrun : Fld := ⟨Blk.boot, 0x001, 1, 1, 1, 8, 1, 0, .L, [0], .none⟩
/-- BOOT.STATE.SYNCMET -/ def bootStateSyncmet : Fld := ⟨Blk.boot, 0x001, 1, 1, 1, 9, 1, 0, .L, [0], .none⟩
/-- BOOT.STATE.IDSET -/ def bootStateIdset : Fld := ⟨Blk.boot, 0x001, 1, 1, 1, 10, 1, 0, .L, [0], .none⟩
/-- BOOT.STATE.UNIT -/ def bootStateUnit : Fld := ⟨Blk.boot, 0x001, 1, 1, 1, 11, 1, 0, .L, [0], .none⟩
/-- BOOT.STATE.QUEUED -/ def bootStateQueued : Fld := ⟨Blk.boot, 0x001, 1, 1, 1, 12, 3, 0, .L, [0], .none⟩
/-- BOOT.SERVICE.SECONDS -/ def bootServiceSeconds : Fld := ⟨Blk.boot, 0x002, 1, 1, 1, 0, 32, 0, .L, [0], .none⟩
/-- BOOT.UPTIME.SECONDS -/ def bootUptimeSeconds : Fld := ⟨Blk.boot, 0x003, 1, 1, 1, 0, 32, 0, .L, [0], .none⟩
/-- BOOT.SECVER.VALUE -/ def bootSecverValue : Fld := ⟨Blk.boot, 0x004, 1, 1, 1, 0, 32, 0, .L, [0], .none⟩
/-- BOOT.MINSEC.VALUE -/ def bootMinsecValue : Fld := ⟨Blk.boot, 0x005, 1, 1, 1, 0, 32, 0, .L, [0], .none⟩
/-- BOOT.BUNDLE.VALUE -/ def bootBundleValue : Fld := ⟨Blk.boot, 0x006, 1, 1, 1, 0, 32, 0, .L, [0], .none⟩
/-- BOOT.REQ.NUMBER -/ def bootReqNumber : Fld := ⟨Blk.boot, 0x007, 1, 1, 1, 0, 16, 0, .L, [0], .none⟩
/-- BOOT.REQ.RESULT -/ def bootReqResult : Fld := ⟨Blk.boot, 0x007, 1, 1, 1, 16, 16, 0, .L, [0], .none⟩
/-- BOOT.CAUSE.CAUSE -/ def bootCauseCause : Fld := ⟨Blk.boot, 0x008, 1, 1, 1, 0, 3, 0, .L, [0], .none⟩
/-- BOOT.FAULT.CODE -/ def bootFaultCode : Fld := ⟨Blk.boot, 0x009, 1, 1, 1, 0, 16, 0, .L, [0], .none⟩
/-- BOOT.FAULT.ENTRY -/ def bootFaultEntry : Fld := ⟨Blk.boot, 0x009, 1, 1, 1, 16, 4, 0, .L, [0], .none⟩
/-- LOOP.CTRL.RUN -/ def loopCtrlRun : Fld := ⟨Blk.loop, 0x000, 1, 1, 1, 0, 1, 0, .X, [0], .none⟩
/-- LOOP.CTRL.STOP -/ def loopCtrlStop : Fld := ⟨Blk.loop, 0x000, 1, 1, 1, 1, 1, 0, .X, [0], .none⟩
/-- LOOP.CTRL.RESTORE -/ def loopCtrlRestore : Fld := ⟨Blk.loop, 0x000, 1, 1, 1, 2, 1, 0, .X, [0], .none⟩
/-- LOOP.STATE.RUNNING -/ def loopStateRunning : Fld := ⟨Blk.loop, 0x001, 1, 1, 1, 0, 1, 0, .L, [0], .none⟩
/-- LOOP.STATE.CLOSED -/ def loopStateClosed : Fld := ⟨Blk.loop, 0x001, 1, 1, 1, 16, 16, 0, .L, [0], .none⟩
/-- LOOP.CUTBASE.ADDR -/ def loopCutbaseAddr : Fld := ⟨Blk.loop, 0x002, 1, 1, 1, 0, 32, 0, .S, [0], .gLayout⟩
/-- LOOP.STAGGER.US -/ def loopStaggerUs : Fld := ⟨Blk.loop, 0x003, 1, 1, 1, 0, 10, 0, .S, [10], .gLayout⟩
/-- LOOP.SP.EN -/ def loopSpEn : Fld := ⟨Blk.loop, 0x010, 1, 8, 1, 0, 1, 0, .S, [0], .gLayout⟩
/-- LOOP.SP.WORDS -/ def loopSpWords : Fld := ⟨Blk.loop, 0x010, 1, 8, 1, 8, 5, 0, .S, [16], .gLayout⟩
/-- LOOP.SPSTAT.BADLEN -/ def loopSpstatBadlen : Fld := ⟨Blk.loop, 0x018, 1, 8, 1, 0, 16, 0, .L, [0], .none⟩
/-- LOOP.SPSTAT.GAPS -/ def loopSpstatGaps : Fld := ⟨Blk.loop, 0x018, 1, 8, 1, 16, 16, 0, .L, [0], .none⟩
/-- LOOP.PWM.PERIOD_CLK -/ def loopPwmPeriodClk : Fld := ⟨Blk.loop, 0x020, 1, 16, 1, 0, 16, 0, .S, [10000], .gLayout⟩
/-- LOOP.FAULT.CODE -/ def loopFaultCode : Fld := ⟨Blk.loop, 0x030, 1, 1, 1, 0, 16, 0, .L, [0], .none⟩
/-- LOOP.FAULT.SLOT -/ def loopFaultSlot : Fld := ⟨Blk.loop, 0x030, 1, 1, 1, 16, 5, 0, .L, [0], .none⟩
/-- LOOP.CFG.SPORT -/ def loopCfgSport : Fld := ⟨Blk.loop, 0x100, 32, 32, 1, 0, 3, 0, .S, [0], .gCoef⟩
/-- LOOP.CFG.CHAN -/ def loopCfgChan : Fld := ⟨Blk.loop, 0x100, 32, 32, 1, 4, 4, 0, .S, [0], .gCoef⟩
/-- LOOP.CFG.SNK -/ def loopCfgSnk : Fld := ⟨Blk.loop, 0x100, 32, 32, 1, 8, 2, 0, .S, [0], .gCoef⟩
/-- LOOP.CFG.TARGET -/ def loopCfgTarget : Fld := ⟨Blk.loop, 0x100, 32, 32, 1, 24, 5, 0, .S, [0], .gCoef⟩
/-- LOOP.CFG.FBACT -/ def loopCfgFbact : Fld := ⟨Blk.loop, 0x100, 32, 32, 1, 14, 1, 0, .S, [0], .gRun⟩
/-- LOOP.CFG.AUTOREC -/ def loopCfgAutorec : Fld := ⟨Blk.loop, 0x100, 32, 32, 1, 15, 1, 0, .S, [1], .gRun⟩
/-- LOOP.CFG.STAGGER -/ def loopCfgStagger : Fld := ⟨Blk.loop, 0x100, 32, 32, 1, 16, 1, 0, .S, [0], .gRun⟩
/-- LOOP.CFG.ENGPIO -/ def loopCfgEngpio : Fld := ⟨Blk.loop, 0x100, 32, 32, 1, 17, 6, 0, .S, [0], .gCoef⟩
/-- LOOP.CFG.ENG_EN -/ def loopCfgEngEn : Fld := ⟨Blk.loop, 0x100, 32, 32, 1, 23, 1, 0, .S, [0], .gCoef⟩
/-- LOOP.PERIOD.PERIOD_CLK -/ def loopPeriodPeriodClk : Fld := ⟨Blk.loop, 0x101, 32, 32, 1, 0, 24, 0, .S, [0x186a0], .gCoef⟩
/-- LOOP.PERIOD.PHASE -/ def loopPeriodPhase : Fld := ⟨Blk.loop, 0x101, 32, 32, 1, 24, 8, 0, .S, [0], .gCoef⟩
/-- LOOP.CASC.OUTER -/ def loopCascOuter : Fld := ⟨Blk.loop, 0x102, 32, 32, 1, 0, 5, 0, .S, [0], .gCoef⟩
/-- LOOP.CASC.EN -/ def loopCascEn : Fld := ⟨Blk.loop, 0x102, 32, 32, 1, 5, 1, 0, .S, [0], .gCoef⟩
/-- LOOP.CASC.N -/ def loopCascN : Fld := ⟨Blk.loop, 0x102, 32, 32, 1, 16, 16, 0, .S, [1], .gCoef⟩
/-- LOOP.FB.TMO -/ def loopFbTmo : Fld := ⟨Blk.loop, 0x103, 32, 32, 1, 0, 8, 0, .S, [3], .gRun⟩
/-- LOOP.FB.FRZ_K -/ def loopFbFrzK : Fld := ⟨Blk.loop, 0x103, 32, 32, 1, 8, 8, 0, .S, [0], .gRun⟩
/-- LOOP.FB.RECOV -/ def loopFbRecov : Fld := ⟨Blk.loop, 0x103, 32, 32, 1, 16, 8, 0, .S, [5], .gRun⟩
/-- LOOP.MODE.MODE -/ def loopModeMode : Fld := ⟨Blk.loop, 0x104, 32, 32, 1, 0, 2, 0, .S, [0], .gRun⟩
/-- LOOP.GAIN -/ def loopGain : Fld := ⟨Blk.loop, 0x105, 32, 32, 1, 0, 32, 0, .S, [0x3f800000], .gCoef⟩
/-- LOOP.OFS -/ def loopOfs : Fld := ⟨Blk.loop, 0x106, 32, 32, 1, 0, 32, 0, .S, [0], .gCoef⟩
/-- LOOP.KP -/ def loopKp : Fld := ⟨Blk.loop, 0x107, 32, 32, 1, 0, 32, 0, .S, [0], .gCoef⟩
/-- LOOP.KI -/ def loopKi : Fld := ⟨Blk.loop, 0x108, 32, 32, 1, 0, 32, 0, .S, [0], .gCoef⟩
/-- LOOP.KD -/ def loopKd : Fld := ⟨Blk.loop, 0x109, 32, 32, 1, 0, 32, 0, .S, [0], .gCoef⟩
/-- LOOP.TF -/ def loopTf : Fld := ⟨Blk.loop, 0x10A, 32, 32, 1, 0, 32, 0, .S, [0], .gCoef⟩
/-- LOOP.OMIN -/ def loopOmin : Fld := ⟨Blk.loop, 0x10B, 32, 32, 1, 0, 32, 0, .S, [0], .gCoef⟩
/-- LOOP.OMAX -/ def loopOmax : Fld := ⟨Blk.loop, 0x10C, 32, 32, 1, 0, 32, 0, .S, [0x3f800000], .gCoef⟩
/-- LOOP.SETP -/ def loopSetp : Fld := ⟨Blk.loop, 0x10D, 32, 32, 1, 0, 32, 0, .S, [0], .gRun⟩
/-- LOOP.SLEW -/ def loopSlew : Fld := ⟨Blk.loop, 0x10E, 32, 32, 1, 0, 32, 0, .S, [0], .gRun⟩
/-- LOOP.MANUAL -/ def loopManual : Fld := ⟨Blk.loop, 0x10F, 32, 32, 1, 0, 32, 0, .S, [0], .gRun⟩
/-- LOOP.SAFE -/ def loopSafe : Fld := ⟨Blk.loop, 0x110, 32, 32, 1, 0, 32, 0, .S, [0], .gRun⟩
/-- LOOP.FRZTHR -/ def loopFrzthr : Fld := ⟨Blk.loop, 0x111, 32, 32, 1, 0, 32, 0, .S, [0], .gRun⟩
/-- LOOP.STAT.STATE -/ def loopStatState : Fld := ⟨Blk.loop, 0x112, 32, 32, 1, 0, 2, 0, .L, [0], .none⟩
/-- LOOP.STAT.REASON -/ def loopStatReason : Fld := ⟨Blk.loop, 0x112, 32, 32, 1, 2, 3, 0, .L, [0], .none⟩
/-- LOOP.STAT.WAITSTART -/ def loopStatWaitstart : Fld := ⟨Blk.loop, 0x112, 32, 32, 1, 5, 1, 0, .L, [0], .none⟩
/-- LOOP.STAT.SLEWING -/ def loopStatSlewing : Fld := ⟨Blk.loop, 0x112, 32, 32, 1, 6, 1, 0, .L, [0], .none⟩
/-- LOOP.STAT.SAT -/ def loopStatSat : Fld := ⟨Blk.loop, 0x112, 32, 32, 1, 7, 1, 0, .L, [0], .none⟩
/-- LOOP.STAT.BUMP -/ def loopStatBump : Fld := ⟨Blk.loop, 0x112, 32, 32, 1, 8, 1, 0, .L, [0], .none⟩
/-- LOOP.PV -/ def loopPv : Fld := ⟨Blk.loop, 0x113, 32, 32, 1, 0, 32, 0, .L, [0], .none⟩
/-- LOOP.REF -/ def loopRef : Fld := ⟨Blk.loop, 0x114, 32, 32, 1, 0, 32, 0, .L, [0], .none⟩
/-- LOOP.OUT -/ def loopOut : Fld := ⟨Blk.loop, 0x115, 32, 32, 1, 0, 32, 0, .L, [0], .none⟩
/-- LOOP.INT -/ def loopInt : Fld := ⟨Blk.loop, 0x116, 32, 32, 1, 0, 32, 0, .L, [0], .none⟩
/-- LOOP.CNT.SAMPLES -/ def loopCntSamples : Fld := ⟨Blk.loop, 0x117, 32, 32, 1, 0, 16, 0, .L, [0], .none⟩
/-- LOOP.CNT.STALE -/ def loopCntStale : Fld := ⟨Blk.loop, 0x117, 32, 32, 1, 16, 16, 0, .L, [0], .none⟩
/-- AXIS.CTRL.RUN -/ def axisCtrlRun : Fld := ⟨Blk.axis, 0x000, 1, 1, 1, 0, 1, 0, .X, [0], .none⟩
/-- AXIS.CTRL.STOP -/ def axisCtrlStop : Fld := ⟨Blk.axis, 0x000, 1, 1, 1, 1, 1, 0, .X, [0], .none⟩
/-- AXIS.CTRL.RESTORE -/ def axisCtrlRestore : Fld := ⟨Blk.axis, 0x000, 1, 1, 1, 2, 1, 0, .X, [0], .none⟩
/-- AXIS.CTRL.QSTOP -/ def axisCtrlQstop : Fld := ⟨Blk.axis, 0x000, 1, 1, 1, 8, 8, 0, .X, [0], .none⟩
/-- AXIS.STATE.RUNNING -/ def axisStateRunning : Fld := ⟨Blk.axis, 0x001, 1, 1, 1, 0, 1, 0, .L, [0], .none⟩
/-- AXIS.STATE.HOMED -/ def axisStateHomed : Fld := ⟨Blk.axis, 0x001, 1, 1, 1, 8, 8, 0, .L, [0], .none⟩
/-- AXIS.CUTBASE.ADDR -/ def axisCutbaseAddr : Fld := ⟨Blk.axis, 0x002, 1, 1, 1, 0, 32, 0, .S, [0], .gLayout⟩
/-- AXIS.FAULT.CODE -/ def axisFaultCode : Fld := ⟨Blk.axis, 0x003, 1, 1, 1, 0, 16, 0, .L, [0], .none⟩
/-- AXIS.FAULT.AXIS -/ def axisFaultAxis : Fld := ⟨Blk.axis, 0x003, 1, 1, 1, 16, 3, 0, .L, [0], .none⟩
/-- AXIS.CFG.SRC -/ def axisCfgSrc : Fld := ⟨Blk.axis, 0x100, 32, 8, 1, 0, 1, 0, .S, [0], .gSetup⟩
/-- AXIS.CFG.RES -/ def axisCfgRes : Fld := ⟨Blk.axis, 0x100, 32, 8, 1, 1, 4, 0, .S, [6], .gSetup⟩
/-- AXIS.CFG.LIMACT -/ def axisCfgLimact : Fld := ⟨Blk.axis, 0x100, 32, 8, 1, 5, 1, 0, .S, [1], .gSetup⟩
/-- AXIS.CFG.HDIR -/ def axisCfgHdir : Fld := ⟨Blk.axis, 0x100, 32, 8, 1, 6, 1, 0, .S, [0], .gSetup⟩
/-- AXIS.CFG.HSRC -/ def axisCfgHsrc : Fld := ⟨Blk.axis, 0x100, 32, 8, 1, 7, 1, 0, .S, [0], .gSetup⟩
/-- AXIS.CFG.POL -/ def axisCfgPol : Fld := ⟨Blk.axis, 0x100, 32, 8, 1, 8, 3, 0, .S, [0], .gSetup⟩
/-- AXIS.CFG.BSTOP -/ def axisCfgBstop : Fld := ⟨Blk.axis, 0x100, 32, 8, 1, 11, 2, 0, .S, [1], .gSetup⟩
/-- AXIS.CFG.ENGPIO -/ def axisCfgEngpio : Fld := ⟨Blk.axis, 0x100, 32, 8, 1, 13, 6, 0, .S, [0], .gSetup⟩
/-- AXIS.CFG.ENG_EN -/ def axisCfgEngEn : Fld := ⟨Blk.axis, 0x100, 32, 8, 1, 19, 1, 0, .S, [0], .gSetup⟩
/-- AXIS.CFG.REQHOME -/ def axisCfgReqhome : Fld := ⟨Blk.axis, 0x100, 32, 8, 1, 20, 1, 0, .S, [1], .gSetup⟩
/-- AXIS.FILT.FILT_US -/ def axisFiltFiltUs : Fld := ⟨Blk.axis, 0x101, 32, 8, 1, 0, 8, 0, .S, [20], .gSetup⟩
/-- AXIS.CUR.ICUR -/ def axisCurIcur : Fld := ⟨Blk.axis, 0x102, 32, 8, 1, 0, 10, 0, .S, [0], .gSetup⟩
/-- AXIS.CMD.CMD -/ def axisCmdCmd : Fld := ⟨Blk.axis, 0x103, 32, 8, 1, 0, 3, 0, .S, [0], .none⟩
/-- AXIS.TGT.TGT -/ def axisTgtTgt : Fld := ⟨Blk.axis, 0x104, 32, 8, 1, 0, 32, 0, .S, [0], .gProf⟩
/-- AXIS.VTGT -/ def axisVtgt : Fld := ⟨Blk.axis, 0x105, 32, 8, 1, 0, 32, 0, .S, [0], .gProf⟩
/-- AXIS.VMAX -/ def axisVmax : Fld := ⟨Blk.axis, 0x106, 32, 8, 1, 0, 32, 0, .S, [0x447a0000], .gProf⟩
/-- AXIS.AMAX -/ def axisAmax : Fld := ⟨Blk.axis, 0x107, 32, 8, 1, 0, 32, 0, .S, [0x461c4000], .gProf⟩
/-- AXIS.DMAX -/ def axisDmax : Fld := ⟨Blk.axis, 0x108, 32, 8, 1, 0, 32, 0, .S, [0x461c4000], .gProf⟩
/-- AXIS.JMAX -/ def axisJmax : Fld := ⟨Blk.axis, 0x109, 32, 8, 1, 0, 32, 0, .S, [0], .gProf⟩
/-- AXIS.HVEL -/ def axisHvel : Fld := ⟨Blk.axis, 0x10A, 32, 8, 1, 0, 32, 0, .S, [0x43480000], .gProf⟩
/-- AXIS.LDEC -/ def axisLdec : Fld := ⟨Blk.axis, 0x10B, 32, 8, 1, 0, 32, 0, .S, [0x47435000], .gProf⟩
/-- AXIS.HOMEPOS.HOMEPOS -/ def axisHomeposHomepos : Fld := ⟨Blk.axis, 0x10C, 32, 8, 1, 0, 32, 0, .S, [0], .none⟩
/-- AXIS.EXTP.EXTPMAX_MS -/ def axisExtpExtpmaxMs : Fld := ⟨Blk.axis, 0x10D, 32, 8, 1, 0, 7, 0, .S, [10], .gSetup⟩
/-- AXIS.POS.POS -/ def axisPosPos : Fld := ⟨Blk.axis, 0x10E, 32, 8, 1, 0, 32, 0, .L, [0], .none⟩
/-- AXIS.VEL -/ def axisVel : Fld := ⟨Blk.axis, 0x10F, 32, 8, 1, 0, 32, 0, .L, [0], .none⟩
/-- AXIS.STAT.STATE -/ def axisStatState : Fld := ⟨Blk.axis, 0x110, 32, 8, 1, 0, 3, 0, .L, [0], .none⟩
/-- AXIS.STAT.REASON -/ def axisStatReason : Fld := ⟨Blk.axis, 0x110, 32, 8, 1, 3, 3, 0, .L, [0], .none⟩
/-- AXIS.STAT.HOMED -/ def axisStatHomed : Fld := ⟨Blk.axis, 0x110, 32, 8, 1, 6, 1, 0, .L, [0], .none⟩
/-- AXIS.STAT.DECKEPT -/ def axisStatDeckept : Fld := ⟨Blk.axis, 0x110, 32, 8, 1, 7, 1, 0, .L, [0], .none⟩
/-- AXIS.STAT.LN -/ def axisStatLn : Fld := ⟨Blk.axis, 0x110, 32, 8, 1, 8, 1, 0, .L, [0], .none⟩
/-- AXIS.STAT.LP -/ def axisStatLp : Fld := ⟨Blk.axis, 0x110, 32, 8, 1, 9, 1, 0, .L, [0], .none⟩
/-- AXIS.STAT.HM -/ def axisStatHm : Fld := ⟨Blk.axis, 0x110, 32, 8, 1, 10, 1, 0, .L, [0], .none⟩
/-- AXIS.STAT.INTERP -/ def axisStatInterp : Fld := ⟨Blk.axis, 0x110, 32, 8, 1, 11, 1, 0, .L, [0], .none⟩
/-- AXIS.LATCH.LATCH -/ def axisLatchLatch : Fld := ⟨Blk.axis, 0x111, 32, 8, 1, 0, 32, 0, .L, [0], .none⟩
/-- AXIS.CNT.STEPS -/ def axisCntSteps : Fld := ⟨Blk.axis, 0x112, 32, 8, 1, 0, 16, 0, .L, [0], .none⟩
/-- AXIS.CNT.DISCARD -/ def axisCntDiscard : Fld := ⟨Blk.axis, 0x112, 32, 8, 1, 16, 16, 0, .L, [0], .none⟩
/-- TALLY.CTRL.RUN -/ def tallyCtrlRun : Fld := ⟨Blk.tally, 0x000, 1, 1, 1, 0, 1, 0, .X, [0], .none⟩
/-- TALLY.CTRL.STOP -/ def tallyCtrlStop : Fld := ⟨Blk.tally, 0x000, 1, 1, 1, 1, 1, 0, .X, [0], .none⟩
/-- TALLY.CTRL.CLEAR -/ def tallyCtrlClear : Fld := ⟨Blk.tally, 0x000, 1, 1, 1, 2, 1, 0, .X, [0], .none⟩
/-- TALLY.CTRL.SNAP -/ def tallyCtrlSnap : Fld := ⟨Blk.tally, 0x000, 1, 1, 1, 3, 1, 0, .X, [0], .none⟩
/-- TALLY.STATE.RUNNING -/ def tallyStateRunning : Fld := ⟨Blk.tally, 0x001, 1, 1, 1, 0, 1, 0, .L, [0], .none⟩
/-- TALLY.STATE.SAVING -/ def tallyStateSaving : Fld := ⟨Blk.tally, 0x001, 1, 1, 1, 1, 1, 0, .L, [0], .none⟩
/-- TALLY.STATE.FLUSHED -/ def tallyStateFlushed : Fld := ⟨Blk.tally, 0x001, 1, 1, 1, 2, 1, 0, .L, [0], .none⟩
/-- TALLY.STATE.ROWUSED -/ def tallyStateRowused : Fld := ⟨Blk.tally, 0x001, 1, 1, 1, 3, 1, 0, .L, [0], .none⟩
/-- TALLY.STATE.CLEARING -/ def tallyStateClearing : Fld := ⟨Blk.tally, 0x001, 1, 1, 1, 4, 1, 0, .L, [0], .none⟩
/-- TALLY.STATE.SAVES -/ def tallyStateSaves : Fld := ⟨Blk.tally, 0x001, 1, 1, 1, 16, 16, 0, .L, [0], .none⟩
/-- TALLY.SNAPCFG.SHIFT -/ def tallySnapcfgShift : Fld := ⟨Blk.tally, 0x002, 1, 1, 1, 0, 5, 0, .S, [10], .gSnap⟩
/-- TALLY.VMIN -/ def tallyVmin : Fld := ⟨Blk.tally, 0x003, 1, 1, 1, 0, 32, 0, .S, [0x41a00000], .gSnap⟩
/-- TALLY.CLEARMASK.MASK -/ def tallyClearmaskMask : Fld := ⟨Blk.tally, 0x004, 1, 1, 1, 0, 16, 0, .S, [0], .none⟩
/-- TALLY.SNAPCYC.CYCLE -/ def tallySnapcycCycle : Fld := ⟨Blk.tally, 0x005, 1, 1, 1, 0, 32, 0, .L, [0], .none⟩
/-- TALLY.FAULT.CODE -/ def tallyFaultCode : Fld := ⟨Blk.tally, 0x006, 1, 1, 1, 0, 16, 0, .L, [0], .none⟩
/-- TALLY.FAULT.CHAN -/ def tallyFaultChan : Fld := ⟨Blk.tally, 0x006, 1, 1, 1, 16, 4, 0, .L, [0], .none⟩
/-- TALLY.CFG.EN -/ def tallyCfgEn : Fld := ⟨Blk.tally, 0x100, 32, 16, 1, 0, 1, 0, .S, [0], .gChan⟩
/-- TALLY.CFG.PORT -/ def tallyCfgPort : Fld := ⟨Blk.tally, 0x100, 32, 16, 1, 1, 3, 0, .S, [0], .gChan⟩
/-- TALLY.CFG.VCHAN -/ def tallyCfgVchan : Fld := ⟨Blk.tally, 0x100, 32, 16, 1, 4, 4, 0, .S, [0], .gChan⟩
/-- TALLY.CFG.ICHAN -/ def tallyCfgIchan : Fld := ⟨Blk.tally, 0x100, 32, 16, 1, 8, 4, 0, .S, [1], .gChan⟩
/-- TALLY.CFG.ACCMODE -/ def tallyCfgAccmode : Fld := ⟨Blk.tally, 0x100, 32, 16, 1, 12, 1, 0, .S, [0], .gChan⟩
/-- TALLY.CFG.HPF -/ def tallyCfgHpf : Fld := ⟨Blk.tally, 0x100, 32, 16, 1, 13, 1, 0, .S, [1], .gChan⟩
/-- TALLY.CFG.IINV -/ def tallyCfgIinv : Fld := ⟨Blk.tally, 0x100, 32, 16, 1, 14, 1, 0, .S, [0], .gChan⟩
/-- TALLY.VGAIN -/ def tallyVgain : Fld := ⟨Blk.tally, 0x101, 32, 16, 1, 0, 32, 0, .S, [0x3f800000], .gChan⟩
/-- TALLY.IGAIN -/ def tallyIgain : Fld := ⟨Blk.tally, 0x102, 32, 16, 1, 0, 32, 0, .S, [0x3f800000], .gChan⟩
/-- TALLY.PHCAL.PHCAL -/ def tallyPhcalPhcal : Fld := ⟨Blk.tally, 0x103, 32, 16, 1, 0, 13, 0, .S, [0], .gChan⟩
/-- TALLY.CREEP -/ def tallyCreep : Fld := ⟨Blk.tally, 0x104, 32, 16, 1, 0, 32, 0, .S, [0], .gChan⟩
/-- TALLY.VRMS -/ def tallyVrms : Fld := ⟨Blk.tally, 0x105, 32, 16, 1, 0, 32, 0, .L, [0], .none⟩
/-- TALLY.IRMS -/ def tallyIrms : Fld := ⟨Blk.tally, 0x106, 32, 16, 1, 0, 32, 0, .L, [0], .none⟩
/-- TALLY.P -/ def tallyP : Fld := ⟨Blk.tally, 0x107, 32, 16, 1, 0, 32, 0, .L, [0], .none⟩
/-- TALLY.Q -/ def tallyQ : Fld := ⟨Blk.tally, 0x108, 32, 16, 1, 0, 32, 0, .L, [0], .none⟩
/-- TALLY.S -/ def tallyS : Fld := ⟨Blk.tally, 0x109, 32, 16, 1, 0, 32, 0, .L, [0], .none⟩
/-- TALLY.PF -/ def tallyPf : Fld := ⟨Blk.tally, 0x10A, 32, 16, 1, 0, 32, 0, .L, [0], .none⟩
/-- TALLY.FREQ -/ def tallyFreq : Fld := ⟨Blk.tally, 0x10B, 32, 16, 1, 0, 32, 0, .L, [0], .none⟩
/-- TALLY.STAT.QUAD -/ def tallyStatQuad : Fld := ⟨Blk.tally, 0x10C, 32, 16, 1, 0, 2, 0, .L, [0], .none⟩
/-- TALLY.STAT.FVALID -/ def tallyStatFvalid : Fld := ⟨Blk.tally, 0x10C, 32, 16, 1, 2, 1, 0, .L, [0], .none⟩
/-- TALLY.STAT.RATE -/ def tallyStatRate : Fld := ⟨Blk.tally, 0x10C, 32, 16, 1, 3, 1, 0, .L, [0], .none⟩
/-- TALLY.STAT.FILL -/ def tallyStatFill : Fld := ⟨Blk.tally, 0x10C, 32, 16, 1, 4, 1, 0, .L, [0], .none⟩
/-- TALLY.STAT.CREEP -/ def tallyStatCreep : Fld := ⟨Blk.tally, 0x10C, 32, 16, 1, 5, 1, 0, .L, [0], .none⟩
/-- TALLY.STAT.N -/ def tallyStatN : Fld := ⟨Blk.tally, 0x10C, 32, 16, 1, 16, 16, 0, .L, [0], .none⟩
/-- TALLY.SNAP.COUNT -/ def tallySnapCount : Fld := ⟨Blk.tally, 0x10D, 32, 16, 7, 0, 32, 0, .L, [0], .none⟩
/-- KETTLE.CTRL.SLEEP -/ def kettleCtrlSleep : Fld := ⟨Blk.kettle, 0x000, 1, 1, 1, 0, 1, 0, .X, [0], .none⟩
/-- KETTLE.STATE.PFW -/ def kettleStatePfw : Fld := ⟨Blk.kettle, 0x001, 1, 1, 1, 0, 1, 0, .L, [0], .none⟩
/-- KETTLE.STATE.THROTTLE -/ def kettleStateThrottle : Fld := ⟨Blk.kettle, 0x001, 1, 1, 1, 1, 1, 0, .L, [0], .none⟩
/-- KETTLE.STATE.AVSLIM -/ def kettleStateAvslim : Fld := ⟨Blk.kettle, 0x001, 1, 1, 1, 2, 1, 0, .L, [0], .none⟩
/-- KETTLE.STATE.DEVICE -/ def kettleStateDevice : Fld := ⟨Blk.kettle, 0x001, 1, 1, 1, 3, 2, 0, .L, [0], .none⟩
/-- KETTLE.CAUSE.CODE -/ def kettleCauseCode : Fld := ⟨Blk.kettle, 0x002, 1, 1, 1, 0, 16, 0, .L, [0], .none⟩
/-- KETTLE.ISLON0.ENGINES -/ def kettleIslon0Engines : Fld := ⟨Blk.kettle, 0x003, 1, 1, 1, 0, 24, 0, .L, [0], .none⟩
/-- KETTLE.ISLON1.BANKS -/ def kettleIslon1Banks : Fld := ⟨Blk.kettle, 0x004, 1, 1, 1, 0, 16, 0, .L, [65535], .none⟩
/-- KETTLE.ISLON1.QUADS -/ def kettleIslon1Quads : Fld := ⟨Blk.kettle, 0x004, 1, 1, 1, 16, 4, 0, .L, [0], .none⟩
/-- KETTLE.ISLON1.SERDES -/ def kettleIslon1Serdes : Fld := ⟨Blk.kettle, 0x004, 1, 1, 1, 20, 5, 0, .L, [0], .none⟩
/-- KETTLE.ISLNAP0.ENGINES -/ def kettleIslnap0Engines : Fld := ⟨Blk.kettle, 0x005, 1, 1, 1, 0, 24, 0, .L, [0], .none⟩
/-- KETTLE.ISLNAP1.BANKS -/ def kettleIslnap1Banks : Fld := ⟨Blk.kettle, 0x006, 1, 1, 1, 0, 16, 0, .L, [0], .none⟩
/-- KETTLE.ISLNAP1.QUADS -/ def kettleIslnap1Quads : Fld := ⟨Blk.kettle, 0x006, 1, 1, 1, 16, 4, 0, .L, [0], .none⟩
/-- KETTLE.ISLNAP1.SERDES -/ def kettleIslnap1Serdes : Fld := ⟨Blk.kettle, 0x006, 1, 1, 1, 20, 5, 0, .L, [0], .none⟩
/-- KETTLE.ISLFAIL0.ENGINES -/ def kettleIslfail0Engines : Fld := ⟨Blk.kettle, 0x007, 1, 1, 1, 0, 24, 0, .C, [0], .none⟩
/-- KETTLE.ISLFAIL1.BANKS -/ def kettleIslfail1Banks : Fld := ⟨Blk.kettle, 0x008, 1, 1, 1, 0, 16, 0, .C, [0], .none⟩
/-- KETTLE.ISLFAIL1.QUADS -/ def kettleIslfail1Quads : Fld := ⟨Blk.kettle, 0x008, 1, 1, 1, 16, 4, 0, .C, [0], .none⟩
/-- KETTLE.ISLFAIL1.SERDES -/ def kettleIslfail1Serdes : Fld := ⟨Blk.kettle, 0x008, 1, 1, 1, 20, 5, 0, .C, [0], .none⟩
/-- KETTLE.NAP.NAP_MILL -/ def kettleNapNapMill : Fld := ⟨Blk.kettle, 0x010, 1, 1, 1, 0, 1, 0, .S, [0], .gNap⟩
/-- KETTLE.NAP.NAP_BANK -/ def kettleNapNapBank : Fld := ⟨Blk.kettle, 0x010, 1, 1, 1, 1, 1, 0, .S, [0], .gNap⟩
/-- KETTLE.NAP.LEAD_US -/ def kettleNapLeadUs : Fld := ⟨Blk.kettle, 0x010, 1, 1, 1, 8, 8, 0, .S, [20], .gNap⟩
/-- KETTLE.BE.BE_MILL_US -/ def kettleBeBeMillUs : Fld := ⟨Blk.kettle, 0x011, 1, 1, 1, 0, 16, 0, .S, [300], .gNap⟩
/-- KETTLE.BE.BE_BANK_US -/ def kettleBeBeBankUs : Fld := ⟨Blk.kettle, 0x011, 1, 1, 1, 16, 16, 0, .S, [500], .gNap⟩
/-- KETTLE.CALA.START_US -/ def kettleCalaStartUs : Fld := ⟨Blk.kettle, 0x020, 2, 8, 1, 0, 14, 0, .S, [0], .gCal⟩
/-- KETTLE.CALA.END_US -/ def kettleCalaEndUs : Fld := ⟨Blk.kettle, 0x020, 2, 8, 1, 16, 14, 0, .S, [0], .gCal⟩
/-- KETTLE.CALB.GROUP -/ def kettleCalbGroup : Fld := ⟨Blk.kettle, 0x021, 2, 8, 1, 0, 2, 0, .S, [0], .gCal⟩
/-- KETTLE.CALB.MASK -/ def kettleCalbMask : Fld := ⟨Blk.kettle, 0x021, 2, 8, 1, 8, 24, 0, .S, [0], .gCal⟩
/-- KETTLE.AVS.EN -/ def kettleAvsEn : Fld := ⟨Blk.kettle, 0x030, 1, 1, 1, 0, 1, 0, .S, [1], .gAvs⟩
/-- KETTLE.AVS.PM_MIN -/ def kettleAvsPmMin : Fld := ⟨Blk.kettle, 0x030, 1, 1, 1, 8, 10, 0, .S, [560], .gAvs⟩
/-- KETTLE.AVS.PM_TGT -/ def kettleAvsPmTgt : Fld := ⟨Blk.kettle, 0x030, 1, 1, 1, 18, 10, 0, .S, [600], .gAvs⟩
/-- KETTLE.VCORE.MV -/ def kettleVcoreMv : Fld := ⟨Blk.kettle, 0x031, 1, 1, 1, 0, 10, 0, .L, [850], .none⟩
/-- KETTLE.PMON.MIN -/ def kettlePmonMin : Fld := ⟨Blk.kettle, 0x032, 1, 1, 1, 0, 10, 0, .L, [0], .none⟩
/-- KETTLE.PMON.INDEX -/ def kettlePmonIndex : Fld := ⟨Blk.kettle, 0x032, 1, 1, 1, 16, 5, 0, .L, [0], .none⟩
/-- KETTLE.THERM.WARN_C -/ def kettleThermWarnC : Fld := ⟨Blk.kettle, 0x033, 1, 1, 1, 0, 8, 0, .S, [100], .gTherm⟩
/-- KETTLE.THERM.THR_C -/ def kettleThermThrC : Fld := ⟨Blk.kettle, 0x033, 1, 1, 1, 8, 8, 0, .S, [105], .gTherm⟩
/-- KETTLE.THERM.CRIT_C -/ def kettleThermCritC : Fld := ⟨Blk.kettle, 0x033, 1, 1, 1, 16, 8, 0, .S, [110], .gTherm⟩
/-- KETTLE.THERM.KEEP -/ def kettleThermKeep : Fld := ⟨Blk.kettle, 0x033, 1, 1, 1, 24, 5, 0, .S, [16], .gTherm⟩
/-- KETTLE.CRITHOLD.MS -/ def kettleCritholdMs : Fld := ⟨Blk.kettle, 0x034, 1, 1, 1, 0, 16, 0, .S, [1000], .gTherm⟩
/-- KETTLE.TMAX.TEMP -/ def kettleTmaxTemp : Fld := ⟨Blk.kettle, 0x035, 1, 1, 1, 0, 16, 0, .L, [0], .none⟩
/-- KETTLE.TMAX.SENSOR -/ def kettleTmaxSensor : Fld := ⟨Blk.kettle, 0x035, 1, 1, 1, 16, 4, 0, .L, [0], .none⟩
/-- KETTLE.TEMP.TEMP_LO -/ def kettleTempTempLo : Fld := ⟨Blk.kettle, 0x040, 1, 8, 1, 0, 16, 0, .L, [0], .none⟩
/-- KETTLE.TEMP.TEMP_HI -/ def kettleTempTempHi : Fld := ⟨Blk.kettle, 0x040, 1, 8, 1, 16, 16, 0, .L, [0], .none⟩
/-- KETTLE.VMON.MV -/ def kettleVmonMv : Fld := ⟨Blk.kettle, 0x048, 1, 9, 1, 0, 16, 0, .L, [800, 3300, 1800, 1800, 800, 850, 850, 1050, 500], .none⟩
/-- KETTLE.VMON.WARN -/ def kettleVmonWarn : Fld := ⟨Blk.kettle, 0x048, 1, 9, 1, 16, 1, 0, .L, [0], .none⟩
/-- KETTLE.PFW.PIN_EN -/ def kettlePfwPinEn : Fld := ⟨Blk.kettle, 0x058, 1, 1, 1, 0, 1, 0, .S, [1], .gPfw⟩
/-- KETTLE.PFW.SENSE_EN -/ def kettlePfwSenseEn : Fld := ⟨Blk.kettle, 0x058, 1, 1, 1, 1, 1, 0, .S, [0], .gPfw⟩
/-- KETTLE.PFW.PFW_TH_MV -/ def kettlePfwPfwThMv : Fld := ⟨Blk.kettle, 0x058, 1, 1, 1, 4, 10, 0, .S, [750], .gPfw⟩
/-- KETTLE.PFW.PFW_RESET_US -/ def kettlePfwPfwResetUs : Fld := ⟨Blk.kettle, 0x058, 1, 1, 1, 16, 16, 0, .S, [1000], .gPfw⟩
/-- KETTLE.SLEEPCFG.DEPTH -/ def kettleSleepcfgDepth : Fld := ⟨Blk.kettle, 0x059, 1, 1, 1, 0, 2, 0, .S, [0], .gSleep⟩
/-- KETTLE.SLEEPCFG.WAKEGPIO -/ def kettleSleepcfgWakegpio : Fld := ⟨Blk.kettle, 0x059, 1, 1, 1, 8, 8, 0, .S, [0], .none⟩
/-- KETTLE.WAKELO.SECONDS -/ def kettleWakeloSeconds : Fld := ⟨Blk.kettle, 0x05A, 1, 1, 1, 0, 32, 0, .S, [0], .none⟩
/-- KETTLE.WAKEHI.SECONDS -/ def kettleWakehiSeconds : Fld := ⟨Blk.kettle, 0x05B, 1, 1, 1, 0, 16, 0, .S, [0], .none⟩
/-- KETTLE.RESUMELO.ADDR_LO -/ def kettleResumeloAddrLo : Fld := ⟨Blk.kettle, 0x05C, 1, 1, 1, 2, 30, 0, .S, [0], .gSleep⟩
/-- KETTLE.RESUMEHI.ADDR_HI -/ def kettleResumehiAddrHi : Fld := ⟨Blk.kettle, 0x05D, 1, 1, 1, 0, 8, 0, .S, [0], .gSleep⟩
/-- KETTLE.RESUMEHI.VALID -/ def kettleResumehiValid : Fld := ⟨Blk.kettle, 0x05D, 1, 1, 1, 31, 1, 0, .S, [0], .gSleep⟩
/-- KETTLE.CNT.NAPS -/ def kettleCntNaps : Fld := ⟨Blk.kettle, 0x060, 1, 1, 1, 0, 16, 0, .L, [0], .none⟩
/-- KETTLE.CNT.DEMAND -/ def kettleCntDemand : Fld := ⟨Blk.kettle, 0x060, 1, 1, 1, 16, 16, 0, .L, [0], .none⟩
/-- KETTLE.FAULT.CODE -/ def kettleFaultCode : Fld := ⟨Blk.kettle, 0x061, 1, 1, 1, 0, 16, 0, .L, [0], .none⟩
/-- KETTLE.FAULT.INDEX -/ def kettleFaultIndex : Fld := ⟨Blk.kettle, 0x061, 1, 1, 1, 16, 8, 0, .L, [0], .none⟩

/-- Every field of SYS. -/
def allSys : List Fld :=
  [sysIdentPart, sysIdentStepMajor, sysIdentStepMinor, sysIdentGrade, sysCycleNumber, sysPhasePhase, sysPhaseOffsetUs, sysReleaseMode, sysReleaseGate, sysReleaseWithheld, sysReleaseAckUs, sysLastrelCycle, sysCountOverrun, sysCountWithheld]

/-- Every field of HUB. -/
def allHub : List Fld :=
  [hubLstepSelftest, hubLstepSelftestOk, hubLstepMismatch, hubLstepLag, hubCoreKernel, hubCoreCore2, hubCoreCore3, hubHaltcauseCore2, hubHaltcauseCore3, hubEntryloAddrLo, hubEntryhiAddrHi, hubEntryhiValid, hubStartStart2, hubStartStart3, hubStartHalt2, hubStartHalt3, hubOwnOwner]

/-- Every field of GRANARY. -/
def allGranary : List Fld :=
  [granaryScrubLastPassUs, granaryScrubPasses, granaryEccCorrected, granaryEccUncorr, granaryEccLate, granaryEccaddrWord]

/-- Every field of BOOT. -/
def allBoot : List Fld :=
  [bootCtrlCycstart, bootCtrlReset, bootStateSlot, bootStateRec, bootStateTrials, bootStateGoldlock, bootStateSysrun, bootStateSyncmet, bootStateIdset, bootStateUnit, bootStateQueued, bootServiceSeconds, bootUptimeSeconds, bootSecverValue, bootMinsecValue, bootBundleValue, bootReqNumber, bootReqResult, bootCauseCause, bootFaultCode, bootFaultEntry]

/-- Every field of MILL. -/
def allMill : List Fld :=
  [millCtrlRun, millCtrlStop, millCtrlRestore, millCtrlHwreset, millStateState, millStateMode, millStateJoined, millModeMode, millEnableEnable, millEngupUp, millEngfailFail, millLibBank, millGraphAddr, millNodesCount, millFlowtabAddr, millInjbaseAddr, millInjlenEntries, millInjectDoorbell, millInjgetGet, millCutbaseAddr, millCutLeadUs, millCutLastvalid, millCutLastsizeKb, millLimitLimitUs, millLimitRetries, millReservePos, millReservePlan, millReserveBg, millStoreInuse, millStoreHigh, millReadyUrg, millReadyPos, millReadyPlan, millReadyBg, millCntDispCount, millCntRetCount, millCntEvtDiscarded, millCntEvtInvalid, millCntFlowHoles, millCntFlowFull] ++
  [millLastfaultCode, millLastfaultEngine]

/-- Every field of REEVE. -/
def allReeve : List Fld :=
  [reeveCtrlRun, reeveCtrlStop, reeveCtrlLoad, reeveCtrlRestore, reeveCtrlClear, reeveStateState, reeveStateGraphOk, reeveStateRestoreOk, reeveGraphAddr, reeveGraphsizeNodes, reeveGraphsizeSegs, reeveMirrorAddr, reeveRevokeAddr, reeveRevokelenEntries, reeveAuctloDestLo, reeveAucthiDestHi, reeveAucthiEn, reeveHorizonBuckets, reeveHorizonLead, reeveHorizonMaxage, reeveHorizonMargin, reeveLightBays, reeveLightLeadS, reeveDayoffOffsetS, reeveBudgetBudgetS, reeveUsedUsedS, reeveBucketNext, reeveBucketRound, reeveResidnextResid, reeveUseEntries, reeveUsePortq, reevePoolTasks, reevePoolOpen, reeveGraphcrcCrc, reeveCnt0Commits, reeveCnt0Conflicts, reeveCnt1Full, reeveCnt1Stale, reeveCnt2Preempts, reeveCnt2RevokeFails] ++
  [reeveFaultCode, reeveFaultIndex]

/-- Every field of GNSSIN. -/
def allGnssin : List Fld :=
  [gnssinCtrlRun, gnssinCtrlStop, gnssinCtrlAlign, gnssinStateAnt, gnssinFeclkEn, gnssinFegainMode, gnssinFegainSettleUs, gnssinEventWarn, gnssinEventAlarm, gnssinEventLane, gnssinLaneDepth, gnssinLaneEyeMin, gnssinLstatEye, gnssinLstatDiscont, gnssinLstatFill, gnssinCfgEn, gnssinCfgPbEn, gnssinCfgNotchEn, gnssinCfgAgcEn, gnssinLoLoHz, gnssinAgcTarget, gnssinAgcHys, gnssinAgcPeriod, gnssinAgcGainExt, gnssinAgcstatGain, gnssinAgcstatDepth, gnssinAgcstatF, gnssinAgcrefRef, gnssinAgcrefLearn, gnssinAgcrefLearnDone, gnssinAgcrefLearning, gnssinAgcrefLearned, gnssinPbThresh, gnssinPbTail, gnssinPbMax, gnssinPbstatDuty, gnssinPbstatSat, gnssinPbstatCount, gnssinJamwWd, gnssinJamwWs] ++
  [gnssinJamwSref, gnssinJamtWarn, gnssinJamtAlarm, gnssinJamtHys, gnssinJamstatIndex, gnssinJamstatFlat, gnssinJamstatWarn, gnssinJamstatAlarm, gnssinJamstatValid, gnssinNdetEngageDb, gnssinNdetReleaseDb, gnssinNdetHoldMs, gnssinNdetMu, gnssinNcfgMode, gnssinNcfgWidth, gnssinNfreqFreq, gnssinNstatEngaged, gnssinNstatOverlap, gnssinNstatRemovedDb, gnssinNstatFreq]

/-- Every field of GRINDER. -/
def allGrinder : List Fld :=
  [grinderCtrlRun, grinderCtrlStop, grinderCtrlDoorbell, grinderStateState, grinderStateBusy, grinderStatePending, grinderRingAddr, grinderRinglenEntries, grinderResAddr, grinderReslenEntries, grinderGetCount, grinderRputCount, grinderCntDone, grinderCntDetect, grinderCnt2Invalid, grinderCnt2Capfail]

/-- Every field of CORREL. -/
def allCorrel : List Fld :=
  [correlCtrlRun, correlCtrlStop, correlCtrlCalnow, correlStateRun, correlLatchbaseAddr, correlCalEn, correlCalIntervalS, correlUseSlots, correlUseLanes, correlCalstatAgeS, correlCalstatSpreadPs, correlCaldlyD0Ps, correlCaldlyD1Ps]

/-- Every field of GSEQ. -/
def allGseq : List Fld :=
  [gseqCtrlStart, gseqCtrlHalt, gseqStateSeq, gseqBootargAddr, gseqFaultCode]

/-- Every field of RADIO. -/
def allRadio : List Fld :=
  [radioCtrlRun, radioCtrlStop, radioCountConn, radioCountSleepy, radioCountLegacy, radioNbrbaseAddr, radioPlanbaseAddr, radioKeyRoot, radioKeyLroot, radioKeyEpoch, radioNbrsetIndex, radioNbrsetLine, radioNbrsetGo, radioNbrresResult, radioNbrresIndex, radioNbrresDone, radioBootargAddr, radioFaultnCode, radioFaultCode, radioFaultIndex, radioPhyRateKbps, radioPhyPhyovh, radioPhySyncb, radioTimTxlatUs, radioTimGuardUs, radioTimRxguardUs, radioTimLeadpUs, radioPollNsub, radioPollPguardUs, radioPollAnsoffUs, radioRegMode, radioRegCcaDbm, radioRegCw, radioRegTries, radioLbtCcaUs, radioLbtBoUs, radioDutyDutyPm, radioDutyDutyWinS, radioDutyrResMs, radioDwellDwellMaxMs] ++
  [radioDwellDwellWinS, radioDwellrResMs, radioBchBch, radioBchBhop, radioBmaploMap, radioBmaphiMap, radioStatState, radioStatBmiss, radioStatDutyUsed, radioCnt0Tx, radioCnt0Rx, radioCnt1Mic, radioCnt1Replay, radioCnt2Lbt, radioCnt2Limit, radioCnt3Fcs, radioCnt3Xdrop]

/-- Every field of BELL. -/
def allBell : List Fld :=
  [bellCtrlRun, bellStateState, bellStateLocal, bellStatePartner, bellStatePlive, bellStateBoundOk, bellStateFit, bellSrcEst, bellSrcCmd, bellSrcKernel, bellSrcStart, bellSrcEstcond, bellEstEn, bellEstClass, bellEstTestEn, bellEstFiltUs, bellTestTperMs, bellTestTpUs, bellDiscDiscMs, bellEststatAopen, bellEststatBopen, bellEststatTestfail, bellEststatDiscrep, bellCstopMode, bellCstopLevel, bellKeyRoot, bellKeyCmdroot, bellKeyEpoch, bellCountValue, bellResvValue, bellFaultCode, bellFaultIndex, bellWinNack, bellWinAoffUs, bellWinAsubUs, bellWinBretryUs, bellWin2SecondUs, bellWin2Keep, bellAckRoster, bellAckOwed] ++
  [bellAckAcked, bellCntSent, bellCntSkipped, bellOwedOwed]

/-- Every field of QUEUE. -/
def allQueue : List Fld :=
  [queueCtrlEnable, queueCtrlDisable, queueCtrlFlush, queueCfgWriters, queueCfgReader, queueCfgGated, queueCfgLine, queueCfgNeirq, queueCfgSize, queueCfgKwr, queueBaseAddr, queueWmHigh, queueWmLow, queueRingAddr, queueStatFill, queueStatWm, queueStatFull, queueStatEmpty, queueStatMarkopen, queueStatState, queueCntDropped, queueCntWithheld]

/-- Every field of CLAIM. -/
def allClaim : List Fld :=
  [claimCtrlHold, claimCtrlRelease, claimStateStage, claimStateUnit, claimStatePref, claimStateOwnwire, claimStatePartwire, claimStatePrefFault, claimStateReason, claimHeldClaim, claimSeenClaim, claimCfgOutu, claimCfgPps0, claimCfgPps1, claimCfgRefout, claimCfgPwmsafe, claimGpioloMask, claimGpiohiMask, claimCntHolds, claimCntReleases]

/-- Every field of DECANT. -/
def allDecant : List Fld :=
  [decantStateState, decantStateLocked, decantStateBuf, decantShbaseAddr, decantShlenLen, decantBufAddr, decantCfgKeyslot, decantCfgResync, decantLastLines, decantLastRuns, decantBaseCycle, decantCntSealed, decantCntDiscarded, decantCnt2Overcap, decantCnt2LockedWr, decantFaultCode]

/-- Every field of PLINK. -/
def allPlink : List Fld :=
  [plinkCtrlRun, plinkCtrlStop, plinkCtrlAlive, plinkCtrlYield, plinkStateLink, plinkStatePair, plinkStatePartner, plinkStatePinsync, plinkStateSyncrun, plinkCfgPairEn, plinkCfgAutoback, plinkCfgWhmax, plinkCfgStartWaitS, plinkCfgTsplitNs, plinkToffPs, plinkPheldClaim, plinkHbageUs, plinkHCycle, plinkCntTakeovers, plinkCntLosses, plinkFaultCode]

/-- Every field of NET. -/
def allNet : List Fld :=
  [netCtrlRun, netCtrlStop, netStatePort, netHubIn, netHubOutg, netHubOutu, netMacloAddr, netMachiAddr, netPtpDomain, netPtpProfile, netPtpTcEn, netPtpUdp, netPortMode, netPortAn, netPortPtpEn, netLatRxPhy, netLatTxPhy, netPdelayDelay, netPstatSpeed, netPstatLock, netPstatLinkchg, netCntRx, netCntTx, netCntpStamped, netCntpTcfix, netCntbBelldrop, netCntbTcdrop, netFaultCode, netFaultPort]

/-- Every field of TIME. -/
def allTime : List Fld :=
  [timeCtrlFeed, timeCtrlSnap, timeStateServo, timeStateSlewing, timeStateStepPending, timeStateTuneSat, timeStateAnchored, timeStateStepseq, timeFeedbaseAddr, timeFeedlenEntries, timeFeedgetCount, timeServoSrc, timeServoTuneEn, timeServoFeedToMs, timeKpKp, timeKiKi, timeLimitFmaxPpm, timeLimitSlewPpb, timeOutlierOutlierNs, timeFadjValue, timeFintValue, timeTuneCenter, timeTunegainGain, timeTunegainInvert, timeTunecodeCode, timePpsperPeriodNs, timePpswidWidthNs, timePpsoffOffset, timePpscfgEn, timePpscfgPol, timePpscfgMute, timePpscfgFree, timeRefoutSel, timeUtcOffsetS, timeUtcLeap61, timeUtcLeap59, timeUtcValid, timeSnapnsNs, timeSnapsloSecLo, timeSnapshiSecHi] ++
  [timeSnapshiFrac, timeSlewremNs, timeStepremNs, timeCntAccepted, timeCntRejected, timeFaultCode]

/-- Every field of KEYWELL. -/
def allKeywell : List Fld :=
  [keywellCtrlSelftest, keywellStateLc, keywellStateApproved, keywellStateError, keywellStateEntropyOk, keywellStateOrphanInUse, keywellStateMergeDone, keywellStateOwned, keywellStateQueue, keywellStateJournal, keywellCfgApproved, keywellCfgPr, keywellCfgReseedS, keywellDevidloDevid, keywellDevidhiDevid, keywellCntJobs, keywellCntFailed, keywellFaultCode, keywellFaultSlot, keywellSlotOcc, keywellSlotCarry, keywellSlotInuse, keywellSlotType, keywellSlotLevel, keywellSlotUsage, keywellSlotidKeyid]

/-- Every field of LOOP. -/
def allLoop : List Fld :=
  [loopCtrlRun, loopCtrlStop, loopCtrlRestore, loopStateRunning, loopStateClosed, loopCutbaseAddr, loopStaggerUs, loopSpEn, loopSpWords, loopSpstatBadlen, loopSpstatGaps, loopPwmPeriodClk, loopFaultCode, loopFaultSlot, loopCfgSport, loopCfgChan, loopCfgSnk, loopCfgTarget, loopCfgFbact, loopCfgAutorec, loopCfgStagger, loopCfgEngpio, loopCfgEngEn, loopPeriodPeriodClk, loopPeriodPhase, loopCascOuter, loopCascEn, loopCascN, loopFbTmo, loopFbFrzK, loopFbRecov, loopModeMode, loopGain, loopOfs, loopKp, loopKi, loopKd, loopTf, loopOmin, loopOmax] ++
  [loopSetp, loopSlew, loopManual, loopSafe, loopFrzthr, loopStatState, loopStatReason, loopStatWaitstart, loopStatSlewing, loopStatSat, loopStatBump, loopPv, loopRef, loopOut, loopInt, loopCntSamples, loopCntStale]

/-- Every field of AXIS. -/
def allAxis : List Fld :=
  [axisCtrlRun, axisCtrlStop, axisCtrlRestore, axisCtrlQstop, axisStateRunning, axisStateHomed, axisCutbaseAddr, axisFaultCode, axisFaultAxis, axisCfgSrc, axisCfgRes, axisCfgLimact, axisCfgHdir, axisCfgHsrc, axisCfgPol, axisCfgBstop, axisCfgEngpio, axisCfgEngEn, axisCfgReqhome, axisFiltFiltUs, axisCurIcur, axisCmdCmd, axisTgtTgt, axisVtgt, axisVmax, axisAmax, axisDmax, axisJmax, axisHvel, axisLdec, axisHomeposHomepos, axisExtpExtpmaxMs, axisPosPos, axisVel, axisStatState, axisStatReason, axisStatHomed, axisStatDeckept, axisStatLn, axisStatLp] ++
  [axisStatHm, axisStatInterp, axisLatchLatch, axisCntSteps, axisCntDiscard]

/-- Every field of TALLY. -/
def allTally : List Fld :=
  [tallyCtrlRun, tallyCtrlStop, tallyCtrlClear, tallyCtrlSnap, tallyStateRunning, tallyStateSaving, tallyStateFlushed, tallyStateRowused, tallyStateClearing, tallyStateSaves, tallySnapcfgShift, tallyVmin, tallyClearmaskMask, tallySnapcycCycle, tallyFaultCode, tallyFaultChan, tallyCfgEn, tallyCfgPort, tallyCfgVchan, tallyCfgIchan, tallyCfgAccmode, tallyCfgHpf, tallyCfgIinv, tallyVgain, tallyIgain, tallyPhcalPhcal, tallyCreep, tallyVrms, tallyIrms, tallyP, tallyQ, tallyS, tallyPf, tallyFreq, tallyStatQuad, tallyStatFvalid, tallyStatRate, tallyStatFill, tallyStatCreep, tallyStatN] ++
  [tallySnapCount]

/-- Every field of KETTLE. -/
def allKettle : List Fld :=
  [kettleCtrlSleep, kettleStatePfw, kettleStateThrottle, kettleStateAvslim, kettleStateDevice, kettleCauseCode, kettleIslon0Engines, kettleIslon1Banks, kettleIslon1Quads, kettleIslon1Serdes, kettleIslnap0Engines, kettleIslnap1Banks, kettleIslnap1Quads, kettleIslnap1Serdes, kettleIslfail0Engines, kettleIslfail1Banks, kettleIslfail1Quads, kettleIslfail1Serdes, kettleNapNapMill, kettleNapNapBank, kettleNapLeadUs, kettleBeBeMillUs, kettleBeBeBankUs, kettleCalaStartUs, kettleCalaEndUs, kettleCalbGroup, kettleCalbMask, kettleAvsEn, kettleAvsPmMin, kettleAvsPmTgt, kettleVcoreMv, kettlePmonMin, kettlePmonIndex, kettleThermWarnC, kettleThermThrC, kettleThermCritC, kettleThermKeep, kettleCritholdMs, kettleTmaxTemp, kettleTmaxSensor] ++
  [kettleTempTempLo, kettleTempTempHi, kettleVmonMv, kettleVmonWarn, kettlePfwPinEn, kettlePfwSenseEn, kettlePfwPfwThMv, kettlePfwPfwResetUs, kettleSleepcfgDepth, kettleSleepcfgWakegpio, kettleWakeloSeconds, kettleWakehiSeconds, kettleResumeloAddrLo, kettleResumehiAddrHi, kettleResumehiValid, kettleCntNaps, kettleCntDemand, kettleFaultCode, kettleFaultIndex]

/-- Every field of DEBUG. -/
def allDebug : List Fld :=
  [debugCtrlClose, debugStateOpen, debugStateOpened, debugStateAttached]

/-- Every field of the block of the given ID. -/
def ofBlock (b : Nat) : List Fld :=
  if b = Blk.sys then allSys
  else if b = Blk.hub then allHub
  else if b = Blk.granary then allGranary
  else if b = Blk.boot then allBoot
  else if b = Blk.mill then allMill
  else if b = Blk.reeve then allReeve
  else if b = Blk.gnssin then allGnssin
  else if b = Blk.grinder then allGrinder
  else if b = Blk.correl then allCorrel
  else if b = Blk.gseq then allGseq
  else if b = Blk.radio then allRadio
  else if b = Blk.bell then allBell
  else if b = Blk.queue then allQueue
  else if b = Blk.claim then allClaim
  else if b = Blk.decant then allDecant
  else if b = Blk.plink then allPlink
  else if b = Blk.net then allNet
  else if b = Blk.time then allTime
  else if b = Blk.keywell then allKeywell
  else if b = Blk.loop then allLoop
  else if b = Blk.axis then allAxis
  else if b = Blk.tally then allTally
  else if b = Blk.kettle then allKettle
  else if b = Blk.debug then allDebug
  else []

end Fld

end Sys2Proof
end

