-- ==== Sys2Proof/Config.lean ====
section
/-! DEFINITION. What an implementation fixes and what the spec leaves open: constants and functions without a body, so
that nothing proved about the model can rest on a value of them (notes/assumptions 9 to 14). -/

namespace Sys2Proof.Config

/-- The n-th value the spec leaves open, drawn by a step from the counter `State.fresh` (log 9). -/
opaque freeNat : Nat → Nat

/-- The bit of FCLASS's one-hot result that stands for each of the ten classes of a binary64 value, numbered in the order
of IEEE 754-2019 5.7.2; the spec gives no order (R49; log 10). -/
opaque fclassBit : Fin 10 → Fin 10

/-- Whether tininess is detected before rounding (IEEE 754-2019 7.5 leaves it to the implementation; log 10). -/
opaque tinyBefore : Bool

/-- AES-CMAC of a message under the key that a reference names, 16 bytes as a number (standards outside the spec; log 11). -/
opaque cmac : (key : Nat) → (msg : List Byte) → BitVec 128

/-- AES-256-ECB of one block under the key that a reference names (09 R226, 10 R262; log 11). -/
opaque aesEcb : (key : Nat) → (block : List Byte) → BitVec 128

/-- Every other cryptographic function of chapter 14 (AES modes, GMAC, SHA, HMAC, ECDSA, ECDH, AES-KWP): the bytes the
algorithm of the given number yields from the given input bytes under the given key reference (log 11). -/
opaque crypto : (alg : Nat) → (key : Nat) → (input : List Byte) → List Byte

/-- Whether the cryptographic check of the given number passes on the given input (log 11). -/
opaque cryptoOk : (alg : Nat) → (key : Nat) → (input : List Byte) → Bool

/-- ICUR times the cosine of the electrical angle, rounded to a whole duty code; the angle is `POS[9:0]` in units of a
1,024th of a turn (R412; log 12). -/
opaque cosCode : (icur angle : Nat) → Int

/-- ICUR times the sine of the electrical angle, rounded to a whole duty code (R412; log 12). -/
opaque sinCode : (icur angle : Nat) → Int

/-- Whether a jerk-limited ramp from the given velocity and acceleration to standstill ends within the given distance; the generator's plan
under JMAX > 0 is not given step by step (R411; log 12). Units of `Machine.planUnit`; DMAX and JMAX in binary32. -/
opaque jerkRampFits : (vel acc : Int) → (dmax jmax : Nat) → (dist : Nat) → Bool

/-- The velocity that the generator aims at in a PWM period on its way to a target that it can reach (17 R409, R411): from the planned
position, the velocity, the acceleration, the target, and VMAX, AMAX, DMAX and JMAX; the spec gives its plan by what it must meet (log 233). -/
opaque moveAim : (plan vel acc tgt : Int) → (profile : Nat × Nat × Nat × Nat) → Int

/-- The acceleration of a jerk-limited profile in a PWM period (17 R409): from the velocity, the acceleration, the velocity aimed at, and
AMAX, DMAX and JMAX (log 233). -/
opaque jerkAcc : (vel acc aim : Int) → (profile : Nat × Nat × Nat) → Int

/-- atan2(b, a) in units of 2^-32 cycle; the rounding is not given (03 Table 3.11; log 12). -/
opaque phaseCode : (a b : Int) → Nat

/-- How far MAG's result stands above the whole part of the root, within the bound of 03 Table 3.11 (log 12). -/
opaque magOver : (a b : Int) → Int

/-- Whether a quotient that the spec does not round to the unit it is held in is rounded up (away from the floor); the numbers say
which quotient it is (log 13). -/
opaque roundsUp : (what : Nat) → (num den : Int) → Bool

/-- Whether the median of an even number of bins is the upper of the two middle ones (R124; log 14). -/
opaque medianUpper : Bool

/-- The power spectrum of 256 samples under a Hann window (05 R124): its central 204 bins, from 102 below the LO up; the spec does not give
the arithmetic (log 120). -/
opaque blockPower : List (Int × Int) → List Nat

/-- A sample times e^(jω) for a frequency in Hz, in the number format of the chain (05 R125; log 120). -/
opaque turn : (hz : Int) → Int × Int → Int × Int

/-- The power a notch removes of a millisecond's samples, in dB above the spectrum's median: its input, its output, the median (05 R125;
log 120). -/
opaque notchDb : (inp out : List (Int × Int)) → (med : Nat × Nat) → Nat

/-- The frequency in Hz that a notch's loop of bandwidth 100 × 2^MU Hz follows over a millisecond of samples (05 R125; log 120). -/
opaque notchFollow : (mu : Nat) → (hz : Int) → List (Int × Int) → Int

/-- An integration of a channel (06 R144, R145): the stream whose band output it takes, its first and last root clock, its RATE, the SIGNAL and
PRN of its replica, and the code and the carrier phase the replica begins at. -/
structure Integration where
  stream : Nat
  from' : Nat
  to' : Nat
  rate : Nat
  sig : Nat
  prn : Nat
  code : Nat
  carr : Int

/-- What a tap sums over an integration with the replica shifted by samples (06 R145; log 131): I and Q. -/
opaque correlate : Integration → (shift : Int) → Int × Int

/-- The same against the strobe of a width in samples, before or after each chip transition (06 R145; log 131). -/
opaque strobe : Integration → (width : Nat) → (after : Bool) → Int × Int

/-- The same against a code of the family that no satellite transmits (06 R145; log 131). -/
opaque noiseTap : Integration → Int × Int

/-- How far a code NCO under a rate word goes in a number of GNSS clocks, in 2^-24 chip; the spec gives the words no unit (03 Table 3.11;
log 131). -/
opaque codeGoes : (rate clocks : Nat) → Nat

/-- How far a carrier NCO under a rate word goes in a number of GNSS clocks, in 2^-24 cycle (log 131). -/
opaque carrGoes : (rate clocks : Nat) → Int

/-- The carrier and code rate words of a SIGNAL and PRN at a Doppler in 1/16 Hz (06 R150; log 131). -/
opaque rateWords : (sig prn : Nat) → (doppler : Int) → Nat × Nat

/-- The Doppler in 2^-8 Hz that a carrier rate word of a SIGNAL and PRN stands for (06 Table 6.11; log 131). -/
opaque dopplerOf : (sig prn : Nat) → (rate : Nat) → Int

/-- The rate words that the loops ask for after a coherent sum (06, Loops and channel states; log 131): PLL or FLL, the profile, the sum's taps,
the rates in force and the filters' memory, with that memory as it is then. -/
opaque loopStep : (pll : Bool) → (profile : List (BitVec 8)) → (sum : List Int) → (rates : Nat × Nat) → (mem : List Int) →
  (Nat × Nat) × List Int

/-- The data bit of a SIGNAL in ms, where the spec does not give it (06 R152, R156; log 131). -/
opaque bitMs : (sig : Nat) → Nat

/-- A system offset after smoothing over 300 s: the value so far and this epoch's (06 R158; log 134). -/
opaque smooth300 : (old new : Int) → Int

/-- Whether a time solution record gives a system's offset as estimated where it has both forms (06 R158; log 134). -/
opaque givesEstimate : (system cycle : Nat) → Bool

/-- Where the correction graphs' state lies in the Granary: the settings block, the map and the state, in a shadow region (07 R168; log 140). -/
opaque corrBase : Nat

/-- A lever in mm east, north and up of a base, as a vector of the Earth-fixed frame in 0.1 mm (07 R169; log 140). -/
opaque fromEnu : (base lever : Int × Int × Int) → Int × Int × Int

/-- The elevation of a point at a base, in hundredths of a degree (07 R172; log 140). -/
opaque elevation : (base sat : Int × Int × Int) → Int

/-- A system's offset to GPST in ps in a cycle for which the clock solution has estimated none (07 R173; log 140). -/
opaque sysOffset : (system cycle : Nat) → Int

/-- The text that message 1033 gives as the firmware version for an IMAGE_VERSION (07 Table 7.2; log 145). -/
opaque versionText : Nat → List (BitVec 8)

/-- The text that message 1033 gives as the receiver serial for a pair identity (07 Table 7.2; log 145). -/
opaque serialText : Nat → List (BitVec 8)

/-- What a reader that has been told of an uncorrectable error finds at a byte of that word (01 R38; log 94). -/
opaque poisonByte : (addr : Nat) → BitVec 8

/-- What an erased byte of the flash fitted reads as (15 R374; log 65). -/
opaque erasedByte : BitVec 8

/-- The first-order DC-blocking filter of a metering channel, 0.5 Hz corner: its output from the present and the last input and its last
output, in binary64; the spec gives no coefficients (18 R426; log 241). -/
opaque dcBlock : (x xLast yLast : BitVec 64) → BitVec 64

/-- The fractional-delay filter of a metering channel: the current 63 samples back and PHCAL × 2^-12 sample more, from the newest 127 currents,
newest first; the spec gives no taps (18 R426; log 241). -/
opaque fracDelay : (phcal : Int) → List (BitVec 64) → BitVec 64

/-- The 127-tap Hilbert FIR of a metering channel over the newest 127 voltages, newest first; the spec gives no taps (18 R426; log 241). -/
opaque hilbert : List (BitVec 64) → BitVec 64

/-- The apparent power of one pair, of which an interval that lost samples adds up its apparent energy; the spec gives none (18 Table 18.2;
log 241). -/
opaque pairApparent : (v i : BitVec 64) → BitVec 64

/-- offsetScaledLogVariance that IEEE 1588-2019 computes from UNC_PS (12 R301, log 194). -/
opaque ptpVariance : Nat → BitVec 16

end Sys2Proof.Config
end

