-- ==== Sys2Proof/Machine/Float.lean ====
section
/-! DEFINITION. Binary64 arithmetic of R49 (IEEE 754-2019), exact on dyadic rationals and rounded once, and the
conversions between binary32 and binary64 that R384 asks for. -/

namespace Sys2Proof

/-- The exception flags of FCSR[8:4]: invalid, divide by zero, overflow, underflow, inexact (02, FCSR). -/
structure FFlags where
  nv : Bool := false
  dz : Bool := false
  ov : Bool := false
  uf : Bool := false
  nx : Bool := false
  deriving DecidableEq, Repr

/-- Flags in the order of FCSR[8:4], invalid at bit 4. -/
def FFlags.bits (f : FFlags) : Nat :=
  f.nv.toNat * 16 + f.dz.toNat * 32 + f.ov.toNat * 64 + f.uf.toNat * 128 + f.nx.toNat * 256

/-- Rounding modes of FCSR[2:0]; 5 to 7 act as 0. -/
inductive RMode where
  | nearEven | zero | down | up | nearAway
  deriving DecidableEq, Repr

/-- The rounding mode a value of FCSR[2:0] names. -/
def RMode.ofCode (n : Nat) : RMode :=
  match n with
  | 1 => .zero
  | 2 => .down
  | 3 => .up
  | 4 => .nearAway
  | _ => .nearEven

/-- A binary floating-point datum: not a number (signalling or quiet), an infinity, or `(-1)^neg * m * 2^e`. -/
inductive Fp where
  | nan (signalling : Bool)
  | inf (neg : Bool)
  | fin (neg : Bool) (m : Nat) (e : Int)
  deriving DecidableEq, Repr

namespace Float64

/-- The canonical NaN of R49. -/
def qNaN : BitVec 64 := 0x7FF8000000000000#64

/-- Reads a datum of a format with `p` bits of precision and `w` exponent bits out of its encoding. -/
def unpack (p w : Nat) (x : Nat) : Fp :=
  let neg := x / 2 ^ (p - 1 + w) % 2 = 1
  let ex := x / 2 ^ (p - 1) % 2 ^ w
  let fr := x % 2 ^ (p - 1)
  let qmin : Int := 3 - (2 ^ (w - 1) : Nat) - (p : Nat)
  if ex = 2 ^ w - 1 then
    if fr = 0 then .inf neg else .nan (fr < 2 ^ (p - 2))
  else if ex = 0 then .fin neg fr qmin
  else .fin neg (fr + 2 ^ (p - 1)) (qmin + (ex : Int) - 1)

/-- Whether the part cut off below the last place rounds the magnitude up: `rem` against `2 ^ sh`, with `sticky` for what
lies lower still. -/
def roundUp (rm : RMode) (neg : Bool) (m rem sh : Nat) (sticky : Bool) : Bool :=
  let inexact := rem ≠ 0 || sticky
  let half := 2 ^ sh
  let above := decide (2 * rem > half) || (decide (2 * rem = half) && sticky)
  let tie := decide (2 * rem = half) && !sticky
  match rm with
  | .nearEven => above || (tie && m % 2 = 1)
  | .nearAway => above || tie
  | .zero => false
  | .down => neg && inexact
  | .up => !neg && inexact

/-- Whether `m`, cut to `p` bits by `sh` places (appended zeros where it is negative), rounds up to `2 ^ p`: with an unbounded exponent
the rounded value has then reached the next power of two (IEEE 754-2019 7.5, after rounding). -/
def roundsToPower (p : Nat) (rm : RMode) (neg : Bool) (m : Nat) (sh : Int) (sticky : Bool) : Bool :=
  let k := sh.toNat
  let m0 := m * 2 ^ (-sh).toNat / 2 ^ k
  roundUp rm neg m0 (m % 2 ^ k) k sticky && m0 + 1 = 2 ^ p

/-- Rounds `(-1)^neg * m * 2^e` (with something nonzero below it when `sticky`) to a format of `p` bits and `w` exponent
bits: the encoding and the flags. -/
def pack (p w : Nat) (rm : RMode) (neg : Bool) (m : Nat) (e : Int) (sticky : Bool := false) : Nat × FFlags :=
  let sign := neg.toNat * 2 ^ (p - 1 + w)
  if m = 0 ∧ sticky = false then (sign, {})
  else
    let qmin : Int := 3 - (2 ^ (w - 1) : Nat) - (p : Nat)
    let qmax : Int := (2 ^ (w - 1) : Nat) - (p : Nat)
    let len : Int := Nat.log2 m + 1
    let q0 := e + len - p
    let q := if q0 < qmin then qmin else q0
    let sh := (q - e).toNat
    let m0 := if q ≤ e then m * 2 ^ (e - q).toNat else m / 2 ^ sh
    let rem := if q ≤ e then 0 else m % 2 ^ sh
    let inexact := rem ≠ 0 || sticky
    let m1 := if roundUp rm neg m0 rem sh sticky then m0 + 1 else m0
    let carries := m1 = 2 ^ p
    let m2 := if carries then 2 ^ (p - 1) else m1
    let q2 := if carries then q + 1 else q
    if q2 > qmax then
      let toInf := match rm with
        | .nearEven | .nearAway => true
        | .zero => false
        | .down => neg
        | .up => !neg
      let mag := if toInf then (2 ^ w - 1) * 2 ^ (p - 1) else (2 ^ w - 1) * 2 ^ (p - 1) - 1
      (sign + mag, { ov := true, nx := true })
    else
      let tiny := decide (q0 < qmin) && (Config.tinyBefore || !(decide (q0 + 1 = qmin) && roundsToPower p rm neg m (q0 - e) sticky))
      let mag := if m2 < 2 ^ (p - 1) then m2
        else ((q2 - qmin).toNat + 1) * 2 ^ (p - 1) + (m2 - 2 ^ (p - 1))
      (sign + mag, { uf := inexact && tiny, nx := inexact })

/-- Binary64: unpack. -/
def un (x : BitVec 64) : Fp := unpack 53 11 x.toNat

/-- Binary64: round and encode. -/
def rnd (rm : RMode) (neg : Bool) (m : Nat) (e : Int) (sticky : Bool := false) : BitVec 64 × FFlags :=
  let r := pack 53 11 rm neg m e sticky
  (BitVec.ofNat 64 r.1, r.2)

/-- The encoding of an infinity. -/
def infBits (neg : Bool) : BitVec 64 := BitVec.ofNat 64 (neg.toNat * 2 ^ 63 + 2047 * 2 ^ 52)

/-- A NaN result: the canonical NaN, with the invalid flag as given (R49). -/
def nanRes (nv : Bool) : BitVec 64 × FFlags := (qNaN, { nv := nv })

/-- Whether a datum is a signalling NaN. -/
def isSnan : Fp → Bool
  | .nan s => s
  | _ => false

/-- A signed dyadic integer multiple of a power of two, as an integer at exponent `e0`, which is not above `e`. -/
def scaled (neg : Bool) (m : Nat) (e e0 : Int) : Int :=
  let v : Int := (m * 2 ^ (e - e0).toNat : Nat)
  if neg then -v else v

/-- The exact sum of two finite data, rounded once; an exact zero of unlike signs is +0, but -0 when rounding down. -/
def addFin (rm : RMode) (na : Bool) (ma : Nat) (ea : Int) (nb : Bool) (mb : Nat) (eb : Int) : BitVec 64 × FFlags :=
  let e0 := if ea ≤ eb then ea else eb
  let v := scaled na ma ea e0 + scaled nb mb eb e0
  if v = 0 then
    let neg := if ma = 0 ∧ mb = 0 ∧ na = nb then na else decide (rm = .down)
    rnd rm neg 0 0
  else rnd rm (decide (v < 0)) v.natAbs e0

/-- Addition. -/
def add (rm : RMode) (a b : BitVec 64) : BitVec 64 × FFlags :=
  match un a, un b with
  | .nan s, y => nanRes (s || isSnan y)
  | _, .nan s => nanRes s
  | .inf n, .inf k => if n = k then (infBits n, {}) else nanRes true
  | .inf n, .fin .. => (infBits n, {})
  | .fin .., .inf n => (infBits n, {})
  | .fin na ma ea, .fin nb mb eb => addFin rm na ma ea nb mb eb

/-- The sign operation of FNEG: bit 63 flipped, no flags. -/
def neg (a : BitVec 64) : BitVec 64 := a ^^^ 0x8000000000000000#64

/-- The sign operation of FABS: bit 63 cleared, no flags. -/
def abs (a : BitVec 64) : BitVec 64 := a &&& 0x7FFFFFFFFFFFFFFF#64

/-- Subtraction. -/
def sub (rm : RMode) (a b : BitVec 64) : BitVec 64 × FFlags :=
  match un b with
  | .nan _ => add rm a b
  | _ => add rm a (neg b)

/-- Multiplication. -/
def mul (rm : RMode) (a b : BitVec 64) : BitVec 64 × FFlags :=
  match un a, un b with
  | .nan s, y => nanRes (s || isSnan y)
  | _, .nan s => nanRes s
  | .inf n, .inf k => (infBits (n != k), {})
  | .inf n, .fin k m _ => if m = 0 then nanRes true else (infBits (n != k), {})
  | .fin k m _, .inf n => if m = 0 then nanRes true else (infBits (n != k), {})
  | .fin na ma ea, .fin nb mb eb => rnd rm (na != nb) (ma * mb) (ea + eb)

/-- Division: 128 quotient bits and a sticky bit, rounded once. -/
def div (rm : RMode) (a b : BitVec 64) : BitVec 64 × FFlags :=
  match un a, un b with
  | .nan s, y => nanRes (s || isSnan y)
  | _, .nan s => nanRes s
  | .inf _, .inf _ => nanRes true
  | .inf n, .fin k .. => (infBits (n != k), {})
  | .fin n .., .inf k => rnd rm (n != k) 0 0
  | .fin na ma ea, .fin nb mb eb =>
    if mb = 0 then
      if ma = 0 then nanRes true else (infBits (na != nb), { dz := true })
    else rnd rm (na != nb) (ma * 2 ^ 128 / mb) (ea - eb - 128) (decide (ma * 2 ^ 128 % mb ≠ 0))

/-- The integer square root by bits, from bit `k - 1` down, on what is found so far. -/
def isqrt (n : Nat) : Nat → Nat → Nat
  | 0, r => r
  | k + 1, r => let c := r + 2 ^ k; isqrt n k (if c * c ≤ n then c else r)

/-- Square root: an even scaling by at least 128 bits, the integer root, and a sticky bit. -/
def sqrt (rm : RMode) (a : BitVec 64) : BitVec 64 × FFlags :=
  match un a with
  | .nan s => nanRes s
  | .inf n => if n then nanRes true else (infBits false, {})
  | .fin n m e =>
    if m = 0 then (a, {})
    else if n then nanRes true
    else
      let odd := e % 2 = 1
      let m1 := if odd then m * 2 ^ 129 else m * 2 ^ 128
      let e1 : Int := (if odd then e - 129 else e - 128) / 2
      let r := isqrt m1 96 0
      rnd rm false r e1 (decide (r * r ≠ m1))

/-- Fused multiply-add `a * b + c`, one rounding.  Zero times infinity plus a quiet NaN sets invalid, which IEEE 754-2019 7.2 leaves to the
implementation (DESIGN CHOICE, log 10). -/
def fma (rm : RMode) (a b c : BitVec 64) : BitVec 64 × FFlags :=
  let anyS := isSnan (un a) || isSnan (un b) || isSnan (un c)
  let zeroInf := match un a, un b with
    | .inf _, .fin _ m _ => decide (m = 0)
    | .fin _ m _, .inf _ => decide (m = 0)
    | _, _ => false
  match un a, un b, un c with
  | .nan _, _, _ => nanRes anyS
  | _, .nan _, _ => nanRes anyS
  | _, _, .nan _ => nanRes (anyS || zeroInf)
  | .fin na ma ea, .fin nb mb eb, .fin nc mc ec => addFin rm (na != nb) (ma * mb) (ea + eb) nc mc ec
  | .fin .., .fin .., .inf n => (infBits n, {})
  | _, _, y =>
    if zeroInf then nanRes true
    else
      let n := (a.msb != b.msb)
      match y with
      | .inf k => if n = k then (infBits n, {}) else nanRes true
      | _ => (infBits n, {})

/-- The order of two data that are no NaN: less, equal, greater. -/
def cmpNum (x y : Fp) : Ordering :=
  match x, y with
  | .inf true, .inf true => .eq
  | .inf false, .inf false => .eq
  | .inf true, _ => .lt
  | .inf false, _ => .gt
  | _, .inf true => .gt
  | _, .inf false => .lt
  | .fin na ma ea, .fin nb mb eb =>
    let e0 := if ea ≤ eb then ea else eb
    compare (scaled na ma ea e0) (scaled nb mb eb e0)
  | _, _ => .eq

/-- Whether an encoding is a NaN. -/
def isNan (a : BitVec 64) : Bool :=
  match un a with
  | .nan _ => true
  | _ => false

/-- FEQ: quiet comparison for equality. -/
def feq (a b : BitVec 64) : Bool × FFlags :=
  if isNan a || isNan b then (false, { nv := isSnan (un a) || isSnan (un b) })
  else (cmpNum (un a) (un b) == .eq, {})

/-- FLT: signalling comparison. -/
def flt (a b : BitVec 64) : Bool × FFlags :=
  if isNan a || isNan b then (false, { nv := true })
  else (cmpNum (un a) (un b) == .lt, {})

/-- FLE: signalling comparison. -/
def fle (a b : BitVec 64) : Bool × FFlags :=
  if isNan a || isNan b then (false, { nv := true })
  else (cmpNum (un a) (un b) != .gt, {})

/-- FMIN and FMAX: of one NaN and a number the number (Table 2.8), of two NaNs the canonical NaN; -0 lies below +0. -/
def minMax (wantMax : Bool) (a b : BitVec 64) : BitVec 64 × FFlags :=
  let fl : FFlags := { nv := isSnan (un a) || isSnan (un b) }
  match isNan a, isNan b with
  | true, true => (qNaN, fl)
  | true, false => (b, fl)
  | false, true => (a, fl)
  | false, false =>
    let aFirst := match cmpNum (un a) (un b) with
      | .lt => true
      | .gt => false
      | .eq => a.msb
    (if aFirst != wantMax then a else b, {})

/-- The class of a value, numbered in the order of IEEE 754-2019 5.7.2. -/
def cls (a : BitVec 64) : Fin 10 :=
  match un a with
  | .nan s => if s then 0 else 1
  | .inf n => if n then 2 else 9
  | .fin n m _ =>
    if m = 0 then (if n then 5 else 6)
    else if m < 2 ^ 52 then (if n then 4 else 7)
    else if n then 3 else 8

/-- An integer to binary64. -/
def ofInt (rm : RMode) (v : Int) : BitVec 64 × FFlags :=
  rnd rm (decide (v < 0)) v.natAbs 0

/-- A finite datum rounded to an integer, and whether that was inexact. -/
def toIntegral (rm : RMode) (neg : Bool) (m : Nat) (e : Int) : Int × Bool :=
  let sh := (-e).toNat
  let m0 := if 0 ≤ e then m * 2 ^ e.toNat else m / 2 ^ sh
  let rem := if 0 ≤ e then 0 else m % 2 ^ sh
  let m1 := if roundUp rm neg m0 rem sh false then m0 + 1 else m0
  (if neg then -(m1 : Int) else m1, decide (rem ≠ 0))

/-- Binary64 to an integer in `[lo, hi]`: out of range saturates, NaN gives 0, both invalid (R49). -/
def toInt (rm : RMode) (lo hi : Int) (a : BitVec 64) : Int × FFlags :=
  match un a with
  | .nan _ => (0, { nv := true })
  | .inf n => (if n then lo else hi, { nv := true })
  | .fin n m e =>
    let r := toIntegral rm n m e
    if r.1 < lo then (lo, { nv := true })
    else if hi < r.1 then (hi, { nv := true })
    else (r.1, { nx := r.2 })

/-- Binary32 to binary64, exact. -/
def ofF32 (x : Nat) : BitVec 64 :=
  match unpack 24 8 x with
  | .nan _ => qNaN
  | .inf n => infBits n
  | .fin n m e => (rnd .nearEven n m e).1

/-- Binary64 to binary32, to nearest with ties to even (R384). -/
def toF32 (a : BitVec 64) : Nat :=
  match un a with
  | .nan _ => 0x7FC00000
  | .inf n => n.toNat * 2 ^ 31 + 255 * 2 ^ 23
  | .fin n m e => (pack 24 8 .nearEven n m e).1

/-- Whether a binary32 encoding is finite (R384). -/
def f32Finite (x : Nat) : Bool := decide (x / 2 ^ 23 % 256 ≠ 255)

/-- Addition to nearest with ties to even, as the control loop engine computes (R384). -/
def addN (a b : BitVec 64) : BitVec 64 := (add .nearEven a b).1
/-- Subtraction to nearest. -/
def subN (a b : BitVec 64) : BitVec 64 := (sub .nearEven a b).1
/-- Multiplication to nearest. -/
def mulN (a b : BitVec 64) : BitVec 64 := (mul .nearEven a b).1
/-- Division to nearest. -/
def divN (a b : BitVec 64) : BitVec 64 := (div .nearEven a b).1
/-- Square root to nearest. -/
def sqrtN (a : BitVec 64) : BitVec 64 := (sqrt .nearEven a).1
/-- An integer to the nearest binary64. -/
def ofIntN (v : Int) : BitVec 64 := (ofInt .nearEven v).1
/-- Less-than on values that are no NaN. -/
def ltN (a b : BitVec 64) : Bool := (flt a b).1
/-- Less-or-equal on values that are no NaN. -/
def leN (a b : BitVec 64) : Bool := (fle a b).1
/-- clamp() of R388. -/
def clampN (x lo hi : BitVec 64) : BitVec 64 := if ltN x lo then lo else if ltN hi x then hi else x
/-- Rounds to the nearest integer, ties away from zero (the `round` of Table 16.1 and R412). -/
def roundN (a : BitVec 64) : Int := (toInt .nearAway (-(2 ^ 80)) (2 ^ 80) a).1
/-- The greatest integer not above the value. -/
def floorN (a : BitVec 64) : Int := (toInt .down (-(2 ^ 80)) (2 ^ 80) a).1

end Float64

end Sys2Proof
end

