-- ==== Sys2Proof/Machine/State.lean ====
section
/-! DEFINITION. The state of the machine: every piece of state the spec gives the PRL-8600, as plain data, and the state as
the start sequence hands the device to the kernel image (15 R367, 02 R68; log 1). -/

namespace Sys2Proof.Machine

/-- A table from numbers to values, in strictly rising order of the numbers; a number that is not listed holds the value
the reader of the table names. -/
abbrev Map (α : Type) := List (Nat × α)

/-- What a meaning stops on without a next state.  No meaning of this model does: every command has its effect. -/
inductive Fault where
  deriving DecidableEq, Repr

/-- Why a command has no meaning. -/
inductive Refusal where
  /-- Raised by an arm of `exec` whose command has no meaning yet (safe: nothing is claimed of it). -/
  | notModelled (mnemonic : String)
  deriving DecidableEq, Repr

/-- Run states of a core: HUB.CORE lanes [1:0] (02 Table 2.21). -/
inductive RunState where
  | inReset | running | waiting | halted
  deriving DecidableEq, Repr

/-- A hub core (02 Tables 2.2 and 2.3, R50, R58, R66): a reservation is held with the time of its LLD in root clocks; `chestLost` says that Chest
writes of the core were discarded before they were durable.  CYCLE (core word 14) is read from SYS.CYCLE. -/
structure HubCore where
  g : Map Word := []
  f : Map Word := []
  pc : Word := 0
  status : Word := 1
  epc : Word := 0
  ecause : Word := 0
  eval : Word := 0
  eaddr : Word := 0
  evec : Word := 0
  imask : Word := 0
  ipend : Word := 0
  tick : Word := 0
  tcmp : Word := 0xFFFFFFFFFFFFFFFF
  fcsr : Word := 0
  scratch0 : Word := 0
  scratch1 : Word := 0
  run : RunState := .inReset
  blocked : Option Instr := none
  resv : Option Nat := none
  resvAt : Nat := 0
  chestQ : List (Nat × Word) := []
  chestLost : Bool := false
  deriving DecidableEq, Repr

/-- A 64-byte line in the hub's L2 (02 R51, R52): its bytes as the hub cores see them, and whether they have still to be written back. -/
structure L2Line where
  bytes : List Byte
  dirty : Bool := false
  deriving DecidableEq, Repr

/-- A message in a mailbox: its 64 bytes, the cycle its send retired in, and whether the release gate holds it (R61). -/
structure MboxMsg where
  bytes : List Byte
  cycle : Nat
  held : Bool
  deriving DecidableEq, Repr

/-- A mailbox: its entries, oldest first, the PUT and GET counts and the messages discarded under R35 (R61, R62). -/
structure Mailbox where
  msgs : List MboxMsg := []
  put : Nat := 0
  get : Nat := 0
  discarded : Nat := 0
  deriving DecidableEq, Repr

/-- The control word space: live and staged copies of S fields and present values of L, C and K fields, by `Fld.key`
(R10); a field that is not listed holds its value after start. -/
structure CwState where
  live : Map Word32 := []
  staged : Map Word32 := []
  pres : Map Word32 := []
  deriving DecidableEq, Repr

/-- The applies of one block (R12, R57): the number of the last completed apply, the last four with their results, newest
first, and of a pending request the cycle it counts as requested in. -/
structure Applies where
  done : Nat := 0
  results : List (Nat × Nat) := []
  pending : Option Nat := none
  deriving DecidableEq, Repr

/-- The site time counter (12 R303): seconds, nanoseconds, and the fraction of a nanosecond in units of 2^-48 ns. -/
structure SiteTime where
  sec : Nat := 0
  ns : Nat := 0
  frac : Nat := 0
  deriving DecidableEq, Repr

/-- A unit that asks the Kettle's start queue for a grant (16 R398, 17 R421). -/
inductive Starter where
  | slot (s : Fin 32)
  | axis (a : Fin 8)
  deriving DecidableEq, Repr

/-- What a node engine does (03 R75, R76, R78): its island is off or it has not joined, it waits in TAKE, it serves an item, its
retire waits for the scheduler, it has been abandoned and goes back to TAKE, or a probe holds it at BRK (14 R360). -/
inductive NodeRun where
  | off | taking | service | retiring | idle | halted
  deriving DecidableEq, Repr

/-- A claim request submitted by RCLAIM (03 R79, 08 R197): the destination word of its result, its word count c, header and words, the
engine whose item has not retired yet, so that the request is not in the claim port queue yet, and the cycle a snapshot request counts as
checked in (08 R214). -/
structure ClaimReq where
  dest : Word
  c : Nat
  bytes : List Byte
  src : Option Nat := none
  base : Option Nat := none
  deriving DecidableEq, Repr

/-- A node engine (03 Table 3.2, R73-R79): registers, local store, the item in service, buffered tokens and cancels, oldest first,
and the claim paths it has submitted.  A byte of the local store that nothing has written reads 0 (DESIGN CHOICE, log 260). -/
structure NodeEngine where
  g : Map Word := []
  f : Map Word := []
  pc : Word := 0
  opid : Nat := 0
  dest : Word := 0
  seq : Nat := 0
  flowMode : Nat := 0
  tok : Map Word := []
  tokMask : Nat := 0
  fcsr : Word := 0
  lastFault : Nat := 0
  startAt : Nat := 0
  takeReg : Nat := 0
  store : List Host.Cell := []
  run : NodeRun := .off
  resv : Option Nat := none
  resvAt : Nat := 0
  item : Option Nat := none
  tokens : List (Word × Word) := []
  cancels : List Word := []
  failRun : Nat := 0
  deriving DecidableEq, Repr

/-- An armed action of a sequencer (03 Table 3.7, R82-R84): its descriptor's fields, the absolute time or, until the next boundary,
the relative offset, the cycle its ARM retired in, and its place in arming order; for a transmission under LBT the attempts
made and the deferral (us). -/
structure Action where
  kind : Nat
  rel : Bool
  gated : Bool
  fallback : Bool
  target : Nat
  param : Nat
  time : Nat
  cycle : Nat
  order : Nat
  attempts : Nat := 0
  deferral : Nat := 0
  deriving DecidableEq, Repr

/-- A dump record (03 Table 3.13): its 80 bytes and its channel. -/
structure DumpRec where
  chan : Nat
  bytes : List Byte
  deriving DecidableEq, Repr

/-- A transfer of a sequencer in progress (03 R88). -/
structure Xfer where
  tag : Nat
  get : Bool
  addr : Nat
  dmem : Nat
  len : Nat
  deriving DecidableEq, Repr

/-- What a sequencer does (03 R87, R92; 06 R167). -/
inductive SeqRun where
  | inReset | running | waiting | halted
  deriving DecidableEq, Repr

/-- A sequencer (03 R80-R90): registers, memories, the image's entry, core words, action slots, the dump queue of a GNSS sequencer,
transfers in issue order, instructions since the last wait, and the TX buffers (with the buffers on air), received frames and
the CCA result of a radio sequencer. -/
structure Sequencer where
  g : Map Word32 := []
  pc : Nat := 0
  imem : List Host.Cell := []
  dmem : List Host.Cell := []
  image : Option Nat := none
  run : SeqRun := .inReset
  blocked : Option Instr := none
  evpend : Nat := 0
  slots : Map Action := []
  armed : Nat := 0
  lastFault : Nat := 0
  dumpLost : Nat := 0
  dumps : List DumpRec := []
  gapDue : List Nat := []
  xfers : List Xfer := []
  tags : Nat := 0
  count : Nat := 0
  tx : Map (List Byte) := []
  onAir : List Nat := []
  rx : List (List Byte) := []
  deriving DecidableEq, Repr


/-- What an item of the Mill does (04 R94, R97, R101). -/
inductive ItemRun where
  | waiting | ready | service | parked
  deriving DecidableEq, Repr

/-- An item (04 R94-R105), held under `65536 * CTX + NODE`, one of a context run that has ended under that plus a multiple of 2^28
(R107): its tokens by port, flow and class, what it does, its SEQ, the runs counted, the entries it waits for after STORE_FULL, whether
it waits for a parking place after REORDER_FULL, and the fleet cycle it was enqueued for (01 R31). -/
structure MillItem where
  tokens : Map Word := []
  flow : Nat := 0
  cls : Nat := 0
  run : ItemRun := .waiting
  seq : Option Nat := none
  runs : Nat := 0
  need : Nat := 0
  park : Bool := false
  cycle : Nat := 0
  deriving DecidableEq, Repr

/-- A tombstone (04 R103, R104), held under its item's number: the hole it records, with flow, class and SEQ of its item, and whether the
item was dropped. -/
structure Tomb where
  hole : Option (Nat × Nat × Nat) := none
  dropped : Bool := false
  deriving DecidableEq, Repr

/-- A flow (04 R99-R104): the mode in force (ordered or atomic), ORD_OK, WINDOW, HOLEDEST and the two counters. -/
structure MillFlow where
  ordOk : Bool := false
  window : Nat := 0
  nextSeq : Nat := 0
  nextRel : Nat := 0
  holeDest : Nat := 0
  deriving DecidableEq, Repr

/-- A parked retire (04 R101): its flow and SEQ, its item, its tokens and cancels. -/
structure Parked where
  flow : Nat
  seq : Nat
  item : Nat
  tokens : List (Word × Word)
  cancels : List Word
  deriving DecidableEq, Repr

/-- The Mill beside its control words (chapter 04): items, ready lists by class, tombstones, flows, parked retires; the state it
goes back to after a cut, a cut being written, a cut that waits for a restore, whether the cut being written is late, the cycle a cut was
written in last, a STOP that waits for a cut, whether RUN has come since reset; the PUT that injection reads up to and whether it is stalled; Reeve result tokens not yet accepted; and
the image's entry and operation table offsets in the library (03 R92). -/
structure Mill where
  items : Map MillItem := []
  ready : Map (List Nat) := []
  tombs : Map Tomb := []
  flows : Map MillFlow := []
  parked : List Parked := []
  prev : Nat := 0
  cutting : Bool := false
  cutPending : Bool := false
  cutLate : Bool := false
  cutCycle : Option Nat := none
  stopPending : Bool := false
  ran : Bool := false
  injPut : Nat := 0
  injStall : Bool := false
  results : List (Word × Word) := []
  libEntry : Nat := 0
  opTable : Option Nat := none
  deriving DecidableEq, Repr



/-- A sample inside the device (05 R116): two 5-bit components, both 0 where it is substituted or blanked, whether its code made it hot, and
whether the blanker has set it to 0 (R123). -/
structure Sample where
  i : Int := 0
  q : Int := 0
  hot : Bool := false
  blank : Bool := false
  deriving DecidableEq, Repr

/-- What a LEARN has averaged so far (05 R124): milliseconds, the sum of the raw spectra, and the sum of the gains. -/
structure Learn where
  ms : Nat := 0
  bins : List Nat := []
  gain : Nat := 0
  deriving DecidableEq, Repr

/-- A stream beside its control words (chapter 05): its queue unit's samples, oldest first, none for an inserted zero sample, and whether the
read side has started (R117); the blanker's look-ahead, oldest first, the length of the present blank (0: none), the tail and the
suppression still to run, and blanks started and saturated since they were counted (R123); of the present millisecond the samples past
the blanker, those blanked, and the values at the measurement tap, newest first; of the present AGC period the values of magnitude 9
or more, the values counted, and the samples until and in the gap that a FEGAIN frame leaves, and the periods ended in this millisecond
(R128); the spectrum of the last millisecond with DEPTH at its end, until it is published; the band output of the last millisecond;
the spectrum published last and the reference spectrum (empty: flat), each as 204 bins, a reference that takes effect at the
next millisecond, and a LEARN in progress; the runs of R131 below and above each threshold, and milliseconds since the last replacement of
a notch. -/
structure GnssStream where
  fifo : List (Option Byte) := []
  reading : Bool := false
  window : List Sample := []
  blankLen : Nat := 0
  tail : Nat := 0
  suppress : Nat := 0
  starts : Nat := 0
  sats : Nat := 0
  samples : Nat := 0
  blanked : Nat := 0
  tap : List (Int × Int) := []
  hot : Nat := 0
  counted : Nat := 0
  gapIn : Nat := 0
  gap : Nat := 0
  periods : Nat := 0
  spec : Option (List Nat × Nat) := none
  band : List (Int × Int) := []
  bins : List Nat := []
  ref : List Nat := []
  refNext : Option (List Nat) := none
  learn : Learn := {}
  warnUp : Nat := 0
  warnDown : Nat := 0
  alarmUp : Nat := 0
  alarmDown : Nat := 0
  replaced : Option Nat := none
  deriving DecidableEq, Repr

/-- An engaged notch (R125): its frequency from the LO and that of the bin where it engaged, in Hz, the consecutive milliseconds
its removed power has stayed below RELEASE_DB, and its filter's last input and output. -/
structure NotchState where
  hz : Int
  home : Int
  low : Nat := 0
  x1 : Int × Int := (0, 0)
  y1 : Int × Int := (0, 0)
  deriving DecidableEq, Repr

/-- GNSSIN beside its control words: the last millisecond of site time whose boundary has been taken (R132), streams, engaged notches by
`8 * s + k`, antennas whose RUN waits for the next millisecond, and of each FEGAIN line the frame count, the last frame, and when (root
clocks) the next may start (R129). -/
structure GnssIn where
  lastMs : Nat := 0
  streams : Map GnssStream := []
  notches : Map NotchState := []
  runDue : List Nat := []
  frames : Map Nat := []
  lastFrame : Map Nat := []
  lineFree : Map Nat := []
  deriving DecidableEq, Repr

/-- Where a search stands (05 R135, R136). -/
inductive SearchStep where
  | waiting | capturing | ready
  deriving DecidableEq, Repr

/-- A search an engine holds: its descriptor, the capture it uses (by number), its step, what went into its result, and when (root clocks)
its samples were all there. -/
structure Search where
  desc : List Byte
  cap : Nat
  step : SearchStep
  reuse : Bool := false
  notch : Bool := false
  failed : Bool := false
  readyAt : Nat := 0
  deriving DecidableEq, Repr

/-- A capture in a buffer (R135): its number, stream, rate and length, the millisecond of site time it starts at, the site time at which
its first sample was at the balls in 10-byte form, and the samples and blanked samples of its milliseconds so far. -/
structure Capture where
  num : Nat
  stream : Nat
  high : Bool
  ms : Nat
  from' : Nat
  tcap : List Byte := []
  samples : Nat := 0
  blanked : Nat := 0
  deriving DecidableEq, Repr

/-- A search engine of the Grinder: the searches it holds, oldest first, its captures, newest first, results it holds for room, and when
(root clocks) its last search ended. -/
structure GrEngine where
  searches : List Search := []
  caps : List Capture := []
  held : List (List Byte) := []
  freeAt : Nat := 0
  deriving DecidableEq, Repr

/-- The Grinder beside its control words: entries of the ring not taken yet, by number, oldest first, engines, results of invalid
descriptors that wait for room, and the number of the next capture. -/
structure Grinder where
  untaken : List Nat := []
  engines : Map GrEngine := []
  invalid : List (List Byte) := []
  nextCap : Nat := 0
  deriving DecidableEq, Repr


/-- A channel slot of the correlator array (06 R140-R147): its live and pending configuration words (RATE 3: off), the lanes reserved for it,
the rates in force and staged, the code phase (2^-24 chip) and carrier phase (2^-24 cycle) at a root clock, when the present integration
began (root clocks), integrations since the channel started, and dumps lost (03 R90). -/
structure Channel where
  live : Nat := 0xC000
  next : Option Nat := none
  lanes : Nat := 0
  rates : Option (Nat × Nat) := none
  nextRates : Option (Nat × Nat) := none
  code : Nat := 0
  carr : Int := 0
  phaseAt : Nat := 0
  since : Nat := 0
  count : Nat := 0
  lost : Nat := 0
  deriving DecidableEq, Repr

/-- A channel as the tracking image holds it (06 R151-R156): state of Table 6.7 and when it was entered (root clocks), profile, lock time, slips,
what its next record's FLAGS say, and dumps lost in a row; its sync (0 none, 1 bit or secondary code, 2 time of week), the ms since the
last such boundary, the coherent sum in progress and its ms, the loops' memory and the last change of the rates; the transmit time at
code phase 0 (2^-32 ms, modulo AMB_MS), the code phase of its signal that the replica was aligned to at its start (1/64 chip), and what
CARRIER adds to the NCO's phase (2^-16 cycle). -/
structure TrackChan where
  state : Nat := 0
  since : Nat := 0
  profile : Nat := 0
  lockms : Nat := 0
  slips : Nat := 0
  slip : Bool := true
  overlap : Bool := false
  blank : Bool := false
  gap : Bool := false
  half : Bool := false
  halfAdded : Bool := false
  lostRun : Nat := 0
  sync : Nat := 0
  bitPos : Nat := 0
  sum : List Int := []
  sumMs : Nat := 0
  mem : List Int := []
  change : Int × Int := (0, 0)
  tx0 : Int := 0
  align : Int := 0
  carr0 : Int := 0
  deriving DecidableEq, Repr

/-- The tracking image of an antenna (06 R148, R149, R155): the live control block, blocks written, whether the control block
changed and the input slipped since the last block, whether a dump was lost since, and, where the present cycle's block will be late, its
place and header. -/
structure TrackImage where
  tcb : List Byte := []
  seq : Nat := 0
  changed : Bool := false
  slipped : Bool := false
  gap : Bool := false
  late : Option (Nat × List Byte) := none
  deriving DecidableEq, Repr

/-- A calibration pass in progress (06 R146): its quadrant, and since when it pauses (us). -/
structure CalPass where
  quad : Nat
  paused : Option Nat := none
  deriving DecidableEq, Repr

/-- The correlator array beside its control words (chapter 06): channels and their tracking by `384 * a + slot`, images by antenna,
quadrants whose RUN waits for their island, calibration passes, when a quadrant's last pass started or it began to run (us), those whose
CAL_STALE was raised, and LATCH_PS of the last epoch with the root clock of its latch. -/
structure Correl where
  chans : Map Channel := []
  tracks : Map TrackChan := []
  images : Map TrackImage := []
  runDue : List Nat := []
  passes : List CalPass := []
  calAt : Map Nat := []
  stale : List Nat := []
  latchPs : Nat := 0
  latchAt : Nat := 0
  deriving DecidableEq, Repr

/-- The site time reference (06 R158-R164): the live time settings block, the state of Table 6.16, the epochs unqualified and qualified
in a row, the qualified epochs since REACQUIRE began, the sum of the first hundred offsets and whether the decision was made; the
uncertainty at the last qualified epoch and the time since (us); the uncertainty reported and the last solution's 1σ, SLEWING, the STEP
pending, CORR_OK, whether holdover is out of limit, the STEP that waits for a SET, whether the base position is fixed, qualified epochs
in REACQUIRE, when HOLDOVER began (us), whether a step was taken since the last epoch, the last record, each system's offset as
broadcast and as estimated, and of the time service the Announce messages sent, timeBaseIndicator and lastGmPhaseChange (ps; 12 R301). -/
structure Clock where
  tsb : List Byte := []
  state : Nat := 0
  unqual : Nat := 0
  qual : Nat := 0
  sum : Int := 0
  sums : Nat := 0
  decided : Bool := false
  unc0 : Nat := 0
  lastUs : Nat := 0
  unc : Nat := 0
  sigma : Nat := 0
  slewing : Bool := false
  stepDue : Bool := false
  corrOk : Bool := false
  outOfLimit : Bool := false
  afterSet : Option Int := none
  posFixed : Bool := false
  qualRe : Nat := 0
  holdUs : Nat := 0
  stepped : Bool := false
  record : List Byte := []
  bcast : Map Int := []
  est : Map Int := []
  annSeq : Nat := 0
  timeBase : Nat := 0
  gmPhase : Int := 0
  deriving DecidableEq, Repr

/-- A pulse output beside its settings (12 R311, R312), in root clocks: until when a pulse that began before a jump of the counter or a new
setting stays high, and until when a rising edge is dropped. -/
structure Pulse where
  hold : Nat := 0
  quiet : Nat := 0
  deriving DecidableEq, Repr

/-- The site time servo beside its control words (chapter 12): FINT and FADJ in 1/256 ppb, the slew and step remainders in ps, what the slew
term has added since it last removed a whole ps (in 2^-8 × 10^-6 ps), PUT as the
last FEED read it, T of the last accepted MEAS in ns and the time it was accepted at (us), the seconds a SET loads at the next whole second, how
much of FADJ is the slew term, and what a jump of the counter or an apply left of the pulse outputs: PPS0, PPS1 and, as 2, REFOUT. -/
structure Servo where
  fint : Int := 0
  fadj : Int := 0
  slewFadj : Int := 0
  slew : Int := 0
  step : Int := 0
  slewAcc : Nat := 0
  put : Nat := 0
  lastMeas : Option Nat := none
  setDue : Option Nat := none
  measUs : Nat := 0
  pulses : Map Pulse := []
  deriving DecidableEq, Repr


/-- A correction cell (07 R172, R173), values in nm: its source antenna, SLIP, whether a record with SLIP has come since the last epoch, whether
the cell is served now, the integer k_cell, what R188 adds to its phase, the code, phase and rate (nm/s) of the last epoch,
and PRN of its records. -/
structure CorrCell where
  sys : Nat
  prn : Nat
  signal : Nat
  src : Nat
  slip : Nat
  due : Bool := false
  on : Bool := true
  k : Int
  add : Int
  prc : Int
  cpc : Int
  rate : Int
  fcn : Nat := 0
  deriving DecidableEq, Repr

/-- A cell as the last full frame carries it, in the units of Table 7.6, and whether a delta has marked it invalid since (R179). -/
structure FullCell where
  sys : Nat
  prn : Nat
  signal : Nat
  prc : Int
  cpc : Int
  rate : Int
  marked : Bool := false
  deriving DecidableEq, Repr

/-- A cell of the sky-cell bias map (Table 7.7): PH in 0.1 mm, CODE in cm, WEIGHT in 1/16, SIGMA in 0.1 mm, CLAMPED, DIRTY, the values
broadcast last (0.25 mm, cm), whether a withdrawal is due, and the second of its last update. -/
structure MapCell where
  ph : Int := 0
  code : Int := 0
  weight : Nat := 0
  sigma : Nat := 0
  valid : Bool := false
  clamped : Bool := false
  dirty : Bool := false
  sentPh : Int := 0
  sentCode : Int := 0
  withdraw : Bool := false
  last : Nat := 0
  deriving DecidableEq, Repr

/-- A residual in the buffer (R184): its cell, and phase and code less the mean of its group, in units of 0.25 mm and 1 cm divided
by `residScale`. -/
structure Residual where
  cell : Nat
  ph : Int
  code : Int
  deriving DecidableEq, Repr

/-- A QCC fragment that waits for a slot (R180), with the map records it carries: cell, PH and CODE as sent (R187). -/
structure Fragment where
  epoch : Nat
  bytes : List Byte
  map : List (Nat × Int × Int) := []
  deriving DecidableEq, Repr

/-- The correction graphs (chapter 07): the settings block in force, whether the base position is a survey's, that position, and the survey's sums
with the epochs used; the state of Table 7.4, consecutive correction epochs with too few and with enough satellites, when STALE began and the
last epoch in NORMAL (us, and GPST ms of week), IOF, the time of the last full frame and its cells, the cells, the cells released last with
their time, whether the stream resumes, whether a take-over is due to be aligned, and whether the first frames of a new active are due; the
map generation, the map, the cell the sweep goes on from, the residuals of the present second and those of seconds whose batch has not run,
residuals dropped and reports discarded; the boundary of the last epoch computed, its fragments, those offered to slots as (port, slot,
fragment), the map records that the release of `going` sends, and the second in which site time stepped last. -/
structure Corr where
  csb : List Byte := []
  surveyed : Bool := false
  base : Ecef := ⟨0, 0, 0⟩
  sum : Ecef := ⟨0, 0, 0⟩
  used : Nat := 0
  state : Nat := 3
  short : Nat := 0
  good : Nat := 0
  staleUs : Nat := 0
  normalUs : Nat := 0
  normalTow : Nat := 0
  iof : Nat := 0
  fullTow : Nat := 0
  full : List FullCell := []
  cells : List CorrCell := []
  sent : List CorrCell := []
  sentTow : Nat := 0
  epochTow : Nat := 0
  resume : Bool := false
  align : Bool := false
  first : Bool := false
  gen : Nat := 0
  map : Map MapCell := []
  sweep : Nat := 0
  resid : List Residual := []
  batches : List (List Residual) := []
  dropped : Nat := 0
  rejected : Nat := 0
  lastEpoch : Option Nat := none
  frags : List Fragment := []
  offered : List (Nat × Nat × List Byte) := []
  going : List (Nat × Int × Int) := []
  goingCycle : Option Nat := none
  stepSec : Option Nat := none
  deriving DecidableEq, Repr


/-- States of a reservation entry (08 Table 8.4). -/
inductive ResvState where
  | held | pending | revoking
  deriving DecidableEq, Repr

/-- A reservation entry (08 Table 8.3). -/
structure Resv where
  group : Nat
  bucket : Nat
  holder : Nat
  seg : Nat
  resid : Nat
  pri : Nat
  state : ResvState
  task : Nat
  deriving DecidableEq, Repr

/-- A task of the pool that is not FREE (08 Table 8.10); STATE is 1 OPEN, 2 ASSIGNED, 3 DONE, 4 CANCELLED, 5 EXPIRED. -/
structure TaskRec where
  state : Nat
  kind : Nat
  pri : Nat
  bay : Nat
  node : Nat
  robot : Nat
  recipe : Nat
  window : Nat
  round : Nat
  deadline : Nat
  duration : Nat
  posted : Nat
  tag : Nat
  deriving DecidableEq, Repr

/-- A light window that is not FREE (08 Table 8.13); STATE is 1 BOOKED, 2 ACTIVE, 3 ENDED. -/
structure LightWin where
  bay : Nat
  recipe : Nat
  refs : Nat
  state : Nat
  start : Nat
  stop : Nat
  charged : Nat
  deriving DecidableEq, Repr

/-- A revoke in force (08 R200, R201): the holder, the first revoked bucket, the entries made REVOKING, the preempting claim, and the places of
those entries in the table. -/
structure Revoke where
  holder : Nat
  from' : Nat
  cells : Nat
  resid : Nat
  keys : List Nat := []
  deriving DecidableEq, Repr

/-- The Reeve beside its control words (chapter 08): the reservation table by `4 * SET + way`, tasks, windows, closed groups, the
segment store with the permanently closed groups, the preemption table (RESID, holders not confirmed, SETTLE_DEST), revokes in
force, the claim port queue, whether the request window is open, the first RUN and a RESTORE since reset, P_next at the last
expiry and the budget day. -/
structure Reeve where
  table : Map Resv := []
  tasks : Map TaskRec := []
  windows : Map LightWin := []
  closed : List Nat := []
  segs : List Nat := []
  perm : List Nat := []
  preempts : List (Nat × Nat × Word) := []
  revokes : List Revoke := []
  queue : List ClaimReq := []
  window : Bool := false
  ran : Bool := false
  expired : Nat := 0
  day : Nat := 0
  deriving DecidableEq, Repr


/-- A transmission the port counts against its limits (09 R244): when it started (us), its air time (ns) and its channel. -/
structure AirUse where
  at' : Nat
  ns : Nat
  chan : Nat
  deriving DecidableEq, Repr

/-- A released frame that the radio image holds for a sleepy partner (09 R239). -/
structure HeldFrame where
  dest : Nat
  body : List Byte
  since : Nat
  deriving DecidableEq, Repr

/-- A TX action between its fire clock and its start (09 R243): its buffer, its fire offset in the cycle (5 ns), the deferral (us), the
CCA attempts made, and whether the action was gated. -/
structure TxWait where
  buf : Nat
  off : Nat
  deferral : Nat := 0
  attempts : Nat := 0
  gated : Bool := false
  deriving DecidableEq, Repr

/-- The outcome of a TX action, to be written by TX_COMPLETE (09 R245). -/
structure TxOutcome where
  buf : Nat
  word : Nat
  gated : Bool
  deriving DecidableEq, Repr

/-- A frame that a port receives: its RXTS as TNOW and as offset in the cycle (5 ns), its cycle. -/
structure RxStamp where
  tnow : Nat
  off : Nat
  cycle : Nat
  deriving DecidableEq, Repr

/-- A radio port beside its control words (chapter 09): whether STOP waits for the boundary, the channel the transceiver is tuned to,
the frame loaded in it, the RXTS of the frame being received and of those read but not checked, the air-time record, a TX action
under LBT, outcomes not written yet, the receive window (whether it is open, and until when; 5 ns), complete frames that the transceiver
keeps while HOLD is high, with their RXTS, the Bell frame's air time in the present cycle as start and end offsets (us), the discard count read last, whether a slot-0 frame was sent in the present superframe,
and the plan in force. -/
structure RadioPort where
  stopping : Bool := false
  channel : Nat := 0
  loaded : List Byte := []
  stamp : Option RxStamp := none
  stamps : List RxStamp := []
  use : List AirUse := []
  wait : Option TxWait := none
  outcomes : List TxOutcome := []
  rxOpen : Option Nat := none
  parked : List (RxStamp × List Byte) := []
  bellAir : List (Nat × Nat) := []
  xdrop : Nat := 0
  slot0 : Bool := false
  planLive : List Byte := []
  deriving DecidableEq, Repr

/-- A frame of the image's list (09 R247): its slot, the offset in the superframe at which it goes out (5 ns), and its bytes. -/
structure ListFrame where
  slot : Nat
  off : Nat
  bytes : List Byte
  deriving DecidableEq, Repr

/-- The Quoval radio image's own store for one port (09 R239, R246-R248): the control block in force; of the list whose frames go out
in the present superframe, the frames still to be armed, the frames to be held once it is released, its CLAIM and whether its chain is
open; the same of the list armed for the next superframe; the beacon body last built with its cycle, the one of the last released
cycle with its cycle, and the CLAIM of the newest released list; uplinks that asked for acknowledgement in the present ingest window
and in the one before; held frames, held frames that go out in the present and in the next superframe, whether HANDOVER is due, and
events counted for its event queue; and, of the present superframe and of the next one, where the frames placed in a span end (by its
first slot, 5 ns), and the DEST and IDX of the frames it carries (IDX 32 for a legacy frame). -/
structure RadioImage where
  rcb : List Byte := []
  list : List ListFrame := []
  toHold : List HeldFrame := []
  listClaim : Nat := 0
  chain : Bool := false
  nextList : List ListFrame := []
  nextHold : List HeldFrame := []
  nextClaim : Nat := 0
  beacon : List Byte := []
  beaconCycle : Nat := 0
  lastBeacon : List Byte := []
  lastCycle : Nat := 0
  claim : Nat := 0
  acks : List (Nat × Nat) := []
  acksDue : List (Nat × Nat) := []
  held : List HeldFrame := []
  ready : List ListFrame := []
  extra : List ListFrame := []
  placed : Map Nat := []
  nextPlaced : Map Nat := []
  used : List (Nat × Nat) := []
  nextUsed : List (Nat × Nat) := []
  handover : Bool := false
  events : Nat := 0
  deriving DecidableEq, Repr

/-- The radio MAC (chapter 09): ports, the images' stores, the NBRSET pending (index, line), and whether the gate of the cycle before
the present one opened. -/
structure Radio where
  ports : Map RadioPort := []
  image : Map RadioImage := []
  nbrset : Option (Nat × Nat) := none
  gatePrev : Bool := false
  deriving DecidableEq, Repr


/-- The Bell frame a port carried last (10 R262, R269, R270): the window's COUNT, its class, its names, the episode it was sent in, and its
fire clock as an offset in the cycle (us). -/
structure BellFrame where
  count : Nat
  cls : Nat
  names : List Nat
  episode : Nat
  fire : Nat := 0
  deriving DecidableEq, Repr

/-- The Bell beside its control words: whether RUN has started it; the classes of the command and kernel latches; whether the
partner term is frozen (R259); the last stop command count accepted from each origin (R256) and the RELEASE command that waits
for its count to be durable; the class last reported to the partner and the release messages sent (R258, R259); since when
the state has its value (us); windows sent in RELEASING; the episode, its start (us), the robots named in it, in order, and
whether ACK_OVERDUE was raised for a neighbour (R269-R271); the frames sent last by port; the frames
built for the present window and the fire offsets (us) still to be tried under LBT by port (R266), the window's start (us in the
cycle), and whether a frame of it has been sent; whether the reservation RESV waits to be made durable (R262); since when (us) the test
pulses of an input have run, and how many have ended on each channel (2n, 2n + 1; R254); since when one channel of an input alone has been
open (R255); and when the partner last reported (R259). -/
structure Bell where
  running : Bool := false
  cmdClass : Nat := 0
  kernelClass : Nat := 0
  frozen : Bool := false
  counts : Map Nat := []
  relPending : Option (Nat × Nat) := none
  reported : Nat := 0
  relSent : Nat := 0
  since : Nat := 0
  relWindows : Nat := 0
  episode : Nat := 0
  episodeUs : Nat := 0
  named : List Nat := []
  overdue : List Nat := []
  frames : Map BellFrame := []
  built : Map BellFrame := []
  retry : Map Nat := []
  window : Nat := 0
  winSent : Bool := false
  resvDue : Bool := false
  testFrom : Map Nat := []
  testDone : Map Nat := []
  discFrom : Map Nat := []
  reportUs : Nat := 0
  deriving DecidableEq, Repr


/-- A stored item of a queue unit (11 R278): its body, whether it is a gap marker, whether it is held for the release gate, the
cycle its write completed in, the cycle whose ingest window holds it (01 R28), and whether the read side sees it (R279, R286). -/
structure QItem where
  body : List Byte
  gap : Bool := false
  gated : Bool := false
  cycle : Nat := 0
  window : Nat := 0
  visible : Bool := false
  deriving DecidableEq, Repr

/-- A queue unit beside its control words: its items, oldest first, the open marker (items dropped, cycle of the first drop; R283)
the writes held at a privileged unit, oldest first, since when (us) a write has been stalled there, and whether PRIV_STALL has been raised
for that stall (R285). -/
structure QUnit where
  items : List QItem := []
  marker : Option (Nat × Nat) := none
  held : List (List Byte) := []
  stallUs : Option Nat := none
  stallRaised : Bool := false
  deriving DecidableEq, Repr



/-- An egress timestamp to be returned (12 R295): its hub-in item. -/
structure TsReturn where
  item : List Byte
  deriving DecidableEq, Repr

/-- The network switch beside its control words (chapter 12): learned addresses with port and time (us), ports that have raised
TS_UNAVAILABLE since their link came up, ports whose STOP waits, whether BELL_CMD_DROPPED was raised for the present stall of unit 40,
timestamps to be returned, oldest first, the frame each port sent last, and since when (us) a lane trains. -/
structure Net where
  macs : Map (Nat × Nat) := []
  tsWarned : List Nat := []
  bellStall : Bool := false
  returns : List TsReturn := []
  sent : Map (List Byte) := []
  trainUs : Map Nat := []
  deriving DecidableEq, Repr


/-- A write stalled at a line of the frozen dirty set that Decant has not copied yet (01 R30), with the engine that it stalls, or whose
oldest transfer it holds up (`xfer`); none for a write of a block. -/
structure StalledWrite where
  addr : Nat
  bytes : List Byte
  writer : Option Engine := none
  xfer : Bool := false
  deriving DecidableEq, Repr

/-- The journal that Decant sends or has sent (13 R326, R327): its cycle, whether it carries COMPLETE, its bytes, and when it was started
(us). -/
structure Journal where
  cycle : Nat
  complete : Bool
  bytes : List Byte
  start : Nat := 0
  deriving DecidableEq, Repr

/-- Decant's line sets (13 R325-R328, R338), lines of 256 bytes by number, rising: dirty for the present journal, carried by journals
not acknowledged, frozen at the last freeze and not copied yet, the stalled writes; whether SHADOW_LOCKED was raised in this
cycle; the place of the resynchronisation walk, whether the next journal carries FIRST and whether journals carry COMPLETE; the
journal sent; the acknowledged journal to be committed, and whether its commit makes the unit INSYNC no more, as the unit has left
SYNCING or INSYNC since (R488); and the last cycles committed, newest first. -/
structure Decant where
  dirty : List Nat := []
  unacked : List Nat := []
  frozen : List Nat := []
  stalled : List StalledWrite := []
  lockRaised : Bool := false
  walk : Option Nat := none
  firstDue : Bool := false
  complete : Bool := false
  sent : Option Journal := none
  rx : Option (List Byte) := none
  rxStale : Bool := false
  committed : List Nat := []
  deriving DecidableEq, Repr


/-- The pairing engine beside its control words (chapter 13): when ALIVE was written (us), since when a yield holds heartbeats (us),
when the next HELLO is due (us) and whether one has been received, the site time of the last heartbeat (ps), consecutive withheld
cycles, the first boundary at least 1.5 ms after a declared loss (R335), the take-over boundary T, consecutive disagreements of wire and
heartbeat and the stage the partner's last heartbeat reported, whether HOLD is blocked, whether the unit drops to ALONE at the next
boundary, since when the waits of R323 run (us), when the pair state was entered (us), when the own and the partner's wire rose last (root
clocks), whether this unit hands over, whether it is preferred, wraps of the cycle counter, credits by in-unit of the partner, the arrival time of the
partner's last heartbeat, and the last message sent of each KIND. -/
structure Pairing where
  aliveUs : Option Nat := none
  yielding : Option Nat := none
  helloDue : Option Nat := none
  helloSeen : Bool := false
  beatPs : Option Nat := none
  withheld : Nat := 0
  lost : Option Nat := none
  takeT : Option Nat := none
  mismatch : Nat := 0
  partHolding : Bool := false
  holdBlocked : Bool := false
  drop : Bool := false
  seekUs : Option Nat := none
  enteredUs : Nat := 0
  ownRise : Option Nat := none
  partRise : Option Nat := none
  giving : Bool := false
  preferred : Bool := false
  wraps : Nat := 0
  credits : Map Nat := []
  lastRx : Word := 0
  sent : Map CtlMsg := []
  deriving DecidableEq, Repr


/-- A key slot (14 Table 14.4, R350): the attributes of the blob it was loaded from and the key material; `imported` is false of
a level-1 key that GENERATE made (R361). -/
structure KeySlot where
  type : Nat
  level : Nat
  usage : Nat
  gix : Nat
  parentGix : Nat
  pgen : Nat
  keyid : Nat
  label : Nat
  material : List Byte
  carry : Bool := false
  imported : Bool := true
  deriving DecidableEq, Repr

/-- A job in the Keywell's queue (14 Table 14.9): its number, the core that submitted it, its descriptor, and the code its form
fails with, 0 for none (R357). -/
structure KwJob where
  num : Nat
  core : Core
  op : Nat
  mode : Nat
  slot : Nat
  flags : Nat
  len : Nat
  src : Nat
  dst : Nat
  aux : Nat
  auxlen : Nat
  keyid : Nat
  usage : Nat
  type : Nat
  parent : Nat
  form : Nat
  deriving DecidableEq, Repr

/-- A step of a Keywell update (14 R354): a Chest write, or the burn of the fuse row of a life-cycle state. -/
inductive KwStep where
  | write (loc : Nat) (v : Word)
  | burn (state : Nat)
  deriving DecidableEq, Repr

/-- What an update is made for: a KGEN on the key of a GIX, with the slots it dooms, the job at the head of the queue, or the partner (14 R351-R354). -/
inductive KwUpdate where
  | kgen (gix : Nat) (doomed : List Nat)
  | job
  | partner
  deriving DecidableEq, Repr

/-- A KGEN in progress (14 R351, R352): its slot operand, and its result once it has one. -/
structure KwGen where
  slot : Nat
  result : Option Nat
  deriving DecidableEq, Repr

/-- The Keywell beside its control words (chapter 14): slots; queued jobs, oldest first; the result of the head job that has been executed
and not yet completed; the last job number; the last sixteen results, newest first; the life-cycle nonce; the steps of an update still
to be made, what it is for and its targets; whether a power-fail warning has stopped it (R356); a KGEN in progress; the change sent to
the partner and not acknowledged, and how many changes and acknowledgements have been sent (R352); whether debug blocks the root and has been closed (R360); the highest burned fuse row as a
life-cycle state; the DRBG requests since its last reseed and when that was (us); when the change was sent that a KGEN waits for, and when the
start-up test of the entropy source was made last (us); and partner updates that wait for the one in progress, oldest first. -/
structure Keywell where
  slots : Map KeySlot := []
  jobs : List KwJob := []
  executed : Option Word := none
  lastNum : Nat := 0
  results : List (Nat × Word) := []
  nonce : Option (List Byte) := none
  steps : List KwStep := []
  update : Option KwUpdate := none
  targets : List (Nat × Word) := []
  stopped : Bool := false
  kgen : Option KwGen := none
  unacked : Option (List (Nat × Word)) := none
  sends : Nat := 0
  acks : Nat := 0
  rootBlocked : Bool := false
  debugClosed : Bool := false
  fuseState : Nat := 0
  drbgRequests : Nat := 0
  reseedUs : Nat := 0
  sentUs : Nat := 0
  testUs : Nat := 0
  partnerQ : List (List (Nat × Word)) := []
  deriving DecidableEq, Repr


/-- A request to BOOT (15 R372-R374): its number, whether it is an IMGLOAD (0) or the OP of a SLOTOP, its descriptor, and its result once it
has run. -/
structure BootReq where
  num : Nat
  op : Nat
  desc : List Byte
  result : Option Nat
  deriving DecidableEq, Repr

/-- BOOT beside its control words (chapter 15): requests, oldest first, and the last number; the running bundle's manifest; the whole second
(ps) for which a CYCSTART waits (R376); whether every part of the present second counts as service (R377); when the kernel was entered (us);
a planned restart that waits, as its reset cause (R380, R381); whether the boot ROM is in recovery, and the 64 KB blocks of STAGE it has erased for the stream (R371); the 256-byte pages of STAGE that
are erased; the transceivers that are being sent firmware, with their manifest entry and since when (us; R373); whether the flash's block protection is
set (R364); and IMAGE_VERSION of the kernel image (03 R91). -/
structure Boot where
  reqs : List BootReq := []
  lastNum : Nat := 0
  manifest : List Byte := []
  cycStart : Option Nat := none
  secGood : Bool := false
  entryUs : Nat := 0
  restart : Option Nat := none
  recovery : Bool := false
  recBlocks : List Nat := []
  erased : List Nat := []
  fwload : Map (Nat × Nat) := []
  flashProt : Bool := false
  kernelVer : Nat := 0
  deriving DecidableEq, Repr


/-- The internal terms of a loop slot (16 R388, R396, R397; Table 16.3), binary64; `closing` is set from the move to CLOSED
to the first closed sample (R393), `seen` is the number of the frame the slot sampled last (R386), and `sampled` the sample clock at which
it did (root clocks). -/
structure LoopSlot where
  r : Word := 0
  yPrev : Word := 0
  d : Word := 0
  iAcc : Word := 0
  u : Word := 0
  y : Word := 0
  lost : Nat := 0
  frozen : Nat := 0
  recov : Nat := 0
  casc : Nat := 0
  closing : Bool := false
  seen : Nat := 0
  sampled : Option Nat := none
  deriving DecidableEq, Repr

/-- The newest frame of a sample port, how many frames have completed, when this one did (root clocks), and the words of the frame before it
(16 R385, R386). -/
structure PortFrame where
  num : Nat := 0
  words : List Word32 := []
  done : Nat := 0
  before : List Word32 := []
  deriving DecidableEq, Repr

/-- The duty of a general PWM output in CTRL clocks (16 R387): the one written last, when it was (root clocks), and the one that was in force
then. -/
structure PwmDuty where
  next : Nat := 0
  wrote : Nat := 0
  was : Nat := 0
  deriving DecidableEq, Repr

/-- The control loop engine beside its control words: slots, newest frames, the slots whose MODE was written since the last
apply (MODEW, R391), PWM duties (R387), the levels of the enable GPIOs (R398), the RUN clock (root clocks; R401), and when the start queue
granted last (us; R398). -/
structure Loop where
  slots : Map LoopSlot := []
  frames : Map PortFrame := []
  modew : List Nat := []
  duties : Map PwmDuty := []
  engGpio : Map Bool := []
  runAt : Nat := 0
  grantUs : Option Nat := none
  deriving DecidableEq, Repr

/-- What an axis is doing (17 R409, R413-R415, R419). -/
inductive AxisMotion where
  /-- Standing still. -/
  | rest
  /-- MOVE to TGT. -/
  | move
  /-- VEL. -/
  | vel
  /-- Ramping to standstill, then this state and reason. -/
  | stopTo (state reason : Nat)
  /-- Homing step 1: moving off an active source, opposite to HDIR. -/
  | away
  /-- Ramping to standstill at DMAX, then the search. -/
  | settle
  /-- Homing step 2: searching in HDIR. -/
  | search
  /-- Homing step 3: ramping to standstill after the edge. -/
  | latched
  /-- R415: ramping to standstill after the limit in HDIR, then the reverse move. -/
  | turn
  /-- R415: the reverse move, until the home input has become active (`seen`) and then inactive. -/
  | reverse (seen : Bool)
  deriving DecidableEq, Repr

/-- The internal state of an axis beside its words: the motion and its direction; the coarse position, where the present coarse step began,
its direction, its root clock and its predicted period in root clocks (R407); the generator's planned position, velocity and acceleration
(units of `planUnit`), the PWM period start at which it is updated next, whether it ramps to standstill before it turns to its target (R410)
and whether it ramps at LDEC (R413, R419); the last STEP edge (R408); the ramp values in force (R411); whether the homing source is armed and
how often the limit in HDIR stopped this search (R414, R415); whether CMD was written since the last apply (R416); the state and reason that
follow STARTING (R421, R422); the filtered levels of LN, LP and HM (R405), the level of its enable GPIO and the duty codes AP, AN, BP, BN
(R412). -/
structure Axis where
  motion : AxisMotion := .rest
  positive : Bool := true
  coarse : Int := 0
  base : Int := 0
  stepPositive : Bool := true
  stepAt : Nat := 0
  stepPeriod : Nat := 1
  plan : Int := 0
  vel : Int := 0
  acc : Int := 0
  genAt : Nat := 0
  turning : Bool := false
  fast : Bool := false
  lastEdge : Option Nat := none
  amax : Nat := 0x461C4000
  dmax : Nat := 0x461C4000
  jmax : Nat := 0
  armed : Bool := true
  limitHits : Nat := 0
  cmdWritten : Bool := false
  afterState : Nat := 2
  afterReason : Nat := 0
  levels : BitVec 3 := 7
  enHigh : Bool := false
  duties : List Int := [0, 0, 0, 0]
  deriving DecidableEq, Repr

/-- What a metering channel has gathered of its interval (18 R426-R430): valid pairs and received pairs, the sums over the valid ones in
binary64, and the number of zero crossings with the first and the last of them, in samples of the interval. -/
structure ChanSums where
  n : Nat := 0
  r : Nat := 0
  sumVV : Word := 0
  sumII : Word := 0
  sumVI : Word := 0
  sumHI : Word := 0
  sumS : Word := 0
  crossings : Nat := 0
  first : Word := 0
  last : Word := 0
  deriving DecidableEq, Repr

/-- The filters of a metering channel (18 R426) and the sums of its interval: the last input and output of the two DC-blocking filters, the
newest 127 voltages with whether their pair was valid and the newest 127 currents, newest first. -/
structure TallyChan where
  dcV : Word × Word := (0, 0)
  dcI : Word × Word := (0, 0)
  volts : List (Word × Bool) := []
  amps : List Word := []
  sums : ChanSums := {}
  deriving DecidableEq, Repr

/-- The Tally beside its control words (18 R427-R437): totals by `8 * channel + accumulator` and their binary64 remainders,
the totals as of the last interval end and that interval's end cycle, whether the first interval has begun, the root clock the present one
began at and the boundary that last ended one, the save locations still to be written, the flush in progress, whether the save in
progress ends in a stop, and the channels' filters and sums. -/
structure Tally where
  totals : Map Word := []
  rems : Map Word := []
  endTotals : Map Word := []
  endCycle : Nat := 0
  measuring : Bool := false
  save : List (Nat × Word) := []
  flush : List (Nat × Word) := []
  stopping : Bool := false
  began : Nat := 0
  ended : Option Nat := none
  chans : Map TallyChan := []
  deriving DecidableEq, Repr

/-- Sleep states of an island (19 Table 19.2). -/
inductive IslandSleep where
  | awake | doze | nap
  deriving DecidableEq, Repr

/-- Sleep states of the device (19 R455). -/
inductive DeviceSleep where
  | none | rest | anchor
  deriving DecidableEq, Repr

/-- What holds the device in reset: RESET_N low, rails not up (19 R441), a rail out of its band (R459), REFCLK not valid (R446), PFW
(R461), the die temperature (R457), or the device sleeps (R456). -/
inductive HoldCause where
  | pin | rails | band | refclk | pfw | temperature | sleep
  deriving DecidableEq, Repr

/-- The Kettle beside its control words: the power-up sequence (rails on, bit j = rail j of Table 19.1; the steps still to be made, the present
one first; whether a failed sequence waits for its retry; rails still to be turned off, in order), polls missed in a row, AVS readings above
target in a row, the islands waiting for a grant and those granted, the sleep states and until when a demand-woken island is kept awake
(us), when an island that sleeps is due to wake for its next window (us), when each island was granted and when the last grant and the last
AVS step were made (us), since when PFW and CRIT_C are in force (us), banks held awake for their scrub, the sleep of the device with its wake time (TAI s), wake pins and RESUME address, whether it is in
reset and what holds it there, the thermal cause of THROTTLE, whether WARN_C and CRIT_C are passed, and rail samples outside 3 % in a row. -/
structure Kettle where
  railsOn : BitVec 9 := 0x1FF
  seq : List Nat := []
  retry : Bool := false
  offList : List Nat := []
  missed : Map Nat := []
  avsHigh : Nat := 0
  islandQ : List Island := []
  granted : List Island := []
  sleep : Map IslandSleep := []
  keepUntil : Map Nat := []
  wakeUs : Map Nat := []
  grantedUs : Map Nat := []
  grantUs : Option Nat := none
  stepUs : Option Nat := none
  pfwUs : Nat := 0
  critUs : Nat := 0
  scrubHold : List Nat := []
  device : DeviceSleep := .none
  wakeAt : Nat := 0
  wakePins : Nat := 0
  resume : Nat := 0
  inReset : Bool := false
  holds : List HoldCause := []
  thermThrottle : Bool := false
  thermWarn : Bool := false
  critHold : Bool := false
  railOut : Map Nat := []
  deriving DecidableEq, Repr

/-- The state of the device.  The GPIO outputs that programs write (01 Table 1.6) have no word and no command in the spec, and no field here
(DESIGN CHOICE, log 266): a GPIO output is what the block that names it drives. -/
structure State where
  /-- The commands that are waiting, first in, first out (the model's own field). -/
  pending : List Instr
  /-- How many open values have been drawn (the model's own field; log 9). -/
  fresh : Nat
  /-- Whole microseconds since kernel entry, as far as the events of the cycle tell (log 20). -/
  us : Nat
  /-- Clocks of the root PLL since then, below a microsecond of 6,000 (Table 1.2; log 20). -/
  sub : Nat
  /-- Where the present cycle began on the site time counter, in ps (log 20). -/
  cyclePs : Nat
  /-- When the present cycle began, in root clocks: CYCBASE of every sequencer (Table 3.5). -/
  cycleRoots : Nat
  /-- The step of site time that the present cycle ends with, in ps, fixed at its first clock (R33, R308). -/
  cycleStep : Int
  /-- Control words. -/
  cw : CwState
  /-- Applies by block (R57); of QUEUE, by block and unit. -/
  applies : Map Applies
  /-- Memory: listed bytes, in rising order of addresses, none equal to 0 (log 2). -/
  mem : List Host.Cell
  /-- The lines of the hub's L2 by number (address / 64; 02 R51, R52; log 73). -/
  l2 : Map L2Line
  /-- 64-bit words marked poisoned (R38). -/
  poisoned : List Nat
  /-- 64-bit words of the Granary that hold a single-bit error, `mem` giving what the code corrects them to (R38; log 94). -/
  oneBit : List Nat
  /-- The DRAM fitted on the board (R27; log 4). -/
  dramBytes : Nat
  /-- Cores 0 and 1 in lockstep (R41). -/
  kernel : HubCore
  /-- Hub core 2. -/
  core2 : HubCore
  /-- Hub core 3. -/
  core3 : HubCore
  /-- The unit has stopped on a lockstep mismatch (R44). -/
  lockstepStopped : Bool
  /-- The 32 mailboxes (Table 2.16). -/
  mailboxes : Map Mailbox
  /-- MSI-X vectors raised to the host, oldest first (R62). -/
  msix : List Nat
  /-- The Chest's 65,536 locations (Table 2.13; log 6); the generation entry of the root is allocated (log 60). -/
  chest : Map Word
  /-- COMPUTE_OVERRUN was raised in this cycle (R31). -/
  overrunRaised : Bool
  /-- The present cycle ends in a site time step (R33). -/
  stepping : Bool
  /-- When a rate-limited warning was raised last (us), by its own key. -/
  warned : Map Nat
  /-- The site time counter. -/
  site : SiteTime
  /-- The start queue (R398, R421, R450). -/
  starts : List Starter
  /-- The control loop engine. -/
  loop : Loop
  /-- The eight stepper axes. -/
  axes : Map Axis
  /-- The Tally. -/
  tally : Tally
  /-- The Kettle. -/
  kettle : Kettle
  /-- The last fault or warning code each block raised, by block ID (R16), for the blocks that have no FAULT word. -/
  lastCode : Map Nat
  /-- The 24 node engines (03). -/
  nodes : Map NodeEngine
  /-- The eight sequencers: 0-3 GNSS, 4-7 radio (03). -/
  seqs : Map Sequencer
  /-- The Mill. -/
  mill : Mill
  /-- GNSSIN: antennas, streams, notches. -/
  gnssin : GnssIn
  /-- The Grinder. -/
  grinder : Grinder
  /-- The correlator array and its tracking images. -/
  correl : Correl
  /-- The site time reference. -/
  clock : Clock
  /-- The site time servo. -/
  servo : Servo
  /-- The correction graphs and the sky-cell bias map. -/
  corr : Corr
  /-- The Reeve. -/
  reeve : Reeve
  /-- The radio MAC. -/
  radio : Radio
  /-- The Bell. -/
  bell : Bell
  /-- The queue units that hold items (11 R277). -/
  queues : Map QUnit
  /-- The network switch. -/
  net : Net
  /-- Decant's line sets. -/
  decant : Decant
  /-- The pairing engine. -/
  pairing : Pairing
  /-- The Keywell. -/
  keywell : Keywell
  /-- BOOT. -/
  boot : Boot
  deriving DecidableEq, Repr

/-- The device at kernel entry: every field at its value after start; the values the spec does not state are those of the
assumption log. -/
def State.reset : State where
  pending := []
  fresh := 0
  us := 0
  sub := 0
  cyclePs := 0
  cycleRoots := 0
  cycleStep := 0
  cw := {}
  applies := []
  mem := []
  l2 := []
  poisoned := []
  oneBit := []
  dramBytes := 0x400000000
  kernel := { run := .running }
  core2 := {}
  core3 := {}
  lockstepStopped := false
  mailboxes := []
  msix := []
  chest := [(0x0400, 0x2FFF000000000000)]
  overrunRaised := false
  stepping := false
  warned := []
  site := {}
  starts := []
  loop := {}
  axes := []
  tally := {}
  kettle := {}
  lastCode := []
  nodes := []
  seqs := []
  mill := {}
  gnssin := {}
  grinder := {}
  correl := {}
  clock := {}
  servo := {}
  corr := {}
  reeve := {}
  radio := {}
  bell := {}
  queues := []
  net := {}
  decant := {}
  pairing := {}
  keywell := {}
  boot := {}

/-- What a meaning answers. -/
abbrev Result := Host.Outcome State Fault Refusal

end Sys2Proof.Machine
end

