-- ==== Sys2Proof/Machine/Ops.lean ====
section
/-! DEFINITION. The shared operations: tables, memory (01 R26, R27), the control word space (00 R7-R14), raising faults and
warnings (00 R16, 02 Table 2.19), interrupts, time within the fleet cycle, free values. -/

namespace Sys2Proof.Machine

/-! ### Tables -/

/-- The value listed under a number. -/
def Map.find {α : Type} : List (Nat × α) → Nat → Option α
  | [], _ => none
  | (k, v) :: t, n => if k = n then some v else Map.find t n

/-- The value under a number, `d` where none is listed. -/
def Map.getD {α : Type} (m : List (Nat × α)) (n : Nat) (d : α) : α :=
  match Map.find m n with
  | some v => v
  | none => d

/-- Writes a value under a number, keeping the strictly rising order. -/
def Map.put {α : Type} : List (Nat × α) → Nat → α → List (Nat × α)
  | [], n, v => [(n, v)]
  | (k, w) :: t, n, v =>
    if n < k then (n, v) :: (k, w) :: t
    else if n = k then (n, v) :: t
    else (k, w) :: Map.put t n v

/-- Removes what is listed under a number. -/
def Map.del {α : Type} (m : List (Nat × α)) (n : Nat) : List (Nat × α) :=
  m.filter fun p => p.1 ≠ n

/-- Whether the numbers of a table rise strictly. -/
def Map.sorted {α : Type} : List (Nat × α) → Bool
  | [] => true
  | [_] => true
  | (k, _) :: (l, v) :: t => decide (k < l) && Map.sorted ((l, v) :: t)

/-- `dst` with its entries in `[lo, hi)` replaced by those of `src` in that range. -/
def Map.copyRange {α : Type} (lo hi : Nat) (src dst : List (Nat × α)) : List (Nat × α) :=
  dst.filter (fun p => p.1 < lo) ++ src.filter (fun p => lo ≤ p.1 && p.1 < hi) ++ dst.filter (fun p => hi ≤ p.1)

/-- The element of a list at an index, replaced. -/
def setNth {α : Type} (l : List α) (n : Nat) (v : α) : List α := l.set n v

/-- Repeats a change of state over a list, first element first. -/
def foldSt {α β : Type} (l : List α) (s : β) (f : β → α → β) : β := l.foldl f s

/-- Bit `n` of a number. -/
def bitOf (v n : Nat) : Bool := v / 2 ^ n % 2 = 1

/-- Whether a Keywell slot holds a key with a usage bit (14 Table 14.4). -/
def State.slotUsage (s : State) (k bit : Nat) : Bool :=
  match Map.find s.keywell.slots k with
  | some x => bitOf x.usage bit
  | none => false

/-- A number with bit `n` set to `b`. -/
def setBit (v n : Nat) (b : Bool) : Nat :=
  if bitOf v n = b then v else if b then v + 2 ^ n else v - 2 ^ n

/-- Bits `[lo + w - 1 : lo]` of a number. -/
def bits (v lo w : Nat) : Nat := v / 2 ^ lo % 2 ^ w

/-- A `w`-bit number read as two's complement. -/
def signed (w v : Nat) : Int := if v % 2 ^ w < 2 ^ (w - 1) then (v % 2 ^ w : Nat) else (v % 2 ^ w : Nat) - (2 ^ w : Nat)

/-- An integer as `w`-bit two's complement. -/
def unsigned (w : Nat) (v : Int) : Nat := (v % (2 ^ w : Nat)).toNat

/-- Whether 32-bit cycle `a` is later than `b` (R20). -/
def cycleAfter (a b : Nat) : Bool := decide (0 < signed 32 (unsigned 32 ((a : Int) - b)))

/-! ### Memory -/

/-- A byte of memory; a byte not listed reads 0 (log 2). -/
def memByte : List Host.Cell → Nat → Byte
  | [], _ => 0
  | (k, v) :: t, a => if k = a then v else memByte t a

/-- Writes a byte, keeping the canonical form: rising addresses and no entry equal to 0. -/
def memPut : List Host.Cell → Nat → Byte → List Host.Cell
  | [], a, b => if b = 0 then [] else [(a, b)]
  | (k, v) :: t, a, b =>
    if a < k then (if b = 0 then (k, v) :: t else (a, b) :: (k, v) :: t)
    else if a = k then (if b = 0 then t else (a, b) :: t)
    else (k, v) :: memPut t a b

/-- Writes bytes at rising addresses. -/
def memPutAll (m : List Host.Cell) (a : Nat) : List Byte → List Host.Cell
  | [] => m
  | b :: bs => memPutAll (memPut m a b) (a + 1) bs

/-- The canonical form of a memory. -/
def Memory.wf : List Host.Cell → Bool
  | [] => true
  | [(_, v)] => v != 0
  | (k, v) :: (l, w) :: t => decide (k < l) && v != 0 && Memory.wf ((l, w) :: t)

/-- `n` bytes of memory from an address up. -/
def readBytes (m : List Host.Cell) (a n : Nat) : List Byte := (List.range n).map fun i => memByte m (a + i)

/-- The little-endian number in a list of bytes (00, Numbers). -/
def leNat : List Byte → Nat
  | [] => 0
  | b :: bs => b.toNat + 256 * leNat bs

/-- A number as `n` little-endian bytes. -/
def leBytes (v : Nat) : Nat → List Byte
  | 0 => []
  | n + 1 => BitVec.ofNat 8 v :: leBytes (v / 256) n

/-- The regions of Table 1.4. -/
inductive Region where
  | granary | rom | flash | dram | host | unmapped
  deriving DecidableEq, Repr

/-- The region an address lies in (R26). -/
def regionOf (a : Nat) : Region :=
  if a < 0x4000000 then .granary
  else if 0x20000000 ≤ a ∧ a < 0x20020000 then .rom
  else if 0x800000000 ≤ a ∧ a < 0x810000000 then .flash
  else if 0x1000000000 ≤ a ∧ a < 0x1400000000 then .dram
  else if 0x2000000000 ≤ a ∧ a < 0x3000000000 then .host
  else .unmapped

/-- Why an access faults, if it does: 0x0401, 0x0402 or 0x0403 (R27). -/
def State.addrFault (s : State) (a : Nat) (write : Bool) : Option Nat :=
  match regionOf a with
  | .unmapped => some 0x0401
  | .dram => if a - 0x1000000000 < s.dramBytes then none else some 0x0402
  | .rom | .flash => if write then some 0x0403 else none
  | _ => none

/-- Whether `[a, a + n)` lies in the Granary. -/
def inGranary (a n : Nat) : Bool := decide (a + n ≤ 0x4000000)

/-- Whether `[a, a + n)` lies in fitted DRAM. -/
def State.inDram (s : State) (a n : Nat) : Bool :=
  decide (0x1000000000 ≤ a ∧ a + n ≤ 0x1000000000 + s.dramBytes ∧ a + n ≤ 0x1400000000)

/-- Whether `[a, a + n)` lies in the Granary or fitted DRAM. -/
def State.inRam (s : State) (a n : Nat) : Bool := inGranary a n || s.inDram a n

/-- Whether `[a, a + n)` and `[b, b + k)` have a byte in common. -/
def overlaps (a n b k : Nat) : Bool := decide (a < b + k ∧ b < a + n)

/-- A reservation that a write to `[a, a + n)` leaves. -/
def keepResv (a n : Nat) : Option Nat → Option Nat
  | some l => if overlaps a n (l * 64) 64 then none else some l
  | none => none

/-- A write to memory by any initiator: the bytes change, words in error that it covers are rewritten (R38), and LLD
reservations on its lines are lost (R50). -/
def State.writeRaw (s : State) (a : Nat) (bs : List Byte) : State :=
  let n := bs.length
  let lose := fun (h : HubCore) => { h with resv := keepResv a n h.resv }
  { s with mem := memPutAll s.mem a bs, poisoned := s.poisoned.filter (fun w => !overlaps a n (w * 8) 8),
           oneBit := s.oneBit.filter (fun w => !overlaps a n (w * 8) 8),
           kernel := lose s.kernel, core2 := lose s.core2, core3 := lose s.core3,
           nodes := s.nodes.map fun p => (p.1, { p.2 with resv := keepResv a n p.2.resv }) }

/-! ### Free values -/

/-- Draws a value the spec leaves open (log 9). -/
def State.draw (s : State) : Nat × State := (Config.freeNat s.fresh, { s with fresh := s.fresh + 1 })

/-- Draws `n` bytes the spec leaves open. -/
def State.drawBytes (s : State) (n : Nat) : List Byte × State :=
  ((List.range n).map fun k => BitVec.ofNat 8 (Config.freeNat (s.fresh + k)), { s with fresh := s.fresh + n })

/-! ### Control words -/

/-- The value of a field's instance the block acts on: the live copy of an S field, the constant of an N field, 0 of an X
field, the present value of any other (R7, R10). -/
def State.get (s : State) (f : Fld) (i : Nat := 0) (j : Nat := 0) : Nat :=
  match f.acc with
  | .S => match Map.find s.cw.live (f.key i j) with
    | some v => v.toNat
    | none => f.reset i
  | .N => f.reset i
  | .X => 0
  | _ => match Map.find s.cw.pres (f.key i j) with
    | some v => v.toNat
    | none => f.reset i

/-- The staged copy of an S field, the value `State.get` gives of any other. -/
def State.getStaged (s : State) (f : Fld) (i : Nat := 0) (j : Nat := 0) : Nat :=
  match f.acc with
  | .S => match Map.find s.cw.staged (f.key i j) with
    | some v => v.toNat
    | none => f.reset i
  | _ => s.get f i j

/-- A field's value as it is stored: its low `width` bits. -/
def fitField (f : Fld) (v : Nat) : Word32 := BitVec.ofNat 32 (v % 2 ^ f.width)

/-- Writes the live copy of an S field or the present value of an L, C or K field. -/
def State.set (s : State) (f : Fld) (v : Nat) (i : Nat := 0) (j : Nat := 0) : State :=
  match f.acc with
  | .S => { s with cw := { s.cw with live := Map.put s.cw.live (f.key i j) (fitField f v) } }
  | .N | .X => s
  | _ => { s with cw := { s.cw with pres := Map.put s.cw.pres (f.key i j) (fitField f v) } }

/-- Writes the staged copy of an S field (R11). -/
def State.setStaged (s : State) (f : Fld) (v : Nat) (i : Nat := 0) (j : Nat := 0) : State :=
  match f.acc with
  | .S => { s with cw := { s.cw with staged := Map.put s.cw.staged (f.key i j) (fitField f v) } }
  | _ => s

/-- Sets a one-bit field. -/
def State.setB (s : State) (f : Fld) (b : Bool) (i : Nat := 0) (j : Nat := 0) : State := s.set f b.toNat i j

/-- A one-bit field. -/
def State.getB (s : State) (f : Fld) (i : Nat := 0) (j : Nat := 0) : Bool := s.get f i j != 0

/-- Sets bit `n` of a mask field. -/
def State.setMask (s : State) (f : Fld) (n : Nat) (b : Bool) (i : Nat := 0) : State := s.set f (setBit (s.get f i) n b) i

/-- Advances a counter field, which wraps at its width. -/
def State.bump (s : State) (f : Fld) (i : Nat := 0) (by' : Nat := 1) : State := s.set f (s.get f i + by') i

/-- The keys of a block. -/
def blockLo (b : Nat) : Nat := b * 131072
/-- The end of a block's keys. -/
def blockHi (b : Nat) : Nat := (b + 1) * 131072

/-- Copies a range of the staged set to live (R12). -/
def State.stagedToLive (s : State) (lo hi : Nat) : State :=
  { s with cw := { s.cw with live := Map.copyRange lo hi s.cw.staged s.cw.live } }

/-- Overwrites a range of the staged set with the live set (R55). -/
def State.liveToStaged (s : State) (lo hi : Nat) : State :=
  { s with cw := { s.cw with staged := Map.copyRange lo hi s.cw.live s.cw.staged } }

/-- The fields of a block that stand in the word of an index, with their instances. -/
def fieldsAt (b index : Nat) : List (Fld × Nat × Nat) :=
  (Fld.ofBlock b).flatMap fun f => (f.inst index).map fun p => (f, p.1, p.2)

/-- Whether the block implements the word (R9, R22). -/
def wordExists (b index : Nat) : Bool := !(fieldsAt b index).isEmpty

/-- A control word's value: the staged copy of S fields (`live := false`, CWR) or their live copy (CWRL), and the present
value of all other fields (Table 2.11). -/
def State.readWord (s : State) (b index : Nat) (live : Bool) : Nat :=
  (fieldsAt b index).foldl (fun v p =>
    v + (if live then s.get p.1 p.2.1 p.2.2 else s.getStaged p.1 p.2.1 p.2.2) * 2 ^ p.1.bit p.2.1) 0

/-- Loads the live copy of a word's S fields from a value. -/
def State.loadLive (s : State) (b index v : Nat) : State :=
  (fieldsAt b index).foldl (fun s p =>
    if p.1.acc = .S then s.set p.1 (bits v (p.1.bit p.2.1) p.1.width) p.2.1 p.2.2 else s) s

/-- Loads the staged copy of a word's S fields from a value. -/
def State.loadStaged (s : State) (b index v : Nat) : State :=
  (fieldsAt b index).foldl (fun s p =>
    if p.1.acc = .S then s.setStaged p.1 (bits v (p.1.bit p.2.1) p.1.width) p.2.1 p.2.2 else s) s

/-- Returns a range of a block's word indices to its values after start, both copies. -/
def State.afterStart (s : State) (b lo hi : Nat) : State :=
  let k := fun (p : Nat × Word32) => p.1 < b * 131072 + lo * 32 || b * 131072 + hi * 32 ≤ p.1
  { s with cw := { live := s.cw.live.filter k, staged := s.cw.staged.filter k, pres := s.cw.pres.filter k } }

/-- Whether the staged set changes a field of a group, of instance `i` where one is given (R487). -/
def State.changed (s : State) (b : Nat) (g : Grp) (i : Option Nat) : Bool :=
  (Fld.ofBlock b).any fun f => f.grp = g && (List.range f.n1).any fun k =>
    (i = none || i = some k) && (List.range f.n2).any fun j => s.getStaged f k j ≠ s.get f k j

/-- A field holding a binary32, live copy or present value, as binary64. -/
def State.f64 (s : State) (f : Fld) (i : Nat := 0) : Word := Float64.ofF32 (s.get f i)

/-- A staged binary32 field as binary64. -/
def State.sf64 (s : State) (f : Fld) (i : Nat := 0) : Word := Float64.ofF32 (s.getStaged f i)

/-- Writes a binary64 into a binary32 field, rounded (R384). -/
def State.setF (s : State) (f : Fld) (v : Word) (i : Nat := 0) : State := s.set f (Float64.toF32 v) i

/-- The shadow regions of the Granary: the live DECANT.SHBASEr and SHLENr, 64 KB units (13 R325). -/
def State.shadowRegions (s : State) : List (Nat × Nat) :=
  (List.range 8).filterMap fun r =>
    let n := s.get Fld.decantShlenLen r
    if n = 0 then none else some (s.get Fld.decantShbaseAddr r * 65536, n * 65536)

/-- Whether `[a, a + n)` lies in one shadow region. -/
def State.inShadow (s : State) (a n : Nat) : Bool :=
  s.shadowRegions.any fun r => decide (r.1 ≤ a ∧ a + n ≤ r.1 + r.2)

/-- The apply record of a block (or of one queue unit). -/
def State.appliesOf (s : State) (b : Nat) : Applies := Map.getD s.applies b {}

/-- Replaces the apply record of a block. -/
def State.setApplies (s : State) (b : Nat) (a : Applies) : State := { s with applies := Map.put s.applies b a }

/-- Records the completion of the next apply of a block with its result, keeping the last four (R57). -/
def Applies.complete (a : Applies) (result : Nat) : Applies :=
  let n := (a.done + 1) % 65536
  { done := n, results := ((n, result) :: a.results).take 4, pending := none }

/-! ### Cores and interrupts -/

/-- A hub core. -/
def State.core (s : State) : Core → HubCore
  | .kernel => s.kernel
  | .core2 => s.core2
  | .core3 => s.core3

/-- Replaces a hub core. -/
def State.setCore (s : State) (c : Core) (h : HubCore) : State :=
  match c with
  | .kernel => { s with kernel := h }
  | .core2 => { s with core2 := h }
  | .core3 => { s with core3 := h }

/-- Makes an interrupt source pending at a core (R64). -/
def State.pend (s : State) (c : Core) (src : Nat) : State :=
  let h := s.core c
  s.setCore c { h with ipend := h.ipend ||| (1#64 <<< src) }

/-- Makes a source pending at every core. -/
def State.pendAll (s : State) (src : Nat) : State := ((s.pend .kernel src).pend .core2 src).pend .core3 src

/-- The cause of an interrupt source is cleared at the source (R64). -/
def State.unpend (s : State) (c : Core) (src : Nat) : State :=
  let h := s.core c
  s.setCore c { h with ipend := h.ipend &&& ~~~(1#64 <<< src) }

/-- The cause of a source is cleared for every core. -/
def State.unpendAll (s : State) (src : Nat) : State := ((s.unpend .kernel src).unpend .core2 src).unpend .core3 src

/-- The interrupt source of a block's events (Table 2.19). -/
def blockSource (b : Nat) : Option Nat :=
  if b = Blk.mill then some 48
  else if b = Blk.reeve then some 49
  else if b = Blk.gnssin ∨ b = Blk.grinder ∨ b = Blk.correl ∨ b = Blk.gseq then some 50
  else if b = Blk.radio then some 51
  else if b = Blk.bell then some 52
  else if b = Blk.claim ∨ b = Blk.decant ∨ b = Blk.plink then some 53
  else if b = Blk.net ∨ b = Blk.time then some 54
  else if b = Blk.keywell ∨ b = Blk.debug then some 55
  else if b = Blk.loop ∨ b = Blk.axis ∨ b = Blk.tally then some 56
  else if b = Blk.kettle then some 57
  else if b = Blk.granary ∨ b = Blk.fabric ∨ b = Blk.queue then some 58
  else if b = Blk.boot ∨ b = Blk.hostif then some 59
  else none

/-- The FAULT word's code field and index field of a block, where it has them. -/
def faultFields (b : Nat) : Option (Fld × Option Fld) :=
  if b = Blk.reeve then some (Fld.reeveFaultCode, some Fld.reeveFaultIndex)
  else if b = Blk.radio then some (Fld.radioFaultCode, some Fld.radioFaultIndex)
  else if b = Blk.bell then some (Fld.bellFaultCode, some Fld.bellFaultIndex)
  else if b = Blk.net then some (Fld.netFaultCode, some Fld.netFaultPort)
  else if b = Blk.time then some (Fld.timeFaultCode, none)
  else if b = Blk.decant then some (Fld.decantFaultCode, none)
  else if b = Blk.plink then some (Fld.plinkFaultCode, none)
  else if b = Blk.keywell then some (Fld.keywellFaultCode, some Fld.keywellFaultSlot)
  else if b = Blk.boot then some (Fld.bootFaultCode, some Fld.bootFaultEntry)
  else if b = Blk.loop then some (Fld.loopFaultCode, some Fld.loopFaultSlot)
  else if b = Blk.axis then some (Fld.axisFaultCode, some Fld.axisFaultAxis)
  else if b = Blk.tally then some (Fld.tallyFaultCode, some Fld.tallyFaultChan)
  else if b = Blk.kettle then some (Fld.kettleFaultCode, some Fld.kettleFaultIndex)
  else none

/-- Raises a fault or warning (R16) at its block, or at the block that owns the engine it is reported to (03 R72): the block's FAULT word
takes the code and the index, the record of the block's last code takes the code, and the block's interrupt source becomes pending at
the kernel (Table 2.19). -/
def State.raise (s : State) (code : Nat) (index : Nat := 0) (owner : Option Nat := none) : State :=
  let b := owner.getD (code / 256)
  let s := { s with lastCode := Map.put s.lastCode b code }
  let s := match faultFields b with
    | some (c, some x) => (s.set c code).set x index
    | some (c, none) => s.set c code
    | none => s
  match blockSource b with
  | some src => s.pend .kernel src
  | none => s

/-- Raises a warning at most once per second for its own key (the rate limits of R250, R430, R452 and others). -/
def State.warnOnce (s : State) (code key : Nat) (index : Nat := 0) : State :=
  let k := code * 65536 + key
  match Map.find s.warned k with
  | some t => if s.us < t + 1000000 then s else { s.raise code index with warned := Map.put s.warned k s.us }
  | none => { s.raise code index with warned := Map.put s.warned k s.us }

/-- Inserts a number into a rising list. -/
def insertLine : List Nat → Nat → List Nat
  | [], n => [n]
  | k :: t, n => if n < k then n :: k :: t else if n = k then k :: t else k :: insertLine t n

/-- The shadow lines (256 bytes) that `[a, a + n)` touches. -/
def State.shadowLines (s : State) (a n : Nat) : List Nat :=
  if n = 0 then []
  else ((List.range ((a + n - 1) / 256 - a / 256 + 1)).map (a / 256 + ·)).filter fun l =>
    s.shadowRegions.any fun r => overlaps (l * 256) 256 r.1 r.2

/-- Whether `[a, a + n)` touches a Granary bank whose island is off: it failed, and every read is uncorrectable (19 R449). -/
def State.bankOff (s : State) (a n : Nat) : Bool :=
  decide (a < 0x4000000) && (List.range 16).any fun b =>
    !bitOf (s.get Fld.kettleIslon1Banks) b && overlaps a n (b * 0x400000) 0x400000

/-- Whether a 64-bit word that `[a, a + n)` touches is poisoned (R38). -/
def State.poisonAt (s : State) (a n : Nat) : Bool := (s.poisoned.any fun w => overlaps a n (w * 8) 8) || s.bankOff a n

/-- A byte as a block reads it: its own writes that still stall at the frozen set (R30) come before its reads; a byte of an uncorrectable
word is open (R38; log 94). -/
def State.blockByte (s : State) (a : Nat) : Byte :=
  match s.decant.stalled.reverse.find? fun w => w.writer = none && decide (w.addr ≤ a ∧ a < w.addr + w.bytes.length) with
  | some w => w.bytes.getD (a - w.addr) 0
  | none => if s.poisonAt a 1 then Config.poisonByte a else memByte s.mem a

/-- The bytes of `[a, a + n)` as a block reads them. -/
def State.rd (s : State) (a n : Nat) : List Byte :=
  if s.decant.stalled = [] ∧ !s.poisonAt a n then readBytes s.mem a n else (List.range n).map fun i => s.blockByte (a + i)

/-- The little-endian number in `n` bytes of memory, as a block reads them. -/
def State.readLE (s : State) (a n : Nat) : Nat := leNat (s.rd a n)

/-- A read finds the single-bit errors of some words: each is corrected, written back and counted, and ECC_CORRECTED is raised (R38). -/
def State.eccFix (s : State) (found : Nat → Bool) : State :=
  let ws := s.oneBit.filter found
  match ws.getLast? with
  | none => s
  | some w =>
    let s : State := { s with oneBit := s.oneBit.filter fun w => !found w }
    ((s.bump Fld.granaryEccCorrected 0 ws.length).set Fld.granaryEccaddrWord w).raise 0x0881

/-- A read of `[a, a + n)` corrects its words (R38). -/
def State.eccRead (s : State) (a n : Nat) : State := s.eccFix fun w => overlaps a n (w * 8) 8

/-- A read finds an uncorrectable word of `[a, a + n)`: GRANARY.ECC.UNCORR is set, ECCADDR names it, and ECC_UNCORRECTABLE is raised
(R38). -/
def State.eccBad (s : State) (a n : Nat) : State :=
  let w := (s.poisoned.find? fun w => overlaps a n (w * 8) 8).getD (a / 8)
  ((s.setB Fld.granaryEccUncorr true).set Fld.granaryEccaddrWord w).raise 0x0801

/-- What a block's read of `[a, a + n)` does at the Granary beside answering the bytes (R38): corrections, or ECC_UNCORRECTABLE. -/
def State.touch (s : State) (a n : Nat) : State :=
  if s.poisonAt a n then (s.eccRead a n).eccBad a n else s.eccRead a n

/-- A write to a locked shadow region (13 R325): it is discarded and counted, and SHADOW_LOCKED is raised once per cycle. -/
def State.lockedWrite (s : State) : State :=
  let s := s.bump Fld.decantCnt2LockedWr
  if s.decant.lockRaised then s
  else let s := s.raise 0x2D05; { s with decant := { s.decant with lockRaised := true } }

/-- A write that reaches the Granary or DRAM from any initiator but the Decant commit (13 R325, 01 R30): on a standby, whose
shadow regions are locked, a write to them is discarded and counted; a write to a frozen line not copied yet stalls its writer; any
other write is made, and its shadow lines are dirty; a bank whose island is off discards it (19 R449). -/
def State.store (s : State) (a : Nat) (bs : List Byte) (w : Option Engine := none) (xfer : Bool := false) : State :=
  let ls := s.shadowLines a bs.length
  if s.bankOff a bs.length then s
  else if ls ≠ [] ∧ s.getB Fld.decantStateLocked then s.lockedWrite
  else if ls.any fun l => s.decant.frozen.contains l then
    { s with decant := { s.decant with stalled := s.decant.stalled ++ [⟨a, bs, w, xfer⟩] } }
  else
    let s := s.writeRaw a bs
    { s with decant := { s.decant with dirty := ls.foldl insertLine s.decant.dirty } }

/-- A sequencer. -/
def State.seq (s : State) (q : Nat) : Sequencer := Map.getD s.seqs q {}

/-- Replaces a sequencer. -/
def State.setSeq (s : State) (q : Nat) (x : Sequencer) : State := { s with seqs := Map.put s.seqs q x }

/-- The oldest transfer of a sequencer has completed, and event 12 is pending (03 R88). -/
def State.xferDone (s : State) (q : Nat) : State :=
  let x := s.seq q
  s.setSeq q { x with xfers := x.xfers.drop 1, evpend := setBit x.evpend 12 true }

/-- A write that was stalled at the frozen set is made (01 R30); of a transfer it was the end. -/
def State.unstall (s : State) (w : StalledWrite) : State :=
  let s := s.store w.addr w.bytes w.writer w.xfer
  match w.writer with
  | some (.seq q) => if w.xfer ∧ !(s.decant.stalled.any fun v => v = w) then s.xferDone q.val else s
  | _ => s

/-- Whether the oldest transfer of a sequencer waits for a line of the frozen set (01 R30). -/
def State.xferStalled (s : State) (q : Fin 8) : Bool := s.decant.stalled.any fun w => w.writer = some (.seq q) && w.xfer

/-- Zeroes the bytes of `[a, a + n)` for which `on` holds, as `State.writeRaw` would. -/
def State.zeroRaw (s : State) (a n : Nat) (on : Nat → Bool) : State :=
  let hit := fun x => decide (a ≤ x ∧ x < a + n) && on x
  let word := fun w => overlaps a n (w * 8) 8 && on (w * 8)
  let lose := fun (h : HubCore) => { h with resv := keepResv a n h.resv }
  { s with mem := s.mem.filter (fun c => !hit c.1), poisoned := s.poisoned.filter (fun w => !word w),
           oneBit := s.oneBit.filter (fun w => !word w),
           kernel := lose s.kernel, core2 := lose s.core2, core3 := lose s.core3,
           nodes := s.nodes.map fun p => (p.1, { p.2 with resv := keepResv a n p.2.resv }) }

/-- A write of `n` zero bytes, line by line through the rules of `State.store`. -/
def State.zeroFill (s : State) (a n : Nat) : State :=
  let ls := s.shadowLines a n
  if ls ≠ [] ∧ s.getB Fld.decantStateLocked then s.lockedWrite
  else
    let held := ls.filter fun l => s.decant.frozen.contains l
    let wait := held.map fun l =>
      let lo := max a (256 * l)
      ({ addr := lo, bytes := List.replicate (min (a + n) (256 * l + 256) - lo) 0 } : StalledWrite)
    let t := s.zeroRaw a n fun x => !held.contains (x / 256) && !s.bankOff x 1
    { t with decant := { t.decant with
        dirty := (ls.filter fun l => !held.contains l).foldl insertLine t.decant.dirty, stalled := t.decant.stalled ++ wait } }

/-! ### The hub's L2 (02 R51, R52; log 73) -/

/-- Whether the L2 may hold an address's line as something else than a copy that cannot differ: the Granary and DRAM (Table 2.10). -/
def cacheable (a : Nat) : Bool := regionOf a = .granary || regionOf a = .dram

/-- The lines of 64 bytes that `[a, a + n)` touches. -/
def linesOf (a n : Nat) : List Nat := if n = 0 then [] else (List.range ((a + n - 1) / 64 - a / 64 + 1)).map (a / 64 + ·)

/-- Whether a line lies in a shadow region: write-through, and not executed (Table 2.10). -/
def State.shadowLine (s : State) (l : Nat) : Bool := s.shadowRegions.any fun r => overlaps (l * 64) 64 r.1 r.2

/-- The hub cores' reservations as they stood in `old`: no hub core's own write takes its reservation. -/
def State.keepResvs (s old : State) : State :=
  { s with kernel := { s.kernel with resv := old.kernel.resv }, core2 := { s.core2 with resv := old.core2.resv },
           core3 := { s.core3 with resv := old.core3.resv } }

/-- A dirty line is written back (DCFLUSH, or before it leaves the L2). -/
def State.l2WriteBack (s : State) (l : Nat) : State :=
  match Map.find s.l2 l with
  | some x =>
    if x.dirty then
      let t := (s.store (l * 64) x.bytes).keepResvs s
      { t with l2 := Map.put t.l2 l { x with dirty := false } }
    else s
  | none => s

/-- A line leaves the L2 without being written back (DCINV). -/
def State.l2Drop (s : State) (l : Nat) : State := { s with l2 := Map.del s.l2 l }

/-- Before a line comes in, another may leave, which one is open; of 32,768 lines (2 MB) one does (log 73). -/
def State.l2Evict (s : State) : State :=
  let (k, s) := s.draw
  let n := s.l2.length
  match s.l2[if 32768 ≤ n then k % n else k]? with
  | some p => (s.l2WriteBack p.1).l2Drop p.1
  | none => s

/-- A line comes into the L2 from memory, its single-bit errors corrected; a line with an uncorrectable word is not kept (R38). -/
def State.l2Fill (s : State) (l : Nat) : State :=
  match Map.find s.l2 l with
  | some _ => s
  | none =>
    if !cacheable (l * 64) then s
    else
      let s := s.l2Evict.eccRead (l * 64) 64
      if s.poisonAt (l * 64) 64 then s else { s with l2 := Map.put s.l2 l { bytes := readBytes s.mem (l * 64) 64 } }

/-- A byte as the hub cores see it. -/
def State.hubByte (s : State) (a : Nat) : Byte :=
  match Map.find s.l2 (a / 64) with
  | some x => x.bytes.getD (a % 64) 0
  | none => memByte s.mem a

/-- A hub core's read of `[a, a + n)`: its lines are in the L2 afterwards. -/
def State.hubRead (s : State) (a n : Nat) : List Byte × State :=
  let s := (linesOf a n).foldl State.l2Fill s
  let s := if cacheable a then s else s.eccRead a n
  ((List.range n).map fun i => s.hubByte (a + i), s)

/-- Whether a hub core's read of `[a, a + n)` meets an uncorrectable word: one of a line that the L2 does not hold. -/
def State.hubPoison (s : State) (a n : Nat) : Bool :=
  (linesOf a n).any fun l => Map.find s.l2 l = none &&
    s.poisonAt (max a (l * 64)) (min (a + n) (l * 64 + 64) - max a (l * 64))

/-- A line with bytes replaced from offset `o` on. -/
def L2Line.patch (x : L2Line) (o : Nat) (bs : List Byte) (dirty : Bool) : L2Line :=
  { bytes := x.bytes.take o ++ bs ++ x.bytes.drop (o + bs.length), dirty := dirty }

/-- A hub core's write within one line: a line of a shadow region is written through, any other is changed in the L2 and written back
later, and the reservations of others on it are lost (R50). -/
def State.hubPut (s : State) (c : Core) (a : Nat) (bs : List Byte) : State :=
  let l := a / 64
  if s.shadowLine l then
    let t := s.store a bs (some (.hub c))
    match Map.find s.l2 l with
    | some x => { t with l2 := if s.getB Fld.decantStateLocked then Map.del t.l2 l else Map.put t.l2 l (x.patch (a % 64) bs false) }
    | none => t
  else
    let s := s.l2Fill l
    match Map.find s.l2 l with
    | some x =>
      let lose := fun (h : HubCore) => { h with resv := keepResv a bs.length h.resv }
      { s with l2 := Map.put s.l2 l (x.patch (a % 64) bs true)
               kernel := lose s.kernel, core2 := lose s.core2, core3 := lose s.core3
               nodes := s.nodes.map fun p => (p.1, { p.2 with resv := keepResv a bs.length p.2.resv }) }
    | none => s.store a bs (some (.hub c))

/-- A hub core's write, line by line. -/
def State.hubWrite (s : State) (c : Core) (a : Nat) (bs : List Byte) : State :=
  (linesOf a bs.length).foldl (fun s l =>
    let lo := max a (l * 64)
    s.hubPut c lo ((bs.drop (lo - a)).take (l * 64 + 64 - lo))) s

/-- Whether an engine is stalled by a write of its own to the frozen set (R30). -/
def State.writerStalled (s : State) (e : Engine) : Bool := s.decant.stalled.any fun w => w.writer = some e && !w.xfer

/-- One bit of a CRC-32C, and `n` of them. -/
def crcBits : Nat → Nat → Nat
  | 0, c => c
  | n + 1, c => crcBits n (if c % 2 = 1 then (c / 2) ^^^ 0x82F63B78 else c / 2)

/-- CRC-32C of bytes (the Castagnoli CRC, reflected, initial value and final inversion of all ones; log 41). -/
def crc32c (bs : List Byte) : Nat :=
  (bs.foldl (fun c b => crcBits 8 (c ^^^ b.toNat)) 0xFFFFFFFF) ^^^ 0xFFFFFFFF

/-! ### The fleet cycle -/

/-- The number of the present fleet cycle (R19). -/
def State.cycle (s : State) : Nat := s.get Fld.sysCycleNumber

/-- The next cycle number (R19, R20). -/
def nextCycle (n : Nat) : Nat := (n + 1) % 2 ^ 32

/-- The ingest window that the present instant belongs to (01 R28): before the ingest close that of the present cycle, from it on that of the
next. -/
def State.ingestWindow (s : State) : Nat := if s.get Fld.sysPhasePhase = 0 then s.cycle else nextCycle s.cycle

/-- Whether the release gate of the present cycle is open (R34). -/
def State.gateOpen (s : State) : Bool := s.getB Fld.sysReleaseGate

/-- Whether the device runs solo: the gate opens without an acknowledgement (R6, Table 1.12). -/
def State.solo (s : State) : Bool := s.getB Fld.sysReleaseMode

/-- Whether fleet cycles run (SYS is RUNNING; 15 R376). -/
def State.sysRunning (s : State) : Bool := s.getB Fld.bootStateSysrun

/-- Whether this unit's claim stage is HOLDING (13 R331). -/
def State.holding (s : State) : Bool := s.get Fld.claimStateStage = 2

/-- A quotient in the unit it is held in, rounded in a way the spec does not state (log 13). -/
def qround (what : Nat) (num den : Int) : Int :=
  let q := num.fdiv den
  if num = q * den then q else if Config.roundsUp what num den then q + 1 else q

/-! ### Site time (R17, R18) -/

/-- A site time in nanoseconds. -/
def SiteTime.total (t : SiteTime) : Nat := 1000000000 * t.sec + t.ns

/-- The 10-byte form of a site time. -/
def SiteTime.bytes10 (t : SiteTime) : List Byte := leBytes t.ns 4 ++ leBytes t.sec 6

/-- The 12-byte form of a site time, with 16 bits of fraction. -/
def SiteTime.bytes12 (t : SiteTime) : List Byte := leBytes (t.frac / 2 ^ 32) 2 ++ leBytes t.ns 4 ++ leBytes t.sec 6

/-- A site time in units of 2^-48 ns (12 R303). -/
def SiteTime.raw (t : SiteTime) : Nat := 2 ^ 48 * (1000000000 * t.sec + t.ns) + t.frac

/-- The site time of a count of 2^-48 ns. -/
def SiteTime.ofRaw (v : Nat) : SiteTime :=
  { sec := v / 2 ^ 48 / 1000000000 % 2 ^ 48, ns := v / 2 ^ 48 % 1000000000, frac := v % 2 ^ 48 }

/-- A site time in whole picoseconds. -/
def SiteTime.ps (t : SiteTime) : Nat := 1000 * t.raw / 2 ^ 48

/-- The count of 2^-48 ns at a number of picoseconds. -/
def rawOfPs (ps : Nat) : Nat := (2 ^ 48 * ps + 999) / 1000

/-- A site time moved by picoseconds. -/
def SiteTime.addPs (t : SiteTime) (ps : Int) : SiteTime := SiteTime.ofRaw (((t.raw : Int) + (ps * (2 ^ 48 : Nat)).fdiv 1000).toNat)

/-- Clocks of the root PLL since kernel entry (Table 1.2): 6,000 a microsecond. -/
def State.roots (s : State) : Nat := 6000 * s.us + s.sub

/-- The slew term of FADJ in 1/256 ppb (12 R307). -/
def State.slewTerm (s : State) : Int :=
  let v : Int := s.get Fld.timeLimitSlewPpb * 256
  if s.servo.slew = 0 then 0 else if 0 < s.servo.slew then v else -v

/-- What the slew term still has to add, in units of 2^-8 × 10^-6 ps, the unit of `Servo.slewAcc`. -/
def State.slewLeft (s : State) : Nat := 256000000 * s.servo.slew.natAbs - s.servo.slewAcc

/-- What the slew term adds in `n` NET clocks, in the same unit: never more than the remainder (12 R307). -/
def State.slewUsed (s : State) (n : Nat) : Nat := min s.slewLeft (n * 4 * s.servo.slewFadj.natAbs)

/-- What `n` NET clocks add to the site time counter, in 2^-48 ns: 4 ns × (1 + FADJ × 10^-9) each, the slew term as far as the remainder
goes (12 R303, R307; log 13). -/
def State.siteAdd (s : State) (n : Nat) : Nat :=
  let slew : Int := if 0 < s.servo.slew then s.slewUsed n else -(s.slewUsed n : Int)
  ((2 ^ 48 * (4 * n) : Nat) + qround 25 ((n * 4 * (s.servo.fadj - s.servo.slewFadj) + slew) * (2 ^ 48 : Nat)) 256000000000).toNat

/-- A core that has run HUB clocks, at the time `now` in root clocks: TICK counts them on a started core (Table 2.3), and a reservation is
lost after 256 of them (R50). -/
def HubCore.tickBy (h : HubCore) (clocks now : Nat) : HubCore :=
  if h.run = .inReset then h
  else { h with tick := h.tick + BitVec.ofNat 64 clocks, resv := if now ≤ h.resvAt + 1024 then h.resv else none }

/-- Lets `r` root clocks pass: the count of device time, the site time counter and the slew remainder, the cores' TICK words and
reservations, and PLINK.HBAGE (log 20). -/
def State.pass (s : State) (r : Nat) : State :=
  let now := s.roots + r
  let nets := now / 24 - s.roots / 24
  let age := s.get Fld.plinkHbageUs
  let acc := s.servo.slewAcc + s.slewUsed nets
  let left := s.servo.slew.natAbs - acc / 256000000
  let site := SiteTime.ofRaw (s.site.raw + s.siteAdd nets)
  let servo := { s.servo with slew := if 0 < s.servo.slew then left else -(left : Int), slewAcc := acc % 256000000 }
  let hub := fun (h : HubCore) => h.tickBy (now / 4 - s.roots / 4) now
  let s := if age = 0xFFFF then s else s.set Fld.plinkHbageUs (min 0xFFFF (age + (now / 6000 - s.us)))
  { s with us := now / 6000, sub := now % 6000, site := site, servo := servo, kernel := hub s.kernel, core2 := hub s.core2,
           core3 := hub s.core3,
           nodes := s.nodes.map fun p => (p.1, { p.2 with resv := if now ≤ p.2.resvAt + 1024 then p.2.resv else none }) }

/-- The root clocks until the first NET clock at which the site time counter stands at or past a count of 2^-48 ns. -/
def State.clocksTo (s : State) (target : Nat) : Nat :=
  if target ≤ s.site.raw then 0
  else
    let per := s.siteAdd 1
    let n := (target - s.site.raw + per - 1) / max 1 per
    n * 24 - s.roots % 24

/-- How far a negative step has set the counter back in the present cycle, in ps (R33). -/
def State.setBack (s : State) : Nat := if s.stepping then (-s.cycleStep).toNat else 0

/-- Where the present cycle ends on the site time counter, in ps (R19). -/
def State.boundaryPs (s : State) : Nat := 10000000000 * (s.cyclePs / 10000000000 + 1)

/-- Lets the time pass until site time stands `off` microseconds into the present cycle, unless that is over. -/
def State.moveTo (s : State) (off : Nat) : State :=
  let t := s.pass (s.clocksTo (rawOfPs (s.cyclePs + 1000000 * off - s.setBack)))
  t.set Fld.sysPhaseOffsetUs (max off (s.get Fld.sysPhaseOffsetUs))

/-- Lets `r` root clocks pass within the present cycle; OFFSET_US follows the site time counter (R33, Table 1.11). -/
def State.passInCycle (s : State) (r : Nat) : State :=
  let t := s.pass r
  t.set Fld.sysPhaseOffsetUs (max (s.get Fld.sysPhaseOffsetUs) (min 10999 ((t.site.ps + t.setBack - t.cyclePs) / 1000000)))

/-- Lets the time pass until a root clock, where that lies in the present cycle. -/
def State.reach (s : State) (at' : Nat) : Option State :=
  if at' ≤ s.roots then some s
  else if at' - s.roots ≤ s.clocksTo (rawOfPs s.boundaryPs) then some (s.passInCycle (at' - s.roots))
  else none

/-- Lets the time pass until a time in us, where that lies in the present cycle. -/
def State.reachUs (s : State) (us : Nat) : Option State := s.reach (6000 * us)

/-- Lets the time pass until site time stands at some ps, where that lies in the present cycle. -/
def State.reachSite (s : State) (ps : Nat) : Option State :=
  if ps ≤ s.site.ps then some s
  else if ps ≤ s.boundaryPs then some (s.passInCycle (s.clocksTo (rawOfPs ps)))
  else none

/-- Whether the present cycle begins at a tenth-second boundary of site time (R19). -/
def State.onTenth (s : State) : Bool := s.cyclePs % 100000000000 = 0

/-- Whether the present cycle begins at a whole second (R19). -/
def State.onSecond (s : State) : Bool := s.cyclePs % 1000000000000 = 0

/-- Whether the present cycle ends at a whole second (R19). -/
def State.endsSecond (s : State) : Bool := (s.cyclePs + 10000000000) % 1000000000000 = 0

/-- The offset of the gate deadline: 100 us before the actual boundary (R33, R35). -/
def State.deadline (s : State) : Nat := (9900 - s.cycleStep / 1000000).toNat

/-- A Chest location (Table 2.13). -/
def State.chestAt (s : State) (loc : Nat) : Word := Map.getD s.chest loc 0

/-- Writes a Chest location durably. -/
def State.chestSet (s : State) (loc : Nat) (v : Word) : State := { s with chest := Map.put s.chest loc v }

/-! ### Islands (19 R448-R454) -/

/-- The number an island is listed under. -/
def islandKey : Island → Nat
  | .engine n => n.val
  | .quad q => 24 + q.val
  | .bank b => 32 + b.val
  | .serdes l => 48 + l.val

/-- The ISLON field and bit of an island (Table 19.5). -/
def islandOnBit : Island → Fld × Nat
  | .engine n => (Fld.kettleIslon0Engines, n.val)
  | .bank b => (Fld.kettleIslon1Banks, b.val)
  | .quad q => (Fld.kettleIslon1Quads, q.val)
  | .serdes l => (Fld.kettleIslon1Serdes, l.val)

/-- The ISLNAP field and bit of an island (Table 19.5). -/
def islandNapBit : Island → Fld × Nat
  | .engine n => (Fld.kettleIslnap0Engines, n.val)
  | .bank b => (Fld.kettleIslnap1Banks, b.val)
  | .quad q => (Fld.kettleIslnap1Quads, q.val)
  | .serdes l => (Fld.kettleIslnap1Serdes, l.val)

/-- The ISLFAIL field and bit of an island (Table 19.5). -/
def islandFailBit : Island → Fld × Nat
  | .engine n => (Fld.kettleIslfail0Engines, n.val)
  | .bank b => (Fld.kettleIslfail1Banks, b.val)
  | .quad q => (Fld.kettleIslfail1Quads, q.val)
  | .serdes l => (Fld.kettleIslfail1Serdes, l.val)

/-- Whether an island is on. -/
def State.islandOn (s : State) (i : Island) : Bool := bitOf (s.get (islandOnBit i).1) (islandOnBit i).2

/-- Whether an island is awake: on, and not in DOZE or NAP. -/
def State.islandAwake (s : State) (i : Island) : Bool :=
  s.islandOn i && Map.getD s.kettle.sleep (islandKey i) .awake = .awake

/-- Asks the Kettle's island queue to power an island up (R448): one that is on, waits or has its grant is not asked for again. -/
def State.askIsland (s : State) (i : Island) : State :=
  if s.islandOn i ∨ i ∈ s.kettle.islandQ ∨ i ∈ s.kettle.granted then s
  else { s with kettle := { s.kettle with islandQ := s.kettle.islandQ ++ [i] } }

/-! ### Applies (R12, R14, R57) -/

/-- The owner of a block: HUB.OWN (R55). -/
def State.ownerOf (s : State) (b : Nat) : Option Core :=
  match s.get Fld.hubOwnOwner b with
  | 0 => some .kernel
  | 2 => some .core2
  | 3 => some .core3
  | _ => none

/-- A pending apply of a block is made: the staged set, when it passes, becomes live whole; otherwise the block's apply-rejected code is
its result and is raised.  The owner's source 63 is pending. -/
def State.makeApply (s : State) (b code : Nat) (ok : Bool) : State :=
  match (s.appliesOf b).pending with
  | none => s
  | some _ =>
    let s := if ok then s.stagedToLive (blockLo b) (blockHi b) else s.raise code
    let s := s.setApplies b ((s.appliesOf b).complete (if ok then 0 else code))
    match s.ownerOf b with
    | some c => s.pend c 63
    | none => s

/-! ### The start queue (16 R398, 17 R421, 19 R450) -/

/-- Asks the start queue for a grant; a unit that already waits keeps its place. -/
def State.askStart (s : State) (w : Starter) : State :=
  if w ∈ s.starts then s else { s with starts := s.starts ++ [w] }

/-- Whether a GPIO pin is driven as a FEGAIN line, so that no other use of it has an effect (05 R129). -/
def State.gpioTaken (s : State) (pin : Nat) : Bool := decide (pin < 4) && bitOf (s.get Fld.gnssinFegainMode) pin

/-! ### Claim-gated balls (13 Table 13.5) -/

/-- Whether a GPIO output is at high impedance for want of the claim. -/
def State.gpioGated (s : State) (pin : Nat) : Bool :=
  !s.holding && (if pin < 32 then bitOf (s.get Fld.claimGpioloMask) pin else bitOf (s.get Fld.claimGpiohiMask) (pin - 32))

/-- Whether the PWM outputs are at high impedance for want of the claim; with PWMSAFE they are low instead. -/
def State.pwmGated (s : State) : Bool := !s.holding && !s.getB Fld.claimCfgPwmsafe

/-- Whether the PWM outputs are low for want of the claim. -/
def State.pwmLow (s : State) : Bool := !s.holding && s.getB Fld.claimCfgPwmsafe

/-- Whether PPS0, PPS1 or, as 2, REFOUT is at its inactive level for want of the claim. -/
def State.pulseGated (s : State) (n : Nat) : Bool :=
  !s.holding && s.getB (if n = 0 then Fld.claimCfgPps0 else if n = 1 then Fld.claimCfgPps1 else Fld.claimCfgRefout)

/-- Takes a request back. -/
def State.dropStart (s : State) (w : Starter) : State := { s with starts := s.starts.filter (· ≠ w) }

/-! ### Reset (15 R366, R367, 19 R462) -/

/-- The site epoch of IDENT in seconds, or 0 while SET is 0 (R19, 15 R376). -/
def State.siteEpoch (s : State) : Nat :=
  let id := (s.chestAt 0x0011).toNat
  if bitOf id 49 then bits id 0 48 else 0

/-- The number of the fleet cycle that site time stands in, counted from the site epoch. -/
def State.siteCycle (s : State) : Nat :=
  unsigned 32 (((s.site.sec : Int) - s.siteEpoch) * 100 + (s.site.ns / 10000000 : Nat))

/-- The device is reset: what is kept is the Chest, the flash and, as far as the spec says nothing else, the other memories, the fuses, the
rails, the straps and wires, the last Kettle code and what waits in the model's own queue (log 64); everything else is as State.reset, and no
core runs until the start sequence ends. -/
def State.deviceReset (s : State) (cause : Nat) (code : Nat := 0) : State :=
  let k := s.kettle
  let r := State.reset
  let t : State := { r with
    pending := s.pending, fresh := s.fresh, us := s.us, mem := s.mem, poisoned := s.poisoned, oneBit := s.oneBit, dramBytes := s.dramBytes, chest := s.chest, kernel := {}
    keywell := { r.keywell with fuseState := s.keywell.fuseState }
    boot := { r.boot with erased := s.boot.erased }
    sub := s.sub, cycleRoots := s.roots
    kettle := { r.kettle with railsOn := k.railsOn, seq := k.seq, retry := k.retry, offList := k.offList, inReset := true, holds := k.holds } }
  let t := (t.setB Fld.claimStatePref (s.getB Fld.claimStatePref)).setB Fld.claimStatePartwire (s.getB Fld.claimStatePartwire)
  let t := t.set Fld.kettleCauseCode (if cause = 4 then code else s.get Fld.kettleCauseCode)
  let t := t.set Fld.bootCauseCause cause
  (t.set Fld.sysCycleNumber t.siteCycle).set Fld.sysLastrelCycle (t.siteCycle + 0xFFFFFFFF)

/-- Adds a cause that holds the device in reset. -/
def State.holdReset (s : State) (h : HoldCause) : State :=
  if h ∈ s.kettle.holds then s else { s with kettle := { s.kettle with holds := s.kettle.holds ++ [h] } }

/-- A cause no longer holds the device in reset. -/
def State.freeReset (s : State) (h : HoldCause) : State :=
  { s with kettle := { s.kettle with holds := s.kettle.holds.filter (· ≠ h) } }

/-- A reset made by the Kettle writes its code into CAUSE (19 R462). -/
def State.kettleReset (s : State) (code : Nat) : State := s.deviceReset 4 code

end Sys2Proof.Machine
end

