-- ==== Sys2Proof/Machine/Queues.lean ====
section
/-! DEFINITION. Queue units (spec/11_queues.md): items, fill and flags, drop-newest and gap markers, privileged units, gated items,
the Mill ring, and the checks of the apply. -/

namespace Sys2Proof.Machine

/-- A queue unit. -/
def State.queue (s : State) (q : Nat) : QUnit := Map.getD s.queues q {}

/-- The size of a unit in bytes (Table 11.6). -/
def State.qSize (s : State) (q : Nat) : Nat := 2048 * 2 ^ s.get Fld.queueCfgSize q

/-- Whether a unit is privileged (Table 11.1). -/
def qPrivileged (q : Nat) : Bool := decide (40 ≤ q ∧ q < 48)

/-- The stored bytes of an item with a body of `n` bytes (R278). -/
def qStored (n : Nat) : Nat := 8 + (n + 7) / 8 * 8

/-- The fill of a unit: all its items and an open marker (R278). -/
def QUnit.fill (u : QUnit) : Nat :=
  u.items.foldl (fun n it => n + qStored it.body.length) 0 + (if u.marker.isSome then 16 else 0)

/-- Whether the read side sees an item. -/
def QUnit.ready (u : QUnit) : Bool :=
  match u.items with
  | it :: _ => it.visible
  | [] => false

/-- Replaces a unit and follows with its status word (R279, R281): the fill, the WM flag with its hysteresis, FULL when not even
the smallest item fits, EMPTY as the read side sees it, an open marker, and a stalled privileged write. -/
def State.setQueue (s : State) (q : Nat) (u : QUnit) : State :=
  let fill := u.fill
  let limit := if qPrivileged q then s.qSize q else s.qSize q - 16
  let wm := if s.get Fld.queueWmHigh q * 64 ≤ fill then true
    else if fill ≤ s.get Fld.queueWmLow q * 64 then false else s.getB Fld.queueStatWm q
  let st := s.get Fld.queueStatState q
  let s := { s with queues := Map.put s.queues q u }
  let s := (s.set Fld.queueStatFill fill q).setB Fld.queueStatWm wm q
  let s := (s.setB Fld.queueStatFull (limit < fill + 16) q).setB Fld.queueStatEmpty (!u.ready) q
  let s := s.setB Fld.queueStatMarkopen u.marker.isSome q
  if st = 0 then s else s.set Fld.queueStatState (if u.stallUs.isNone then 1 else 2) q

/-- What a push came to. -/
inductive QPush where
  /-- Written: QPUSH returns 0. -/
  | written
  /-- Dropped, or refused by a disabled unit: QPUSH returns 1. -/
  | dropped
  /-- A privileged write that waits for room (R285). -/
  | stalled
  deriving DecidableEq, Repr

/-- The marker's item (R283): DROPPED_N and FIRST; `window` is the ingest window it is stored in. -/
def markerItem (n first window : Nat) (gated : Bool) : QItem :=
  { body := leBytes n 4 ++ leBytes first 4, gap := true, gated := gated, cycle := first, window := window, visible := false }

/-- A drop (R283): DROPPED advances; the first opens a marker, once 16 bytes are free, and raises QUEUE_DROP; a later one counts
in the open marker, saturating. -/
def State.qDrop (s : State) (q : Nat) : State :=
  let u := s.queue q
  let s := s.bump Fld.queueCntDropped q
  match u.marker with
  | some (n, c) => s.setQueue q { u with marker := some (min (n + 1) 0xFFFFFFFF, c) }
  | none =>
    if u.fill + 16 ≤ s.qSize q then (s.setQueue q { u with marker := some (1, s.cycle) }).raise 0x2881
    else s

/-- The unit with its open marker closed and stored (R283). -/
def QUnit.closeMarker (u : QUnit) (window : Nat) (gated : Bool) : QUnit :=
  match u.marker with
  | some (n, c) => { u with marker := none, items := u.items ++ [markerItem n c window gated] }
  | none => u

/-- A push of an item's body by a writer that the unit admits (R278-R289). -/
def State.qPush (s : State) (q : Nat) (body : List Byte) : QPush × State :=
  let u := s.queue q
  let n := qStored body.length
  let gated := decide (32 ≤ q ∧ q < 40) && s.getB Fld.queueCfgGated q
  let it : QItem := { body := body, gated := gated, cycle := s.cycle, window := s.ingestWindow }
  if s.get Fld.queueStatState q = 0 then (.dropped, s.raise 0x2802)
  else if qPrivileged q then
    if u.held = [] ∧ u.fill + n ≤ s.qSize q then
      (.written, s.setQueue q { u with items := u.items ++ [it], stallUs := none, stallRaised := false })
    else (.stalled, if u.stallUs.isSome then s else s.setQueue q { u with stallUs := some s.us })
  else if s.qSize q < 8 + body.length + 16 then (.dropped, (s.raise 0x2883).qDrop q)
  else if u.fill + n + 16 ≤ s.qSize q then
    let u := u.closeMarker s.ingestWindow gated
    (.written, s.setQueue q { u with items := u.items ++ [it] })
  else (.dropped, s.qDrop q)

/-- A push by hardware, whose stalled write the unit holds until there is room (R285). -/
def State.qPushHw (s : State) (q : Nat) (body : List Byte) : State :=
  match s.qPush q body with
  | (.stalled, s) =>
    let u := s.queue q
    s.setQueue q { u with held := u.held ++ [body] }
  | (_, s) => s

/-- Takes the oldest item that the read side sees. -/
def State.qPop (s : State) (q : Nat) : Option QItem × State :=
  let u := s.queue q
  match u.items with
  | it :: rest => if it.visible then (some it, s.setQueue q { u with items := rest }) else (none, s)
  | [] => (none, s)

/-- QSTAT's value: STATq[22:0] (R291). -/
def State.qStat (s : State) (q : Nat) : Nat := s.readWord Blk.queue (16 * q + 5) true % 2 ^ 23

/-- Makes the first item not yet visible, and not held for the gate, visible. -/
def showFirst : List QItem → List QItem
  | [] => []
  | it :: t => if it.visible then it :: showFirst t else if it.gated then it :: t else { it with visible := true } :: t

/-- QUEUE_ITEM_VISIBLE (R279): the oldest completed item of an ungated unit becomes visible at the read side. -/
def execQueueItemVisible (q : Fin 48) (s : State) : Result :=
  let u := s.queue q.val
  .next (s.setQueue q.val { u with items := showFirst u.items })

/-- GATED_ITEMS_RELEASE (R286), at the start of cycle N+1: the gated items of cycle N and their marker become visible if the gate of
N opened, and are discarded otherwise. -/
def State.gatedRelease (s : State) (open' : Bool) : State :=
  (List.range 8).foldl (fun s i =>
    let q := 32 + i
    let u := s.queue q
    if s.getB Fld.queueCfgGated q then
      let u := u.closeMarker s.ingestWindow true
      if open' then s.setQueue q { u with items := u.items.map fun it => { it with visible := true } }
      else
        let gone := u.items.countP fun it => it.gated && !it.visible && !it.gap
        let s := s.bump Fld.queueCntWithheld q gone
        s.setQueue q { u with items := u.items.filter fun it => it.visible }
    else s) s

/-- MARKER_CLOSE (R283): 1 µs after the first drop the marker is closed and stored. -/
def execMarkerClose (q : Fin 48) (s : State) : Result :=
  let u := s.queue q.val
  .next (s.setQueue q.val (u.closeMarker s.ingestWindow (decide (32 ≤ q.val ∧ q.val < 40) && s.getB Fld.queueCfgGated q.val)))

/-- PRIV_STALL (R285): a write that has been stalled for 100 µs at a privileged unit raises PRIV_STALL, once for that stall. -/
def execPrivStall (q : Fin 48) (s : State) : Result :=
  match (s.queue q.val).stallUs with
  | none => .next s
  | some t => match s.reachUs (100 + t) with
    | none => .next s
    | some s =>
      let u := s.queue q.val
      .next (if u.stallRaised then s else (s.setQueue q.val { u with stallRaised := true }).raise 0x2882)

/-- PRIV_WRITE_RESUME (R285): room has freed and the oldest held write completes; a write behind it is stalled from now on. -/
def execPrivWriteResume (q : Fin 48) (s : State) : Result :=
  let u := s.queue q.val
  match u.held with
  | b :: rest =>
    if u.fill + qStored b.length ≤ s.qSize q.val then
      .next (s.setQueue q.val { u with
        held := rest, items := u.items ++ [{ body := b, cycle := s.cycle, window := s.ingestWindow }]
        stallUs := if rest = [] then none else some s.us, stallRaised := false })
    else .next s
  | [] => .next s

/-- The attachments of a hub core as a writer bit and a reader number (Table 11.6). -/
def coreAttach : Core → Nat
  | .kernel => 0
  | .core2 => 1
  | .core3 => 2

/-- The storage of a unit on the copy `g` reads: base address and bytes. -/
def qBase (g : Fld → Nat → Nat) (q : Nat) : Nat × Nat := (g Fld.queueBaseAddr q * 256, 2048 * 2 ^ g Fld.queueCfgSize q)

/-- The regions of a unit: its storage and, with bit 11 of WRITERS, its Mill ring of 64 + 256 × 16 bytes. -/
def qRegions (g : Fld → Nat → Nat) (q : Nat) : List (Nat × Nat) :=
  qBase g q :: (if bitOf (g Fld.queueCfgWriters q) 11 then [(g Fld.queueRingAddr q * 256, 4160)] else [])

/-- The LAYOUTq checks of R290 of a general unit on the copy `g` reads; overlaps are tested against the live layouts of the other
general units that have a reader. -/
def qLayoutOk (s : State) (g : Fld → Nat → Nat) (q : Nat) : Bool :=
  let b := qBase g q
  let w := g Fld.queueCfgWriters q
  let r := g Fld.queueCfgReader q
  let hub := decide (1 ≤ r ∧ r ≤ 3) && bitOf w (r - 1)
  let mine := qRegions g q
  let others := ((List.range 8).map (32 + ·)).filter fun p => p ≠ q && s.get Fld.queueCfgReader p ≠ 0
  decide (g Fld.queueCfgSize q ≤ 5) && inGranary b.1 b.2 && decide (b.1 % b.2 = 0) && decide (1 ≤ r ∧ r ≤ 13) &&
  decide (w ≠ 0) && (!hub || decide (w = 2 ^ (r - 1))) &&
  (!bitOf w 11 || (decide (g Fld.queueRingAddr q ≠ 0) && inGranary (g Fld.queueRingAddr q * 256) 4160 &&
    !overlaps b.1 b.2 (g Fld.queueRingAddr q * 256) 4160)) &&
  mine.all fun x => others.all fun p =>
    (qRegions (fun f i => s.get f i) p).all fun y => !overlaps x.1 x.2 y.1 y.2

/-- The WMq check of R290 on the staged set. -/
def qWmOk (s : State) (q : Nat) : Bool :=
  let h := s.getStaged Fld.queueWmHigh q
  let l := s.getStaged Fld.queueWmLow q
  decide (1 ≤ l ∧ l < h ∧ h * 64 ≤ 2048 * 2 ^ s.getStaged Fld.queueCfgSize q)

/-- Whether QUEUE's staged set passes the groups R487 has checked (R290): LAYOUTq changes only on a disabled general unit. -/
def queueApplyOk (s : State) : Bool :=
  (List.range 48).all fun q =>
    (!s.changed Blk.queue .gLayout (some q) || (decide (32 ≤ q ∧ q < 40) && s.get Fld.queueStatState q = 0 &&
      qLayoutOk s (fun f i => s.getStaged f i) q)) &&
    (!s.changed Blk.queue .gWm (some q) || qWmOk s q)

/-- QUEUE_ENABLE (R289, R487): starts a disabled general unit whose live LAYOUTq passes. -/
def State.queueEnable (s : State) (q : Nat) : State :=
  if ¬ (32 ≤ q ∧ q < 40) ∨ s.get Fld.queueStatState q ≠ 0 then s
  else if qLayoutOk s (fun f i => s.get f i) q then (s.set Fld.queueStatState 1 q).setQueue q (s.queue q)
  else s.raise 0x2801

/-- QUEUE_ENABLE (R289). -/
def execQueueEnable (q : Fin 48) (s : State) : Result := .next (s.queueEnable q.val)

/-- QUEUE_DISABLE (R289): the write side of a general unit refuses new items. -/
def State.queueDisable (s : State) (q : Nat) : State :=
  if 32 ≤ q ∧ q < 40 then s.set Fld.queueStatState 0 q else s

/-- QUEUE_DISABLE (R289). -/
def execQueueDisable (q : Fin 48) (s : State) : Result := .next (s.queueDisable q.val)

/-- QUEUE_FLUSH (R289): empties a disabled general unit; an enabled one raises QUEUE_NOT_DISABLED. -/
def State.queueFlush (s : State) (q : Nat) : State :=
  if ¬ (32 ≤ q ∧ q < 40) then s
  else if s.get Fld.queueStatState q ≠ 0 then s.raise 0x2803
  else s.setQueue q {}

/-- A fixed unit at its owner's run (R289): empty and enabled. -/
def State.unitStart (s : State) (q : Nat) : State := (s.set Fld.queueStatState 1 q).setQueue q {}

/-- A fixed unit at its owner's stop: disabled and empty. -/
def State.unitStop (s : State) (q : Nat) : State := (s.set Fld.queueStatState 0 q).setQueue q {}

/-- A frame crosses a fixed unit whose other side takes it at once (R277); whether the unit took it. -/
def State.qCross (s : State) (q : Nat) (f : List Byte) : Bool × State :=
  match s.qPush q f with
  | (.written, s) =>
    let u := s.queue q
    (true, s.setQueue q { u with items := u.items.dropLast })
  | (_, s) => (false, s)

/-- QUEUE_FLUSH (R289). -/
def execQueueFlush (q : Fin 48) (s : State) : Result := .next (s.queueFlush q.val)

/-- Takes one Mill ring entry, if it is valid (R288): the body is pushed, VALID becomes 0 and GET advances; a bad entry is skipped as
a drop. -/
def State.ringTake (s : State) (q : Nat) : Option State :=
  let ring := s.get Fld.queueRingAddr q * 256
  let get := s.readLE (ring + 4) 4
  let e := ring + 64 + 16 * (get % 256)
  let len := s.readLE e 2
  let addr := s.readLE (e + 8) 8
  if s.readLE (e + 2) 1 = 1 then
    let s := (s.touch (ring + 4) 4).touch e 16
    let s := if 1 ≤ len ∧ len ≤ 4096 ∧ s.inRam addr len then
        let s := s.touch addr len
        (s.qPush q (s.rd addr len)).2
      else (s.raise 0x2884).qDrop q
    some ((s.store (e + 2) [0]).store (ring + 4) (leBytes ((get + 1) % 2 ^ 32) 4))
  else none

/-- Takes up to `n` valid ring entries, in ring order. -/
def State.ringPoll : Nat → Nat → State → State
  | 0, _, s => s
  | n + 1, q, s =>
    match s.ringTake q with
    | some t => State.ringPoll n q t
    | none => s

/-- MILL_RING_POLL (R288): an enabled general unit with bit 11 of WRITERS takes the valid entries of its ring. -/
def execMillRingPoll (q : Fin 48) (s : State) : Result :=
  if 32 ≤ q.val ∧ q.val < 40 ∧ s.get Fld.queueStatState q.val ≠ 0 ∧ bitOf (s.get Fld.queueCfgWriters q.val) 11 then
    .next (State.ringPoll 256 q.val s)
  else .next s

/-- Whether a hub core may push on a unit, and whether it may pop from it (Table 11.1, R60): general units by WRITERS and READER, unit
40 by the kernel while KWR is 1, and unit 47 read by the kernel. -/
def State.qHubWriter (s : State) (c : Core) (q : Nat) : Bool :=
  if 32 ≤ q ∧ q < 40 then bitOf (s.get Fld.queueCfgWriters q) (coreAttach c)
  else q = 40 && c = .kernel && s.getB Fld.queueCfgKwr 40

/-- Whether a hub core reads a unit. -/
def State.qHubReader (s : State) (c : Core) (q : Nat) : Bool :=
  if 32 ≤ q ∧ q < 40 then s.get Fld.queueCfgReader q = coreAttach c + 1 else q = 47 && c = .kernel

/-- Whether a unit's interrupt line is pending on its account (R282). -/
def State.qLinePending (s : State) (q : Nat) : Bool :=
  s.getB Fld.queueStatWm q || (s.getB Fld.queueCfgNeirq q && (s.queue q).ready)

/-- The hub core a unit's line is raised on (R282). -/
def State.qLineCore (s : State) (q : Nat) : Core :=
  if 32 ≤ q ∧ q < 40 then
    (match s.get Fld.queueCfgReader q with
      | 2 => .core2
      | 3 => .core3
      | _ => .kernel)
  else .kernel

/-- The queue sources 40 to 47 pending at a core, as bits of IPEND. -/
def State.qLines (s : State) (c : Core) : Nat :=
  (List.range 48).foldl (fun v q =>
    if s.qLinePending q && s.qLineCore q = c then setBit v (40 + s.get Fld.queueCfgLine q) true else v) 0

end Sys2Proof.Machine
end

