-- ==== Sys2Proof/Machine/Tally.lean ====
section
/-! DEFINITION. The Tally (spec/18_tally.md): the pairs of its channels,
interval results and energy, saves and the flush row in the Chest, run, stop, clear
and snapshot, and the consistency checks of its apply. -/

namespace Sys2Proof.Machine

open Float64

/-- The total of accumulator `k` of channel `m`. -/
def State.total (s : State) (m k : Nat) : Word := Map.getD s.tally.totals (8 * m + k) 0

/-- The energy unit: one joule is 1 / 0.0036 µWh (R431). -/
abbrev jouleDiv : Word := 0x3F6D7DBF487FCB92

/-- Adds an energy in joules to an accumulator: the remainder first, the whole part to the total, the new fraction kept
(R431). -/
def State.accumulate (s : State) (m k : Nat) (e : Word) : State :=
  let x := addN (Map.getD s.tally.rems (8 * m + k) 0) (divN e jouleDiv)
  let w := floorN x
  { s with tally := { s.tally with
      totals := Map.put s.tally.totals (8 * m + k) (s.total m k + BitVec.ofInt 64 w)
      rems := Map.put s.tally.rems (8 * m + k) (subN x (ofIntN w)) } }

/-! ### Pairs (R425, R426) -/

/-- What a channel has gathered. -/
def State.tchan (s : State) (m : Nat) : TallyChan := Map.getD s.tally.chans m {}

/-- The DC-blocking filter where HPF is set: its output and what it keeps (R426). -/
def dcStep (on : Bool) (x : Word) (kept : Word × Word) : Word × (Word × Word) :=
  let y := if on then Config.dcBlock x kept.1 kept.2 else x
  (y, (x, y))

/-- A pair of words through the steps 1 to 4 of R426: the channel with the newest voltage and current in its filters. -/
def State.pairIn (s : State) (m : Nat) (wv wi : Word32) (c : TallyChan) : TallyChan :=
  let ok := decide (wv.toNat < 2 ^ 31 ∧ wi.toNat < 2 ^ 31)
  let raw := fun (w : Word32) => ofIntN (signed 24 w.toNat)
  let v := if ok then mulN (s.f64 Fld.tallyVgain m) (raw wv) else 0
  let i := if ok then mulN (s.f64 Fld.tallyIgain m) (raw wi) else 0
  let i := if s.getB Fld.tallyCfgIinv m then Float64.neg i else i
  let hpf := s.getB Fld.tallyCfgHpf m
  let (v, dcV) := dcStep hpf v c.dcV
  let (i, dcI) := dcStep hpf i c.dcI
  { c with dcV := dcV, dcI := dcI, volts := ((v, ok) :: c.volts).take 127, amps := (i :: c.amps).take 127 }

/-- The pair 63 samples behind the newest one, with its Hilbert transform (R426): v, i and h, and whether the pair was valid. -/
def State.pairOut (s : State) (m : Nat) (c : TallyChan) : Option (Word × Word × Word × Bool) :=
  match c.volts[63]?, c.amps[63]? with
  | some (v, ok), some a =>
    let ph := signed 13 (s.get Fld.tallyPhcalPhcal m)
    some (v, if ph = 0 then a else Config.fracDelay ph c.amps, Config.hilbert (c.volts.map (·.1)), ok)
  | _, _ => none

/-- A positive-going zero crossing between two voltages, the later of them the sample `at'` of the interval, by linear interpolation
(R429). -/
def crossing (was v : Word) (at' : Nat) : Option Word :=
  if ltN was 0 ∧ leN 0 v then some (subN (ofIntN at') (divN v (subN v was))) else none

/-- Counts a crossing of the interval. -/
def ChanSums.cross (c : ChanSums) (x : Option Word) : ChanSums :=
  match x with
  | some p => { c with crossings := c.crossings + 1, first := if c.crossings = 0 then p else c.first, last := p }
  | none => c

/-- Adds a delayed pair to the sums of the interval (R428): a received pair counts, a valid one is summed. -/
def ChanSums.pair (c : ChanSums) (out : Option (Word × Word × Word × Bool)) (was : Word) : ChanSums :=
  match out with
  | none => { c with r := c.r + 1 }
  | some (v, i, h, ok) =>
    let c := { c.cross (crossing was v c.r) with r := c.r + 1 }
    if ok then
      { c with n := c.n + 1, sumVV := addN c.sumVV (mulN v v), sumII := addN c.sumII (mulN i i), sumVI := addN c.sumVI (mulN v i)
               sumHI := addN c.sumHI (mulN h i), sumS := addN c.sumS (Config.pairApparent v i) }
    else c

/-- A frame's pair of a channel (R425-R428): its filters run while the Tally does, and its sums while an interval is measured (log 241). -/
def State.tallyPair (s : State) (m : Nat) (ws : List Word32) : State :=
  let c := s.pairIn m (ws.getD (s.get Fld.tallyCfgVchan m) 0) (ws.getD (s.get Fld.tallyCfgIchan m) 0) (s.tchan m)
  let was := (c.volts.getD 64 (0, false)).1
  let c := if s.tally.measuring then { c with sums := c.sums.pair (s.pairOut m c) was } else c
  { s with tally := { s.tally with chans := Map.put s.tally.chans m c } }

/-! ### Intervals (R427-R431) -/

/-- The quadrant number less 1 (Table 18.1). -/
def quadOf (p q : Word) : Nat :=
  if leN 0 p then (if leN 0 q then 0 else 3) else (if leN 0 q then 1 else 2)

/-- The energy of one quantity over an interval (Table 18.2): nothing valid, all pairs, or the valid pairs only. -/
def intervalEnergy (n nexp : Nat) (result sum t : Word) : Word :=
  if n = 0 then 0
  else if nexp ≤ n + 8 then mulN result t
  else mulN sum (divN (ofIntN 1) (ofIntN 8000))

/-- Adds an interval's energies of a channel to its accumulators (R431), and answers with the CREEP flag. -/
def State.accumulateAll (s : State) (m : Nat) (p q sv ep eq es : Word) : State :=
  let creep := s.f64 Fld.tallyCreep m
  let cp := ltN (Float64.abs p) creep
  let cq := ltN (Float64.abs q) creep
  let cs := ltN sv creep
  let absMode := s.getB Fld.tallyCfgAccmode m
  let s := if cp then s
    else s.accumulate m (if absMode || leN 0 ep then 0 else 1) (Float64.abs ep)
  let s := if cq then s
    else s.accumulate m (if absMode then (if leN 0 q then 2 else 5) else 2 + quadOf p q) (Float64.abs eq)
  let s := if cs then s else s.accumulate m 6 es
  s.setB Fld.tallyStatCreep (cp || cq || cs) m

/-- One channel at the end of an interval of `clks` CTRL clocks of 10 ns: the results of Table 18.1, FREQ (R429), the flags and
warnings of R430, and the energy. -/
def State.intervalChan (s : State) (m clks : Nat) : State :=
  let c := (s.tchan m).sums
  let t := divN (ofIntN clks) (ofIntN 100000000)
  let nexp := (clks + 6250) / 12500
  let mean := fun (x : Word) => if c.n = 0 then 0 else divN x (ofIntN c.n)
  let vrms := sqrtN (mean c.sumVV)
  let irms := sqrtN (mean c.sumII)
  let p := mean c.sumVI
  let q := mean c.sumHI
  let sv := mulN vrms irms
  let pf := if sv = 0 then 0 else divN p sv
  let k := c.crossings - 1
  let f := divN (ofIntN k) (divN (mulN (subN c.last c.first) t) (ofIntN c.r))
  let fvalid := decide (c.n ≠ 0) && leN (s.f64 Fld.tallyVmin) vrms && decide (2 ≤ k) && leN (ofIntN 40) f && leN f (ofIntN 70)
  let rate := decide (nexp < 100 * (c.r - nexp) ∨ nexp < 100 * (nexp - c.r))
  let fill := decide (c.n = 0) || !decide (nexp ≤ c.n + 8)
  let s := (((s.setF Fld.tallyVrms vrms m).setF Fld.tallyIrms irms m).setF Fld.tallyP p m).setF Fld.tallyQ q m
  let s := ((s.setF Fld.tallyS sv m).setF Fld.tallyPf pf m).setF Fld.tallyFreq (if fvalid then f else 0) m
  let s := (s.set Fld.tallyStatQuad (if c.n = 0 then 0 else quadOf p q) m).setB Fld.tallyStatFvalid fvalid m
  let s := ((s.setB Fld.tallyStatRate rate m).setB Fld.tallyStatFill fill m).set Fld.tallyStatN c.n m
  let s := if rate then s.warnOnce 0x3A81 m m else s
  let s := if fill then s.warnOnce 0x3A82 m m else s
  s.accumulateAll m p q sv (intervalEnergy c.n nexp p c.sumVI t) (intervalEnergy c.n nexp q c.sumHI t)
    (intervalEnergy c.n nexp sv c.sumS t)

/-- A new interval begins at a root clock: every channel's sums begin anew. -/
def State.beginInterval (s : State) (at' : Nat) : State :=
  { s with tally := { s.tally with
      measuring := true, began := at', endTotals := s.tally.totals, endCycle := s.cycle
      chans := s.tally.chans.map fun p => (p.1, { p.2 with sums := {} }) } }

/-- Closes the present metering interval at a root clock (R427-R431): every enabled channel in channel order, T being the CTRL clocks since
the interval began; the next one begins. -/
def State.closeInterval (s : State) (at' : Nat) : State :=
  if s.tally.measuring then
    let clks := (at' - s.tally.began) / 60
    ((List.range 16).foldl (fun s m => if s.getB Fld.tallyCfgEn m then s.intervalChan m clks else s) s).beginInterval at'
  else s

/-- Starts a save: the totals of every enabled channel, in channel order and then accumulator order (R433). -/
def State.startSave (s : State) : State :=
  let locs := ((List.range 16).filter fun m => s.getB Fld.tallyCfgEn m).flatMap fun m =>
    (List.range 7).map fun k => (0x1000 + 8 * m + k, s.total m k)
  { s.setB Fld.tallyStateSaving true with tally := { s.tally with save := locs } }

/-- The end of a metering interval, once at each boundary of a fleet cycle whose number is a multiple of 10 (R427, R433): the running Tally
closes its interval and starts a save; a save still running raises SAVE_LATE. The first one after RUN only begins the first interval. No save
starts while PFW is asserted (R434). -/
def State.intervalEnd (s : State) : State :=
  if !s.getB Fld.tallyStateRunning ∨ s.tally.stopping ∨ s.cycle % 10 ≠ 0 ∨ s.tally.ended = some s.cycleRoots then s
  else
    let s : State := { s with tally := { s.tally with ended := some s.cycleRoots } }
    if !s.tally.measuring then s.beginInterval s.cycleRoots
    else
      let s := s.closeInterval s.cycleRoots
      let s := if s.getB Fld.tallyStateSaving then s.raise 0x3A84 else s
      if s.getB Fld.kettleStatePfw then s else s.startSave

/-- INTERVAL_END (R427). -/
def execIntervalEnd (s : State) : Result := .next s.intervalEnd

/-- A frame that a sample port took (R425): the interval that the boundary ended is closed first, and every enabled channel of the port takes
its pair. -/
def State.tallyFrame (s : State) (port : Nat) (ws : List Word32) : State :=
  if s.getB Fld.tallyStateRunning then
    (List.range 16).foldl (fun s m =>
      if s.getB Fld.tallyCfgEn m ∧ s.get Fld.tallyCfgPort m = port then s.tallyPair m ws else s) s.intervalEnd
  else s

/-- The end of a save: SAVES advances; a save made for STOP stops the Tally (R433, R435). -/
def State.saveDone (s : State) : State :=
  let s := (s.setB Fld.tallyStateSaving false).bump Fld.tallyStateSaves
  if s.tally.stopping then
    { s.setB Fld.tallyStateRunning false with tally := { s.tally with save := [], stopping := false, measuring := false } }
  else { s with tally := { s.tally with save := [] } }

/-- TALLY_SAVE_DONE (R433): the save's remaining locations are durable and the save completes. The Keywell's writes go first
(01 Table 1.8): while it has any to make, the save waits. -/
def execTallySaveDone (s : State) : Result :=
  if s.getB Fld.tallyStateSaving ∧ (s.keywell.steps = [] ∨ s.keywell.stopped) then
    .next (s.tally.save.foldl (fun s p => s.chestSet p.1 p.2) s).saveDone
  else .next s

/-- The flush row (R432): the totals of all 16 channels and the header. -/
def State.flushRow (s : State) (magic : Nat) : List (Nat × Word) :=
  (List.range 16).flatMap (fun m => (List.range 7).map fun k => (0x1080 + 8 * m + k, s.total m k)) ++
    [(0x10FF, BitVec.ofNat 64 (s.cycle % 2 ^ 32 + magic * 2 ^ 32))]

/-- The flush that an assertion of PFW makes (R434): the interval is closed, a save in progress stops after the location it is
writing, and the flush row is being written. A flush in progress, or a stopped Tally, is left alone. -/
def State.tallyFlush (s : State) : State :=
  if !s.getB Fld.tallyStateRunning ∨ s.tally.flush ≠ [] then s
  else
    let s := s.intervalEnd
    let s := s.closeInterval s.roots
    let s := match s.tally.save with
      | p :: _ => s.chestSet p.1 p.2
      | [] => s
    { s.setB Fld.tallyStateSaving false with tally := { s.tally with save := [], flush := s.flushRow 0x464C } }

/-- FLUSH_DONE (R434): the flush row is durable, FLUSHED is set and PFW_FLUSH is raised. -/
def execFlushDone (s : State) : Result :=
  if s.tally.flush = [] then .next s
  else
    let s := s.tally.flush.foldl (fun s p => s.chestSet p.1 p.2) s
    let s := { s with tally := { s.tally with flush := [] } }
    .next ((s.setB Fld.tallyStateFlushed true).raise 0x3A85)

/-- After PFW released without a reset, saves resume: a save that STOP asked for is made again (R434, R435). -/
def State.tallyResume (s : State) : State := if s.tally.stopping then s.startSave else s

/-- Whether the flush row's MAGIC is 0x464C. -/
def State.rowValid (s : State) : Bool := (s.chestAt 0x10FF).toNat / 2 ^ 32 % 65536 = 0x464C

/-- The total that a start loads (R435): the larger of the saved location and the row copy when the row is valid. -/
def State.loadTotal (s : State) (m k : Nat) : Word :=
  let a := s.chestAt (0x1000 + 8 * m + k)
  let b := s.chestAt (0x1080 + 8 * m + k)
  if s.rowValid ∧ a.toNat < b.toNat then b else a

/-- TALLY_RUN (R435, R436): a stopped Tally loads its totals and starts. -/
def State.tallyRun (s : State) : State :=
  if s.getB Fld.tallyStateRunning then s.raise 0x3A02
  else
    let ks := (List.range 16).flatMap fun m => (List.range 7).map fun k => (m, k)
    let taken := s.rowValid && ks.any fun p =>
      decide ((s.chestAt (0x1000 + 8 * p.1 + p.2)).toNat < (s.chestAt (0x1080 + 8 * p.1 + p.2)).toNat)
    let totals := ks.foldl (fun t p => Map.put t (8 * p.1 + p.2) (s.loadTotal p.1 p.2)) []
    let s1 := if s.rowValid then s.setB Fld.tallyStateRowused true else s
    let s2 := if taken then s1.raise 0x3A86 else s1
    { s2.setB Fld.tallyStateRunning true with
      tally := { s.tally with
        totals := totals, endTotals := totals, rems := [], measuring := false, stopping := false, chans := []
        ended := some s.cycleRoots } }

/-- TALLY_RUN (R435). -/
def execTallyRun (s : State) : Result := .next s.tallyRun

/-- TALLY_STOP (R435): closes the interval, makes a save, and stops when it completes. -/
def State.tallyStop (s : State) : State :=
  if s.getB Fld.tallyStateRunning ∧ ¬ s.tally.stopping then
    let s := s.intervalEnd
    let s := s.closeInterval s.roots
    let s := { s with tally := { s.tally with stopping := true, measuring := false } }
    if s.getB Fld.kettleStatePfw then s else s.startSave
  else s

/-- TALLY_STOP (R435). -/
def execTallyStop (s : State) : Result := .next s.tallyStop

/-- TALLY_CLEAR (R436): the three steps, on a stopped Tally, with the live CLEARMASK. -/
def State.tallyClear (s : State) : State :=
  if s.getB Fld.tallyStateRunning then s.raise 0x3A02
  else
    let mask := s.get Fld.tallyClearmaskMask
    let row := fun (sel : Nat → Bool) (v : Nat → Nat → Word) (t : State) =>
      ((List.range 16).filter sel).foldl (fun t m =>
        (List.range 7).foldl (fun t k => t.chestSet (0x1000 + 8 * m + k) (v m k)) t) t
    let s1 := row (fun m => !bitOf mask m) s.loadTotal s
    let s2 := s.flushRow 0 |>.foldl (fun t p => t.chestSet p.1 p.2) s1
    row (fun m => bitOf mask m) (fun _ _ => 0) s2

/-- TALLY_CLEAR (R436). -/
def execTallyClear (s : State) : Result := .next s.tallyClear

/-- TALLY_SNAP (R437): latches every snapshot counter from the totals as of the last interval end. -/
def State.tallySnap (s : State) : State :=
  let sh := s.get Fld.tallySnapcfgShift
  let s1 := (List.range 16).foldl (fun t m => (List.range 7).foldl (fun t k =>
    t.set Fld.tallySnapCount ((Map.getD s.tally.endTotals (8 * m + k) 0).toNat / 2 ^ sh) m k) t) s
  s1.set Fld.tallySnapcycCycle s.tally.endCycle

/-- TALLY_SNAP (R437). -/
def execTallySnap (s : State) : Result := .next s.tallySnap

/-- The CHAN checks of R440 for a channel, on the staged set. -/
def tallyChanOk (s : State) (m : Nat) : Bool :=
  let g := fun f => s.getStaged f m
  let words := s.get Fld.loopSpWords (g Fld.tallyCfgPort)
  let ph := signed 13 (g Fld.tallyPhcalPhcal)
  decide (g Fld.tallyCfgVchan ≠ g Fld.tallyCfgIchan ∧ g Fld.tallyCfgVchan < words ∧ g Fld.tallyCfgIchan < words) &&
  f32Finite (g Fld.tallyVgain) && f32Finite (g Fld.tallyIgain) && f32Finite (g Fld.tallyCreep) &&
  s.sf64 Fld.tallyVgain m &&& 0x7FFFFFFFFFFFFFFF#64 != 0 && s.sf64 Fld.tallyIgain m &&& 0x7FFFFFFFFFFFFFFF#64 != 0 &&
  leN 0 (s.sf64 Fld.tallyCreep m) && decide (-2048 ≤ ph ∧ ph ≤ 2047)

/-- Whether TALLY's staged set passes the groups R487 has checked. -/
def tallyApplyOk (s : State) : Bool :=
  (List.range 16).all (fun m => !s.changed Blk.tally .gChan (some m) || tallyChanOk s m) &&
  (!s.changed Blk.tally .gSnap none ||
    (decide (s.getStaged Fld.tallySnapcfgShift ≤ 24) && f32Finite (s.getStaged Fld.tallyVmin) &&
      leN 0 (s.sf64 Fld.tallyVmin)))

end Sys2Proof.Machine
end

