-- ==== Sys2Proof/Machine/Loop.lean ====
section
/-! DEFINITION. The control loop engine (spec/16_control_loops.md): sampling, the control law, closing, lost and frozen
feedback, the cut, run and stop, and the consistency checks of its apply. -/

namespace Sys2Proof.Machine

open Float64

/-- The internal terms of a slot. -/
def State.lslot (s : State) (n : Nat) : LoopSlot := Map.getD s.loop.slots n {}

/-- Replaces the internal terms of a slot. -/
def State.setLslot (s : State) (n : Nat) (x : LoopSlot) : State :=
  { s with loop := { s.loop with slots := Map.put s.loop.slots n x } }

/-- Slot states of Table 16.2. -/
abbrev slotOpen : Nat := 0
/-- CLOSED. -/
abbrev slotClosed : Nat := 1
/-- HELD. -/
abbrev slotHeld : Nat := 2
/-- FAILSAFE. -/
abbrev slotFailsafe : Nat := 3

/-- The start of the present period of a general PWM output, in root clocks; periods are counted from kernel entry (log 218). -/
def State.pwmStart (s : State) (n : Nat) : Nat := s.roots - s.roots % max 1 (60 * s.get Fld.loopPwmPeriodClk n)

/-- The duty of a general PWM output in its present period, in CTRL clocks (R387): the newest one written before the period. -/
def State.pwmDuty (s : State) (n : Nat) : Nat :=
  let d := Map.getD s.loop.duties n {}
  if d.wrote < s.pwmStart n then d.next else d.was

/-- Drives a slot's output: the OUT word, and its sink (Table 16.1, R387): the duty the PWM output takes at its next period; an inner slot
reads its outer slot's output as its SP. -/
def State.driveSlot (s : State) (n : Nat) (u : Word) : State :=
  let s := (s.setLslot n { s.lslot n with u := u }).setF Fld.loopOut u n
  let tgt := s.get Fld.loopCfgTarget n
  if s.get Fld.loopCfgSnk n = 1 then
    let clks := roundN (mulN u (ofIntN (s.get Fld.loopPwmPeriodClk tgt)))
    let d : PwmDuty := ⟨clks.toNat, s.roots, s.pwmDuty tgt⟩
    { s with loop := { s.loop with duties := Map.put s.loop.duties tgt d } }
  else s

/-- Sets the level of the slot's enable GPIO (R398): high in CLOSED, once a staggered start has its grant, and in HELD; a pin
that is a FEGAIN line takes none (05 R129). -/
def State.slotGpio (s : State) (n : Nat) : State :=
  if s.getB Fld.loopCfgEngEn n ∧ !s.gpioTaken (s.get Fld.loopCfgEngpio n) then
    let st := s.get Fld.loopStatState n
    let high := st = slotHeld || (st = slotClosed && !s.getB Fld.loopStatWaitstart n)
    { s with loop := { s.loop with engGpio := Map.put s.loop.engGpio (s.get Fld.loopCfgEngpio n) high } }
  else s

/-- Counts the slots in CLOSED into LOOP.STATE.CLOSED. -/
def State.countClosed (s : State) : State :=
  s.set Fld.loopStateClosed ((List.range 32).countP fun n => s.get Fld.loopStatState n = slotClosed)

/-- Writes a slot's STATE and REASON, takes back a start request it no longer needs, and follows with the enable GPIO. -/
def State.putSlotState (s : State) (n st reason : Nat) : State :=
  let s := (s.set Fld.loopStatState st n).set Fld.loopStatReason reason n
  let s := if st = slotClosed then s
    else (s.set Fld.loopStatWaitstart 0 n).dropStart (.slot (Fin.ofNat 32 n))
  (s.slotGpio n).countClosed

/-- The outer slot of a slot, if a cascade joins them (R392). -/
def State.outerOf (s : State) (n : Nat) : Option Nat :=
  let o := s.get Fld.loopCascOuter n
  if s.getB Fld.loopCascEn n ∧ s.get Fld.loopCfgSnk o = 2 ∧ s.get Fld.loopCfgTarget o = n then some o else none

/-- The set-point of a slot (R392): the output of its outer slot, which is MANUAL in OPEN and SAFE in FAILSAFE, or the live SP word. -/
def State.slotSp (s : State) (n : Nat) : Word :=
  match s.outerOf n with
  | some o =>
    let st := s.get Fld.loopStatState o
    if st = slotOpen then s.f64 Fld.loopManual o else if st = slotFailsafe then s.f64 Fld.loopSafe o else (s.lslot o).u
  | none => s.f64 Fld.loopSetp n

/-- A slot leaves CLOSED or stands outside it: the outer slot of its cascade, when CLOSED, is HELD with REASON 5 (R392). -/
def State.holdOuter (s : State) (n : Nat) : State :=
  match s.outerOf n with
  | some o => if s.get Fld.loopStatState o = slotClosed then s.putSlotState o slotHeld 5 else s
  | none => s

/-- Enters CLOSED (R393): both feedback counts restart, the cascade count restarts, and the first closed sample is due;
from OPEN, FAILSAFE or a restore with STAGGER set, the slot first waits for a start grant (R398). An outer slot whose inner
slot is not CLOSED is HELD with REASON 5 instead. -/
def State.enterClosed (s : State) (n : Nat) (stagger : Bool) : State :=
  let inner := s.get Fld.loopCfgTarget n
  if s.get Fld.loopCfgSnk n = 2 ∧ s.getB Fld.loopCascEn inner ∧ s.get Fld.loopStatState inner ≠ slotClosed then
    s.putSlotState n slotHeld 5
  else
    let wait := stagger && s.getB Fld.loopCfgStagger n
    let s := s.setLslot n { s.lslot n with lost := 0, frozen := 0, recov := 0, casc := 0, closing := true }
    let s := (s.setB Fld.loopStatWaitstart wait n).setB Fld.loopStatBump false n
    let s := s.putSlotState n slotClosed 0
    if wait then s.askStart (.slot (Fin.ofNat 32 n)) else s

/-- Moves a slot to OPEN, whose output is MANUAL (Table 16.2). -/
def State.enterOpen (s : State) (n : Nat) : State :=
  ((s.putSlotState n slotOpen 0).driveSlot n (s.f64 Fld.loopManual n)).holdOuter n

/-- Moves a slot to HELD with a reason; its output and integrator stand. -/
def State.enterHeld (s : State) (n reason : Nat) : State :=
  let s := s.setLslot n { s.lslot n with recov := 0 }
  (s.putSlotState n slotHeld reason).holdOuter n

/-- Moves a slot to FAILSAFE, whose output is SAFE at once (Table 16.2). -/
def State.enterFailsafe (s : State) (n reason : Nat) : State :=
  ((s.putSlotState n slotFailsafe reason).driveSlot n (s.f64 Fld.loopSafe n)).holdOuter n

/-- A written MODE acts at an apply (R391, Table 16.2): OPEN from any state, CLOSE from any other than CLOSED, HOLD from
CLOSED (log 30). -/
def State.slotMode (s : State) (n : Nat) : State :=
  let st := s.get Fld.loopStatState n
  match s.get Fld.loopModeMode n with
  | 0 => if st = slotOpen then s else s.enterOpen n
  | 1 => if st = slotClosed then s else s.enterClosed n (st = slotOpen || st = slotFailsafe)
  | 2 => if st = slotClosed then s.enterHeld n 1 else s
  | _ => s

/-- The frame of a sample port that a sample at the present clock takes (R386): the newest one that completed at least 3 CTRL clocks before; its
number and words. -/
def State.spFrame (s : State) (n : Nat) : Nat × List Word32 :=
  let fr := Map.getD s.loop.frames n {}
  if fr.done + 180 ≤ s.roots ∨ fr.num = 0 then (fr.num, fr.words) else (fr.num - 1, fr.before)

/-- What one sample reads (R386): whether the value is fresh, and y. -/
def State.feedback (s : State) (n : Nat) : Bool × Word :=
  let x := s.lslot n
  let (num, words) := s.spFrame (s.get Fld.loopCfgSport n)
  match words[s.get Fld.loopCfgChan n]? with
  | some w =>
    if x.seen < num ∧ w.toNat < 2 ^ 31 then
      (true, addN (mulN (s.f64 Fld.loopGain n) (ofIntN (signed 24 w.toNat))) (s.f64 Fld.loopOfs n))
    else (false, x.y)
  | none => (false, x.y)

/-- slew() of R389. -/
def slewTo (r sp slew t : Word) : Word :=
  let step := mulN slew t
  if slew = 0 then sp
  else if ltN r sp then (if leN (addN r step) sp then addN r step else sp)
  else if ltN sp r then (if leN sp (subN r step) then subN r step else sp)
  else sp

/-- The sample period of a slot in seconds: PERIOD_CLK clocks of 10 ns, times N for the outer slot of a cascade (R392). -/
def State.slotPeriod (s : State) (n : Nat) : Word :=
  let inner := s.get Fld.loopCfgTarget n
  let clks := if s.get Fld.loopCfgSnk n = 2 then s.get Fld.loopPeriodPeriodClk inner * s.get Fld.loopCascN inner
    else s.get Fld.loopPeriodPeriodClk n
  divN (ofIntN clks) (ofIntN 100000000)

/-- Writes the status words of a closed sample (R388, R389) and drives the output. -/
def State.closedOut (s : State) (n : Nat) (x : LoopSlot) (u : Word) : State :=
  let s := (s.setLslot n x).driveSlot n u
  let s := (s.setF Fld.loopRef x.r n).setF Fld.loopInt x.iAcc n
  let s := s.setB Fld.loopStatSlewing (x.r ≠ s.slotSp n) n
  s.setB Fld.loopStatSat (u = s.f64 Fld.loopOmin n || u = s.f64 Fld.loopOmax n) n

/-- The first sample after a slot enters CLOSED (R393): bumpless, with the integrator set from the output it drove last. -/
def State.closeSample (s : State) (n : Nat) (y : Word) : State :=
  let x := s.lslot n
  let r := if s.f64 Fld.loopSlew n = 0 then s.slotSp n else y
  let p := mulN (s.f64 Fld.loopKp n) (subN r y)
  let i0 := subN x.u p
  let lo := s.f64 Fld.loopOmin n
  let hi := s.f64 Fld.loopOmax n
  let i := clampN i0 lo hi
  let s := if ltN i0 lo || ltN hi i0 then (s.setB Fld.loopStatBump true n).raise 0x3883 n else s
  s.closedOut n { x with r := r, yPrev := y, d := 0, iAcc := i, closing := false } (clampN (addN p i) lo hi)

/-- A sample of a slot that is closed (R388): the lines in the order of the rule. -/
def State.lawSample (s : State) (n : Nat) (y : Word) : State :=
  let x := s.lslot n
  let t := s.slotPeriod n
  let lo := s.f64 Fld.loopOmin n
  let hi := s.f64 Fld.loopOmax n
  let r := slewTo x.r (s.slotSp n) (s.f64 Fld.loopSlew n) t
  let e := subN r y
  let p := mulN (s.f64 Fld.loopKp n) e
  let tf := s.f64 Fld.loopTf n
  let a := divN tf (addN tf t)
  let d := subN (mulN a x.d)
    (divN (mulN (mulN (subN (ofIntN 1) a) (s.f64 Fld.loopKd n)) (subN y x.yPrev)) t)
  let ic := clampN (addN x.iAcc (mulN (mulN (s.f64 Fld.loopKi n) t) e)) lo hi
  let uc := addN (addN p ic) d
  let i := if (ltN hi uc && ltN 0 e) || (ltN uc lo && ltN e 0) then x.iAcc else ic
  let u := clampN (addN (addN p i) d) lo hi
  s.closedOut n { x with r := r, d := d, iAcc := i, yPrev := y } u

/-- One sample of one slot: the feedback, the checks of R396, the automatic return of R397, and the output of the slot's
state. -/
def State.sampleSlot (s : State) (n : Nat) : State :=
  let fb := s.feedback n
  let x := s.lslot n
  let frz := fb.1 && s.get Fld.loopFbFrzK n ≠ 0 && ltN (Float64.abs (subN fb.2 x.y)) (s.f64 Fld.loopFrzthr n)
  let num := (s.spFrame (s.get Fld.loopCfgSport n)).1
  let s := (s.bump Fld.loopCntSamples n).setF Fld.loopPv fb.2 n
  let s := if fb.1 then s else s.bump Fld.loopCntStale n
  let x1 := { x with y := fb.2, seen := num }
  let st := s.get Fld.loopStatState n
  if st = slotOpen then (s.setLslot n x1).driveSlot n (s.f64 Fld.loopManual n)
  else if st = slotFailsafe then (s.setLslot n x1).driveSlot n (s.f64 Fld.loopSafe n)
  else if st = slotHeld then
    let recov := if fb.1 && !frz then x.recov + 1 else 0
    let s := s.setLslot n { x1 with recov := recov }
    let reason := s.get Fld.loopStatReason n
    if (reason = 2 ∨ reason = 3) ∧ s.getB Fld.loopCfgAutorec n ∧ s.get Fld.loopFbRecov n ≤ recov then
      let s := s.enterClosed n false
      if s.get Fld.loopStatState n = slotClosed then s.closeSample n fb.2 else s
    else s
  else if s.getB Fld.loopStatWaitstart n then s.setLslot n x1
  else
    let lost := if fb.1 then 0 else x.lost + 1
    let frozen := if fb.1 then (if frz && !x.closing then x.frozen + 1 else 0) else x.frozen
    let s := s.setLslot n { x1 with lost := lost, frozen := frozen }
    let act := fun (s : State) (reason : Nat) =>
      if s.getB Fld.loopCfgFbact n then s.enterFailsafe n reason else s.enterHeld n reason
    if s.get Fld.loopFbTmo n ≤ lost then act (s.raise 0x3881 n) 2
    else if s.get Fld.loopFbFrzK n ≠ 0 ∧ s.get Fld.loopFbFrzK n ≤ frozen then act (s.raise 0x3882 n) 3
    else if x.closing then s.closeSample n fb.2
    else s.lawSample n fb.2

/-- The next sample clock of a slot (R401), in root clocks: the first one of its grid that has not come yet, or the present one where the slot
has not sampled at it. -/
def State.sampleDue (s : State) (n : Nat) : Nat :=
  let per := max 1 (60 * s.get Fld.loopPeriodPeriodClk n)
  let t0 := s.loop.runAt + 6000 * s.get Fld.loopPeriodPhase n
  let t := t0 + (s.roots - t0 + per - 1) / per * per
  if (s.lslot n).sampled = some t then t + per else t

/-- LOOP_SAMPLE (R386-R398): the next sample clock of a slot, where that lies in the present cycle. A slot that an inner slot's samples run
has no clock of its own; an inner slot's every Nth sample, counted from its close, runs its outer slot first, and its first sample after
closing lets an outer slot held with REASON 5 return to CLOSED (R392). -/
def execLoopSample (slot : Fin 32) (s : State) : Result :=
  let n := slot.val
  if !s.getB Fld.loopStateRunning then .next s
  else if s.get Fld.loopCfgSnk n = 2 then .next s
  else match s.reach (s.sampleDue n) with
  | none => .next s
  | some t =>
    let s := t.setLslot n { t.lslot n with sampled := some (s.sampleDue n) }
    match s.outerOf n with
    | none => .next (s.sampleSlot n)
    | some o =>
      let run := s.get Fld.loopStatState n = slotClosed && !s.getB Fld.loopStatWaitstart n
      let s := if run && (s.lslot n).closing && s.get Fld.loopStatState o = slotHeld && s.get Fld.loopStatReason o = 5
        then s.enterClosed o false else s
      let c := (s.lslot n).casc + 1
      if run && s.get Fld.loopCascN n ≤ c then
        let s := s.setLslot n { s.lslot n with casc := 0 }
        .next ((s.sampleSlot o).sampleSlot n)
      else
        let s := if run then s.setLslot n { s.lslot n with casc := c } else s
        .next (s.sampleSlot n)

/-- The bytes of a frame of a sample port, its words in order. -/
def frameBytes (ws : List Word32) : List Byte := ws.flatMap fun w => leBytes w.toNat 4

/-- SAMPLE_FRAME (R385, R479): a frame crosses the port's unit; one of the port's length becomes its newest and is
metered (18 R425); a frame of any other length is
dropped whole with a warning; a gap marker is counted. A disabled port takes nothing (R289). -/
def execSampleFrame (port : Fin 8) (item : SampleItem) (s : State) : Result :=
  let n := port.val
  if !s.getB Fld.loopSpEn n then .next s
  else match item with
    | .gap => .next (s.bump Fld.loopSpstatGaps n)
    | .frame ws =>
      let (took, s) := s.qCross (20 + n) (frameBytes ws)
      if !took then .next s
      else if ws.length = s.get Fld.loopSpWords n then
        let fr := Map.getD s.loop.frames n {}
        let fr : PortFrame := { num := fr.num + 1, words := ws, done := s.roots, before := fr.words }
        .next (({ s with loop := { s.loop with frames := Map.put s.loop.frames n fr } } : State).tallyFrame n ws)
      else .next ((s.bump Fld.loopSpstatBadlen n).raise 0x3884 n)

/-- The claim stage leaves HOLDING: every CLOSED slot becomes HELD with REASON 4 in the same clock (R399). -/
def State.loopClaimLost (s : State) : State :=
  (List.range 32).foldl (fun s n => if s.get Fld.loopStatState n = slotClosed then s.enterHeld n 4 else s) s

/-- The claim stage becomes HOLDING at a boundary: slots held with REASON 4 return to CLOSED (R397). -/
def State.loopClaimHeld (s : State) : State :=
  (List.range 32).foldl (fun s n =>
    if s.get Fld.loopStatState n = slotHeld ∧ s.get Fld.loopStatReason n = 4 then s.enterClosed n false else s) s

/-! ### Consistency groups (R403, R404) -/

/-- The LAYOUT ranges of Table 16.6 and R403, on the copy `g` reads. -/
def loopLayoutOk (s : State) (g : Fld → Nat → Nat) : Bool :=
  let base := g Fld.loopCutbaseAddr 0
  (base = 0 || s.inShadow (base * 256) 8320) &&
  decide (10 ≤ g Fld.loopStaggerUs 0 ∧ g Fld.loopStaggerUs 0 ≤ 1000) &&
  (List.range 8).all (fun n => decide (1 ≤ g Fld.loopSpWords n ∧ g Fld.loopSpWords n ≤ 16)) &&
  (List.range 16).all (fun n => decide (1000 ≤ g Fld.loopPwmPeriodClk n))

/-- The COEF checks of R404 for a slot, on the staged set. -/
def loopCoefOk (s : State) (n : Nat) : Bool :=
  let g := fun f i => s.getStaged f i
  let fin := [Fld.loopGain, Fld.loopOfs, Fld.loopKp, Fld.loopKi, Fld.loopKd, Fld.loopTf, Fld.loopOmin, Fld.loopOmax].all
    fun f => f32Finite (g f n)
  let pos := [Fld.loopKp, Fld.loopKi, Fld.loopKd, Fld.loopTf].all fun f => leN 0 (s.sf64 f n)
  let snk := g Fld.loopCfgSnk n
  let tgt := g Fld.loopCfgTarget n
  let lo := s.sf64 Fld.loopOmin n
  let hi := s.sf64 Fld.loopOmax n
  let inner := fun k => g Fld.loopCascEn k != 0
  s.get Fld.loopStatState n = slotOpen && fin && pos && ltN lo hi && decide (snk ≤ 2) &&
  decide (2000 ≤ g Fld.loopPeriodPeriodClk n ∧ g Fld.loopPeriodPeriodClk n ≤ 10000000) &&
  decide (1 ≤ g Fld.loopCascN n) &&
  (snk != 1 || (decide (tgt ≤ 15) && leN 0 lo && leN hi (ofIntN 1) &&
    (List.range 32).all (fun k => k = n || g Fld.loopCfgSnk k ≠ 1 || g Fld.loopCfgTarget k ≠ tgt))) &&
  (snk != 2 || (tgt != n && inner tgt && g Fld.loopCascOuter tgt = n)) &&
  (!inner n || (g Fld.loopCascOuter n != n && g Fld.loopCfgSnk (g Fld.loopCascOuter n) = 2 &&
    g Fld.loopCfgTarget (g Fld.loopCascOuter n) = n)) &&
  !(inner n && snk = 2)

/-- The RUN checks of R404 for a slot, on the staged set. -/
def loopRunOk (s : State) (n : Nat) : Bool :=
  let g := fun f i => s.getStaged f i
  let fin := [Fld.loopSetp, Fld.loopSlew, Fld.loopManual, Fld.loopSafe, Fld.loopFrzthr].all fun f => f32Finite (g f n)
  let lo := s.sf64 Fld.loopOmin n
  let hi := s.sf64 Fld.loopOmax n
  fin && decide (1 ≤ g Fld.loopFbTmo n ∧ 1 ≤ g Fld.loopFbRecov n ∧ g Fld.loopModeMode n ≤ 2) &&
  leN 0 (s.sf64 Fld.loopSlew n) && leN 0 (s.sf64 Fld.loopFrzthr n) &&
  leN lo (s.sf64 Fld.loopManual n) && leN (s.sf64 Fld.loopManual n) hi &&
  leN lo (s.sf64 Fld.loopSafe n) && leN (s.sf64 Fld.loopSafe n) hi

/-- Whether LOOP's staged set passes the groups R487 has checked. -/
def loopApplyOk (s : State) : Bool :=
  (!s.changed Blk.loop .gLayout none ||
    (!s.getB Fld.loopStateRunning && loopLayoutOk s fun f i => s.getStaged f i)) &&
  (List.range 32).all fun n =>
    (!s.changed Blk.loop .gCoef (some n) || loopCoefOk s n) &&
    (!s.changed Blk.loop .gRun (some n) || loopRunOk s n)

/-- What follows an apply made on LOOP: a sample port whose EN has changed has its unit enabled, or disabled, and flushed (R385); the written
modes act in slot order, and MODEW clears (R391, R395). `old` is the state before it. -/
def State.loopApplied (s old : State) : State :=
  let s := (List.range 8).foldl (fun s n =>
    if s.getB Fld.loopSpEn n = old.getB Fld.loopSpEn n then s
    else if s.getB Fld.loopSpEn n then s.unitStart (20 + n) else s.unitStop (20 + n)) s
  let w := s.loop.modew
  let s := { s with loop := { s.loop with modew := [] } }
  (List.range 32).foldl (fun s n => if w.contains n then s.slotMode n else s) s

/-! ### Run, stop, cut and restore -/

/-- Whether this unit is the standby of a pair: pair state SYNCING or INSYNC (13 Table 13.3). -/
def State.standby (s : State) : Bool := s.get Fld.plinkStatePair = 4 || s.get Fld.plinkStatePair = 5

/-- LOOP_RUN (R401, R487): starts the engine on its live set; a failing LAYOUT group refuses it with 0x3801; on a standby the
engine stays STOPPED. -/
def State.loopRun (s : State) : State :=
  if s.getB Fld.loopStateRunning ∨ s.standby then s
  else if loopLayoutOk s (fun f i => s.get f i) then
    let ss := s.loop.slots.map fun p => (p.1, { p.2 with sampled := none })
    ({ s with loop := { s.loop with runAt := (s.roots + 59) / 60 * 60, slots := ss } } : State).setB Fld.loopStateRunning true
  else s.raise 0x3801

/-- LOOP_RUN (R401). -/
def execLoopRun (s : State) : Result := .next s.loopRun

/-- LOOP_STOP (R401): every slot stops at once, in OPEN, and drives MANUAL on its sink. -/
def State.loopStop (s : State) : State :=
  if s.getB Fld.loopStateRunning then
    (List.range 32).foldl (fun s n => s.enterOpen n) (s.setB Fld.loopStateRunning false)
  else s

/-- LOOP_STOP (R401). -/
def execLoopStop (s : State) : Result := .next s.loopStop

/-- Words `lo` to `hi - 1` of a block as little-endian bytes, live or staged. -/
def State.wordBytes (s : State) (b lo hi : Nat) (live : Bool) : List Byte :=
  (List.range (hi - lo)).flatMap fun k => leBytes (s.readWord b (lo + k) live) 4

/-- The loop cut of Table 16.3. -/
def State.loopCut (s : State) : List Byte :=
  let pend := match (s.appliesOf Blk.loop).pending with
    | some c => if c = s.cycle then 1 else 0
    | none => 0
  let modew := (s.loop.modew.filter (· < 32)).foldl (fun v n => setBit v n true) 0
  let slot := fun n =>
    let x := s.lslot n
    s.wordBytes Blk.loop (0x100 + 0x20 * n) (0x118 + 0x20 * n) true ++
    leBytes (toF32 x.d) 4 ++ leBytes (toF32 x.yPrev) 4 ++ leBytes x.lost 2 ++ leBytes x.frozen 2 ++ leBytes x.casc 2 ++
    leBytes 0 2 ++ leBytes 0 16
  let staged := fun n =>
    s.wordBytes Blk.loop (0x100 + 0x20 * n) (0x112 + 0x20 * n) false ++ leBytes 0 56
  leBytes 0x5455434C 4 ++ leBytes s.cycle 4 ++ leBytes 1 1 ++ leBytes pend 1 ++ leBytes 0 2 ++
  s.wordBytes Blk.loop 0x003 0x004 true ++ s.wordBytes Blk.loop 0x010 0x018 true ++
  s.wordBytes Blk.loop 0x020 0x030 true ++ leBytes modew 4 ++ leBytes 0 12 ++
  (List.range 32).flatMap slot ++ (List.range 32).flatMap staged

/-- LOOP_CUT (R400): at 5.990 ms, with CUTBASE set, the running engine latches its cut and writes it at CUTBASE. -/
def execLoopCut (s : State) : Result :=
  let base := s.get Fld.loopCutbaseAddr
  if s.getB Fld.loopStateRunning ∧ base ≠ 0 then
    let s := s.moveTo 5990
    .next (s.store (base * 256) s.loopCut)
  else .next s

/-- Loads one slot from a valid cut at `a` (R400): its live and staged words, STATE, REASON, OUT and the internal terms; a
CLOSED slot re-closes from the cut's OUT. -/
def State.loadSlot (s : State) (a n : Nat) : State :=
  let w := fun k => s.readLE (a + 128 + 128 * n + 4 * k) 4
  let s1 := (List.range 18).foldl (fun s k => s.loadLive Blk.loop (0x100 + 0x20 * n + k) (w k)) s
  let s2 := (List.range 18).foldl (fun s k =>
    s.loadStaged Blk.loop (0x100 + 0x20 * n + k) (s.readLE (a + 4224 + 128 * n + 4 * k) 4)) s1
  let t := a + 224 + 128 * n
  let x : LoopSlot := { s.lslot n with
    u := ofF32 (w 0x15), r := ofF32 (w 0x14), iAcc := ofF32 (w 0x16), y := ofF32 (w 0x13),
    d := ofF32 (s.readLE t 4), yPrev := ofF32 (s.readLE (t + 4) 4),
    lost := s.readLE (t + 8) 2, frozen := s.readLE (t + 10) 2, casc := s.readLE (t + 12) 2 }
  let s3 := ((s2.setLslot n x).set Fld.loopOut (w 0x15) n)
  let st := bits (w 0x12) 0 2
  if st = slotClosed then (s3.set Fld.loopStatState slotOpen n).enterClosed n true
  else s3.putSlotState n st (bits (w 0x12) 2 3)

/-- LOOP_RESTORE (R400, R15): a running engine ignores it with 0x3802; a bad cut leaves every slot OPEN with its values after
start and raises 0x3804; otherwise the cut is loaded, outer slots after inner ones taking no apply on its account. -/
def State.loopRestore (s : State) : State :=
  if s.getB Fld.loopStateRunning then s.raise 0x3802
  else
    let a := s.get Fld.loopCutbaseAddr * 256
    let s := if a = 0 then s else s.touch a 8320
    if a = 0 ∨ s.readLE a 4 ≠ 0x5455434C ∨ s.readLE (a + 8) 1 = 0 then
      let s := { s.afterStart Blk.loop 0x100 0x500 with loop := { s.loop with slots := [] } }
      s.countClosed.raise 0x3804
    else
      let both := fun (s : State) (ix v : Nat) => (s.loadLive Blk.loop ix v).loadStaged Blk.loop ix v
      let s1 := both s 0x003 (s.readLE (a + 12) 4)
      let s2 := (List.range 8).foldl (fun t k => both t (0x010 + k) (s.readLE (a + 16 + 4 * k) 4)) s1
      let s3 := (List.range 16).foldl (fun t k => both t (0x020 + k) (s.readLE (a + 48 + 4 * k) 4)) s2
      let m := s.readLE (a + 112) 4
      let s4 := { s3 with loop := { s3.loop with modew := (List.range 32).filter (bitOf m) } }
      let inner := fun n => decide (bits (s.readLE (a + 128 + 128 * n) 4) 8 2 ≠ 2)
      let order := (List.range 32).filter inner ++ (List.range 32).filter (fun n => !inner n)
      order.foldl (fun t n => t.loadSlot a n) s4

/-- LOOP_RESTORE (R400). -/
def execLoopRestore (s : State) : Result := .next s.loopRestore

end Sys2Proof.Machine
end

