-- ==== Sys2Proof/Machine/Axis.lean ====
section
/-! DEFINITION. The stepper axes (spec/17_axes.md): positions and microsteps, the profile generator, commands, limits, homing, stops, the cut, run and
stop, and the consistency checks of the apply. -/

namespace Sys2Proof.Machine

open Float64

/-- The internal state of an axis. -/
def State.axis (s : State) (a : Nat) : Axis := Map.getD s.axes a {}

/-- Replaces the internal state of an axis. -/
def State.setAxis (s : State) (a : Nat) (x : Axis) : State := { s with axes := Map.put s.axes a x }

/-- Axis states of Table 17.2. -/
abbrev axOff : Nat := 0
/-- STARTING. -/
abbrev axStarting : Nat := 1
/-- READY. -/
abbrev axReady : Nat := 2
/-- MOVING. -/
abbrev axMoving : Nat := 3
/-- HOMING. -/
abbrev axHoming : Nat := 4
/-- HALTED. -/
abbrev axHalted : Nat := 5

/-- The state of an axis. -/
def State.axState (s : State) (a : Nat) : Nat := s.get Fld.axisStatState a

/-- POS as a signed count of 1/256 full steps (R406). -/
def State.pos (s : State) (a : Nat) : Int := signed 32 (s.get Fld.axisPosPos a)

/-- Writes POS. -/
def State.setPos (s : State) (a : Nat) (p : Int) : State := s.set Fld.axisPosPos (unsigned 32 p) a

/-- The duty codes of R412 at the present POS: zero in OFF, STARTING and, without current, HALTED for REASON 4. -/
def State.axDuties (s : State) (a : Nat) : List Int :=
  let st := s.axState a
  if st = axOff ∨ st = axStarting ∨ (st = axHalted ∧ s.get Fld.axisStatReason a = 4) then [0, 0, 0, 0]
  else
    let i := s.get Fld.axisCurIcur a
    let th := s.get Fld.axisPosPos a % 1024
    let c := Config.cosCode i th
    let n := Config.sinCode i th
    [max 0 c, max 0 (-c), max 0 n, max 0 (-n)]

/-- Follows a change of state or POS: the enable GPIO (high but in OFF, STARTING and HALTED for REASON 4, when ENG_EN is
set), the duty codes, and INTERP. -/
def State.axFollow (s : State) (a : Nat) : State :=
  let st := s.axState a
  let on := !(st = axOff || st = axStarting || (st = axHalted && s.get Fld.axisStatReason a = 4))
  let x := s.axis a
  let s := s.setAxis a { x with enHigh := on && s.getB Fld.axisCfgEngEn a && !s.gpioTaken (s.get Fld.axisCfgEngpio a), duties := s.axDuties a }
  s.setB Fld.axisStatInterp (s.pos a ≠ x.coarse) a

/-- Writes STATE and REASON of an axis, and follows. -/
def State.putAxState (s : State) (a st reason : Nat) : State :=
  let s := if st = axStarting then s else s.dropStart (.axis (Fin.ofNat 8 a))
  ((s.set Fld.axisStatState st a).set Fld.axisStatReason reason a).axFollow a

/-- Writes HOMED, in STATa and in AXIS.STATE. -/
def State.setHomed (s : State) (a : Nat) (b : Bool) : State :=
  (s.setB Fld.axisStatHomed b a).setMask Fld.axisStateHomed a b

/-- Loses HOMED with warning HOME_LOST (R420, R422). -/
def State.loseHome (s : State) (a : Nat) : State := (s.setHomed a false).raise 0x3984 a

/-! ### Units of the generator (R409)

A velocity is held in 2^-149 × 10^-10 steps/s, an acceleration in 2^-149 × 10^-5 steps/s² and a planned position in 2^-149 × 10^-15 of a
unit of POS, so that every F32 value of a profile and its product with a PWM period of 10 µs is whole. -/

/-- A unit of POS in units of the planned position. -/
abbrev planUnit : Int := 2 ^ 149 * 10 ^ 15

/-- A finite F32 value in units of 2^-149. -/
def f32Fixed (b : Nat) : Int :=
  let m := b % 2 ^ 23
  let e := b / 2 ^ 23 % 256
  let v : Nat := if e = 0 then m else (m + 2 ^ 23) * 2 ^ (e - 1)
  if 2 ^ 31 ≤ b then -v else v

/-- A clock rounded up to the start of a PWM period of 1,000 CTRL clocks (R412; log 218). -/
def pwmCeil (t : Nat) : Nat := (t + 59999) / 60000 * 60000

/-- POS is taken for the coarse and the planned position: nothing is owed and the axis stands. -/
def State.standAt (s : State) (a : Nat) (p : Int) : State :=
  let s := (s.setPos a p).setAxis a
    { s.axis a with motion := .rest, coarse := p, base := p, plan := p * planUnit, vel := 0, acc := 0, turning := false, fast := false }
  (s.set Fld.axisVel 0 a).axFollow a

/-- Begins a motion: from rest the generator starts from the coarse position at the next PWM period start. -/
def State.beginMotion (s : State) (a : Nat) (m : AxisMotion) (positive : Bool) : State :=
  let x := s.axis a
  let x := if x.motion = .rest then { x with plan := x.coarse * planUnit, vel := 0, acc := 0, genAt := pwmCeil s.roots } else x
  s.setAxis a { x with motion := m, positive := positive, turning := false, fast := false }

/-- A standstill at once: velocity 0, owed microsteps discarded, POS holds, the coarse position is POS (R413 hard). -/
def State.hardStop (s : State) (a : Nat) : State := s.standAt a (s.pos a)

/-- Ramps to standstill, at LDEC or at DMAX, and then enters a state with a reason. -/
def State.rampTo (s : State) (a st reason : Nat) (fast : Bool) : State :=
  s.setAxis a { s.axis a with motion := .stopTo st reason, turning := false, fast := fast }

/-- Stops as R413 says and ends in a state: at once with LIMACT 0, by a ramp at LDEC with LIMACT 1. -/
def State.limitEnd (s : State) (a st reason : Nat) : State :=
  if s.getB Fld.axisCfgLimact a then s.rampTo a st reason true else (s.hardStop a).putAxState a st reason

/-- Whether the limit in a direction is active. -/
def State.limitActive (s : State) (a : Nat) (positive : Bool) : Bool :=
  if positive then s.getB Fld.axisStatLp a else s.getB Fld.axisStatLn a

/-- HDIR as a direction. -/
def State.hdir (s : State) (a : Nat) : Bool := s.getB Fld.axisCfgHdir a

/-- Whether the homing source is active: the home input, or the limit that lies in HDIR (R414). -/
def State.homeSource (s : State) (a : Nat) : Bool :=
  if s.getB Fld.axisCfgHsrc a then s.limitActive a (s.hdir a) else s.getB Fld.axisStatHm a

/-- The end of a homing that found its edge (R414 step 3): POS is counted from HOMEPOS, HOMED is set, READY. -/
def State.homeDone (s : State) (a : Nat) : State :=
  let p := signed 32 (s.get Fld.axisHomeposHomepos a) + (s.pos a - signed 32 (s.get Fld.axisLatchLatch a))
  ((s.standAt a (signed 32 (unsigned 32 p))).setHomed a true).putAxState a axReady 0

/-- The valid home edge (R414 step 2): LATCH takes POS, the source is disarmed, and the axis ramps to standstill. -/
def State.homeEdge (s : State) (a : Nat) : State :=
  let x := s.axis a
  if s.axState a = axHoming ∧ x.motion = .search ∧ x.armed then
    (s.set Fld.axisLatchLatch (s.get Fld.axisPosPos a) a).setAxis a { x with motion := .latched, armed := false }
  else s

/-- A homing that fails (R415): the axis stops under R413, goes to HALTED with REASON 6, HOMED is clear, 0x3905 is raised. -/
def State.homeFail (s : State) (a : Nat) : State := ((s.setHomed a false).raise 0x3905 a).limitEnd a axHalted 6

/-- Starts motion opposite to HDIR, which arms the homing source again (R414). -/
def State.startAway (s : State) (a : Nat) (m : AxisMotion) : State :=
  let s := s.beginMotion a m (!s.hdir a)
  s.setAxis a { s.axis a with armed := true }

/-- A limit in the direction of motion is active (R413, R415). -/
def State.limitStop (s : State) (a : Nat) : State :=
  let x := s.axis a
  let inHdir := x.positive = s.hdir a
  if x.motion = .rest then s
  else if s.axState a = axHoming then
    match x.motion with
    | .search =>
      if s.getB Fld.axisCfgHsrc a then
        let s := s.homeEdge a
        if s.getB Fld.axisCfgLimact a then s.setAxis a { s.axis a with fast := true } else (s.hardStop a).homeDone a
      else if x.limitHits = 0 then
        let s := s.setAxis a { x with limitHits := 1 }
        if s.getB Fld.axisCfgLimact a then s.setAxis a { s.axis a with motion := .turn, fast := true }
        else (s.hardStop a).startAway a (.reverse false)
      else s.homeFail a
    | .away => if inHdir then s else s.homeFail a
    | .reverse _ => if inHdir then s else s.homeFail a
    | .latched =>
      if s.getB Fld.axisCfgLimact a then s.setAxis a { x with fast := true } else (s.hardStop a).homeDone a
    | _ => s
  else
    match x.motion with
    | .stopTo 5 1 => s
    | _ => (s.raise 0x3981 a).limitEnd a axHalted 1

/-- A motion that begins towards an active limit meets it as it starts (R413). -/
def State.startLimit (s : State) (a : Nat) : State := if s.limitActive a (s.axis a).positive then s.limitStop a else s

/-- A ramp or a move ends at standstill (R409, R414, R415, R419): POS stops at the coarse position and the state settles. -/
def State.standstill (s : State) (a : Nat) : State :=
  let x := s.axis a
  match x.motion with
  | .move => (s.standAt a x.coarse).putAxState a axReady 0
  | .stopTo st r => (s.standAt a x.coarse).putAxState a st r
  | .settle => ((s.standAt a x.coarse).beginMotion a .search (s.hdir a)).startLimit a
  | .latched => (s.standAt a x.coarse).homeDone a
  | .turn => ((s.standAt a x.coarse).startAway a (.reverse false)).startLimit a
  | .rest | .vel | .away | .search | .reverse _ => s

/-! ### Coarse steps and microsteps (R406, R407) -/

/-- One coarse step to a position, at a root clock and with a predicted period; a step in the opposite direction first completes the owed
microsteps at once. -/
def State.coarseStep (s : State) (a : Nat) (positive : Bool) (dst : Int) (at' period : Nat) : State :=
  let x := s.axis a
  let s := if x.stepPositive = positive then s else s.setPos a x.coarse
  let s := s.setAxis a { x with base := x.coarse, coarse := dst, stepPositive := positive, stepAt := at', stepPeriod := period }
  (s.bump Fld.axisCntSteps a).axFollow a

/-- The position that the microsteps due at a PWM period start have reached: M of them in the predicted period, none beyond the coarse
position. -/
def State.microAt (s : State) (a t : Nat) : Int :=
  let x := s.axis a
  let m := 2 ^ s.get Fld.axisCfgRes a
  let d : Int := ((min m ((t - x.stepAt) * m / max 1 x.stepPeriod) * (256 / m) : Nat) : Int)
  if x.stepPositive then min x.coarse (x.base + d) else max x.coarse (x.base - d)

/-- The microsteps due at the last PWM period start are issued, with those owed of steps before (R407, R412). -/
def State.microNow (s : State) (a : Nat) : State :=
  let t := s.roots / 60000 * 60000
  if (s.axis a).stepAt ≤ t then (s.setPos a (s.microAt a t)).axFollow a else s

/-- The PWM period start at which the next owed microstep falls due. -/
def State.microDue (s : State) (a : Nat) : Nat :=
  let x := s.axis a
  let m := 2 ^ s.get Fld.axisCfgRes a
  let done := if x.stepPositive then s.pos a - x.base else x.base - s.pos a
  let j := if done < 0 then 0 else done.toNat / (256 / m) + 1
  pwmCeil (x.stepAt + (j * x.stepPeriod + m - 1) / m)

/-! ### The profile generator (R409-R411) -/

/-- The velocity limit: VMAX, and never more than 25,000 full steps per second. -/
def State.axVmax (s : State) (a : Nat) : Int := min (f32Fixed (s.get Fld.axisVmax a)) (25000 * 2 ^ 149) * 10 ^ 10

/-- TGT in units of the planned position. -/
def State.axTarget (s : State) (a : Nat) : Int := signed 32 (s.get Fld.axisTgtTgt a) * planUnit

/-- The velocity that a motion aims at in a PWM period. -/
def State.genAim (s : State) (a : Nat) (x : Axis) : Int :=
  let lim := s.axVmax a
  let toward := fun (up : Bool) (f : Fld) => let v := f32Fixed (s.get f a) * 10 ^ 10; if up then v else -v
  let v := match x.motion with
    | .vel => f32Fixed (s.get Fld.axisVtgt a) * 10 ^ 10
    | .search => toward (s.hdir a) Fld.axisHvel
    | .away | .reverse _ => toward (!s.hdir a) Fld.axisHvel
    | .move => if x.turning then 0 else Config.moveAim x.plan x.vel x.acc (s.axTarget a) (s.get Fld.axisVmax a, x.amax, x.dmax, x.jmax)
    | .rest | .stopTo _ _ | .settle | .latched | .turn => 0
  max (-lim) (min lim v)

/-- A velocity that moves towards another one, by no more than a step away from 0 and a step towards it; 0 is not passed over. -/
def rampStep (v aim up down : Int) : Int :=
  if 0 ≤ v then
    if v ≤ aim then min aim (v + up) else if v = 0 then max aim (-up) else max (max aim 0) (v - down)
  else if aim ≤ v then max aim (v - up) else min (min aim 0) (v + down)

/-- The velocity and the acceleration of a PWM period: trapezoidal with JMAX 0 and on a ramp at LDEC, else of a jerk-limited profile, whose
acceleration changes by no more than JMAX and stays within AMAX and DMAX (R409). -/
def State.genVel (s : State) (a : Nat) (x : Axis) : Int × Int :=
  let aim := s.genAim a x
  let lim := s.axVmax a
  let up := f32Fixed x.amax * 10 ^ 5
  let down := (if x.fast then f32Fixed (s.get Fld.axisLdec a) else f32Fixed x.dmax) * 10 ^ 5
  if x.jmax = 0 ∨ x.fast then (max (-lim) (min lim (rampStep x.vel aim up down)), 0)
  else
    let j := f32Fixed x.jmax
    let most := max up down
    let c := Config.jerkAcc x.vel x.acc aim (x.amax, x.dmax, x.jmax)
    let acc := max (-most) (min most (max (x.acc - j) (min (x.acc + j) c)))
    let v := x.vel + acc
    let v := if (x.vel ≤ aim ∧ aim ≤ v) ∨ (v ≤ aim ∧ aim ≤ x.vel) then aim else v
    (max (-lim) (min lim v), acc)

/-- One PWM period of the generator, over which the velocity goes evenly from its value before to its value after (log 233): a move that reaches TGT stands there, never beyond it; an axis that had to turn has stopped once its
velocity is 0. -/
def State.genPeriod (s : State) (a : Nat) (x : Axis) : Axis :=
  let (v, acc) := s.genVel a x
  let p := x.plan + 128 * (x.vel + v)
  let tgt := s.axTarget a
  let y := { x with genAt := x.genAt + 60000, vel := v, acc := acc, plan := p, positive := if v = 0 then x.positive else decide (0 < v) }
  if x.motion = .move then
    if x.turning then { y with turning := decide (v ≠ 0) }
    else if min x.plan p ≤ tgt ∧ tgt ≤ max x.plan p then { y with plan := tgt, vel := 0, acc := 0 } else y
  else y

/-- Whether a motion ends with a PWM period: a move at its target, a ramp at velocity 0. -/
def State.genStands (s : State) (a : Nat) (y : Axis) : Bool :=
  match y.motion with
  | .move => !y.turning && y.vel = 0 && y.plan = s.axTarget a
  | .stopTo _ _ | .settle | .latched | .turn => y.vel = 0
  | .rest | .vel | .away | .search | .reverse _ => false

/-- The clock in a PWM period at which the planned position leaves the coarse position in the direction of motion, where it does: the next
coarse step starts (R409). -/
def Axis.crosses (x y : Axis) : Option Nat :=
  let edge := x.coarse * planUnit
  if x.plan < y.plan ∧ edge < y.plan then some (x.genAt + ((max 0 (edge - x.plan)) * 60000 / (y.plan - x.plan)).toNat)
  else if y.plan < x.plan ∧ y.plan < edge then some (x.genAt + ((max 0 (x.plan - edge)) * 60000 / (x.plan - y.plan)).toNat)
  else none

/-- The multiple of 256 that a coarse step from the coarse position goes to. -/
def Axis.nextCoarse (x : Axis) (up : Bool) : Int := if up then (x.coarse / 256 + 1) * 256 else -((-x.coarse) / 256 + 1) * 256

/-- The first PWM period, of the number given, on which a test answers with a clock. -/
def State.genFind (s : State) (a : Nat) (test : Axis → Axis → Option Nat) : Nat → Axis → Option Nat
  | 0, _ => none
  | n + 1, x =>
    let y := s.genPeriod a x
    match test x y with
    | some t => some t
    | none => s.genFind a test n y

/-- Where the motion ends. -/
def State.genEnd (s : State) (a : Nat) (x y : Axis) : Option Nat := if s.genStands a y then some x.genAt else none

/-- P_k of a step that starts at `t` (R407): the interval to the next coarse step or to the standstill, as planned, at least one PWM period;
one that is further away than 2^20 PWM periods counts as that (log 233). -/
def State.genPeriodOf (s : State) (a t : Nat) (x : Axis) : Nat :=
  let next := s.genFind a (fun x y => (x.crosses y).orElse fun _ => s.genEnd a x y) (2 ^ 20) x
  max 60000 (next.getD (t + 2 ^ 20 * 60000) - t)

/-- One PWM period of a moving axis: a coarse step, a reversal towards an active limit, a standstill. -/
def State.genTick (s : State) (a : Nat) : State :=
  let x := s.axis a
  if x.motion = .rest then s
  else
    let y := s.genPeriod a x
    let s := (s.setAxis a y).setF Fld.axisVel (divN (ofIntN y.vel) (ofIntN (2 ^ 149 * 10 ^ 10))) a
    let s := match x.crosses y with
      | some t =>
        let up := decide (x.plan < y.plan)
        let dst := x.nextCoarse up
        s.coarseStep a up dst t (s.genPeriodOf a t { y with coarse := dst })
      | none => s
    let s := if y.positive ≠ x.positive then s.startLimit a else s
    if s.genStands a y then s.standstill a else s

/-- The PWM periods of the generator that have begun by now, with or without one that begins in this clock, and the microsteps due. -/
def State.axRun (s : State) (a : Nat) (through : Bool) : State :=
  let x := s.axis a
  if x.motion = .rest ∨ s.getB Fld.axisCfgSrc a then s.microNow a
  else
    let n := if through then (s.roots + 60000 - x.genAt) / 60000 else (s.roots + 59999 - x.genAt) / 60000
    ((List.range n).foldl (fun s _ => s.genTick a) s).microNow a

/-- Those that began before this clock, in which the commands act first (R417). -/
def State.axSync (s : State) (a : Nat) : State := s.axRun a false

/-- The same for every axis. -/
def State.axesSync (s : State) : State := (List.range 8).foldl (fun s a => s.axSync a) s

/-- Whether the Bell's state stops axes: HALT or BRAKE (R419, Table 10.3). -/
def State.bellStops (s : State) : Bool := s.get Fld.bellStateState = 1 || s.get Fld.bellStateState = 2

/-- Whether a motion command is refused (R413, R416, R419): external steps, a Bell stop on an axis with BSTOP, or a start
towards an active limit. -/
def State.motionRefused (s : State) (a : Nat) (positive : Bool) : Bool :=
  s.getB Fld.axisCfgSrc a || (s.bellStops && s.get Fld.axisCfgBstop a ≠ 0) || s.limitActive a positive

/-- The ramp values a command puts into force, the live ones; DECKEPT clears when a MOVE starts (R411). -/
def State.takeRamp (s : State) (a : Nat) : State :=
  s.setAxis a { s.axis a with amax := s.get Fld.axisAmax a, dmax := s.get Fld.axisDmax a, jmax := s.get Fld.axisJmax a }

/-- Whether a ramp to standstill at DMAX under JMAX ends within a distance of the planned position. -/
def rampFits (x : Axis) (dmax jmax dist : Nat) : Bool :=
  if jmax = 0 ∧ x.jmax = 0 then decide (256 * x.vel ^ 2 ≤ 2 * 10 ^ 5 * f32Fixed dmax * dist) else Config.jerkRampFits x.vel x.acc dmax jmax dist

/-- A target that goes live behind the point at which the axis can stop is reached by way of a standstill (R410). -/
def State.turnTest (s : State) (a : Nat) : State :=
  let x := s.axis a
  let d := s.axTarget a - x.plan
  let behind := (0 < x.vel ∧ d < 0) ∨ (x.vel < 0 ∧ 0 < d)
  if x.motion = .move then
    s.setAxis a { x with turning := decide (x.vel ≠ 0) && (decide behind || !rampFits x x.dmax x.jmax d.natAbs) }
  else s

/-- The effect of a command of Table 17.3 on an axis; one that is not allowed raises 0x3906 CMD_REFUSED and changes
nothing (R416). -/
def State.axisCmd (s : State) (a cmd : Nat) : State :=
  let s := s.axSync a
  let st := s.axState a
  let x := s.axis a
  let refuse := s.raise 0x3906 a
  match cmd with
  | 1 =>
    if st = axOff then
      let s := s.setAxis a { x with afterState := axReady, afterReason := 0 }
      (s.putAxState a axStarting 0).askStart (.axis (Fin.ofNat 8 a))
    else if st = axHalted then s.putAxState a axReady 0
    else refuse
  | 2 => if st = axMoving ∨ st = axHoming then s.rampTo a axOff 0 false else (s.hardStop a).putAxState a axOff 0
  | 3 =>
    let tgt := signed 32 (s.get Fld.axisTgtTgt a)
    let dir := decide (s.pos a ≤ tgt)
    if !(st = axReady ∨ st = axMoving ∨ st = axHalted) then refuse
    else if (s.getB Fld.axisCfgReqhome a && !s.getB Fld.axisStatHomed a) || s.motionRefused a dir || tgt % 256 ≠ 0 then refuse
    else
      let s := (s.takeRamp a).setB Fld.axisStatDeckept false a
      let s := (s.beginMotion a .move (if x.motion = .rest then dir else x.positive)).turnTest a
      s.putAxState a axMoving 0
  | 4 =>
    let dir := s.get Fld.axisVtgt a < 2 ^ 31
    if !(st = axReady ∨ st = axMoving ∨ st = axHalted) || s.motionRefused a dir then refuse
    else
      let s := (s.takeRamp a).beginMotion a .vel (if x.motion = .rest then dir else x.positive)
      s.putAxState a axMoving 0
  | 5 =>
    let active := s.homeSource a
    let dir := if active then !s.hdir a else s.hdir a
    if !(st = axReady ∨ st = axHalted) || s.motionRefused a dir then refuse
    else
      let s := (s.takeRamp a).beginMotion a (if active then .away else .search) dir
      let s := s.setAxis a { s.axis a with armed := true, limitHits := 0 }
      s.putAxState a axHoming 0
  | 6 => if st = axMoving ∨ st = axHoming then s.rampTo a axReady 0 false else refuse
  | 7 =>
    if st = axReady ∨ st = axHalted then ((s.standAt a (signed 32 (s.get Fld.axisTgtTgt a))).setHomed a true).axFollow a
    else refuse
  | _ => s

/-- AXIS_ON (R416, Table 17.3 code 1). -/
def execAxisOn (a : Fin 8) (s : State) : Result := .next (s.axisCmd a.val 1)
/-- AXIS_OFF (R416, Table 17.3 code 2). -/
def execAxisOff (a : Fin 8) (s : State) : Result := .next (s.axisCmd a.val 2)
/-- MOVE (R409, R410, Table 17.3 code 3). -/
def execMove (a : Fin 8) (s : State) : Result := .next (s.axisCmd a.val 3)
/-- VEL (R409, R410, Table 17.3 code 4). -/
def execVel (a : Fin 8) (s : State) : Result := .next (s.axisCmd a.val 4)
/-- HOME (R414, Table 17.3 code 5). -/
def execHome (a : Fin 8) (s : State) : Result := .next (s.axisCmd a.val 5)
/-- AXIS_STOP (R416, Table 17.3 code 6). -/
def execAxisStop (a : Fin 8) (s : State) : Result := .next (s.axisCmd a.val 6)
/-- SETPOS (R416, Table 17.3 code 7). -/
def execSetpos (a : Fin 8) (s : State) : Result := .next (s.axisCmd a.val 7)

/-- QSTOP (R419): a moving or homing axis ramps at LDEC to HALTED with REASON 2, at once, with no apply and no gate. -/
def State.qstop (s : State) (a : Nat) : State :=
  let s := s.axSync a
  if s.axState a = axMoving ∨ s.axState a = axHoming then s.rampTo a axHalted 2 true else s

/-- QSTOP (R419). -/
def execQstop (a : Fin 8) (s : State) : Result := .next (s.qstop a.val)

/-- The PWM periods that a command looks ahead: those of a fleet cycle and more. -/
abbrev genAhead : Nat := 1200

/-- COARSE_STEP (R409): the generator emits its next coarse step, where it does so in the present cycle; one that is
overdue at once. -/
def execCoarseStep (a : Fin 8) (s : State) : Result :=
  let n := a.val
  let t := s.axSync n
  if (t.axis n).coarse ≠ (s.axis n).coarse ∨ (t.axis n).motion = .rest ∨ t.getB Fld.axisCfgSrc n then .next t
  else match t.genFind n Axis.crosses genAhead (t.axis n) with
  | none => .next t
  | some at' =>
    match t.reach at' with
    | none => .next t
    | some u => .next (u.axRun n true)

/-- MICROSTEP_ISSUE (R407, R412): at the next PWM period start at which microsteps are owed, those due are issued together, each of 256 / M
units, and the duty codes follow. -/
def execMicrostepIssue (a : Fin 8) (s : State) : Result :=
  let n := a.val
  let t := s.axSync n
  if t.pos n ≠ s.pos n ∨ t.pos n = (t.axis n).coarse then .next t
  else match t.reach (t.microDue n) with
  | none => .next t
  | some u => .next (u.axRun n true)

/-- STEP_EDGE (R408, R413): with SRC = 1, an edge is one coarse step in the direction of AXaDR; towards an active limit it is
discarded and counted; less than 40 us after the last it raises STEP_OVERRUN and still counts. -/
def execStepEdge (a : Fin 8) (dirHigh : Bool) (wait : Nat) (s : State) : Result :=
  let n := a.val
  if !s.getB Fld.axisCfgSrc n then .next s
  else match s.reach (s.roots + 60 * wait) with
  | none => .next s
  | some s =>
    let s := s.axSync n
    let x := s.axis n
    let s := s.setAxis n { x with lastEdge := some s.roots }
    if s.limitActive n dirHigh then .next (s.bump Fld.axisCntDiscard n)
    else
      let cap := s.get Fld.axisExtpExtpmaxMs n * 6000000
      let gap := match x.lastEdge with
        | some t => s.roots - t
        | none => cap
      let s := if gap < 240000 then s.raise 0x3983 n else s
      .next (s.coarseStep n dirHigh (if dirHigh then x.coarse + 256 else x.coarse - 256) s.roots (min gap cap))

/-- Whether a filtered input is active: its level is that of its POL bit (R405). -/
def State.inputActive (s : State) (a k : Nat) : Bool := (s.axis a).levels.getLsbD k == bitOf (s.get Fld.axisCfgPol a) k

/-- STATa follows the filtered inputs. -/
def State.inputsFollow (s : State) (a : Nat) : State :=
  ((s.setB Fld.axisStatLn (s.inputActive a 0) a).setB Fld.axisStatLp (s.inputActive a 1) a).setB Fld.axisStatHm (s.inputActive a 2) a

/-- A filtered input takes a level: LN 0, LP 1, HM 2. -/
def State.setInput (s : State) (a k : Nat) (level : Bool) : State :=
  let x := s.axis a
  let l := x.levels.toNat
  (s.setAxis a { x with levels := BitVec.ofNat 3 (setBit l k level) }).inputsFollow a

/-- A filtered input becomes active. -/
def State.activate (s : State) (a k : Nat) : State := s.setInput a k (bitOf (s.get Fld.axisCfgPol a) k)

/-- LIMIT_STOP (R413, R415): the limit in the direction of motion becomes active. -/
def execLimitStop (a : Fin 8) (s : State) : Result :=
  let n := a.val
  let s := s.axSync n
  let x := s.axis n
  if x.motion = .rest then .next s else .next ((s.activate n (if x.positive then 1 else 0)).limitStop n)

/-- HOME_EDGE (R414): the first change of the source to active while the axis moves in HDIR. -/
def execHomeEdge (a : Fin 8) (s : State) : Result :=
  let n := a.val
  let s := s.axSync n
  let x := s.axis n
  if s.axState n = axHoming ∧ x.motion = .search ∧ x.armed then
    if s.getB Fld.axisCfgHsrc n then .next ((s.activate n (if s.hdir n then 1 else 0)).limitStop n)
    else .next ((s.activate n 2).homeEdge n)
  else .next s

/-- AXIS_STANDSTILL (R409): a ramp or a move ends at standstill, where it does so in the present cycle. -/
def execAxisStandstill (a : Fin 8) (s : State) : Result :=
  let n := a.val
  let t := s.axSync n
  if (t.axis n).motion ≠ (s.axis n).motion ∨ (t.axis n).motion = .rest ∨ t.getB Fld.axisCfgSrc n then .next t
  else match t.genFind n (t.genEnd n) genAhead (t.axis n) with
  | none => .next t
  | some at' =>
    match t.reach at' with
    | none => .next t
    | some u => .next (u.axRun n true)

/-- AXIS_INPUT_CHANGE (R405): a filtered input takes a level; active is the level of its POL bit. A limit that becomes active
in the direction of motion stops the axis (R413), the home input is the edge of a search (R414), its release ends step 1 of a
homing and the reverse move of R415. -/
def execAxisInputChange (a : Fin 8) (pin : AxisPin) (level : Bool) (s : State) : Result :=
  let n := a.val
  let k := match pin with
    | .ln => 0
    | .lp => 1
    | .hm => 2
  let was := s.inputActive n k
  let s := (s.axSync n).setInput n k level
  let active := s.inputActive n k
  let x := s.axis n
  let hsrc := s.getB Fld.axisCfgHsrc n
  let sourcePin := if hsrc then (if s.hdir n then AxisPin.lp else AxisPin.ln) else AxisPin.hm
  let motionPin := if x.positive then AxisPin.lp else AxisPin.ln
  if active = was then .next s
  else if active ∧ pin = motionPin ∧ x.motion ≠ .rest then .next (s.limitStop n)
  else if active ∧ pin = sourcePin ∧ x.motion = .search then .next (s.homeEdge n)
  else if active ∧ pin = .hm ∧ x.motion = .reverse false then .next (s.setAxis n { x with motion := .reverse true })
  else if !active ∧ pin = sourcePin ∧ x.motion = .away then .next (s.setAxis n { x with motion := .settle, fast := false })
  else if !active ∧ pin = .hm ∧ x.motion = .reverse true then .next (s.setAxis n { x with motion := .settle, fast := false })
  else .next s

/-! ### Bell stops, claims and starts -/

/-- The Bell enters HALT or BRAKE (R419): axes with BSTOP 1 ramp at LDEC to HALTED with REASON 3; with BSTOP 2 on BRAKE they
stop as a hard limit stop does. -/
def State.axesBellStop (s : State) : State :=
  (List.range 8).foldl (fun s a =>
    let b := s.get Fld.axisCfgBstop a
    let st := s.axState a
    let s := s.axSync a
    if b = 0 ∨ !s.bellStops then s
    else if b = 2 ∧ s.get Fld.bellStateState = 2 ∧ (st = axReady ∨ st = axMoving ∨ st = axHoming) then
      (s.hardStop a).putAxState a axHalted 3
    else if st = axReady then s.putAxState a axHalted 3
    else if st = axMoving ∨ st = axHoming then s.rampTo a axHalted 3 true
    else s) s

/-- The claim stage leaves HOLDING (R420): every axis that is not OFF stops, discards its owed microsteps and goes to HALTED
with REASON 4; one that was MOVING or HOMING loses HOMED. -/
def State.axesClaimLost (s : State) : State :=
  (List.range 8).foldl (fun s a =>
    let s := s.axSync a
    let st := s.axState a
    if st = axOff ∨ (st = axHalted ∧ s.get Fld.axisStatReason a = 4) then s
    else
      let s := (s.hardStop a).putAxState a axHalted 4
      if st = axMoving ∨ st = axHoming then s.loseHome a else s) s

/-- The claim stage becomes HOLDING at a boundary (R420): axes HALTED with REASON 4 enter STARTING, and from their grant go
to READY. -/
def State.axesClaimHeld (s : State) : State :=
  (List.range 8).foldl (fun s a =>
    if s.axState a = axHalted ∧ s.get Fld.axisStatReason a = 4 then
      let s := s.setAxis a { s.axis a with afterState := axReady, afterReason := 0 }
      (s.putAxState a axStarting 0).askStart (.axis (Fin.ofNat 8 a))
    else s) s

/-- When the start queue may grant next (R398), in us: STAGGER.US after its last grant. -/
def State.startDue (s : State) : Nat :=
  match s.loop.grantUs with
  | some t => t + s.get Fld.loopStaggerUs
  | none => 0

/-- START_GRANT (R398, R421, R450): the start queue grants its first unit; while PFW is asserted it grants none. A loop slot
drives ENGPIO high and closes at its next sample; an axis drives ENGPIO high and full current at the present POS. -/
def execStartGrant (s : State) : Result :=
  if s.getB Fld.kettleStatePfw ∨ s.starts = [] then .next s
  else match s.reachUs s.startDue with
  | none => .next s
  | some s =>
    let s : State := { s with loop := { s.loop with grantUs := some s.us } }
    match s.starts with
    | [] => .next s
    | .slot n :: rest =>
      let s := { s with starts := rest }
      if s.get Fld.loopStatState n = slotClosed then .next ((s.set Fld.loopStatWaitstart 0 n).slotGpio n) else .next s
    | .axis a :: rest =>
      let s := { s with starts := rest }
      if s.axState a = axStarting then .next (s.putAxState a (s.axis a).afterState (s.axis a).afterReason) else .next s

/-! ### Consistency groups (R418, R424) -/

/-- The SETUP checks of an axis, on the staged set. -/
def axisSetupOk (s : State) (a : Nat) : Bool :=
  let g := fun f i => s.getStaged f i
  let st := s.axState a
  let still := st ≠ axMoving && st ≠ axHoming
  let srcOk := g Fld.axisCfgSrc a = s.get Fld.axisCfgSrc a || st = axOff || st = axReady || st = axHalted
  let gpio := g Fld.axisCfgEngpio a
  let gpioOk := g Fld.axisCfgEngEn a = 0 ||
    ((List.range 8).all (fun k => k = a || g Fld.axisCfgEngEn k = 0 || g Fld.axisCfgEngpio k ≠ gpio) &&
     (List.range 32).all (fun k => s.get Fld.loopCfgEngEn k = 0 || s.get Fld.loopCfgEngpio k ≠ gpio))
  still && srcOk && gpioOk && decide (g Fld.axisCfgRes a ≤ 8 ∧ g Fld.axisCfgBstop a ≤ 2) &&
  decide (1 ≤ g Fld.axisFiltFiltUs a ∧ g Fld.axisFiltFiltUs a ≤ 200) &&
  decide (1 ≤ g Fld.axisExtpExtpmaxMs a ∧ g Fld.axisExtpExtpmaxMs a ≤ 100)

/-- The PROF checks of an axis, on the staged set. -/
def axisProfOk (s : State) (a : Nat) : Bool :=
  let v := fun f => s.sf64 f a
  let rangeF := fun f (lo hi : Int) => leN (ofIntN lo) (v f) && leN (v f) (ofIntN hi)
  [Fld.axisVtgt, Fld.axisVmax, Fld.axisAmax, Fld.axisDmax, Fld.axisJmax, Fld.axisHvel, Fld.axisLdec].all
    (fun f => f32Finite (s.getStaged f a)) &&
  (s.getStaged Fld.axisCmdCmd a ≠ 3 || signed 32 (s.getStaged Fld.axisTgtTgt a) % 256 = 0) &&
  ltN 0 (v Fld.axisVmax) && leN (v Fld.axisVmax) (ofIntN 25000) &&
  leN (Float64.abs (v Fld.axisVtgt)) (v Fld.axisVmax) &&
  rangeF Fld.axisAmax 1 10000000 && rangeF Fld.axisDmax 1 10000000 && rangeF Fld.axisLdec 1 10000000 &&
  (v Fld.axisJmax = 0 || rangeF Fld.axisJmax 1 1000000000) &&
  ltN 0 (v Fld.axisHvel) && leN (v Fld.axisHvel) (v Fld.axisVmax)

/-- The LAYOUT check: CUTBASE is 0 or lies in a shadow region. -/
def axisLayoutOk (s : State) (base : Nat) : Bool := base = 0 || s.inShadow (base * 256) 2112

/-- Whether AXIS's staged set passes the groups R487 has checked. -/
def axisApplyOk (s : State) : Bool :=
  (!s.changed Blk.axis .gLayout none ||
    (!s.getB Fld.axisStateRunning && axisLayoutOk s (s.getStaged Fld.axisCutbaseAddr))) &&
  (List.range 8).all fun a =>
    (!s.changed Blk.axis .gSetup (some a) || axisSetupOk s a) &&
    (!s.changed Blk.axis .gProf (some a) || axisProfOk s a)

/-- New AMAX, DMAX or JMAX that go live during a MOVE (R411): taken at once when the ramp to standstill under them ends at or
before TGT, else kept from and DEC_KEPT; what an apply kept from stays until standstill, and every other motion takes the live values. -/
def State.rampTest (s : State) (a : Nat) : State :=
  let x := s.axis a
  let am := s.get Fld.axisAmax a
  let dm := s.get Fld.axisDmax a
  let jm := s.get Fld.axisJmax a
  if am = x.amax ∧ dm = x.dmax ∧ jm = x.jmax then s
  else if x.motion ≠ .move then (if s.getB Fld.axisStatDeckept a ∧ x.motion ≠ .rest then s else s.takeRamp a)
  else if rampFits x dm jm (s.axTarget a - x.plan).natAbs then s.takeRamp a
  else (s.setB Fld.axisStatDeckept true a).raise 0x3982 a

/-- What follows an apply made on AXIS: the inputs' polarity, R411, R410, and then the written commands act in axis order (R416, R417). -/
def State.axisApplied (s : State) : State :=
  let s := (List.range 8).foldl (fun s a => ((s.inputsFollow a).rampTest a).turnTest a) s
  (List.range 8).foldl (fun s a =>
    let x := s.axis a
    if x.cmdWritten then (s.setAxis a { x with cmdWritten := false }).axisCmd a (s.get Fld.axisCmdCmd a) else s) s

/-! ### Run, stop, cut and restore -/

/-- AXIS_RUN (R423, R487): starts the block; on a standby it stays STOPPED. -/
def State.axisRun (s : State) : State :=
  if s.getB Fld.axisStateRunning ∨ s.standby then s
  else if axisLayoutOk s (s.get Fld.axisCutbaseAddr) then s.setB Fld.axisStateRunning true
  else s.raise 0x3901

/-- AXIS_RUN (R423). -/
def execAxisRun (s : State) : Result := .next s.axisRun

/-- AXIS_BLOCK_STOP (R423): every axis stops at once, as a hard stop does, and is OFF. -/
def State.axisBlockStop (s : State) : State :=
  if s.getB Fld.axisStateRunning then
    (List.range 8).foldl (fun s a => (s.hardStop a).putAxState a axOff 0) (s.axesSync.setB Fld.axisStateRunning false)
  else s

/-- AXIS_BLOCK_STOP (R423). -/
def execAxisBlockStop (s : State) : Result := .next s.axisBlockStop

/-- The axis cut of Table 17.4. -/
def State.axisCut (s : State) : List Byte :=
  let pend := (List.range 8).foldl (fun v a => if (s.axis a).cmdWritten then setBit v a true else v) 0
  leBytes 0x54554341 4 ++ leBytes s.cycle 4 ++ leBytes 1 1 ++ leBytes pend 1 ++ leBytes 0 54 ++
  (List.range 8).flatMap fun a =>
    s.wordBytes Blk.axis (0x100 + 0x20 * a) (0x120 + 0x20 * a) true ++
    s.wordBytes Blk.axis (0x100 + 0x20 * a) (0x120 + 0x20 * a) false

/-- AXIS_CUT (R422): at 5.990 ms, with CUTBASE set, the running block latches its cut and writes it at CUTBASE. -/
def execAxisCut (s : State) : Result :=
  let base := s.get Fld.axisCutbaseAddr
  if s.getB Fld.axisStateRunning ∧ base ≠ 0 then
    let s := (s.moveTo 5990).axesSync
    .next (s.store (base * 256) s.axisCut)
  else .next s

/-- Loads one axis from a valid cut at `c` (R422). -/
def State.loadAxis (s : State) (c a : Nat) : State :=
  let w := fun k => s.readLE (c + 64 + 256 * a + 4 * k) 4
  let pend := bitOf (s.readLE (c + 9) 1) a
  let s1 := (List.range 14).foldl (fun s k => s.loadLive Blk.axis (0x100 + 0x20 * a + k) (w k)) s
  let s2 := (List.range 14).foldl (fun s k =>
    s.loadStaged Blk.axis (0x100 + 0x20 * a + k) (s.readLE (c + 192 + 256 * a + 4 * k) 4)) s1
  let st := bits (w 0x10) 0 3
  let reason := bits (w 0x10) 3 3
  let p := signed 32 (w 0x0E)
  let s3 := ((s2.standAt a p).takeRamp a).inputsFollow a
  let start := fun (s : State) (st r : Nat) =>
    let s := s.setAxis a { s.axis a with afterState := st, afterReason := r }
    (s.putAxState a axStarting 0).askStart (.axis (Fin.ofNat 8 a))
  if st = axOff then (s3.setHomed a (bitOf (w 0x10) 6)).putAxState a axOff 0
  else if (st = axReady ∨ st = axHalted) ∧ !pend ∧ reason ≠ 4 then
    start (s3.setHomed a (bitOf (w 0x10) 6)) st (if st = axHalted then reason else 0)
  else start (s3.loseHome a) axHalted 5

/-- AXIS_RESTORE (R422): a running block ignores it with 0x3902; a bad cut leaves every axis OFF with its values after start
and raises 0x3904; otherwise the cut is loaded. -/
def State.axisRestore (s : State) : State :=
  if s.getB Fld.axisStateRunning then s.raise 0x3902
  else
    let c := s.get Fld.axisCutbaseAddr * 256
    let s := if c = 0 then s else s.touch c 2112
    if c = 0 ∨ s.readLE c 4 ≠ 0x54554341 ∨ s.readLE (c + 8) 1 = 0 then
      let s := (List.range 8).foldl (fun s a => s.dropStart (.axis (Fin.ofNat 8 a))) s
      let s := { s.afterStart Blk.axis 0x100 0x200 with axes := s.axes.map fun (p : Nat × Axis) => (p.1, ({ levels := p.2.levels } : Axis)) }
      let s := (List.range 8).foldl (fun s a => s.inputsFollow a) s
      (s.set Fld.axisStateHomed 0).raise 0x3904
    else (List.range 8).foldl (fun t a => t.loadAxis c a) s

/-- AXIS_RESTORE (R422). -/
def execAxisRestore (s : State) : Result := .next s.axisRestore

end Sys2Proof.Machine
end

