-- ==== Sys2Proof/Machine/Bell.lean ====
section
/-! DEFINITION. The Bell's sources, classes and states (spec/10_bell.md R252-R259, R272): e-stop inputs, stop commands, the kernel, the
partner, and what a change of state moves. -/

namespace Sys2Proof.Machine

/-- The key material of a slot as a key reference; 0 for an empty slot. -/
def State.slotKey (s : State) (n : Nat) : Nat :=
  match Map.find s.keywell.slots n with
  | some k => leNat k.material
  | none => 0

/-- The derivation block B of R226, R256, R262 and R352: 16 bits, one byte, a label, zeros. -/
def deriveBlock (id epoch label : Nat) : List Byte := leBytes id 2 ++ leBytes epoch 1 ++ leBytes label 1 ++ leBytes 0 12

/-- A key derived by AES-256-ECB from a root in a slot. -/
def State.derivedKey (s : State) (slot id epoch label : Nat) : Nat :=
  (Config.aesEcb (s.slotKey slot) (deriveBlock id epoch label)).toNat

/-- The first `n` bytes of a CMAC, its first byte lowest. -/
def micOf (key : Nat) (msg : List Byte) (n : Nat) : List Byte := leBytes (Config.cmac key msg).toNat n

/-! ### Neighbour entries read from the table (09 R229) -/

/-- The address of a neighbour's entry. -/
def State.nbrAddr (s : State) (i : Nat) : Nat := s.get Fld.radioNbrbaseAddr * 256 + 64 * i

/-- KIND, PORT and STATE of a neighbour. -/
def State.nbrKind (s : State) (i : Nat) : Nat := bits (s.readLE (s.nbrAddr i) 1) 0 2
/-- The port of a neighbour. -/
def State.nbrPort (s : State) (i : Nat) : Nat := bits (s.readLE (s.nbrAddr i) 1) 2 2
/-- The state of a neighbour (Table 9.13). -/
def State.nbrState (s : State) (i : Nat) : Nat := bits (s.readLE (s.nbrAddr i) 1) 4 3

/-- The roster of a port (R269): connected robots on it in JOINING, CONNECTED or UPDATING. -/
def State.roster (s : State) (port : Nat) : List Nat :=
  (List.range 1024).filter fun i =>
    s.nbrKind i = 1 && s.nbrPort i = port && decide (1 ≤ s.nbrState i ∧ s.nbrState i ≤ 3)

/-- Whether a neighbour is owed an acknowledgement. -/
def State.owed (s : State) (i : Nat) : Bool := bitOf (s.get Fld.bellOwedOwed (i / 32)) (i % 32)

/-- Sets a neighbour's owed bit. -/
def State.setOwed (s : State) (i : Nat) (b : Bool) : State := s.setMask Fld.bellOwedOwed (i % 32) b (i / 32)

/-- Writes ACKn's counts of the present episode. -/
def State.countAcks (s : State) : State :=
  (List.range 4).foldl (fun s n =>
    let r := s.roster n
    let o := r.countP s.owed
    ((s.set Fld.bellAckRoster r.length n).set Fld.bellAckOwed o n).set Fld.bellAckAcked (r.length - o) n) s

/-- A new episode (R269, R270): every roster robot is owed and none has been named. -/
def State.newEpisode (s : State) : State :=
  let all := (List.range 4).flatMap s.roster
  let s := (List.range 32).foldl (fun s k => s.set Fld.bellOwedOwed 0 k) s
  let s := all.foldl (fun s i => s.setOwed i true) s
  { s with bell := { s.bell with episode := s.bell.episode + 1, episodeUs := s.us, named := [], overdue := [] } }.countAcks

/-! ### Classes and states -/

/-- The strongest latched local class: 0 none, 1 HALT, 2 BRAKE (R257); START sends none. -/
def State.bellLocal (s : State) : Nat :=
  let est := (List.range 4).foldl (fun c n =>
    if bitOf (s.get Fld.bellSrcEst) n then max c (s.get Fld.bellEstClass n) else c) 0
  let cmd := if s.getB Fld.bellSrcCmd then s.bell.cmdClass else 0
  let ker := if s.getB Fld.bellSrcKernel then s.bell.kernelClass else 0
  max est (max cmd ker)

/-- The merged class (R257). -/
def State.bellMerged (s : State) : Nat := max s.bellLocal (s.get Fld.bellStatePartner)

/-- The levels of the cabinet stop outputs (R272): low in STARTUP and before RUN, and where MODEk stops for the merged class. -/
def State.cstopLevels (s : State) : Nat :=
  let m := s.bellMerged
  if s.get Fld.bellStateState = 4 ∨ !s.bell.running then 0
  else (List.range 4).foldl (fun v k =>
    let mode := s.get Fld.bellCstopMode k
    let stop := (mode = 0 && decide (1 ≤ m)) || (mode = 1 && m = 2) || mode = 2
    setBit v k (!stop)) 0

/-- The state that follows from a merged class (Table 10.3). -/
def bellNext (st merged : Nat) : Nat :=
  if merged = 2 then 2
  else if merged = 1 then (if st = 2 then 2 else 1)
  else if st = 1 ∨ st = 2 then 3
  else st

/-- Enters a Bell state: the time of the change, the count of RELEASING windows, a new episode on entering HALT or BRAKE and on a
move from HALT to BRAKE, and the axes of R419. -/
def State.putBell (s : State) (st : Nat) : State :=
  let old := s.get Fld.bellStateState
  if st = old then s
  else
    let s := (s.set Fld.bellStateState st)
    let s := { s with bell := { s.bell with since := s.us, relWindows := 0 } }
    let s := if st = 1 ∨ st = 2 then s.newEpisode.axesBellStop else s
    s

/-- Follows a change of a source: LOCAL, the state of Table 10.3 once the Bell runs, and the cabinet outputs. -/
def State.bellUpdate (s : State) : State :=
  let s := s.set Fld.bellStateLocal s.bellLocal
  let s := if s.bell.running then s.putBell (bellNext (s.get Fld.bellStateState) s.bellMerged) else s
  s.set Fld.bellCstopLevel s.cstopLevels

/-- Whether the condition of input n is present (R253-R255): a channel open, a test fault or a discrepancy, while it is enabled. -/
def State.estCond (s : State) (n : Nat) : Bool :=
  s.getB Fld.bellEstEn n &&
  (bitOf (s.get Fld.bellEststatAopen) n || bitOf (s.get Fld.bellEststatBopen) n ||
    bitOf (s.get Fld.bellEststatTestfail) n || bitOf (s.get Fld.bellEststatDiscrep) n)

/-- Writes SRC.ESTCOND. -/
def State.followCond (s : State) : State :=
  s.set Fld.bellSrcEstcond ((List.range 4).foldl (fun v n => setBit v n (s.estCond n)) 0)

/-- Latches input n, when it is enabled (R253). -/
def State.estLatch (s : State) (n : Nat) : State :=
  if s.getB Fld.bellEstEn n then (s.setMask Fld.bellSrcEst n true).bellUpdate else s

/-- Follows the channels of input n (R255): the time since which one of them alone has been open, while the input is enabled. -/
def State.discFollow (s : State) (n : Nat) : State :=
  let d := s.getB Fld.bellEstEn n && (bitOf (s.get Fld.bellEststatAopen) n != bitOf (s.get Fld.bellEststatBopen) n)
  let m := s.bell.discFrom
  let m := if !d then Map.del m n else if (Map.find m n).isSome then m else Map.put m n s.us
  { s with bell := { s.bell with discFrom := m } }

/-- ESTOP_CHANNEL_OPEN (R253): a channel has read open for FILT_US; an enabled input latches. -/
def execEstopChannelOpen (n : Fin 4) (chanB : Bool) (s : State) : Result :=
  let s := s.setMask (if chanB then Fld.bellEststatBopen else Fld.bellEststatAopen) n.val true
  .next ((s.discFollow n.val).followCond.estLatch n.val)

/-- ESTOP_CHANNEL_CLOSE (R253): a channel reads high again. -/
def execEstopChannelClose (n : Fin 4) (chanB : Bool) (s : State) : Result :=
  .next ((s.setMask (if chanB then Fld.bellEststatBopen else Fld.bellEststatAopen) n.val false).discFollow n.val).followCond

/-- The test pulses of an input start over (R254). -/
def State.testStart (s : State) (n : Nat) : State :=
  { s with bell := { s.bell with
    testFrom := Map.put s.bell.testFrom n s.us, testDone := Map.put (Map.put s.bell.testDone (2 * n) 0) (2 * n + 1) 0 } }

/-- When the next test pulse of a channel ends, in us (R254): TPER_MS after the start and every TPER_MS from then on, half a period later on
channel B. -/
def State.testEnds (s : State) (n : Nat) (chanB : Bool) : Nat :=
  let per := 1000 * s.get Fld.bellTestTperMs
  Map.getD s.bell.testFrom n 0 + (Map.getD s.bell.testDone (2 * n + chanB.toNat) 0 + 1) * per + (if chanB then per / 2 else 0) +
    s.get Fld.bellTestTpUs

/-- ESTOP_TEST_PULSE (R254): the pulse of a channel's test output ends; an input that read high at its end has failed its test. Pulses
run only while the Bell runs and the input has EN and TEST_EN. -/
def execEstopTestPulse (n : Fin 4) (chanB : Bool) (readHigh : Bool) (s : State) : Result :=
  if s.bell.running ∧ s.getB Fld.bellEstEn n.val ∧ s.getB Fld.bellEstTestEn n.val then
    match s.reachUs (s.testEnds n.val chanB) with
    | none => .next s
    | some s =>
      let k := 2 * n.val + chanB.toNat
      let done := Map.put s.bell.testDone k (Map.getD s.bell.testDone k 0 + 1)
      let s : State := { s with bell := { s.bell with testDone := done } }
      .next (if readHigh then ((s.setMask Fld.bellEststatTestfail n.val true).raise 0x2402 n.val).followCond.estLatch n.val else s)
  else .next s

/-- ESTOP_DISCREPANCY (R255): one channel has been counted open, and the other not, for longer than DISC_MS. -/
def execEstopDiscrepancy (n : Fin 4) (s : State) : Result :=
  match Map.find s.bell.discFrom n.val with
  | none => .next s
  | some t => match s.reachUs (1000 * s.get Fld.bellDiscDiscMs + t) with
    | none => .next s
    | some s => .next ((s.setMask Fld.bellEststatDiscrep n.val true).raise 0x2403 n.val).followCond

/-- Clears TESTFAIL and DISCREP bits (R255). -/
def State.eststatClear (s : State) (tf dc : Nat) : State :=
  let clr := fun (v m : Nat) => (List.range 4).foldl (fun v k => if bitOf m k then setBit v k false else v) v
  ((s.set Fld.bellEststatTestfail (clr (s.get Fld.bellEststatTestfail) tf)).set Fld.bellEststatDiscrep
    (clr (s.get Fld.bellEststatDiscrep) dc)).followCond

/-- ESTSTAT_CLEAR (R255). -/
def execEststatClear (testfail discrep : BitVec 4) (s : State) : Result :=
  .next (s.eststatClear testfail.toNat discrep.toNat)

/-- A RELEASE (R258): refused with RELEASE_REFUSED while a local condition is present; otherwise every local latch and a frozen
partner term clear, STARTUP ends, and, unless it came from the partner, one release message goes to the partner. -/
def State.bellRelease (s : State) (forward : Bool) : Nat × State :=
  if s.followCond.get Fld.bellSrcEstcond ≠ 0 then (0x2404, s.raise 0x2404)
  else
    let s := (((s.set Fld.bellSrcEst 0).set Fld.bellSrcCmd 0).set Fld.bellSrcKernel 0).set Fld.bellSrcStart 0
    let s : State := if s.bell.frozen then
        { s.set Fld.bellStatePartner 0 with bell := { s.bell with frozen := false } }
      else s
    let b := { s.bell with cmdClass := 0, kernelClass := 0, relSent := s.bell.relSent + forward.toNat }
    let s : State := { s with bell := b }
    let s := if s.get Fld.bellStateState = 4 ∧ s.bellMerged = 0 ∧ s.bell.running then s.putBell 0 else s
    (0, s.bellUpdate)

/-- Latches a class of the kernel (R252, R59). -/
def State.bellKernel (s : State) (cls : Nat) : State :=
  let s := s.setB Fld.bellSrcKernel true
  { s with bell := { s.bell with kernelClass := max s.bell.kernelClass cls } }.bellUpdate

/-- BRING with class a[1:0] (R59, R258): its result. -/
def State.bring (s : State) (cls : Nat) : Nat × State :=
  match cls with
  | 0 => (0x2405, s)
  | 3 => s.bellRelease true
  | c => (0, s.bellKernel c)

/-- COUNT_RESERVE (R262): the next reservation is requested; the Chest makes it durable (02 R58). -/
def State.bellReserve (s : State) (v : Nat) : State :=
  { s.set Fld.bellResvValue v with bell := { s.bell with resvDue := true } }

/-- BELL_RUN (R276, R359): starts the Bell in STARTUP, from which a source other than START already latched leads on at once; ignored
while the Keywell's ERROR is set, and when it runs already; a live KEY that fails is an apply-rejected fault (00 R487). -/
def State.bellRun (s : State) : State :=
  if s.bell.running ∨ s.getB Fld.keywellStateError then s
  else if !(s.slotUsage (s.get Fld.bellKeyRoot) 7 && s.slotUsage (s.get Fld.bellKeyCmdroot) 8) then s.raise 0x2401
  else
    let s := { s.setB Fld.bellSrcStart true with bell := { s.bell with running := true } }
    let v := (s.chestAt 0x0208).toNat
    let s := (s.set Fld.bellCountValue v).bellReserve (v + 65536)
    ((List.range 4).foldl State.testStart (s.putBell 4)).bellUpdate

/-- BELL_RUN (R276). -/
def execBellRun (s : State) : Result := .next s.bellRun

/-! ### Stop commands (R256) -/

/-- The Bell command key K_C. -/
def State.bellCmdKey (s : State) : Nat :=
  s.derivedKey (s.get Fld.bellKeyCmdroot) 0xFFFD (s.get Fld.bellKeyEpoch) 0x43

/-- Step 1 of R256: the form of a stop command. -/
def State.cmdFormOk (s : State) (b : List Byte) : Bool :=
  let w := fun k n => leNat ((b.drop k).take n)
  decide (b.length = 32) && w 0 1 = 0xB5 && decide (1 ≤ w 1 1 ∧ w 1 1 ≤ 3) && decide (w 2 2 ≤ 15) &&
  w 4 1 = s.get Fld.bellKeyEpoch && bitOf (w 5 1) (s.get Fld.claimStateUnit) && decide (w 5 1 < 4) &&
  w 6 2 = 0 && w 12 8 = 0 && w 20 4 = 0

/-- One stop command through the decoder (R256). -/
def State.stopCommand (s : State) (b : List Byte) : State :=
  let w := fun k n => leNat ((b.drop k).take n)
  if !s.cmdFormOk b then s.raise 0x2405
  else if micOf s.bellCmdKey (b.take 24) 8 ≠ (b.drop 24).take 8 then s.raise 0x2406
  else
    let origin := w 2 2
    let count := w 8 4
    let last := match Map.find s.bell.counts origin with
      | some c => c
      | none => (Map.getD s.chest (0x210 + origin) 0).toNat % 2 ^ 32
    if !cycleAfter count last then s.raise 0x2407
    else
      let s := { s with bell := { s.bell with counts := Map.put s.bell.counts origin count } }
      if w 1 1 = 3 then { s with bell := { s.bell with relPending := some (origin, count) } }
      else
        let s := s.setB Fld.bellSrcCmd true
        { s with bell := { s.bell with cmdClass := max s.bell.cmdClass (w 1 1) } }.bellUpdate

/-- STOP_COMMAND (R256): the running Bell's decoder takes the oldest item of unit 40. -/
def execStopCommand (s : State) : Result :=
  if s.bell.running then
    match s.qPop 40 with
    | (some it, s) => .next (s.stopCommand it.body)
    | (none, s) => .next s
  else .next s

/-- RELEASE_COUNT_DURABLE (R256): the count of an accepted RELEASE command is durable in the Chest, and the command takes effect. -/
def execReleaseCountDurable (s : State) : Result :=
  match s.bell.relPending with
  | some (origin, count) =>
    let s := { s with chest := Map.put s.chest (0x210 + origin) (BitVec.ofNat 64 count) }
    let s := { s with bell := { s.bell with relPending := none } }
    .next (s.bellRelease true).2
  | none => .next s

/-! ### The partner (R258, R259) -/

/-- PARTNER_RELEASE_MSG (R258): the partner's release message meets the same test here. -/
def execPartnerReleaseMsg (s : State) : Result := .next (s.bellRelease false).2

/-- PARTNER_REPORT_SEND (R259): the local class goes to the partner. -/
def execPartnerReportSend (s : State) : Result :=
  if 2 ≤ s.get Fld.plinkStateLink then .next { s with bell := { s.bell with reported := s.bellLocal } } else .next s

/-- PARTNER_REPORT (R259): a live report replaces the partner term. -/
def execPartnerReport (cls : Fin 3) (s : State) : Result :=
  let s := (s.set Fld.bellStatePartner cls.val).setB Fld.bellStatePlive true
  .next { s with bell := { s.bell with frozen := false, reportUs := s.us } }.bellUpdate

/-- PARTNER_REPORT_LOST (R259): no report for 3 ms freezes the partner term at its last value. -/
def execPartnerReportLost (s : State) : Result :=
  if s.getB Fld.bellStatePlive then
    match s.reachUs (3000 + s.bell.reportUs) with
    | none => .next s
    | some s =>
      let s := (s.setB Fld.bellStatePlive false).raise 0x2484
      .next { s with bell := { s.bell with frozen := true } }
  else .next s

end Sys2Proof.Machine
end

