-- ==== Sys2Proof/Machine/Mill.lean ====
section
/-! DEFINITION. The Mill (spec/04_mill.md): items, tokens, cancels, tombstones and holes, flows, ready lists and dispatch, injection, the
Mill cut, and run and stop. -/

namespace Sys2Proof.Machine

/-! ### Engines, flows and the store -/

/-- A node engine. -/
def State.node (s : State) (n : Nat) : NodeEngine := Map.getD s.nodes n {}

/-- Replaces a node engine. -/
def State.setNode (s : State) (n : Nat) (e : NodeEngine) : State := { s with nodes := Map.put s.nodes n e }

/-- The address of the node library (R92, MILL.LIB). -/
def State.libBase (s : State) : Nat := s.get Fld.millLibBank * 0x400000

/-- The image entry address of the node engines (R92). -/
def State.nodeEntry (s : State) : Word := BitVec.ofNat 64 (s.libBase + s.mill.libEntry)

/-- MILL.STATE.STATE (Table 4.8). -/
def State.millState (s : State) : Nat := s.get Fld.millStateState

/-- The fields of a destination word (Table 3.4). -/
def destNode (d : Word) : Nat := bits d.toNat 0 16
/-- PORT. -/
def destPort (d : Word) : Nat := bits d.toNat 16 2
/-- CTX. -/
def destCtx (d : Word) : Nat := bits d.toNat 20 12
/-- FLOW. -/
def destFlow (d : Word) : Nat := bits d.toNat 32 16
/-- CLASS. -/
def destClass (d : Word) : Nat := bits d.toNat 48 2

/-- The number under which the item that a destination word names is held. -/
def destItem (d : Word) : Nat := destCtx d * 65536 + destNode d

/-- The context of an item's number. -/
def itemCtx (k : Nat) : Nat := k / 65536 % 4096

/-- A destination word from its fields. -/
def destWord (node port ctx flow cls : Nat) : Word :=
  BitVec.ofNat 64 (node + port * 2 ^ 16 + ctx * 2 ^ 20 + flow * 2 ^ 32 + cls * 2 ^ 48)

/-- An item of the Mill. -/
def State.item (s : State) (k : Nat) : Option MillItem := Map.find s.mill.items k

/-- Replaces an item. -/
def State.setItem (s : State) (k : Nat) (x : MillItem) : State :=
  { s with mill := { s.mill with items := Map.put s.mill.items k x } }

/-- A flow; one that no record has set stands at zeros. -/
def State.flow (s : State) (f : Nat) : MillFlow := Map.getD s.mill.flows f {}

/-- Replaces a flow. -/
def State.setFlow (s : State) (f : Nat) (x : MillFlow) : State :=
  { s with mill := { s.mill with flows := Map.put s.mill.flows f x } }

/-- Whether a flow runs ordered (R100-R102). -/
def State.flowOrdered (s : State) (f : Nat) : Bool := (s.flow f).ordOk && s.get Fld.millStateMode != 0

/-- The ready list of a class. -/
def State.readyList (s : State) (c : Nat) : List Nat := Map.getD s.mill.ready c []

/-- Replaces a ready list. -/
def State.setReady (s : State) (c : Nat) (l : List Nat) : State :=
  { s with mill := { s.mill with ready := Map.put s.mill.ready c l } }

/-- Entries in use (R96): the tokens of every item and one for each tombstone. -/
def Mill.inUse (m : Mill) : Nat := m.items.foldl (fun n p => n + p.2.tokens.length) 0 + m.tombs.length

/-- Follows with STORE and READY. -/
def State.millFollow (s : State) : State :=
  let n := s.mill.inUse
  let s := s.set Fld.millStoreInuse n
  let s := if s.get Fld.millStoreHigh < n then s.set Fld.millStoreHigh n else s
  let r := fun c => min 255 (s.readyList c).length
  (((s.set Fld.millReadyUrg (r 0)).set Fld.millReadyPos (r 1)).set Fld.millReadyPlan (r 2)).set Fld.millReadyBg (r 3)

/-- The reserve of a class in entries (R96). -/
def State.millReserve (s : State) (c : Nat) : Nat :=
  64 * (match c with
    | 1 => s.get Fld.millReservePos
    | 2 => s.get Fld.millReservePlan
    | 3 => s.get Fld.millReserveBg
    | _ => 0)

/-- The free entries available to a class. -/
def State.millFree (s : State) (c : Nat) : Nat := 16384 - s.mill.inUse - s.millReserve c

/-- A node's entry of Table 4.1: OPID, PORTS and CLASS. -/
def State.nodeEntryOf (s : State) (n : Nat) : Nat × Nat × Nat :=
  let a := s.get Fld.millGraphAddr * 256 + 8 * n
  (bits (s.readLE a 2) 0 12, bits (s.readLE (a + 2) 1) 0 4, bits (s.readLE (a + 3) 1) 0 2)

/-- The Mill reads the node table entries of tokens (R38, R95). -/
def State.nodeReads (s : State) (ts : List (Word × Word)) : State :=
  ts.foldl (fun s t => if destNode t.1 = 0xFFFF then s else s.touch (s.get Fld.millGraphAddr * 256 + 8 * destNode t.1) 8) s

/-- PORTS of a node as a list of ports. -/
def portList (mask : Nat) : List Nat := (List.range 4).filter (bitOf mask)

/-! ### Checks of a retire (R95) -/

/-- Checks one token against the loaded graph and the tokens already there, given as a table of items: the code it fails with. -/
def State.tokenCheck (s : State) (items : Map MillItem) (d : Word) : Option Nat :=
  let (_, ports, cls) := s.nodeEntryOf (destNode d)
  if destNode d = 0xFFFF then (if destFlow d < 1024 then none else some 0x1001)
  else if s.get Fld.millNodesCount ≤ destNode d ∨ !bitOf ports (destPort d) ∨ cls ≠ destClass d ∨ 1024 ≤ destFlow d then
    some 0x1001
  else match Map.find items (destItem d) with
    | none => none
    | some x =>
      if x.run = .waiting ∧ x.flow ≠ destFlow d then some 0x1001
      else if (Map.find x.tokens (destPort d)).isSome then some 0x1002
      else none

/-- An item table with one more token in it. -/
def addToken (items : Map MillItem) (t : Word × Word) : Map MillItem :=
  let x := Map.getD items (destItem t.1) { flow := destFlow t.1, cls := destClass t.1 }
  Map.put items (destItem t.1) { x with tokens := Map.put x.tokens (destPort t.1) t.2 }

/-- Checks the tokens of a retire one after another: the first code that fails. -/
def State.tokensCheck (s : State) (items : Map MillItem) : List (Word × Word) → Option Nat
  | [] => none
  | t :: ts =>
    match s.tokenCheck items t.1 with
    | some c => some c
    | none => s.tokensCheck (if destNode t.1 = 0xFFFF then items else addToken items t) ts

/-- Whether a cancel of a retire writes a tombstone (Table 4.4). -/
def State.cancels (s : State) (d : Word) : Bool :=
  (Map.find s.mill.tombs (destItem d)).isNone &&
    (match s.item (destItem d) with
      | some x => x.run = .waiting || x.run = .ready
      | none => true)

/-- The entries that the tokens and cancels of a retire need (R96): one for each token that no tombstone discards and that does not end a
context, and one for each tombstone. -/
def State.retireNeed (s : State) (tokens : List (Word × Word)) (cancels : List Word) : Nat :=
  let tombs := ((cancels.filter s.cancels).map destItem).eraseDups
  tombs.length + tokens.countP fun t =>
    destNode t.1 ≠ 0xFFFF && (Map.find s.mill.tombs (destItem t.1)).isNone && !tombs.contains (destItem t.1)

/-- Whether a retire of a class fits (R96). -/
def State.retireFits (s : State) (cls : Nat) (tokens : List (Word × Word)) (cancels : List Word) : Bool :=
  if tokens = [] then decide (s.retireNeed tokens cancels ≤ s.millFree 0)
  else decide (s.retireNeed tokens cancels ≤ s.millFree cls)

/-! ### Cancels and tokens (R94, R99, R103, R107) -/

/-- Frees an item's tokens and takes it out of its ready list. -/
def State.freeItem (s : State) (k : Nat) : State :=
  match s.item k with
  | some x =>
    let s := { s with mill := { s.mill with items := Map.del s.mill.items k } }
    s.setReady x.cls ((s.readyList x.cls).filter (· ≠ k))
  | none => s

/-- Writes a tombstone. -/
def State.putTomb (s : State) (k : Nat) (t : Tomb) : State :=
  { s with mill := { s.mill with tombs := Map.put s.mill.tombs k t } }

/-- Takes the next order number of a flow (R99); none for flow 0. -/
def State.takeSeq (s : State) (f : Nat) : Option Nat × State :=
  if f = 0 then (none, s)
  else
    let x := s.flow f
    (some x.nextSeq, s.setFlow f { x with nextSeq := (x.nextSeq + 1) % 2 ^ 32 })

/-- Whether the tokens of a batch complete an item that is waiting or absent. -/
def State.completes (s : State) (k : Nat) (batch : List (Word × Word)) : Bool :=
  let mine := batch.filter fun t => destItem t.1 = k && destNode t.1 ≠ 0xFFFF
  let have' := (match s.item k with
    | some x => x.tokens.map Prod.fst
    | none => []) ++ mine.map fun t => destPort t.1
  let (_, ports, _) := s.nodeEntryOf (k % 65536)
  !mine.isEmpty && (portList ports).all fun p => have'.contains p

/-- Applies one cancel (Table 4.4), with the tokens of the same clock; answers also with the item if a hole is due at its moment of
readiness, with its flow and class. -/
def State.applyCancel (s : State) (batch : List (Word × Word)) (d : Word) : Option (Nat × Nat × Nat) × State :=
  let k := destItem d
  let tokFlow := ((batch.filter fun t => destItem t.1 = k).map fun t => (destFlow t.1, destClass t.1)).headD (0, 0)
  if (Map.find s.mill.tombs k).isSome then (none, s)
  else match s.item k with
    | some x =>
      match x.run with
      | .service | .parked => (none, s.raise 0x1081)
      | .ready => (none, (s.freeItem k).putTomb k { hole := x.seq.map fun q => (x.flow, x.cls, q) })
      | .waiting => (if s.completes k batch then some (k, x.flow, x.cls) else none, (s.freeItem k).putTomb k {})
    | none => (if s.completes k batch then some (k, tokFlow.1, tokFlow.2) else none, s.putTomb k {})

/-- Applies cancels in order. -/
def State.applyCancels (s : State) (batch : List (Word × Word)) : List Word → List (Nat × Nat × Nat) × State
  | [] => ([], s)
  | d :: ds =>
    let (h, s) := s.applyCancel batch d
    let (hs, s) := s.applyCancels batch ds
    ((match h with
      | some x => x :: hs
      | none => hs), s)

/-- The first number of an item, beyond those of present context runs, that is free for one of a run that has ended. -/
def Mill.spare (m : Mill) (k : Nat) : Nat :=
  match (List.range 16640).find? fun j => (Map.find m.items (k + (j + 1) * 2 ^ 28)).isNone && (Map.find m.tombs (k + (j + 1) * 2 ^ 28)).isNone with
  | some j => k + (j + 1) * 2 ^ 28
  | none => k

/-- An item of a context run that has ended takes a number beyond those of present runs, wherever the Mill holds it. -/
def State.renumber (s : State) (k : Nat) : State :=
  let j := s.mill.spare k
  let f := fun (i : Nat) => if i = k then j else i
  let m := s.mill
  let items := match Map.find m.items k with
    | some x => Map.put (Map.del m.items k) j x
    | none => m.items
  let tombs := match Map.find m.tombs k with
    | some t => Map.put (Map.del m.tombs k) j t
    | none => m.tombs
  { s with
    mill := { m with items := items, tombs := tombs, ready := m.ready.map fun p => (p.1, p.2.map f),
                     parked := m.parked.map fun p => { p with item := f p.item } }
    nodes := s.nodes.map fun p => (p.1, { p.2 with item := p.2.item.map f }) }

/-- Ends a context (R107): its waiting tokens and its tombstones are freed, but for a tombstone whose hole still waits (R104).  What the run
leaves (ready items, items in service, parked retires and those holes) is apart from the items of a new run of the context. -/
def State.endContext (s : State) (ctx : Nat) : State :=
  let mine := fun (k : Nat) => k / 65536 = ctx
  let s : State := { s with mill := { s.mill with
      items := s.mill.items.filter fun p => !(mine p.1 && p.2.run = .waiting)
      tombs := s.mill.tombs.filter fun p => !mine p.1 || p.2.hole.isSome } }
  ((s.mill.items.map Prod.fst ++ s.mill.tombs.map Prod.fst).filter mine).foldl State.renumber s

/-- Whether an item has every token its node needs. -/
def State.complete (s : State) (k : Nat) (x : MillItem) : Bool :=
  let (_, ports, _) := s.nodeEntryOf (k % 65536)
  (portList ports).all fun p => (Map.find x.tokens p).isSome

/-- Accepts one token: the context end, a token a tombstone discards, or one entry of its item. -/
def State.applyToken (s : State) (t : Word × Word) : State :=
  if destNode t.1 = 0xFFFF then s.endContext (destCtx t.1)
  else if (Map.find s.mill.tombs (destItem t.1)).isSome then s.bump Fld.millCntEvtDiscarded
  else { s with mill := { s.mill with items := addToken s.mill.items t } }

/-- The fleet cycle that an item made ready now is enqueued for (01 R31): after the freeze, the next one. -/
def State.workCycle (s : State) : Nat := if s.get Fld.sysPhasePhase < 2 then s.cycle else nextCycle s.cycle

/-- What becomes ready in one clock, in order of context and node: an item takes its SEQ and joins its list, and a hole of R103 takes
its SEQ (R97, R99). -/
def State.settle (s : State) (holes : List (Nat × Nat × Nat)) (touched : List Nat) : State :=
  let ks := (holes.map Prod.fst ++ touched).foldl insertLine []
  ks.foldl (fun s k =>
    match holes.find? fun h => h.1 = k with
    | some (_, f, c) =>
      let (q, s) := s.takeSeq f
      s.putTomb k { hole := q.map fun q => (f, c, q) }
    | none =>
      match s.item k with
      | some x =>
        if x.run = .waiting ∧ s.complete k x then
          let (q, s) := s.takeSeq x.flow
          let s := s.setItem k { x with run := .ready, seq := q, cycle := s.workCycle }
          s.setReady x.cls (s.readyList x.cls ++ [k])
        else s
      | none => s) s

/-- The effect of accepted cancels and tokens of one clock: cancels first, then tokens in the order of their EMITs (R75, R98); those that
follow a context end of the same retire start a new run of the context (DEDUCED, log 263). -/
def State.applyBatch (s : State) (tokens : List (Word × Word)) (cancels : List Word) : State :=
  let (holes, s) := s.applyCancels tokens cancels
  let s := tokens.foldl (fun s t => s.applyToken t) s
  (s.settle holes ((tokens.filter fun t => destNode t.1 ≠ 0xFFFF).map fun t => destItem t.1)).millFollow

/-- A release of a flow advances NEXT_REL (R99). -/
def State.released (s : State) (f : Nat) : State :=
  if f = 0 then s
  else
    let x := s.flow f
    s.setFlow f { x with nextRel := (x.nextRel + 1) % 2 ^ 32 }

/-! ### Abandoned and dropped items (R105, R106) -/

/-- Drops an item (R105): its entries are freed, a tombstone is written, and its SEQ becomes a hole. -/
def State.dropItem (s : State) (k : Nat) : State :=
  match s.item k with
  | some x =>
    let s := (s.raise 0x1005).freeItem k
    s.putTomb k { hole := x.seq.map fun q => (x.flow, x.cls, q), dropped := true }
  | none => s

/-- Puts an item back at the head of its class's ready list. -/
def State.putBack (s : State) (k : Nat) (x : MillItem) : State :=
  let s := s.setItem k { x with run := .ready }
  s.setReady x.cls (k :: (s.readyList x.cls).filter (· ≠ k))

/-- The Mill is stopped once STOPPING and nothing is in service (R113): its engines leave dispatch. -/
def State.millSettleStop (s : State) : State :=
  let busy := s.mill.items.any fun p => p.2.run = .service
  if s.millState = 5 ∧ !busy then
    let s := (List.range 24).foldl (fun s n => s.setNode n { s.node n with run := .off }) s
    ((s.set Fld.millStateState 0).set Fld.millEngupUp 0).set Fld.millStateJoined 0
  else s

/-- Takes an engine out of dispatch (R106). -/
def State.engineOut (s : State) (n : Nat) : State :=
  let s := (s.setMask Fld.millEngupUp n false).setNode n { s.node n with run := .off, failRun := 0 }
  s.set Fld.millStateJoined ((List.range 24).countP fun k => bitOf (s.get Fld.millEngupUp) k)

/-- ENGINE_FAILED (R106). -/
def State.engineFail (s : State) (n : Nat) : State :=
  ((s.engineOut n).setMask Fld.millEngfailFail n true).raise 0x1006 n

/-- What becomes of an item whose run ended abandoned with `code` (R96, R101, R105): STORE_FULL and REORDER_FULL count no run; R95 drops
the item at once; otherwise the item is dropped after 1 + RETRIES runs. -/
def State.abandonItem (s : State) (k code : Nat) : State :=
  match s.item k with
  | none => s
  | some x =>
    if code = 0x1001 ∨ code = 0x1002 then s.dropItem k
    else if code = 0x1004 ∨ code = 0x100A then (s.bump Fld.millCntFlowFull).putBack k x
    else if s.get Fld.millLimitRetries x.cls < x.runs + 1 then s.dropItem k
    else s.putBack k { x with runs := x.runs + 1 }

/-- An engine's item retires: the requests it submitted enter the claim port queue, behind those that are in it (03 R79, 08 Table 8.9); or its
run is abandoned, and they go with it. -/
def State.reeveSrc (s : State) (n : Nat) (retired : Bool) : State :=
  let q := s.reeve.queue
  let mine := q.filter fun r => r.src = some n
  if mine = [] then s
  else
    let came := if retired then mine.map fun r => { r with src := none } else []
    let l := (q.filter fun r => r.src.isNone) ++ came ++ q.filter fun r => r.src.isSome && r.src ≠ some n
    ({ s with reeve := { s.reeve with queue := l } } : State).set Fld.reeveUsePortq (l.countP fun r => r.src.isNone)

/-- An item in service ends abandoned (R78): the engine's buffers are discarded, LASTFAULT takes the code, the Mill raises it, and the
engine continues at its image entry; the 8th abandoned item in a row fails the engine (R106).  A fault outside an item abandons none. -/
def State.nodeAbandon (s : State) (n code : Nat) : State :=
  let e := s.node n
  let s := if code = 0 then s else s.raise code n (some Blk.mill)
  let run := if e.item.isSome then e.failRun + 1 else e.failRun
  let e' := { e with tokens := [], cancels := [], lastFault := code, pc := s.nodeEntry, run := .idle, item := none, failRun := run }
  let s := (s.setNode n e').reeveSrc n false
  let s := (s.set Fld.millLastfaultCode code).set Fld.millLastfaultEngine n
  let s := match e.item with
    | some k => s.abandonItem k code
    | none => s
  let s := if 8 ≤ run then s.engineFail n else s
  s.millFollow.millSettleStop

/-! ### Retires -/

/-- Whether the scheduler accepts retires (Table 4.8): never while it writes a cut (R109). -/
def State.millAccepts (s : State) : Bool := (s.millState = 2 || s.millState = 3 || s.millState = 5) && !s.mill.cutting

/-- Whether an engine's retire, alone, would be accepted now (R95, R96, R101). -/
def State.retireGoes (s : State) (m : Nat) : Bool :=
  let e := s.node m
  match e.item with
  | some k =>
    let x := (s.item k).getD {}
    let freed : State := { s with mill := { s.mill with items := Map.del s.mill.items k } }
    let due := match x.seq with
      | some q => decide (q = (s.flow x.flow).nextRel)
      | none => true
    e.run = .retiring && !s.writerStalled (.node (Fin.ofNat 24 m)) && due && s.tokensCheck freed.mill.items e.tokens = none &&
      freed.retireFits x.cls e.tokens e.cancels
  | none => false

/-- The cancels of the engines whose retires reached the scheduler in the same clock and can be accepted (R98). -/
def State.sameCancels (s : State) (same : List (Fin 24)) : List Word :=
  same.flatMap fun m => if s.retireGoes m.val then (s.node m.val).cancels else []

/-- The scheduler takes cancels out of the buffers of engines that share the clock. -/
def State.dropSame (s : State) (same : List (Fin 24)) (taken : List Word) : State :=
  same.foldl (fun s m =>
    let e := s.node m.val
    s.setNode m.val { e with cancels := e.cancels.filter fun d => !taken.contains d }) s

/-- Tries the Reeve result tokens that wait for acceptance, oldest first, until one does not fit (R98). -/
def State.millResults : Nat → State → State
  | 0, s => s
  | n + 1, s =>
    match s.mill.results with
    | t :: rest =>
      let pop := fun (s : State) => ({ s with mill := { s.mill with results := rest } } : State)
      match s.tokenCheck s.mill.items t.1 with
      | some c => State.millResults n ((pop s).raise c)
      | none =>
        if s.retireFits (destClass t.1) [t] [] then State.millResults n ((pop s).applyBatch [t] [])
        else s
    | [] => s

/-- The cancels of retires that share a clock with `batch` are applied before it (R98); `State.dropSame` takes them out of their buffers. -/
def State.sameFirst (s : State) (batch : List (Word × Word)) (same : List (Fin 24)) : State :=
  let cs := s.sameCancels same
  let (holes, t) := s.applyCancels batch cs
  ((t.settle holes []).dropSame same cs).millFollow

/-- A Reeve result token reaches the scheduler (R79, R98), with the cancels of retires of the same clock; while the Mill does not accept
it waits. -/
def State.reeveResult (s : State) (d v : Word) (same : List (Fin 24)) : State :=
  let s := ({ s with mill := { s.mill with results := s.mill.results ++ [(d, v)] } } : State).nodeReads [(d, v)]
  if s.millState = 1 ∨ s.mill.cutting then s
  else
    let t := s.sameFirst [(d, v)] same
    (t.millResults t.mill.results.length).millFollow

/-- The engine is free again after its retire (R75): it waits in TAKE. -/
def State.engineFree (s : State) (n : Nat) : State :=
  let e := s.node n
  let run : NodeRun := if bitOf (s.get Fld.millEnableEnable) n then .taking else .off
  let s := s.setNode n { e with tokens := [], cancels := [], item := none, failRun := 0, run := run }
  let s := s.reeveSrc n true
  if run = .off then s.engineOut n else s

/-- The scheduler takes the retire of an engine (R95-R101): its item's entries are freed, its tokens checked; the retire is refused,
parked, or accepted with its cancels and tokens. -/
def State.retireTake (s : State) (n : Nat) : State :=
  let e := s.node n
  match e.item with
  | none => s
  | some k =>
    let x := (s.item k).getD {}
    let freed := (({ s with mill := { s.mill with items := Map.del s.mill.items k } } : State))
    let due := match x.seq with
      | some q => decide (q = (s.flow x.flow).nextRel)
      | none => true
    match s.tokensCheck freed.mill.items e.tokens with
    | some c => s.nodeAbandon n c
    | none =>
      if !due then
        if 256 ≤ s.mill.parked.length then
          (s.setItem k { x with park := true }).nodeAbandon n 0x100A
        else
          let p : Parked := ⟨x.flow, x.seq.getD 0, k, e.tokens, e.cancels⟩
          let s := s.setItem k { x with run := .parked }
          let s : State := { s with mill := { s.mill with parked := s.mill.parked ++ [p] } }
          (s.engineFree n).millSettleStop
      else if freed.retireFits x.cls e.tokens e.cancels then
        let s := freed.applyBatch e.tokens e.cancels
        let s := ((s.engineFree n).released x.flow).bump Fld.millCntRetCount
        (s.millResults s.mill.results.length).millFollow.millSettleStop
      else
        (s.setItem k { x with need := freed.retireNeed e.tokens e.cancels }).nodeAbandon n 0x1004

/-- A retire reaches the scheduler in the clock of the retires of `same`: their cancels come before its tokens (R75, R98). -/
def State.retire (s : State) (n : Nat) (same : List (Fin 24)) : State :=
  ((s.nodeReads (s.node n).tokens).sameFirst (s.node n).tokens (same.filter fun m => m.val ≠ n)).retireTake n

/-- Whether an engine's retire can be taken now (R75, R98): it waits for the scheduler, its stores have left the store buffer (R30), and no
lower engine's retire that reached the scheduler in the same clock still waits. -/
def State.retireReady (s : State) (e : Fin 24) (same : List (Fin 24)) : Bool :=
  (s.node e.val).run = .retiring && s.millAccepts && !s.writerStalled (.node e) &&
    !(same.any fun m => decide (m.val < e.val) && (s.node m.val).run = .retiring && !s.writerStalled (.node m))

/-- RETIRE_ACCEPTED (R95). -/
def execRetireAccepted (e : Fin 24) (same : List (Fin 24)) (s : State) : Result :=
  .next (if s.retireReady e same then s.retire e.val same else s)

/-- The hole that NEXT_REL of a flow has reached: its item and tombstone. -/
def State.holeDue (s : State) (f : Nat) : Option (Nat × Tomb) :=
  s.mill.tombs.find? fun p => match p.2.hole with
    | some (g, _, q) => g = f && q = (s.flow f).nextRel
    | none => false

/-- The next release of flow `f` passes the hole of item `k`: its tombstone keeps the hole no longer, and one of a context run that has
ended is freed (R104). -/
def State.holePass (s : State) (f k : Nat) (t : Tomb) : State :=
  let tombs := if 2 ^ 28 ≤ k then Map.del s.mill.tombs k else Map.put s.mill.tombs k { t with hole := none }
  let s : State := { s with mill := { s.mill with tombs := tombs } }
  ((s.released f).bump Fld.millCntFlowHoles).millFollow

/-- The destination word of the hole token that HOLEDEST of flow `f` asks for, for item `k` (R104). -/
def State.holeDest (s : State) (f k : Nat) : Word :=
  let hd := BitVec.ofNat 64 (s.flow f).holeDest
  destWord (destNode hd) (destPort hd) (itemCtx k) (destFlow hd) (destClass hd)

/-- The value word of a hole token (R104). -/
def State.holeValue (s : State) (f : Nat) (t : Tomb) : Word :=
  BitVec.ofNat 64 (2 ^ 63 + t.dropped.toNat * 2 ^ 62 + (s.flow f).nextRel)

/-- HOLE_RELEASE (R104): the hole that NEXT_REL has reached is passed, after its hole token, if HOLEDEST asks for one, has been
accepted; a hole token that does not fit makes the flow wait. -/
def State.holeRelease (s : State) (f : Nat) : State :=
  match s.holeDue f with
  | none => s
  | some (k, t) =>
    if (s.flow f).holeDest % 2 ^ 64 = 0 then s.holePass f k t
    else match s.tokenCheck s.mill.items (s.holeDest f k) with
      | some c => (s.holePass f k t).raise c
      | none =>
        if s.retireFits (destClass (s.holeDest f k)) [(s.holeDest f k, s.holeValue f t)] [] then
          (s.applyBatch [(s.holeDest f k, s.holeValue f t)] []).holePass f k t
        else s

/-- HOLE_RELEASE (R104): while the Mill accepts retires. -/
def execHoleRelease (flow : Fin 1024) (s : State) : Result :=
  if s.millAccepts then .next (s.holeRelease flow.val) else .next s

/-- PARKED_RELEASE (R101): the parked retire that NEXT_REL has reached is accepted; where it does not fit or fails its checks now, its
item goes the way of R95 and R96. -/
def State.parkedRelease (s : State) (f : Nat) : State :=
  match s.mill.parked.find? fun p => p.flow = f && p.seq = (s.flow f).nextRel with
  | none => s.holeRelease f
  | some p =>
    let x := (s.item p.item).getD {}
    let un := fun (s : State) => ({ s with mill := { s.mill with parked := s.mill.parked.filter (· ≠ p) } } : State)
    let freed : State := { s with mill := { s.mill with items := Map.del s.mill.items p.item } }
    match s.tokensCheck freed.mill.items p.tokens with
    | some c => ((un s).raise c |>.dropItem p.item).millFollow
    | none =>
      if freed.retireFits x.cls p.tokens p.cancels then
        let s := ((un freed).applyBatch p.tokens p.cancels).released f
        ((s.bump Fld.millCntRetCount).millResults s.mill.results.length).millFollow
      else
        let s := (un s).raise 0x1004
        ((s.bump Fld.millCntFlowFull).putBack p.item { x with need := freed.retireNeed p.tokens p.cancels }).millFollow

/-- PARKED_RELEASE (R101): while the Mill accepts retires; after STOP, parked retires stay parked (R113). -/
def execParkedRelease (flow : Fin 1024) (s : State) : Result :=
  if s.millAccepts ∧ s.millState ≠ 5 then .next (s.parkedRelease flow.val) else .next s

/-! ### Dispatch (R97, R100, R101) -/

/-- Whether an item's flow, R96 and R101 let it be dispatched; a WINDOW above 16 acts as 16 (DESIGN CHOICE, log 262). -/
def State.dispatchable (s : State) (x : MillItem) : Bool :=
  let fl := s.flow x.flow
  let inService := s.mill.items.any fun p => p.2.flow = x.flow && p.2.run = .service
  let q := x.seq.getD 0
  let flowOk := if x.flow = 0 then true
    else if s.flowOrdered x.flow then
      decide ((q + 2 ^ 32 - fl.nextRel) % 2 ^ 32 < max 1 (min 16 fl.window)) &&
      !(s.mill.items.any fun p => p.2.flow = x.flow && p.2.run = .ready && cycleAfter q (p.2.seq.getD q))
    else decide (q = fl.nextRel) && !inService
  flowOk && decide (x.need ≤ s.millFree x.cls) && (!x.park || decide (s.mill.parked.length < 256))

/-- The first dispatchable item of the highest class; background items are not dispatched in THROTTLE (19 R457). -/
def State.nextItem (s : State) : Option Nat :=
  ((List.range 4).filter fun c => c < 3 || !s.getB Fld.kettleStateThrottle).findSome? fun c =>
    (s.readyList c).find? fun k => s.dispatchable ((s.item k).getD {})

/-- The entry address of an operation, if its table entry is valid (Table 3.12). -/
def State.opEntry (s : State) (opid : Nat) : Option Word :=
  match s.mill.opTable with
  | some t =>
    let a := s.libBase + t + 8 * opid
    if s.readLE (a + 4) 1 = 1 then some (BitVec.ofNat 64 (s.libBase + s.readLE a 4)) else none
  | none => none

/-- Dispatches an item to an engine that waits in TAKE (R76): the engine's words are loaded, with PORT 0 in DEST, of which the spec says
nothing (DESIGN CHOICE, log 261), and TAKE returns the operation's entry address; an OPID that is not valid is abandoned, and TAKE goes on
waiting. -/
def State.dispatch (s : State) (n k : Nat) : State :=
  let x := (s.item k).getD {}
  let s := s.touch (s.get Fld.millGraphAddr * 256 + 8 * (k % 65536)) 8
  let (opid, _, _) := s.nodeEntryOf (k % 65536)
  let s := match s.mill.opTable with
    | some t => s.touch (s.libBase + t + 8 * opid) 8
    | none => s
  let s := s.setItem k { x with run := .service, need := 0, park := false }
  let s := s.setReady x.cls ((s.readyList x.cls).filter (· ≠ k))
  let s := s.bump Fld.millCntDispCount
  let e := s.node n
  match s.opEntry opid with
  | none =>
    let pc := e.pc
    let s := (s.setNode n { e with item := some k }).nodeAbandon n 0x1026
    let e := s.node n
    if e.run = .idle then s.setNode n { e with run := .taking, pc := pc } else s
  | some a =>
    let mode := if x.flow = 0 then 0 else if s.flowOrdered x.flow then 2 else 1
    let e := { e with
      item := some k, run := .service, opid := opid, dest := destWord (k % 65536) 0 (itemCtx k) x.flow x.cls,
      seq := x.seq.getD 0, flowMode := mode, tok := x.tokens, tokMask := x.tokens.foldl (fun m p => setBit m p.1 true) 0,
      tokens := [], cancels := [],
      g := if e.takeReg = 0 then e.g else Map.put e.g e.takeReg a, pc := e.pc + 4 }
    (s.setNode n e).millFollow

/-- DISPATCH (R97): the scheduler hands the first dispatchable item to a waiting, enabled engine whose island is awake. -/
def execDispatch (e : Fin 24) (s : State) : Result :=
  if (s.node e.val).run = .taking ∧ (s.millState = 2 ∨ s.millState = 3) ∧ !s.mill.cutting ∧ bitOf (s.get Fld.millEnableEnable) e.val ∧
      s.islandAwake (.engine e) then
    match s.nextItem with
    | some k => .next (s.dispatch e.val k)
    | none => .next s
  else .next s

/-- NODE_OVERTIME (R78): an item runs past its class's time limit. -/
def execNodeOvertime (e : Fin 24) (s : State) : Result :=
  if (s.node e.val).run = .service then .next (s.nodeAbandon e.val 0x1025) else .next s

/-! ### Injection (R108) -/

/-- Takes ring entries from GET up to PUT until one does not fit. -/
def State.inject : Nat → State → State
  | 0, s => s
  | n + 1, s =>
    let get := s.get Fld.millInjgetGet
    if get = s.mill.injPut then { s with mill := { s.mill with injStall := false } }
    else
      let a := s.get Fld.millInjbaseAddr * 256 + 64 + 16 * (get % (max 1 (s.get Fld.millInjlenEntries)))
      let s := s.touch a 16
      let d := BitVec.ofNat 64 (s.readLE a 8)
      let v := BitVec.ofNat 64 (s.readLE (a + 8) 8)
      let s := s.nodeReads [(d, v)]
      let next := fun (s : State) => ({ s with mill := { s.mill with injStall := false } } : State).set Fld.millInjgetGet (get + 1)
      if (s.tokenCheck s.mill.items d).isSome then
        State.inject n ((next s).raise 0x1009 |>.bump Fld.millCntEvtInvalid)
      else if s.retireFits (destClass d) [(d, v)] [] then State.inject n (next (s.applyBatch [(d, v)] []))
      else if s.mill.injStall then s
      else { s.raise 0x1082 with mill := { s.mill with injStall := true } }

/-- Whether the Mill accepts injected tokens: in every state but CUTTING, RESTORING and a cut of a stopped Mill (R109, R113). -/
def State.millTakes (s : State) : Bool := s.millState != 1 && !s.mill.cutting

/-- Injection goes on up to the PUT read last. -/
def State.injectOn (s : State) : State :=
  if s.millTakes then State.inject ((s.mill.injPut + 2 ^ 32 - s.get Fld.millInjgetGet) % 2 ^ 32 + 1) s else s

/-- INJECT_DOORBELL (R108): the Mill reads PUT and accepts entries up to it; in CUTTING and RESTORING they wait (INJECT_RESUME). -/
def State.injectDoorbell (s : State) : State :=
  let s := s.touch (s.get Fld.millInjbaseAddr * 256) 4
  let put := s.readLE (s.get Fld.millInjbaseAddr * 256) 4
  ({ s with mill := { s.mill with injPut := put } } : State).injectOn

/-- INJECT_DOORBELL (R108). -/
def execInjectDoorbell (s : State) : Result := .next s.injectDoorbell

/-- INJECT_RESUME (R108): the entry at which injection stopped is tried again. -/
def execInjectResume (s : State) : Result := .next s.injectOn

/-! ### Engines joining, run and stop (R106, R112, R113) -/

/-- The Mill is RUNNING once every enabled engine has joined that has not failed (Table 4.8; log 262). -/
def State.millJoined (s : State) : State :=
  let all := (List.range 24).all fun k => !bitOf (s.get Fld.millEnableEnable) k || bitOf (s.get Fld.millEngupUp) k ||
    bitOf (s.get Fld.millEngfailFail) k
  if all ∧ s.millState = 2 then s.set Fld.millStateState 3
  else if all ∧ s.millState = 4 ∧ s.mill.prev = 2 then { s with mill := { s.mill with prev := 3 } }
  else s

/-- An engine joins dispatch, starting at its image entry with its words after start; its local store keeps its contents (R74). -/
def State.engineJoin (s : State) (n : Nat) : State :=
  let run := decide (s.millState = 2 ∨ s.millState = 3) || (s.millState = 4 && decide (s.mill.prev = 2 ∨ s.mill.prev = 3))
  if run ∧ bitOf (s.get Fld.millEnableEnable) n ∧ !bitOf (s.get Fld.millEngfailFail) n ∧ !bitOf (s.get Fld.millEngupUp) n then
    let s := s.setNode n { pc := s.nodeEntry, store := (s.node n).store, run := .idle, startAt := s.roots }
    let s := s.setMask Fld.millEngupUp n true
    (s.set Fld.millStateJoined ((List.range 24).countP fun k => bitOf (s.get Fld.millEngupUp) k)).millJoined
  else s

/-- Brings an engine in: its island is asked for, or, when it is on already, the engine joins (R112). -/
def State.engineIn (s : State) (n : Fin 24) : State :=
  if s.islandOn (.engine n) then s.engineJoin n.val else s.askIsland (.engine n)

/-- All engines, in order. -/
def allEngines : List (Fin 24) := List.finRange 24

/-- An ENGFAIL bit is cleared (R106): the engine returns to dispatch if its live ENABLE bit is 1. -/
def State.engfailClear (s : State) (n : Fin 24) : State :=
  if bitOf (s.get Fld.millEngfailFail) n.val then
    let s := s.setMask Fld.millEngfailFail n.val false
    if bitOf (s.get Fld.millEnableEnable) n.val ∧ s.millState ≠ 0 then s.engineIn n else s
  else s

/-- ENGFAIL_CLEAR (R106). -/
def execEngfailClear (e : Fin 24) (s : State) : Result := .next (s.engfailClear e)

/-- Reads the flow table (R99, R114): FLAGS, WINDOW and HOLEDEST of every flow, and its counters from FIRST_SEQ at a fresh start. -/
def State.readFlows (s : State) (fresh : Bool) : State :=
  let base := s.get Fld.millFlowtabAddr * 256
  let s := s.touch (base + 16) 16368
  (List.range 1023).foldl (fun s i =>
    let f := i + 1
    let a := base + 16 * f
    let old := s.flow f
    let first := s.readLE (a + 4) 4
    let x : MillFlow := { old with ordOk := bitOf (s.readLE a 1) 0, window := s.readLE (a + 1) 1, holeDest := s.readLE (a + 8) 8 }
    let x : MillFlow := if fresh then { x with nextSeq := first, nextRel := first } else x
    if x = {} then { s with mill := { s.mill with flows := Map.del s.mill.flows f } } else s.setFlow f x) s

/-- The regions of the LAYOUT group on the copy `g` reads (R114): node table, flow table, injection ring, and the cut. -/
def millRegions (g : Fld → Nat) : List (Nat × Nat) :=
  [(g Fld.millGraphAddr * 256, 8 * g Fld.millNodesCount), (g Fld.millFlowtabAddr * 256, 16384),
   (g Fld.millInjbaseAddr * 256, 64 + 16 * g Fld.millInjlenEntries)] ++
  (if g Fld.millCutbaseAddr = 0 then [] else [(g Fld.millCutbaseAddr * 256, 0xB8000)])

/-- Whether no two regions of a list overlap. -/
def disjointRegions : List (Nat × Nat) → Bool
  | [] => true
  | r :: rs => rs.all (fun q => !overlaps r.1 r.2 q.1 q.2) && disjointRegions rs

/-- The LAYOUT checks of R114. -/
def millLayoutOk (s : State) (g : Fld → Nat) : Bool :=
  let lib := (g Fld.millLibBank * 0x400000, 0x400000)
  let rs := millRegions g
  rs.all (fun r => s.inRam r.1 r.2) && disjointRegions (lib :: rs) &&
  (g Fld.millCutbaseAddr = 0 || (rs.drop 1).all fun r => inGranary r.1 r.2 && s.inShadow r.1 r.2) &&
  [16, 32, 64, 128, 256, 512, 1024].contains (g Fld.millInjlenEntries)

/-- The RESERVE check of R114. -/
def millReserveOk (g : Fld → Nat) : Bool :=
  decide (g Fld.millReservePos ≤ g Fld.millReservePlan ∧ g Fld.millReservePlan ≤ g Fld.millReserveBg)

/-- Whether the staged set of MILL passes (R114, R487). -/
def millApplyOk (s : State) : Bool :=
  (!s.changed Blk.mill .gLayout none || (s.millState = 0 && millLayoutOk s (fun f => s.getStaged f))) &&
  (!s.changed Blk.mill .gReserve none || millReserveOk (fun f => s.getStaged f)) &&
  s.getStaged Fld.millEnableEnable != 0

/-- What a made apply of MILL does (R102, R114): the mode comes in force, the flow table is read, and engines follow ENABLE. -/
def State.millApplied (s : State) : State :=
  let s := (s.set Fld.millStateMode (s.get Fld.millModeMode)).readFlows false
  if s.millState = 0 ∨ s.millState = 1 then s
  else (allEngines.foldl (fun s n =>
    if bitOf (s.get Fld.millEnableEnable) n.val then
      (if bitOf (s.get Fld.millEngupUp) n.val ∨ bitOf (s.get Fld.millEngfailFail) n.val then s else s.engineIn n)
    else if bitOf (s.get Fld.millEngupUp) n.val ∧ (s.node n.val).item = none then s.engineOut n.val
    else s) s).millJoined

/-- MILL_RUN (R112, R487): a stopped Mill whose live set passes starts; at the first RUN the store is empty, and the flow counters start at
FIRST_SEQ. -/
def State.millRun (s : State) : State :=
  if s.millState ≠ 0 then s
  else if !(millLayoutOk s (fun f => s.get f) && millReserveOk (fun f => s.get f)) then s.raise 0x1010
  else
    let s := if s.mill.ran then s
      else (({ s with mill := { s.mill with items := [], ready := [], tombs := [], parked := [] } } : State).readFlows true).millFollow
    let s : State := { s.set Fld.millStateState 2 with mill := { s.mill with ran := true } }
    allEngines.foldl (fun s n =>
      if bitOf (s.get Fld.millEnableEnable) n.val ∧ !bitOf (s.get Fld.millEngfailFail) n.val then s.engineIn n else s) s

/-- MILL_RUN (R112). -/
def execMillRun (s : State) : Result := .next s.millRun

/-- MILL_STOP (R113): dispatch stops; during a cut the STOP is taken at its end. -/
def State.millStop (s : State) : State :=
  if s.millState = 2 ∨ s.millState = 3 then (s.set Fld.millStateState 5).millSettleStop
  else if s.millState = 4 then { s with mill := { s.mill with stopPending := true } }
  else s

/-- MILL_STOP (R113). -/
def execMillStop (s : State) : Result := .next s.millStop

/-- MILL_HWRESET (R96): STORE.HIGH becomes STORE.INUSE. -/
def State.millHwreset (s : State) : State := s.set Fld.millStoreHigh (s.get Fld.millStoreInuse)

/-- MILL_HWRESET (R96). -/
def execMillHwreset (s : State) : Result := .next s.millHwreset

/-! ### The Mill cut (R109, R110) -/

/-- The store entries of an item (Table 4.6). -/
def State.cutItem (s : State) (k : Nat) (x : MillItem) : List Byte :=
  let st := match x.run with
    | .waiting => 0
    | .ready => 1
    | _ => 2
  let order := if x.run = .ready then (s.readyList x.cls).findIdx (· = k) else 0
  x.tokens.flatMap fun t =>
    leBytes (destWord (k % 65536) t.1 (itemCtx k) x.flow x.cls).toNat 8 ++ leBytes t.2.toNat 8 ++ leBytes (x.seq.getD 0) 4 ++
    leBytes st 1 ++ leBytes x.runs 1 ++ leBytes order 2 ++ leBytes 0 8

/-- The store entry of a tombstone (Table 4.6). -/
def cutTomb (k : Nat) (t : Tomb) : List Byte :=
  let (f, c, q) := t.hole.getD (0, 0, 0)
  leBytes (destWord (k % 65536) 0 (itemCtx k) f c).toNat 8 ++ leBytes 0 8 ++ leBytes q 4 ++ leBytes 3 1 ++ leBytes 0 3 ++
  leBytes (t.hole.isSome.toNat + 2 * t.dropped.toNat) 1 ++ leBytes 0 7

/-- The image of a parked retire (Table 4.5): 32 tokens, then 32 cancels; an unused place is all ones, which no token and no cancel is
(R77; DESIGN CHOICE, log 40). -/
def cutParked (p : Parked) : List Byte :=
  let t := p.tokens.flatMap fun t => leBytes t.1.toNat 8 ++ leBytes t.2.toNat 8
  let c := p.cancels.flatMap fun d => leBytes d.toNat 8
  (t ++ List.replicate (512 - t.length) 0xFF) ++ (c ++ List.replicate (256 - c.length) 0xFF)

/-- The items in the order the cut lists them: those of parked retires first, in their order (log 40), then the others. -/
def State.cutOrder (s : State) : List (Nat × MillItem) :=
  (s.mill.parked.filterMap fun p => (s.item p.item).map fun x => (p.item, x)) ++
  s.mill.items.filter fun p => p.2.run ≠ .parked

/-- The Mill cut of Table 4.5, with VALID 0; the mode in force is 1 for ordered and 0 for atomic (DESIGN CHOICE, log 40). -/
def State.millCut (s : State) : List Byte :=
  let flows := (List.range 1024).flatMap fun f =>
    let x := s.flow f
    leBytes (s.flowOrdered f).toNat 1 ++ leBytes x.window 1 ++ leBytes 0 2 ++ leBytes x.nextSeq 4 ++ leBytes x.nextRel 4 ++ leBytes 0 4
  leBytes 0x5455434D 4 ++ leBytes s.cycle 4 ++ leBytes s.mill.inUse 4 ++ leBytes s.mill.parked.length 4 ++
  leBytes (s.get Fld.millInjgetGet) 4 ++ leBytes 0 44 ++ flows ++
  s.cutOrder.flatMap (fun p => s.cutItem p.1 p.2) ++ s.mill.tombs.flatMap (fun p => cutTomb p.1 p.2) ++
  s.mill.parked.flatMap cutParked

/-- The cut starts (R109): in pair mode with CUTBASE set; a running Mill enters CUTTING; a cut due in RESTORING waits. -/
def State.millCutStart (s : State) : State :=
  let base := s.get Fld.millCutbaseAddr
  if s.solo ∨ base = 0 ∨ s.mill.cutting then s
  else if s.millState = 1 then { s with mill := { s.mill with cutPending := true, cutCycle := some s.cycle } }
  else
    let bytes := s.millCut
    let st := s.millState
    let s := if st = 0 then s else s.set Fld.millStateState 4
    let s : State := { s with mill := { s.mill with
      cutting := true, cutPending := false, cutLate := false, cutCycle := some s.cycle, prev := st } }
    (s.store (base * 256) bytes).set Fld.millCutLastsizeKb ((bytes.length + 1023) / 1024)

/-- How long before the freeze the cut starts, in us (Table 4.10). -/
def State.cutLead (s : State) : Nat :=
  let l := s.get Fld.millCutLeadUs
  if 20 ≤ l ∧ l ≤ 200 then l else 40

/-- Whether the cut of the present cycle can still come due: once a cycle, and before the freeze (R109). -/
def State.millCutDue (s : State) : Bool :=
  !s.solo && s.get Fld.millCutbaseAddr != 0 && s.mill.cutCycle ≠ some s.cycle && decide (s.get Fld.sysPhasePhase < 2)

/-- MILL_CUT_DONE (R109): the last byte is written; before the freeze the cut is valid, after it CUT_LATE is raised. The Mill resumes,
taking a STOP that came meanwhile and the result tokens that waited. -/
def State.millCutDone (s : State) : State :=
  if !s.mill.cutting then s
  else
    let ok := decide (s.get Fld.sysPhaseOffsetUs ≤ 6000 ∧ s.get Fld.sysPhasePhase < 2)
    let s := if ok then s.store (s.get Fld.millCutbaseAddr * 256 + 20) [1]
      else if s.mill.cutLate then s else s.raise 0x1007
    let s := s.setB Fld.millCutLastvalid ok
    let stop := s.mill.stopPending
    let s := if s.millState = 4 then s.set Fld.millStateState s.mill.prev else s
    let s : State := { s with mill := { s.mill with cutting := false, cutLate := false, stopPending := false } }
    let s := if stop then s.millStop else s
    (s.millResults s.mill.results.length).millFollow.millSettleStop

/-- CUT_LATE (R109): a cut unfinished at the freeze is marked invalid. -/
def State.millFreeze (s : State) : State :=
  if s.mill.cutting ∧ !s.mill.cutLate then
    let s : State := { s with mill := { s.mill with cutLate := true } }
    (s.setB Fld.millCutLastvalid false).raise 0x1007
  else s

/-- MILL_CUT_DONE (R109). -/
def execMillCutDone (s : State) : Result := .next s.millCutDone

/-- MILL_RESTORE (R110): a stopped Mill starts loading the cut; otherwise MILL_NOT_STOPPED. -/
def State.millRestore (s : State) : State :=
  if s.millState = 0 then s.set Fld.millStateState 1 else s.raise 0x1011

/-- MILL_RESTORE (R110). -/
def execMillRestore (s : State) : Result := .next s.millRestore

/-- One entry of the cut's store. -/
structure CutEntry where
  dest : Word
  value : Word
  seq : Nat
  state : Nat
  runs : Nat
  order : Nat
  hole : Nat
  deriving DecidableEq, Repr

/-- Reads one store entry of the cut. -/
def State.cutEntry (s : State) (a : Nat) : CutEntry :=
  { dest := BitVec.ofNat 64 (s.readLE a 8), value := BitVec.ofNat 64 (s.readLE (a + 8) 8), seq := s.readLE (a + 16) 4,
    state := s.readLE (a + 20) 1, runs := s.readLE (a + 21) 1, order := s.readLE (a + 22) 2, hole := s.readLE (a + 24) 1 }

/-- Inserts an item into a ready list by its order in the cut. -/
def insertBy (l : List (Nat × Nat)) (o k : Nat) : List (Nat × Nat) :=
  l.takeWhile (fun p => p.1 ≤ o) ++ [(o, k)] ++ l.dropWhile (fun p => p.1 ≤ o)

/-- Whether an entry of the cut is of an item loaded before: it stands in the same state at the same SEQ, and its port is free. -/
def sameItem (x : MillItem) (e : CutEntry) (run : ItemRun) (seq : Option Nat) : Bool :=
  x.run = run && x.seq = seq && x.flow = destFlow e.dest && (Map.find x.tokens (destPort e.dest)).isNone

/-- Adds a store entry of an item (R110), and answers the number the item is held under.  The cut does not tell the items of context runs
that have ended from others of the same context and node: a waiting item is of the present run, and of others the first listed is
(DEDUCED, log 40). -/
def loadToken (m : Mill) (cycle : Nat) (e : CutEntry) : Mill × Nat :=
  let k := destItem e.dest
  let run : ItemRun := if e.state = 0 then .waiting else if e.state = 1 then .ready else .service
  let seq := if e.state = 0 ∨ destFlow e.dest = 0 then none else some e.seq
  let new : MillItem := { flow := destFlow e.dest, cls := destClass e.dest, run := run, seq := seq, runs := e.runs, cycle := cycle }
  let (j, x) := match m.items.find? fun p => p.1 % 2 ^ 28 = k && sameItem p.2 e run seq with
    | some p => p
    | none => (if (Map.find m.items k).isNone then k else m.spare k, new)
  ({ m with items := Map.put m.items j { x with tokens := Map.put x.tokens (destPort e.dest) e.value } }, j)

/-- Loads store entries of the cut, tombstones with their holes and items; answers the entries of items with the numbers they are held
under. -/
def loadEntries (cycle : Nat) : Mill → List CutEntry → Mill × List (Nat × CutEntry)
  | m, [] => (m, [])
  | m, e :: es =>
    if e.state = 3 then
      let k := destItem e.dest
      let h := if bitOf e.hole 0 then some (destFlow e.dest, destClass e.dest, e.seq) else none
      let k := if (Map.find m.tombs k).isSome then m.spare k else k
      loadEntries cycle { m with tombs := Map.put m.tombs k { hole := h, dropped := bitOf e.hole 1 } } es
    else
      let (m, k) := loadToken m cycle e
      let (m, ks) := loadEntries cycle m es
      (m, (k, e) :: ks)

/-- Whether `a` comes before `b` in the order in which items in service at the cut head their lists: by SEQ within a flow. -/
def seqBefore (a b : MillItem) : Bool := a.flow = b.flow && cycleAfter (b.seq.getD 0) (a.seq.getD 0)

/-- Inserts an item in service at the cut before those of its flow that follow it in SEQ order. -/
def insertSeq (items : Map MillItem) (l : List Nat) (k : Nat) : List Nat :=
  let x := Map.getD items k {}
  l.takeWhile (fun j => !seqBefore x (Map.getD items j {})) ++ [k] ++ l.dropWhile (fun j => !seqBefore x (Map.getD items j {}))

/-- Loads a cut that is valid (R110): every item keeps its state and order, but items in service are ready at the head of their lists;
parked retires are parked again, on the first items listed, their tokens and cancels those of places that are not all ones (log 40). -/
def State.loadCut (s : State) (a : Nat) : State :=
  let n := s.readLE (a + 8) 4
  let p := s.readLE (a + 12) 4
  let es := (List.range (min n 16384)).map fun i => s.cutEntry (a + 16448 + 32 * i)
  let cycle := s.readLE (a + 4) 4
  let empty := { s.mill with items := [], ready := [], tombs := [], parked := [], ran := true, injStall := false }
  let (m, _) := loadEntries cycle empty (es.filter fun e => e.state = 0)
  let (m, ks) := loadEntries cycle m (es.filter fun e => e.state ≠ 0)
  let order := (ks.map Prod.fst).eraseDups
  let pks := order.take (min p 256)
  let img := fun (i : Nat) => a + 16448 + 32 * n + 768 * i
  let tok := fun (b : Nat) => ((List.range 32).map fun j =>
    (BitVec.ofNat 64 (s.readLE (b + 16 * j) 8), BitVec.ofNat 64 (s.readLE (b + 16 * j + 8) 8))).filter fun t => t.1 ≠ BitVec.allOnes 64
  let can := fun (b : Nat) => ((List.range 32).map fun j => (BitVec.ofNat 64 (s.readLE (b + 512 + 8 * j) 8) : Word)).filter
    (· ≠ BitVec.allOnes 64)
  let parked := (List.range pks.length).map fun i =>
    let k := pks.getD i 0
    let x := Map.getD m.items k {}
    (⟨x.flow, x.seq.getD 0, k, tok (img i), can (img i)⟩ : Parked)
  let serv := order.filter fun k => !pks.contains k && (Map.getD m.items k {}).run = .service
  let ready := (List.range 4).map fun c =>
    let l := ks.foldl (fun l p =>
      if p.2.state = 1 ∧ destClass p.2.dest = c ∧ !(l.any fun q => q.2 = p.1) then insertBy l p.2.order p.1 else l) []
    let head := (serv.filter fun k => (Map.getD m.items k {}).cls = c).foldl (insertSeq m.items) []
    (c, head ++ l.map Prod.snd)
  let items := m.items.map fun q =>
    if pks.contains q.1 then (q.1, { q.2 with run := .parked })
    else if q.2.run = .service then (q.1, { q.2 with run := .ready }) else q
  let s : State := { s with mill := { m with items := items, ready := ready, parked := parked } }
  let s := (List.range 1023).foldl (fun s i =>
    let f := i + 1
    let b := a + 64 + 16 * f
    let x : MillFlow := { s.flow f with window := s.readLE (b + 1) 1, nextSeq := s.readLE (b + 4) 4, nextRel := s.readLE (b + 8) 4 }
    if x = {} then { s with mill := { s.mill with flows := Map.del s.mill.flows f } } else s.setFlow f x) s
  s.set Fld.millInjgetGet (s.readLE (a + 16) 4)

/-- MILL_RESTORE_DONE (R110): the cut is loaded; a cut with a wrong MAGIC or VALID 0 leaves the store empty and the flow counters at
FIRST_SEQ. A cut due meanwhile starts now (R109). -/
def State.millRestoreDone (s : State) : State :=
  if s.millState ≠ 1 then s
  else
    let a := s.get Fld.millCutbaseAddr * 256
    let s := (s.set Fld.millStateState 0).touch a 16448
    let s := s.touch (a + 16448) (32 * min (s.readLE (a + 8) 4) 16384 + 768 * min (s.readLE (a + 12) 4) 256)
    let s := if s.readLE a 4 = 0x5455434D ∧ s.readLE (a + 20) 1 = 1 then s.loadCut a
      else
        let s : State := { s with mill := { s.mill with items := [], ready := [], tombs := [], parked := [], ran := true } }
        (s.readFlows true).raise 0x1008
    let s := s.millFollow
    if s.mill.cutPending then s.millCutStart else (s.millResults s.mill.results.length).millFollow

/-- MILL_RESTORE_DONE (R110). -/
def execMillRestoreDone (s : State) : Result := .next s.millRestoreDone

end Sys2Proof.Machine
end

