-- ==== Sys2Proof/Machine/Reeve.lean ====
section
/-! DEFINITION. The Reeve (spec/08_reeve.md): the lane graph, the reservation table and its mirror, requests and their results, tasks,
light windows, rounds, restore, and run and stop. -/

namespace Sys2Proof.Machine

/-- 16-bit modular difference of bucket numbers (R192). -/
def bucketDiff (a b : Nat) : Int := signed 16 (unsigned 16 ((a : Int) - b))

/-- P_next of the present cycle (R192). -/
def State.pNext (s : State) : Nat := s.get Fld.reeveBucketNext

/-- The address of a place in the mirror (Table 8.16). -/
def State.mirror (s : State) (off : Nat) : Nat := s.get Fld.reeveMirrorAddr * 256 + off

/-- The present second of site time, low 32 bits. -/
def State.second (s : State) : Nat := s.site.sec % 2 ^ 32

/-- The difference of two 32-bit second counts. -/
def secDiff (a b : Nat) : Int := signed 32 (unsigned 32 ((a : Int) - b))

/-! ### The table and its mirror (R195, R196) -/

/-- The set of a cell (R195). -/
def resvSet (group bucket : Nat) : Nat := (5 * group + 521 * (bucket % 32)) % 16384

/-- The state code of Table 8.4. -/
def ResvState.code : ResvState → Nat
  | .held => 0
  | .pending => 1
  | .revoking => 2

/-- An entry's 16 bytes (Table 8.3). -/
def Resv.bytes (e : Resv) : List Byte :=
  leBytes (e.group + 32768) 2 ++ leBytes e.bucket 2 ++ leBytes e.holder 2 ++ leBytes e.seg 2 ++ leBytes e.resid 4 ++
  leBytes (e.pri + 8 * e.state.code) 1 ++ leBytes 0 1 ++ leBytes e.task 2

/-- Writes an entry, and its copy in the mirror in the same clock (R195). -/
def State.putResv (s : State) (k : Nat) (e : Resv) : State :=
  ({ s with reeve := { s.reeve with table := Map.put s.reeve.table k e } } : State).store (s.mirror (16 * k)) e.bytes

/-- Frees an entry, and its copy in the mirror; a revoke no longer names it. -/
def State.freeResv (s : State) (k : Nat) : State :=
  let rv := s.reeve.revokes.map fun v => { v with keys := v.keys.filter (· ≠ k) }
  ({ s with reeve := { s.reeve with table := Map.del s.reeve.table k, revokes := rv } } : State).store (s.mirror (16 * k)) (leBytes 0 16)

/-- The entries that satisfy a test. -/
def State.resvWhere (s : State) (p : Resv → Bool) : List (Nat × Resv) := s.reeve.table.filter fun q => p q.2

/-- Frees entries. -/
def State.freeAll (s : State) (es : List (Nat × Resv)) : State := es.foldl (fun s q => s.freeResv q.1) s

/-- Puts entries into a state. -/
def State.markAll (s : State) (es : List (Nat × Resv)) (st : ResvState) : State :=
  es.foldl (fun s q => s.putResv q.1 { q.2 with state := st }) s

/-- The lowest free way of a set. -/
def freeWay (table : Map Resv) (set : Nat) : Option Nat :=
  ((List.range 4).map fun w => 4 * set + w).find? fun k => (Map.find table k).isNone

/-- Bit g of byte g/8 of the closed-group bitmap (Table 8.16). -/
def State.putClosed (s : State) (g : Nat) (b : Bool) : State :=
  let l := if b then insertLine s.reeve.closed g else s.reeve.closed.filter (· ≠ g)
  let byte := (List.range 8).foldl (fun v i => setBit v i (l.contains (g / 8 * 8 + i))) 0
  ({ s with reeve := { s.reeve with closed := l } } : State).store (s.mirror (0x120800 + g / 8)) (leBytes byte 1)

/-- A task's 32 bytes (Table 8.10). -/
def TaskRec.bytes (t : TaskRec) : List Byte :=
  leBytes t.state 1 ++ leBytes t.kind 1 ++ leBytes t.pri 1 ++ leBytes t.bay 1 ++ leBytes t.node 2 ++ leBytes t.robot 2 ++
  leBytes t.recipe 1 ++ leBytes t.window 1 ++ leBytes t.round 2 ++ leBytes t.deadline 4 ++ leBytes t.duration 4 ++
  leBytes t.posted 4 ++ leBytes t.tag 8

/-- Writes a task. -/
def State.putTask (s : State) (n : Nat) (t : TaskRec) : State :=
  ({ s with reeve := { s.reeve with tasks := Map.put s.reeve.tasks n t } } : State).store (s.mirror (0x100000 + 32 * n)) t.bytes

/-- Makes a task FREE. -/
def State.freeTask (s : State) (n : Nat) : State :=
  ({ s with reeve := { s.reeve with tasks := Map.del s.reeve.tasks n } } : State).store (s.mirror (0x100000 + 32 * n)) [0]

/-- A window's 16 bytes (Table 8.13). -/
def LightWin.bytes (w : LightWin) : List Byte :=
  leBytes w.bay 1 ++ leBytes w.recipe 1 ++ leBytes w.refs 1 ++ leBytes w.state 1 ++ leBytes w.start 4 ++ leBytes w.stop 4 ++
  leBytes w.charged 4

/-- Writes a window. -/
def State.putWindow (s : State) (n : Nat) (w : LightWin) : State :=
  ({ s with reeve := { s.reeve with windows := Map.put s.reeve.windows n w } } : State).store (s.mirror (0x120000 + 16 * n)) w.bytes

/-- Makes a window FREE. -/
def State.freeWindow (s : State) (n : Nat) : State :=
  ({ s with reeve := { s.reeve with windows := Map.del s.reeve.windows n } } : State).store (s.mirror (0x120000 + 16 * n + 3)) [0]

/-- The preemption table in the mirror: its entries in order from the first slot, the slots after them free (Table 8.16; log 42). -/
def State.writePreempts (s : State) : State :=
  let es := s.reeve.preempts.flatMap fun p => leBytes p.1 4 ++ leBytes p.2.1 2 ++ leBytes 0 2 ++ leBytes p.2.2.toNat 8
  (s.store (s.mirror 0x126940) es).zeroFill (s.mirror 0x126940 + es.length) (4096 - es.length)

/-- USE, POOL and the state block of the mirror follow the tables. -/
def State.reeveFollow (s : State) : State :=
  let s := (s.set Fld.reeveUseEntries s.reeve.table.length).set Fld.reeveUsePortq (s.reeve.queue.countP fun r => r.src.isNone)
  let s := s.set Fld.reevePoolTasks s.reeve.tasks.length
  let s := s.set Fld.reevePoolOpen (s.reeve.tasks.countP fun p => p.2.state = 1)
  let blk := leBytes 0x54535652 4 ++ leBytes s.cycle 4 ++ leBytes (s.get Fld.reeveGraphcrcCrc) 4 ++ leBytes s.pNext 2 ++
    leBytes (s.get Fld.reeveBucketRound) 2 ++ leBytes (s.get Fld.reeveResidnextResid) 4 ++ leBytes s.reeve.day 4 ++ leBytes 0 8 ++
    (List.range 16).flatMap fun b => leBytes (s.get Fld.reeveUsedUsedS b) 4
  if s.get Fld.reeveStateState = 3 ∨ s.get Fld.reeveStateState = 4 then s.store (s.mirror 0x121800) blk else s

/-! ### The revoke ring (Table 8.11) -/

/-- Records free in the revoke ring. -/
def State.revokeRoom (s : State) : Nat :=
  let a := s.get Fld.reeveRevokeAddr * 256
  s.get Fld.reeveRevokelenEntries - (s.readLE a 4 + 2 ^ 32 - s.readLE (a + 4) 4) % 2 ^ 32

/-- Writes one revoke record and advances PUT. -/
def State.revokeRecord (s : State) (v : Revoke) (kind : Nat) : State :=
  let a := s.get Fld.reeveRevokeAddr * 256
  let put := s.readLE a 4
  let slot := put % (max 1 (s.get Fld.reeveRevokelenEntries))
  let r := leBytes v.holder 2 ++ leBytes v.from' 2 ++ leBytes v.cells 2 ++ leBytes kind 1 ++ leBytes 0 1 ++ leBytes v.resid 4 ++
    leBytes s.cycle 4
  (s.store (a + 64 + 16 * slot) r).store a (leBytes ((put + 1) % 2 ^ 32) 4)

/-! ### Requests (R197-R203) -/

/-- A field of `n` bytes at offset `k` of a request. -/
def ClaimReq.at (r : ClaimReq) (k n : Nat) : Nat := leNat ((r.bytes.drop k).take n)

/-- Word `i` after the header. -/
def ClaimReq.word (r : ClaimReq) (i : Nat) : Nat := r.at (32 + 4 * i) 4

/-- The words of a request. -/
def ClaimReq.words (r : ClaimReq) : List Nat := (List.range r.c).map r.word

/-- What a request comes to: the result token's fields (Table 8.7). -/
structure ReeveAnswer where
  result : Nat
  index : Nat := 0
  data : Nat := 0
  resid : Nat := 0
  deriving DecidableEq, Repr

/-- The result token's value. -/
def ReeveAnswer.value (a : ReeveAnswer) : Word :=
  BitVec.ofNat 64 (a.result + a.index * 2 ^ 8 + a.data % 65536 * 2 ^ 16 + a.resid * 2 ^ 32)

/-- Whether c matches Table 8.6. -/
def wordCountOk (op c : Nat) : Bool :=
  match op with
  | 1 => decide (1 ≤ c ∧ c ≤ 64)
  | 6 => c = 6
  | 7 => c = 2
  | 2 | 3 | 4 | 5 | 8 | 9 => c = 1
  | _ => false

/-- Whether a request is well formed (R197): its OP is known, c matches, reserved bits are 0, and HOLDER names a robot or the site. -/
def ClaimReq.ok (r : ClaimReq) : Bool :=
  let op := r.at 0 1
  let h := r.at 4 2
  let words := match op with
    | 1 => r.words.all fun w => !bitOf w 15
    | 2 | 3 => r.word 0 % 65536 = 0
    | 4 | 5 => decide (r.word 0 < 32768)
    | 6 => decide (r.at 33 1 < 8) && r.at 38 2 = 0
    | 7 => decide (r.word 0 < 65536)
    | _ => r.word 0 = 0
  wordCountOk op r.c && decide (r.at 1 1 < 4) && decide (r.at 2 1 < 8) && r.at 3 1 = 0 && r.at 24 8 = 0 &&
  (op = 2 || r.at 12 4 = 0) && ((op = 1 && bitOf (r.at 1 1) 1) || r.at 16 8 = 0) &&
  decide (h < 1024 ∨ h = 0xFFFF) && words

/-- Whether a request is older than MAXAGE (R197, R214). -/
def State.reqStale (s : State) (r : ClaimReq) : Bool :=
  decide ((s.get Fld.reeveHorizonMaxage : Int) < signed 32 (unsigned 32 ((r.base.getD s.cycle : Int) - r.at 8 4)))

/-- Whether a group is closed (R191, R203). -/
def State.groupClosed (s : State) (g : Nat) : Bool := s.reeve.perm.contains g || s.reeve.closed.contains g

/-- What the check of a CLAIM has gathered so far. -/
structure ClaimCheck where
  table : Map Resv
  cells : List (Nat × Resv) := []
  victims : List (Nat × Nat) := []
  first : Nat := 0
  deriving DecidableEq, Repr

/-- The earliest bucket of a path, from P_next. -/
def earliest (p : Nat) : List Nat → Nat
  | [] => p
  | [w] => w / 65536
  | w :: ws => if bucketDiff (w / 65536) (earliest p ws) < 0 then w / 65536 else earliest p ws

/-- Adds a preempted cell of a holder: the earliest bucket of each (R200). -/
def addVictim (vs : List (Nat × Nat)) (h b : Nat) : List (Nat × Nat) :=
  match vs.find? fun v => v.1 = h with
  | some _ => vs.map fun v => if v.1 = h ∧ bucketDiff b v.2 < 0 then (h, b) else v
  | none => vs ++ [(h, b)]

/-- Checks the cells of a CLAIM in path order (R193, R195, R198-R200): the answer of the first that fails, or what is to be written. -/
def State.checkCells (s : State) (r : ClaimReq) (pri resid i : Nat) : List Nat → ClaimCheck → Except ReeveAnswer ClaimCheck
  | [], c => .ok c
  | w :: ws, c =>
    let seg := w % 32768
    let b := w / 65536
    let holder := r.at 4 2
    match s.reeve.segs[seg]? with
    | none => .error ⟨6, i, 0, 0⟩
    | some g =>
      let d := bucketDiff b s.pNext
      let mine := c.cells.any fun q => q.2.group = g && q.2.bucket = b
      let own := fun (e : Resv) => bitOf (r.at 1 1) 0 && decide (e.holder = holder)
      let there := (c.table.filter fun q => q.2.group = g && q.2.bucket = b &&
        !(c.cells.any fun p => p.1 = q.1)).map Prod.snd |>.filter fun e => !own e
      let can := fun (e : Resv) => bitOf (r.at 1 1) 1 && e.state = .held && e.holder != 0xFFFF && decide (e.pri < pri) &&
        decide ((s.get Fld.reeveHorizonLead : Int) ≤ d)
      if s.groupClosed g then .error ⟨5, i, g, 0⟩
      else if d < 0 then .error ⟨3, i, 0, 0⟩
      else if (s.get Fld.reeveHorizonBuckets : Int) - 1 < d then .error ⟨4, i, 0, 0⟩
      else if mine then s.checkCells r pri resid (i + 1) ws c
      else match there.find? fun e => !can e with
        | some e => .error ⟨1, i, e.holder, e.resid⟩
        | none =>
          match freeWay c.table (resvSet g b) with
          | none => .error ⟨2, i, resvSet g b, 0⟩
          | some k =>
            let e : Resv := ⟨g, b, holder, seg, resid, pri, .held, r.at 6 2⟩
            s.checkCells r pri resid (i + 1) ws
              { table := Map.put c.table k e, cells := c.cells ++ [(k, e)],
                victims := there.foldl (fun v e => addVictim v e.holder b) c.victims,
                first := if c.victims = [] ∧ there ≠ [] then i else c.first }

/-- Marks the victims of a preemption (R200 steps 1 and 2). -/
def State.revokeVictims (s : State) (resid : Nat) (vs : List (Nat × Nat)) : State :=
  vs.foldl (fun s v =>
    let es := s.resvWhere fun e => e.holder = v.1 && e.state = .held && decide (0 ≤ bucketDiff e.bucket v.2)
    let rv : Revoke := ⟨v.1, v.2, es.length, resid, es.map (·.1)⟩
    let s := (s.markAll es .revoking).revokeRecord rv 1
    { s with reeve := { s.reeve with revokes := s.reeve.revokes ++ [rv] } }) s

/-- CLAIM (R198-R200). -/
def State.reqClaim (s : State) (r : ClaimReq) : ReeveAnswer × State :=
  let holder := r.at 4 2
  let pri := if holder = 0xFFFF then 7 else r.at 2 1
  let resid := s.get Fld.reeveResidnextResid
  let from' := earliest s.pNext r.words
  let frees := if bitOf (r.at 1 1) 0 then
      s.resvWhere fun e => e.holder = holder && e.state = .held && decide (0 ≤ bucketDiff e.bucket from')
    else []
  let start : ClaimCheck := { table := s.reeve.table.filter fun q => !(frees.any fun f => f.1 = q.1) }
  match s.checkCells r pri resid 0 r.words start with
  | .error a =>
    let s := match a.result with
      | 1 => s.bump Fld.reeveCnt0Conflicts
      | 2 => (s.bump Fld.reeveCnt1Full).raise 0x1481 a.data
      | 3 => s.bump Fld.reeveCnt1Stale
      | _ => s
    (a, s)
  | .ok c =>
    if c.victims ≠ [] ∧ (s.revokeRoom < c.victims.length ∨ 256 ≤ s.reeve.preempts.length) then (⟨15, 0, 0, 0⟩, s.raise 0x1485)
    else
      let s := s.set Fld.reeveResidnextResid (if resid = 0xFFFFFFFF then 1 else resid + 1)
      let s := (s.freeAll frees).bump Fld.reeveCnt0Commits
      if c.victims = [] then
        (⟨0, 0, c.cells.length, resid⟩, c.cells.foldl (fun s q => s.putResv q.1 q.2) s)
      else
        let s := (s.revokeVictims resid c.victims).bump Fld.reeveCnt2Preempts
        let s := c.cells.foldl (fun s q => s.putResv q.1 { q.2 with state := .pending }) s
        let p := (resid, c.victims.length, BitVec.ofNat 64 (r.at 16 8))
        let s : State := { s with reeve := { s.reeve with preempts := s.reeve.preempts ++ [p] } }
        (⟨7, c.first, (c.victims.headD (0, 0)).1, resid⟩, s.writePreempts)

/-- RELEASE (R202). -/
def State.reqRelease (s : State) (r : ClaimReq) : ReeveAnswer × State :=
  let f := r.word 0 / 65536
  let es := s.resvWhere fun e => e.holder = r.at 4 2 && e.state = .held && decide (0 ≤ bucketDiff e.bucket f) &&
    (r.at 12 4 = 0 || e.resid = r.at 12 4)
  if es = [] then (⟨8, 0, 0, 0⟩, s) else (⟨0, 0, es.length, 0⟩, s.freeAll es)

/-- The entries of a revoke that are still REVOKING. -/
def State.revoked (s : State) (v : Revoke) : List (Nat × Resv) :=
  s.reeve.table.filter fun p => v.keys.contains p.1 && decide (p.2.state = .revoking)

/-- A settle token goes to its SETTLE_DEST (R201). -/
def State.settleToken (s : State) (resid : Nat) (a : ReeveAnswer) (same : List (Fin 24)) : State :=
  match s.reeve.preempts.find? fun p => p.1 = resid with
  | some p => s.reeveResult p.2.2 a.value same
  | none => s

/-- Frees an entry of the preemption table. -/
def State.dropPreempt (s : State) (resid : Nat) : State :=
  ({ s with reeve := { s.reeve with preempts := s.reeve.preempts.filter fun p => p.1 ≠ resid } } : State).writePreempts

/-- CONFIRM (R201): the revoked holder's entries are freed; once every holder of a preempting claim has been confirmed, it settles. -/
def State.reqConfirm (s : State) (r : ClaimReq) (same : List (Fin 24)) : ReeveAnswer × State :=
  match s.reeve.revokes.find? fun v => v.holder = r.at 4 2 && v.from' = r.word 0 / 65536 with
  | none => (⟨8, 0, 0, 0⟩, s)
  | some v =>
    let es := s.revoked v
    let s : State := { s with reeve := { s.reeve with
      revokes := s.reeve.revokes.filter (· ≠ v)
      preempts := s.reeve.preempts.map fun p => if p.1 = v.resid then (p.1, p.2.1 - 1, p.2.2) else p } }
    let s := (s.freeAll es).revokeRecord v 2
    if s.reeve.preempts.any fun p => p.1 = v.resid && decide (0 < p.2.1) then (⟨0, 0, es.length, 0⟩, s.writePreempts)
    else
      let pend := s.resvWhere fun e => e.resid = v.resid && e.state = .pending
      let s := (s.markAll pend .held).settleToken v.resid ⟨0, 0, pend.length, v.resid⟩ same
      (⟨0, 0, es.length, 0⟩, s.dropPreempt v.resid)

/-- CLOSE and OPEN (R203): the run-time closed bit of the segment's group; the result counts the entries on it. -/
def State.reqClose (s : State) (r : ClaimReq) (close : Bool) : ReeveAnswer × State :=
  match s.reeve.segs[r.word 0]? with
  | none => (⟨6, 0, 0, 0⟩, s)
  | some g => (⟨0, 0, (s.resvWhere fun e => e.group = g).length, 0⟩, s.putClosed g close)

/-! ### Tasks and windows (R205-R210) -/

/-- TASK_POST (R205): the lowest FREE task becomes OPEN. -/
def State.reqPost (s : State) (r : ClaimReq) : ReeveAnswer × State :=
  let bay := r.at 34 1
  let recipe := r.at 35 1
  let node := r.at 36 2
  if 15 < recipe ∨ (recipe ≠ 0 ∧ s.get Fld.reeveLightBays ≤ bay) ∨ s.get Fld.reeveGraphsizeNodes ≤ node then (⟨6, 0, 0, 0⟩, s)
  else match (List.range 4096).find? fun t => (Map.find s.reeve.tasks t).isNone with
    | none => (⟨14, 0, 0, 0⟩, s.raise 0x1483)
    | some t =>
      (⟨0, 0, t, 0⟩, s.putTask t
        { state := 1, kind := r.at 32 1, pri := r.at 33 1, bay := bay, node := node, robot := 0xFFFF, recipe := recipe, window := 0xFF,
          round := s.get Fld.reeveBucketRound, deadline := r.at 44 4, duration := r.at 40 4, posted := s.second, tag := r.at 48 8 })

/-- The part of `[a, b)` that no interval of a list covers. -/
def uncovered : List (Int × Int) → Int → Int → Int
  | [], a, b => max 0 (b - a)
  | (x, y) :: t, a, b => if b ≤ a then 0 else uncovered t a (min b x) + uncovered t (max a y) b

/-- What R209 finds for an interval in a bay: the window in the way, or the window to extend or to book. -/
inductive WindowFit where
  | conflict (w : Nat)
  | extend (w : Nat)
  | book (w : Nat)
  deriving DecidableEq, Repr

/-- The window search of R209, with seconds counted from the present one. -/
def State.fitWindow (s : State) (bay recipe : Nat) (a b : Int) : WindowFit :=
  let rel := fun (x : Nat) => secDiff x s.second
  let live := s.reeve.windows.filter fun p => p.2.bay = bay && (p.2.state = 1 || p.2.state = 2)
  match live.find? fun p => p.2.recipe ≠ recipe && decide (rel p.2.start < b ∧ a < rel p.2.stop) with
  | some p => .conflict p.1
  | none =>
    match live.find? fun p => p.2.recipe = recipe && decide (rel p.2.start ≤ b ∧ a ≤ rel p.2.stop) with
    | some p => .extend p.1
    | none =>
      match (List.range 128).find? fun w => (Map.find s.reeve.windows w).isNone with
      | some w => .book w
      | none => .conflict 0xFFFF

/-- The start of the present budget day, in seconds from the present one (R210). -/
def State.dayStart (s : State) : Int :=
  -(((s.site.sec : Int) - s.get Fld.reeveDayoffOffsetS) % 86400)

/-- The number of the present budget day. -/
def State.dayNumber (s : State) : Nat := (((s.site.sec : Int) - s.get Fld.reeveDayoffOffsetS) / 86400).toNat % 2 ^ 32

/-- AWARD (R207-R210): the checks of Table 8.12 in order, then the assignment with its window. -/
def State.reqAward (s : State) (r : ClaimReq) : ReeveAnswer × State :=
  let round := s.get Fld.reeveBucketRound
  let tn := r.at 6 2
  let robot := r.at 4 2
  let t := (Map.find s.reeve.tasks tn).getD ⟨0, 0, 0, 0, 0, 0, 0, 0, 0, 0, 0, 0, 0⟩
  let busy := s.reeve.tasks.find? fun p => p.2.state = 2 && p.2.robot = robot
  let a := secDiff (r.word 1) s.second
  let b := a + t.duration
  if r.word 0 ≠ round then (⟨9, 0, round, 0⟩, s)
  else if t.state ≠ 1 then (⟨10, 0, t.state, 0⟩, s)
  else if busy.isSome then (⟨11, 0, (busy.map Prod.fst).getD 0, 0⟩, s)
  else if secDiff t.deadline s.second ≤ 0 ∨ (t.recipe ≠ 0 ∧ secDiff t.deadline s.second < b) then (⟨16, 0, 0, 0⟩, s)
  else
    let done := fun (s : State) (w : Nat) =>
      s.putTask tn { t with state := 2, robot := robot, window := w, round := round }
    if t.recipe = 0 then (⟨0, 0, 0xFFFF, 0⟩, done s 0xFF)
    else if a < s.get Fld.reeveLightLeadS then (⟨18, 0, 0, 0⟩, s)
    else
      let used := s.get Fld.reeveUsedUsedS t.bay
      let budget := s.get Fld.reeveBudgetBudgetS t.bay
      let rel := fun (x : Nat) => secDiff x s.second
      let mine := (s.reeve.windows.filter fun p => p.2.bay = t.bay && (p.2.state = 1 || p.2.state = 2)).map fun p =>
        (rel p.2.start, rel p.2.stop)
      let charge := (uncovered mine a b).toNat
      let left := (min 65535 (budget - used))
      let abs := fun (x : Int) => unsigned 32 (s.second + x)
      let put := fun (w : Nat) (x : LightWin) (lo hi : Int) =>
        if budget = 0 ∨ budget < used + charge ∨ lo < s.dayStart ∨ s.dayStart + 86400 < hi then
          ((⟨13, 0, left, 0⟩, s) : ReeveAnswer × State)
        else
          let x := { x with start := abs lo, stop := abs hi, refs := x.refs + 1, charged := x.charged + charge }
          (⟨0, 0, w, 0⟩, done ((s.putWindow w x).set Fld.reeveUsedUsedS (used + charge) t.bay) w)
      match s.fitWindow t.bay t.recipe a b with
      | .conflict w => (⟨12, 0, w, 0⟩, s)
      | .extend w =>
        let x := Map.getD s.reeve.windows w ⟨0, 0, 0, 0, 0, 0, 0⟩
        put w x (min (rel x.start) a) (max (rel x.stop) b)
      | .book w => put w ⟨t.bay, t.recipe, 0, 1, 0, 0, 0⟩ a b

/-- Lowers REFS of a task's window (R208): a BOOKED window without users is freed and its charge refunded. -/
def State.leaveWindow (s : State) (t : TaskRec) : State :=
  match Map.find s.reeve.windows t.window with
  | some w =>
    if t.recipe = 0 then s
    else if w.state = 1 ∧ w.refs ≤ 1 then
      (s.freeWindow t.window).set Fld.reeveUsedUsedS (s.get Fld.reeveUsedUsedS w.bay - w.charged) w.bay
    else s.putWindow t.window { w with refs := w.refs - 1 }
  | none => s

/-- TASK_DONE and TASK_CANCEL (R208). -/
def State.reqEndTask (s : State) (r : ClaimReq) (cancel : Bool) : ReeveAnswer × State :=
  let tn := r.at 6 2
  let t := (Map.find s.reeve.tasks tn).getD ⟨0, 0, 0, 0, 0, 0xFFFF, 0, 0xFF, 0, 0, 0, 0, 0⟩
  if t.state = 2 ∨ (cancel ∧ t.state = 1) then
    let s := if t.state = 2 then s.leaveWindow t else s
    let s := s.putTask tn { t with state := if cancel then 4 else 3, round := s.get Fld.reeveBucketRound }
    (⟨0, 0, t.robot, 0⟩, s)
  else (⟨10, 0, t.state, 0⟩, s)

/-! ### Taking a request (R197, R211) -/

/-- Whether the Reeve takes requests: RUNNING, in its window (R211). -/
def State.reeveTakes (s : State) : Bool := s.get Fld.reeveStateState = 3 && s.reeve.window

/-- The request at the head of the claim port queue, when its OP is the given one (an unknown OP stands with CLAIM). -/
def State.headReq (s : State) (op : Nat) : Option ClaimReq :=
  match s.reeve.queue with
  | r :: _ =>
    let o := r.at 0 1
    if r.src.isNone ∧ (o = op ∨ (op = 1 ∧ (o = 0 ∨ 9 < o))) then some r else none
  | [] => none

/-- Takes the head request (R197): STALE, BAD_REQUEST, or what its operation `f` answers; then its result token goes to its
destination with the cancels of the same clock (R98, R204). -/
def State.takeReq (s : State) (op : Nat) (same : List (Fin 24)) (f : State → ClaimReq → ReeveAnswer × State) : State :=
  if !s.reeveTakes then s
  else match s.headReq op with
    | none => s
    | some r =>
      let s : State := { s with reeve := { s.reeve with queue := s.reeve.queue.tail } }
      let (a, s) := if s.reqStale r then (⟨3, 0, 0, 0⟩, s.bump Fld.reeveCnt1Stale)
        else if !r.ok then (⟨6, 0, 0, 0⟩, s)
        else f s r
      s.reeveFollow.reeveResult r.dest a.value same

/-- CLAIM (R198). -/
def execClaim (same : List (Fin 24)) (s : State) : Result := .next (s.takeReq 1 same State.reqClaim)
/-- RELEASE (R202). -/
def execRelease (same : List (Fin 24)) (s : State) : Result := .next (s.takeReq 2 same State.reqRelease)
/-- CONFIRM (R201). -/
def execConfirm (same : List (Fin 24)) (s : State) : Result :=
  .next (s.takeReq 3 same fun s r => s.reqConfirm r same)
/-- CLOSE (R203). -/
def execCloseGroup (same : List (Fin 24)) (s : State) : Result := .next (s.takeReq 4 same fun s r => s.reqClose r true)
/-- OPEN (R203). -/
def execOpenGroup (same : List (Fin 24)) (s : State) : Result := .next (s.takeReq 5 same fun s r => s.reqClose r false)
/-- TASK_POST (R205). -/
def execTaskPost (same : List (Fin 24)) (s : State) : Result := .next (s.takeReq 6 same State.reqPost)
/-- AWARD (R207). -/
def execAward (same : List (Fin 24)) (s : State) : Result := .next (s.takeReq 7 same State.reqAward)
/-- TASK_DONE (R208). -/
def execTaskDone (same : List (Fin 24)) (s : State) : Result := .next (s.takeReq 8 same fun s r => s.reqEndTask r false)
/-- TASK_CANCEL (R208). -/
def execTaskCancel (same : List (Fin 24)) (s : State) : Result := .next (s.takeReq 9 same fun s r => s.reqEndTask r true)

/-! ### Compute start (R194, R201, R206, R212) -/

/-- Expiry (R194). -/
def State.reeveExpire (s : State) : State :=
  if s.reeve.expired = s.pNext then s
  else
    let s := s.freeAll (s.resvWhere fun e => decide (bucketDiff e.bucket s.pNext < 0))
    { s with reeve := { s.reeve with expired := s.pNext } }

/-- A preempting claim fails whole (R201). -/
def State.preemptFail (s : State) (resid : Nat) : State :=
  let open' := s.reeve.revokes.filter fun v => v.resid = resid
  let s := s.freeAll (s.resvWhere fun e => e.resid = resid && e.state = .pending)
  let s := open'.foldl (fun s v => (s.markAll (s.revoked v) .held).revokeRecord v 3) s
  let s : State := { s with reeve := { s.reeve with revokes := s.reeve.revokes.filter fun v => v.resid ≠ resid } }
  let s := (s.raise 0x1482).bump Fld.reeveCnt2RevokeFails
  let first := (open'.map Revoke.holder).headD 0
  (s.settleToken resid ⟨17, 0, first, 0⟩ []).dropPreempt resid

/-- Revoke deadlines (R201): FROM - MARGIN - P_next at or below 0; a claim that waits for a holder of which a restore found no revoke is due
as well (log 42). -/
def State.reeveDeadlines (s : State) : State :=
  let due := (s.reeve.revokes.filter fun v =>
    decide (bucketDiff v.from' s.pNext - (s.get Fld.reeveHorizonMargin : Int) ≤ 0)).map Revoke.resid
  let lost := (s.reeve.preempts.filter fun p => decide ((s.reeve.revokes.countP fun v => v.resid = p.1) < p.2.1)).map (·.1)
  ((due ++ lost).foldl (fun l r => if l.contains r then l else l ++ [r]) []).foldl State.preemptFail s

/-- The steps of the windows at a round (R209). -/
def State.stepWindows (s : State) : State :=
  s.reeve.windows.foldl (fun s p =>
    let w := p.2
    if w.state = 1 then (if secDiff w.start s.second ≤ 0 then s.putWindow p.1 { w with state := 2 } else s)
    else if w.state = 2 then (if secDiff w.stop s.second ≤ 0 then s.putWindow p.1 { w with state := 3 } else s)
    else s.freeWindow p.1) s

/-- The round start of a whole-second cycle (R206). -/
def State.roundStart (s : State) : State :=
  let s := s.bump Fld.reeveBucketRound
  let round := s.get Fld.reeveBucketRound
  let s := s.reeve.tasks.foldl (fun s p =>
    if p.2.state = 1 ∧ secDiff p.2.deadline s.second ≤ 0 then s.putTask p.1 { p.2 with state := 5, round := round } else s) s
  let s := s.reeve.tasks.foldl (fun s p =>
    if 3 ≤ p.2.state ∧ 2 ≤ (round + 65536 - p.2.round) % 65536 then s.freeTask p.1 else s) s
  let s := s.stepWindows
  let s : State := if s.reeve.day = s.dayNumber then s
    else
      let s := (List.range 16).foldl (fun s b => s.set Fld.reeveUsedUsedS 0 b) s
      { s with reeve := { s.reeve with day := s.dayNumber } }
  if s.getB Fld.reeveAucthiEn then
    let opens := s.reeve.tasks.countP fun p => p.2.state = 1
    s.reeveResult (BitVec.ofNat 64 (s.get Fld.reeveAuctloDestLo + s.get Fld.reeveAucthiDestHi * 2 ^ 32))
      (BitVec.ofNat 64 (round + opens * 65536)) []
  else s

/-- Whether the unit's pair state keeps the Reeve stopped (13 R322): SEEKING, SYNCING or INSYNC. -/
def State.reeveHeld (s : State) : Bool :=
  let p := s.get Fld.plinkStatePair
  p = 1 || p = 4 || p = 5

/-- Compute start of a running Reeve (R212): expiry, deadlines, the round of a whole-second cycle, and the request window; one run before T or
H waits for that cycle (R215). -/
def State.reeveComputeStart (s : State) (whole : Bool) : State :=
  if s.get Fld.reeveStateState = 3 ∧ !s.reeveHeld then
    let s := s.reeveExpire.reeveDeadlines
    let s := if whole then s.roundStart else s
    ({ s with reeve := { s.reeve with window := true } } : State).reeveFollow
  else s

/-- The request window closes (R211). -/
def State.reeveClose (s : State) : State := { s with reeve := { s.reeve with window := false } }

/-- The request window of a cycle without a Mill cut closes at 5.999 ms (R211). -/
def execSoloRequestWindowClose (s : State) : Result :=
  if s.solo ∨ s.get Fld.millCutbaseAddr = 0 then .next (s.moveTo 5999).reeveClose else .next s

/-- The queue snapshot of R213: the requests whose RCLAIM retires are in the cut, each whole, in queue order, where the mirror has been laid
out. -/
def State.queueSnapshot (s : State) : State :=
  if !s.inShadow (s.mirror 0) 1210688 then s
  else
    let rs := s.reeve.queue.filter fun r => r.src.isNone
    let slot := fun (r : ClaimReq) =>
      let b := leBytes r.dest.toNat 8 ++ leBytes r.c 1 ++ leBytes 0 7 ++ r.bytes
      b ++ List.replicate (320 - b.length) 0
    (s.store (s.mirror 0x121900) (leBytes rs.length 4)).store (s.mirror 0x121940) (rs.flatMap slot)

/-- MILL_CUT_START (R109, R211, R213): LEAD_US before the freeze the request window closes, the Reeve writes its queue snapshot, and the
cut starts. -/
def execMillCutStart (s : State) : Result :=
  .next (if s.millCutDue then (s.moveTo (6000 - s.cutLead)).reeveClose.queueSnapshot.millCutStart else s)

/-! ### The lane graph (R189, R191) -/

/-- REEVE_LOAD (R191, R215): a stopped Reeve reads the graph. -/
def State.reeveLoad (s : State) : State :=
  if s.get Fld.reeveStateState = 0 then s.set Fld.reeveStateState 1 else s.raise 0x1404

/-- REEVE_LOAD (R191). -/
def execReeveLoad (s : State) : Result := .next s.reeveLoad

/-- Whether node `n` of a graph is good: no reserved bit, at most 16 out-segments, and FIRST_OUT and NOUT as the segments stand. -/
def State.graphNodeOk (s : State) (g n : Nat) (froms : List Nat) : Bool :=
  let a := g + 16 * n
  let nout := s.readLE (a + 13) 1
  decide (s.readLE (a + 10) 1 < 8) && decide (s.readLE (a + 12) 1 < 4) && s.readLE (a + 14) 2 = 0 && decide (nout ≤ 16) &&
  froms.countP (· = n) = nout && (nout = 0 || froms.countP (· < n) = s.readLE (a + 8) 2)

/-- Whether segment `k` of a graph is good: its ends exist and differ, it is sorted by FROM, and no reserved bit is 1. -/
def State.graphSegOk (s : State) (segs nodes k : Nat) : Bool :=
  let a := segs + 16 * k
  let f := s.readLE a 2
  let t := s.readLE (a + 2) 2
  decide (f < nodes ∧ t < nodes ∧ f ≠ t) && (k = 0 || decide (s.readLE (a - 16) 2 ≤ f)) && s.readLE (a + 13) 3 = 0

/-- GRAPH_LOAD_DONE (R191): the check ends with GRAPH_OK, the segment store and GRAPHCRC, or with GRAPH_INVALID at the first bad entry. -/
def State.graphLoadDone (s : State) : State :=
  if s.get Fld.reeveStateState ≠ 1 then s
  else
    let nodes := s.get Fld.reeveGraphsizeNodes
    let n := s.get Fld.reeveGraphsizeSegs
    let g := s.get Fld.reeveGraphAddr * 256
    let sa := g + 16 * nodes
    let s := s.touch g (16 * (nodes + n))
    let froms := (List.range n).map fun k => s.readLE (sa + 16 * k) 2
    let bad := match (List.range nodes).find? fun k => !s.graphNodeOk g k froms with
      | some k => some k
      | none => ((List.range n).find? fun k => !s.graphSegOk sa nodes k).map (nodes + ·)
    let s := s.set Fld.reeveStateState 0
    if nodes = 0 ∨ n = 0 ∨ bad.isSome then (s.setB Fld.reeveStateGraphOk false).raise 0x1402 (bad.getD 0)
    else
      let gw := (List.range n).map fun k => s.readLE (sa + 16 * k + 4) 2
      let s : State := { s with reeve := { s.reeve with
        segs := gw.map (· % 32768), perm := (gw.filter (32768 ≤ ·)).foldl (fun l w => insertLine l (w % 32768)) [] } }
      let crc := crc32c (s.rd g (16 * (nodes + n)))
      (s.setB Fld.reeveStateGraphOk true).set Fld.reeveGraphcrcCrc crc

/-- GRAPH_LOAD_DONE (R191). -/
def execGraphLoadDone (s : State) : Result := .next s.graphLoadDone

/-! ### Clear, restore, run and stop (R214, R215) -/

/-- The tables emptied, as after CLEAR (R215). -/
def State.reeveEmpty (s : State) : State :=
  let s := (s.set Fld.reeveBucketRound 0).set Fld.reeveResidnextResid 1
  { s with reeve := { s.reeve with table := [], tasks := [], windows := [], closed := [], preempts := [], revokes := [] } }

/-- Writes empty tables over the mirror, where it has been laid out. -/
def State.mirrorEmpty (s : State) : State :=
  if s.inShadow (s.mirror 0) 1210688 then
    (s.zeroFill (s.mirror 0) 0x121800).zeroFill (s.mirror 0x126940) 4096
  else s

/-- REEVE_CLEAR (R215). -/
def State.reeveClear (s : State) : State :=
  if s.get Fld.reeveStateState = 0 then s.reeveEmpty.mirrorEmpty.reeveFollow else s.raise 0x1404

/-- REEVE_CLEAR (R215). -/
def execReeveClear (s : State) : Result := .next s.reeveClear

/-- REEVE_RESTORE (R214): a stopped Reeve starts loading the mirror. -/
def State.reeveRestore (s : State) : State :=
  if s.get Fld.reeveStateState = 0 then s.set Fld.reeveStateState 2 else s.raise 0x1404

/-- REEVE_RESTORE (R214). -/
def execReeveRestore (s : State) : Result := .next s.reeveRestore

/-- The numbers of the `size`-byte records of a region that memory lists a byte of. -/
def State.recordsIn (s : State) (a len size : Nat) : List Nat :=
  (s.mem.filter fun c => a ≤ c.1 && c.1 < a + len).foldl (fun l c =>
    let k := (c.1 - a) / size
    match l.getLast? with
    | some j => if j = k then l else l ++ [k]
    | none => [k]) []

/-- Reads the reservation table from the mirror. -/
def State.readTable (s : State) : Map Resv :=
  (s.recordsIn (s.mirror 0) 0x100000 16).filterMap fun k =>
    let a := s.mirror (16 * k)
    let g := s.readLE a 2
    let b := s.readLE (a + 12) 1
    let st := bits b 3 2
    if g < 32768 then none
    else some (k, ⟨g % 32768, s.readLE (a + 2) 2, s.readLE (a + 4) 2, s.readLE (a + 6) 2, s.readLE (a + 8) 4, b % 8,
      if st = 1 then .pending else if st = 2 then .revoking else .held, s.readLE (a + 14) 2⟩)

/-- Reads the task pool from the mirror. -/
def State.readTasks (s : State) : Map TaskRec :=
  (s.recordsIn (s.mirror 0x100000) 0x20000 32).filterMap fun k =>
    let a := s.mirror (0x100000 + 32 * k)
    let st := s.readLE a 1
    if st = 0 then none
    else some (k, ⟨st, s.readLE (a + 1) 1, s.readLE (a + 2) 1, s.readLE (a + 3) 1, s.readLE (a + 4) 2, s.readLE (a + 6) 2,
      s.readLE (a + 8) 1, s.readLE (a + 9) 1, s.readLE (a + 10) 2, s.readLE (a + 12) 4, s.readLE (a + 16) 4, s.readLE (a + 20) 4,
      s.readLE (a + 24) 8⟩)

/-- Reads the windows from the mirror. -/
def State.readWindows (s : State) : Map LightWin :=
  (s.recordsIn (s.mirror 0x120000) 0x800 16).filterMap fun k =>
    let a := s.mirror (0x120000 + 16 * k)
    let st := s.readLE (a + 3) 1
    if st = 0 then none
    else some (k, ⟨s.readLE a 1, s.readLE (a + 1) 1, s.readLE (a + 2) 1, st, s.readLE (a + 4) 4, s.readLE (a + 8) 4,
      s.readLE (a + 12) 4⟩)

/-- Reads the closed groups from the mirror. -/
def State.readClosed (s : State) : List Nat :=
  (s.recordsIn (s.mirror 0x120800) 0x1000 1).flatMap fun k =>
    ((List.range 8).filter (bitOf (s.readLE (s.mirror (0x120800 + k)) 1))).map (8 * k + ·)

/-- Reads the preemption table from the mirror. -/
def State.readPreempts (s : State) : List (Nat × Nat × Word) :=
  (List.range 256).filterMap fun k =>
    let a := s.mirror (0x126940 + 16 * k)
    let r := s.readLE a 4
    if r = 0 then none else some (r, s.readLE (a + 4) 2, BitVec.ofNat 64 (s.readLE (a + 8) 8))

/-- The revokes that the ring shows in force: records of KIND 1 of a pending claim with no later KIND 2 or 3. -/
def State.ringRevokes (s : State) (ps : List (Nat × Nat × Word)) : List Revoke :=
  let a := s.get Fld.reeveRevokeAddr * 256
  let n := s.get Fld.reeveRevokelenEntries
  let put := s.readLE a 4
  let idx := (List.range n).map fun i => a + 64 + 16 * ((put + i) % (max 1 n))
  idx.foldl (fun l b =>
    let v : Revoke := { holder := s.readLE b 2, from' := s.readLE (b + 2) 2, cells := s.readLE (b + 4) 2, resid := s.readLE (b + 8) 4 }
    let kind := s.readLE (b + 6) 1
    if kind = 1 ∧ (ps.any fun p => p.1 = v.resid) then l ++ [v]
    else if kind = 2 ∨ kind = 3 then
      l.filter fun w => !(w.holder = v.holder && w.from' = v.from' && w.resid = v.resid)
    else l) []

/-- Gives each REVOKING entry of the table to the revoke of its holder with the latest FROM not after it. -/
def giveKeys (table : Map Resv) (l : List Revoke) : List Revoke :=
  l.map fun v => { v with keys := (table.filter fun p => p.2.holder = v.holder && p.2.state = .revoking && decide (0 ≤ bucketDiff p.2.bucket v.from') &&
    !(l.any fun w => w.holder = v.holder && decide (0 < bucketDiff w.from' v.from' ∧ 0 ≤ bucketDiff p.2.bucket w.from'))).map (·.1) }

/-- A holder whose REVOKING entries no record in the ring explains: a revoke from its earliest such entry, of the first claim that waits for
more holders than the ring shows (log 42). -/
def addRevoke (table : Map Resv) (ps : List (Nat × Nat × Word)) (l : List Revoke) (e : Resv) : List Revoke :=
  if l.any fun v => v.holder = e.holder then l
  else
    let mine := table.filter fun p => p.2.holder = e.holder && p.2.state = .revoking
    let from' := mine.foldl (fun b p => if bucketDiff p.2.bucket b < 0 then p.2.bucket else b) e.bucket
    match ps.find? fun p => decide ((l.countP fun v => v.resid = p.1) < p.2.1) with
    | some p => l ++ [⟨e.holder, from', mine.length, p.1, []⟩]
    | none => l

/-- The revokes in force after a restore (R214): those of the ring, and those whose records the ring no longer holds. -/
def State.readRevokes (s : State) (ps : List (Nat × Nat × Word)) (table : Map Resv) : List Revoke :=
  let l := ((table.filter fun p => p.2.state = .revoking).map (·.2)).foldl (addRevoke table ps) (s.ringRevokes ps)
  giveKeys table l

/-- Reads the queue snapshot (R213, R214): its requests count as checked in the cycle after the state block's. -/
def State.readSnapshot (s : State) : List ClaimReq :=
  let base := nextCycle (s.readLE (s.mirror 0x121804) 4)
  (List.range (min 64 (s.readLE (s.mirror 0x121900) 4))).map fun i =>
    let a := s.mirror (0x121940 + 320 * i)
    let c := s.readLE (a + 8) 1
    { dest := BitVec.ofNat 64 (s.readLE a 8), c := c, bytes := s.rd (a + 16) (32 + 4 * (min c 64)), base := some base }

/-- REEVE_RESTORE_DONE (R214): the tables are loaded from the mirror, the snapshot ahead of the queue; a bad state block leaves the Reeve
empty and raises MIRROR_INVALID. -/
def State.reeveRestoreDone (s : State) : State :=
  if s.get Fld.reeveStateState ≠ 2 then s
  else
    let s := s.set Fld.reeveStateState 0
    let b := s.mirror 0x121800
    let s := s.touch (s.mirror 0) 1210688
    if s.readLE b 4 ≠ 0x54535652 ∨ s.readLE (b + 8) 4 ≠ s.get Fld.reeveGraphcrcCrc then
      ((s.setB Fld.reeveStateRestoreOk false).reeveEmpty.mirrorEmpty.raise 0x1403).reeveFollow
    else
      let table := s.readTable
      let ps := s.readPreempts
      let s := ((s.set Fld.reeveBucketRound (s.readLE (b + 14) 2)).set Fld.reeveResidnextResid (s.readLE (b + 16) 4))
      let s := (List.range 16).foldl (fun s k => s.set Fld.reeveUsedUsedS (s.readLE (b + 32 + 4 * k) 4) k) s
      let rv := { s.reeve with
        table := table, tasks := s.readTasks, windows := s.readWindows, closed := s.readClosed, preempts := ps,
        revokes := s.readRevokes ps table, queue := s.readSnapshot ++ s.reeve.queue, ran := true, day := s.readLE (b + 20) 4,
        expired := s.readLE (b + 12) 2 }
      (({ s with reeve := rv } : State).setB Fld.reeveStateRestoreOk true).reeveFollow

/-- REEVE_RESTORE_DONE (R214). -/
def execReeveRestoreDone (s : State) : Result := .next s.reeveRestoreDone

/-- The LAYOUT checks of R216 on the copy `g` reads. -/
def reeveLayoutOk (s : State) (g : Fld → Nat) : Bool :=
  let gr := (g Fld.reeveGraphAddr * 256, 16 * (g Fld.reeveGraphsizeNodes + g Fld.reeveGraphsizeSegs))
  let mi := (g Fld.reeveMirrorAddr * 256, 1210688)
  let rv := (g Fld.reeveRevokeAddr * 256, 64 + 16 * g Fld.reeveRevokelenEntries)
  s.inRam gr.1 gr.2 && inGranary mi.1 mi.2 && s.inShadow mi.1 mi.2 && inGranary rv.1 rv.2 && s.inShadow rv.1 rv.2 &&
  disjointRegions [gr, mi, rv] && decide (1 ≤ g Fld.reeveGraphsizeNodes ∧ g Fld.reeveGraphsizeNodes ≤ 16384) &&
  decide (1 ≤ g Fld.reeveGraphsizeSegs ∧ g Fld.reeveGraphsizeSegs ≤ 32768) &&
  [16, 32, 64, 128, 256].contains (g Fld.reeveRevokelenEntries)

/-- The HORIZON checks of R216. -/
def reeveHorizonOk (g : Fld → Nat) : Bool :=
  let b := g Fld.reeveHorizonBuckets
  let l := g Fld.reeveHorizonLead
  let m := g Fld.reeveHorizonMargin
  decide (1 ≤ b ∧ b ≤ 20 ∧ 1 ≤ m ∧ m < l ∧ l < b ∧ 1 ≤ g Fld.reeveHorizonMaxage)

/-- The LIGHT checks of R216. -/
def reeveLightOk (g : Fld → Nat → Nat) : Bool :=
  decide (1 ≤ g Fld.reeveLightBays 0 ∧ g Fld.reeveLightBays 0 ≤ 16 ∧ g Fld.reeveLightLeadS 0 ≤ 3600 ∧
    g Fld.reeveDayoffOffsetS 0 < 86400) && (List.range 16).all fun b => decide (g Fld.reeveBudgetBudgetS b ≤ 86400)

/-- The AUCTION checks of R216: the destination's CLASS is 2 and its reserved bits are 0. -/
def reeveAuctionOk (g : Fld → Nat) : Bool :=
  g Fld.reeveAucthiEn = 0 || (bits (g Fld.reeveAucthiDestHi) 16 2 = 2 && bits (g Fld.reeveAuctloDestLo) 18 2 = 0)

/-- Whether the staged set of REEVE passes (R216, R487). -/
def reeveApplyOk (s : State) : Bool :=
  let g := fun f => s.getStaged f
  (!s.changed Blk.reeve .gLayout none || (s.get Fld.reeveStateState = 0 && reeveLayoutOk s g)) &&
  (!s.changed Blk.reeve .gHorizon none || reeveHorizonOk g) &&
  (!s.changed Blk.reeve .gLight none || reeveLightOk fun f i => s.getStaged f i) &&
  (!s.changed Blk.reeve .gAuction none || reeveAuctionOk g)

/-- REEVE_RUN (R215, R322, R487): refused on a standby unless a take-over has been decided or a hand-over set, and without GRAPH_OK; the
first RUN without a RESTORE begins as though cleared. -/
def State.reeveRun (s : State) : State :=
  let g := fun f => s.get f
  if s.get Fld.reeveStateState ≠ 0 then s
  else if s.reeveHeld ∧ s.pairing.takeT = none ∧ s.get Fld.plinkHCycle = 0 then s.raise 0x1406
  else if !s.getB Fld.reeveStateGraphOk then s.raise 0x1405
  else if !(reeveLayoutOk s g && reeveHorizonOk g && (reeveLightOk fun f i => s.get f i) && reeveAuctionOk g) then s.raise 0x1401
  else
    let s := s.set Fld.reeveStateState 3
    let s : State := if s.reeve.ran then s else s.reeveEmpty.mirrorEmpty
    ({ s with reeve := { s.reeve with ran := true } } : State).reeveFollow

/-- REEVE_RUN (R215). -/
def execReeveRun (s : State) : Result := .next s.reeveRun

/-- REEVE_STOP (R215): no request is in progress between commands, so a running Reeve stops at once. -/
def State.reeveStop (s : State) : State :=
  if s.get Fld.reeveStateState = 3 ∨ s.get Fld.reeveStateState = 4 then (s.set Fld.reeveStateState 0).reeveClose else s

/-- REEVE_STOP (R215). -/
def execReeveStop (s : State) : Result := .next s.reeveStop

/-- Follows at each cycle boundary with P_next: the bucket, counted from the site epoch, that contains the start of the next cycle (R192). -/
def State.reeveBoundary (s : State) : State :=
  s.set Fld.reeveBucketNext (unsigned 16 (((s.cyclePs + 10000000000) / 100000000000 : Nat) - (10 * s.siteEpoch : Nat)))

end Sys2Proof.Machine
end

