-- ==== Sys2Proof/Machine/Pair.lean ====
section
/-! DEFINITION. Pairing, Decant and claims (spec/13_pairing.md): the pair link and its messages, pair states, shadow lines and the
journal, claim numbers and the claim stage, take-over and hand-over, and the checks of the applies. -/

namespace Sys2Proof.Machine

/-! ### Own values -/

/-- PLINK.STATE.PAIR (Table 13.3). -/
def State.pair (s : State) : Nat := s.get Fld.plinkStatePair

/-- Whether the pair link passes messages. -/
def State.linkUp (s : State) : Bool := decide (2 ≤ s.get Fld.plinkStateLink)

/-- The unit letter: 0 A, 1 B (R321). -/
def State.unit (s : State) : Nat := s.get Fld.claimStateUnit

/-- SYS.IDENT[15:8], the stepping (R4, R321). -/
def State.stepCode (s : State) : Nat := s.get Fld.sysIdentStepMajor * 16 + s.get Fld.sysIdentStepMinor

/-- The layout hash (R324): the CRC-32C of the live SHBASE and SHLEN words in index order. -/
def State.layoutHash (s : State) : Nat :=
  crc32c (((List.range 8).flatMap fun r => leBytes (s.get Fld.decantShbaseAddr r) 4) ++
    (List.range 8).flatMap fun r => leBytes (s.get Fld.decantShlenLen r) 4)

/-- Site time in the form of T_TX, with the resolution of the stamps, 0.5 ns (Table 13.2, R318). -/
def State.timeStamp (s : State) : Word :=
  BitVec.ofNat 64 (s.site.sec % 65536 * 2 ^ 48 + s.site.ns * 65536 + s.site.frac / 2 ^ 47 * 32768)

/-- The time of a stamp in units of 2^-16 ns, within 65,536 s. -/
def stampUnits (w : Word) : Int := ((bits w.toNat 48 16 * 1000000000 * 65536 + bits w.toNat 0 48 : Nat) : Int)

/-- The difference of two stamps in units of 2^-16 ns. -/
def stampDiff (a b : Word) : Int :=
  let m : Int := 65536 * 1000000000 * 65536
  let d := (stampUnits a - stampUnits b) % m
  if m / 2 ≤ d then d - m else d

/-- A control message of this unit (Table 13.2). -/
def State.ctlMsg (s : State) (kind arg : Nat) (answer : Bool) : CtlMsg :=
  { kind := kind, unit := s.unit, pref := s.getB Fld.claimStatePref, pair := s.pair, holding := s.holding, answer := answer,
    syncrun := s.get Fld.plinkStateSyncrun, held := s.get Fld.claimHeldClaim, seen := s.get Fld.claimSeenClaim, cycle := s.cycle,
    arg := arg, step := if kind = 1 then s.stepCode else 0, tTx := s.timeStamp,
    tRx := if kind = 2 then s.pairing.lastRx else 0, pairid := if kind = 1 then s.chestAt 0x0010 else 0 }

/-- A control message's 48 bytes (Table 13.2). -/
def ctlBytes (m : CtlMsg) : List Byte :=
  leBytes m.kind 1 ++
  leBytes (m.unit + 2 * m.pref.toNat + 4 * m.pair + 32 * m.holding.toNat + 64 * (m.answer && m.kind = 1).toNat) 1 ++
  leBytes m.syncrun 2 ++ leBytes m.held 4 ++ leBytes m.seen 4 ++ leBytes m.cycle 4 ++ leBytes m.arg 4 ++ leBytes m.step 1 ++
  leBytes 0 3 ++ leBytes m.tTx.toNat 8 ++ leBytes m.tRx.toNat 8 ++ leBytes m.pairid.toNat 8

/-- Sends a control message, when the link is up. -/
def State.sendCtl (s : State) (m : CtlMsg) : State :=
  if s.linkUp then { s with pairing := { s.pairing with sent := Map.put s.pairing.sent m.kind m } } else s

/-- Whether heartbeats and HELLOs may be sent (R318): ALIVE within the last 2 ms, no lockstep mismatch, no yield in force. -/
def State.alive (s : State) : Bool :=
  (match s.pairing.aliveUs with
    | some t => decide (s.us ≤ t + 2000)
    | none => false) && !s.lockstepStopped && s.pairing.yielding.isNone

/-! ### The claim stage (R329-R331) -/

/-- Opens the release gate of the present cycle (R34, Table 1.12): GATE, the last released cycle, and interrupt source 4. -/
def State.openGate (s : State) : State :=
  if s.gateOpen then s
  else
    let s := (s.setB Fld.sysReleaseGate true).set Fld.sysLastrelCycle s.cycle
    let s : State := { s with pairing := { s.pairing with withheld := 0 } }
    s.pendAll 4

/-- Whether the journal sent last is still on the link: 2.4 GB/s from the freeze on, half of that on one lane (R316, R327). -/
def State.journalOnLink (s : State) (j : Journal) : Bool :=
  decide (s.us < j.start + j.bytes.length / (if s.get Fld.plinkStateLink = 3 then 1200 else 2400))

/-- Every line of the frozen set has been copied, or none is copied any more: the writes that stalled on them complete (01 R30). -/
def State.decantCopied (s : State) : State :=
  let ws := s.decant.stalled
  let s : State := { s with decant := { s.decant with frozen := [], stalled := [] } }
  ws.foldl State.unstall s

/-- The claim stage releases with a reason (R331): the wire falls, a journal in progress stops (R327), and loops and axes lose the
claim. -/
def State.releaseStage (s : State) (reason : Nat) : State :=
  let st := s.get Fld.claimStateStage
  if st = 0 then s
  else
    let s := ((s.set Fld.claimStateStage 0).set Fld.claimStateReason reason).setB Fld.claimStateOwnwire false
    let s := s.bump Fld.claimCntReleases
    let s : State := match s.decant.sent with
      | some j => if s.journalOnLink j then ({ s with decant := { s.decant with sent := none } } : State).decantCopied else s
      | none => s
    let s : State := if s.get Fld.plinkStatePair = 5 then s else { s with boot := { s.boot with secGood := false } }
    if st = 2 then s.loopClaimLost.axesClaimLost else s

/-- SEEN rises (R330), durably; above HELD it releases the stage with CLAIM_STALE (R331). -/
def State.raiseSeen (s : State) (c : Nat) : State :=
  if c ≤ s.get Fld.claimSeenClaim then s
  else
    let s := (s.set Fld.claimSeenClaim c).chestSet 0x0101 (BitVec.ofNat 64 c)
    if s.get Fld.claimHeldClaim < c ∧ s.get Fld.claimStateStage ≠ 0 then (s.raise 0x2C01).releaseStage 0x2C01 else s

/-- CLMNEXT (R329, R59): the next claim number of the unit's parity above HELD and SEEN, durable in the Chest; 0 with CLAIM_EXHAUSTED
when none remains. -/
def State.clmnext (s : State) : Nat × State :=
  let m := max (s.get Fld.claimHeldClaim) (s.get Fld.claimSeenClaim)
  let c := if (m + 1) % 2 = s.unit then m + 1 else m + 2
  if 2 ^ 32 ≤ c then (0, s.raise 0x2C03)
  else
    let s := (s.set Fld.claimHeldClaim c).chestSet 0x0100 (BitVec.ofNat 64 c)
    (c, s.raiseSeen c)

/-- HOLD (R331, 14 R359). -/
def State.claimHold (s : State) : State :=
  let h := s.get Fld.claimHeldClaim
  if h = 0 ∨ h < s.get Fld.claimSeenClaim ∨ s.pairing.holdBlocked ∨ s.getB Fld.keywellStateError then s.raise 0x2C05
  else if s.holding then s else s.set Fld.claimStateStage 1

/-- HOLD (R331). -/
def execHold (s : State) : Result := .next s.claimHold

/-- CLAIM_STAGE_RELEASE (R331): a 1 to RELEASE. -/
def execClaimStageRelease (s : State) : Result := .next (s.releaseStage 0)

/-! ### Pair states (Table 13.3) -/

/-- Enters a pair state: RELEASE.MODE, the Decant state and lock of Table 13.3, and, in SEEKING, SYNCING and INSYNC, the conditions of
R322; HELLOs are due from SEEKING and SYNCING on (R321). A unit that gives the station over at H keeps its stage until H + 1
(`keep`). -/
def State.setPair (s : State) (p : Nat) (keep : Bool := false) : State :=
  let s := (s.set Fld.plinkStatePair p).setB Fld.sysReleaseMode (p = 0 || p = 2)
  let s := (s.set Fld.decantStateState (if p = 3 then 1 else if p = 4 ∨ p = 5 then 2 else 0)).setB Fld.decantStateLocked (p = 4 || p = 5)
  let s : State := { s with pairing := { s.pairing with lost := none, takeT := none, drop := false, withheld := 0, enteredUs := s.us } }
  let s := if (p = 1 ∨ p = 4 ∨ p = 5) ∧ !keep then s.releaseStage 0 else s
  let s := if p = 1 ∨ p = 4 ∨ p = 5 then s.reeveStop else s
  let s : State := if p = 1 ∨ p = 4 then
      { s with
        pairing := { s.pairing with helloDue := some s.us, helloSeen := false, seekUs := some s.us }
        decant := { s.decant with rxStale := s.decant.rx.isSome }
        boot := { s.boot with secGood := false } }
    else s
  let s := if p = 5 then s else s.set Fld.plinkStateSyncrun 0
  let s := if p = 3 then s else s.setB Fld.plinkStatePinsync false
  let off := s.get Fld.sysPhaseOffsetUs
  if p = 2 ∧ 8000 ≤ off ∧ off < s.deadline ∧ s.sysRunning then s.openGate else s

/-- The active resynchronises its partner (R338): FIRST on the next journal, and the walk from the first shadow line. -/
def State.resync (s : State) : State :=
  let s := s.setB Fld.plinkStatePinsync false
  { s with decant := { s.decant with walk := some 0, firstDue := true, complete := false } }

/-! ### Lines and journals (R324-R328) -/

/-- The number of shadow lines. -/
def State.lineCount (s : State) : Nat := s.shadowRegions.foldl (fun n r => n + r.2 / 256) 0

/-- The line of an index, as an address / 256. -/
def lineAt : List (Nat × Nat) → Nat → Nat
  | [], _ => 0
  | r :: rs, i => if i < r.2 / 256 then r.1 / 256 + i else lineAt rs (i - r.2 / 256)

/-- The index of a line given as an address / 256. -/
def lineIndex : List (Nat × Nat) → Nat → Nat
  | [], _ => 0
  | r :: rs, l => if r.1 / 256 ≤ l ∧ l < (r.1 + r.2) / 256 then l - r.1 / 256 else r.2 / 256 + lineIndex rs l

/-- The runs of a rising list of line indices: first line and count, at most 65,535 lines each (R326). -/
def runsOf : List Nat → List (Nat × Nat)
  | [] => []
  | i :: t =>
    match runsOf t with
    | (j, n) :: rs => if j = i + 1 ∧ n < 65535 then (i, n + 1) :: rs else (i, 1) :: (j, n) :: rs
    | [] => [(i, 1)]

/-- The 16 bytes of a journal's GMAC under the key of CFG.KEYSLOT (R326; log 11). -/
def State.journalTag (s : State) (b : List Byte) : List Byte :=
  (List.range 16).map fun i => (Config.crypto 1 (s.slotKey (s.get Fld.decantCfgKeyslot)) b).getD i 0

/-- The bytes of a journal of Table 13.4 for a rising list of line indices. -/
def State.journalBytes (s : State) (idx : List Nat) (first complete : Bool) : List Byte :=
  let rg := s.shadowRegions
  let runs := runsOf idx
  let n := 96 + 8 * runs.length + 256 * idx.length
  let h := s.get Fld.plinkHCycle
  let hand := s.pairing.giving && decide (h ≠ 0 ∧ nextCycle s.cycle = h)
  let head := leBytes 0x4C4E4A44 4 ++ leBytes s.cycle 4 ++ leBytes (s.get Fld.decantBaseCycle) 4 ++
    leBytes (s.get Fld.claimHeldClaim) 4 ++ leBytes s.pairing.wraps 4 ++ leBytes n 4 ++ leBytes runs.length 4 ++
    leBytes s.layoutHash 4 ++ leBytes (if hand then h else 0) 4 ++
    leBytes (first.toNat + 2 * complete.toNat + 4 * hand.toNat) 1 ++ leBytes 0 27
  let body := runs.flatMap fun r => leBytes r.1 4 ++ leBytes r.2 2 ++ leBytes 0 2 ++
    (List.range r.2).flatMap fun i => readBytes s.mem (256 * lineAt rg (r.1 + i)) 256
  let b := head ++ body
  let b := b ++ leBytes (crc32c b) 4 ++ leBytes 0 12
  b ++ s.journalTag b

/-- Decant at the freeze (R30, R326, R327, R338): on a unit in PAIRED, the lines of the cycle, of journals not acknowledged and of the
walk go out in the cycle's journal, unless it exceeds the cap or meets a poisoned word. -/
def State.decantFreeze (s : State) : State :=
  if s.pair ≠ 3 then s
  else
    let d := s.decant
    let rg := s.shadowRegions
    let total := s.lineCount
    let step := 256 * s.get Fld.decantCfgResync
    let walked := match d.walk with
      | some i => (List.range (min step (total - i))).map fun k => lineAt rg (i + k)
      | none => []
    let lines := walked.foldl insertLine (d.dirty.foldl insertLine d.unacked)
    let (walk, complete) := match d.walk with
      | some i => if total ≤ i + step then (none, true) else (some (i + step), false)
      | none => (none, d.complete)
    let idx := (lines.map (lineIndex rg)).foldl insertLine []
    let runs := runsOf idx
    let d := { d with dirty := [], unacked := lines, walk := walk, complete := complete, frozen := lines, sent := none }
    let s : State := ({ s with decant := d } : State)
    let none' : State := { s with decant := { s.decant with frozen := [] } }
    if 8388608 < 96 + 8 * runs.length + 256 * idx.length then (none'.raise 0x2D04).bump Fld.decantCnt2Overcap
    else if let some l := lines.find? fun l => s.poisonAt (l * 256) 256 then (none'.eccBad (l * 256) 256).raise 0x2D06
    else if !s.linkUp then none'
    else
      let s := s.eccFix fun w => lines.contains (w * 8 / 256)
      let j : Journal := ⟨s.cycle, complete, s.journalBytes idx d.firstDue complete, s.us⟩
      let s := ((s.bump Fld.decantCntSealed).set Fld.decantLastLines idx.length).set Fld.decantLastRuns (min 32767 runs.length)
      { s with decant := { s.decant with sent := some j, firstDue := false } }

/-- STALLED_WRITE_RESUME (R30): Decant copies the line next, and the oldest stalled write completes, dirty for the next cycle. -/
def State.stalledResume (s : State) : State :=
  match s.decant.stalled with
  | w :: rest =>
    let ls := s.shadowLines w.addr w.bytes.length
    let d := { s.decant with stalled := rest, frozen := s.decant.frozen.filter fun l => !ls.contains l }
    ({ s with decant := d } : State).unstall w
  | [] => s

/-- STALLED_WRITE_RESUME (R30). -/
def execStalledWriteResume (s : State) : Result := .next s.stalledResume

/-- What every control message reports: PHELD and PARTNER, and SEEN (R330); a partner that enters SYNCING is resynchronised (R338). -/
def State.partnerState (s : State) (m : CtlMsg) : State :=
  let was := s.get Fld.plinkStatePartner
  let s := ((s.set Fld.plinkPheldClaim m.held).set Fld.plinkStatePartner m.pair).raiseSeen (max m.held m.seen)
  if s.pair = 3 ∧ m.pair = 4 ∧ was ≠ 4 then s.resync else s

/-- JOURNAL_ACK_RECEIVED (R34, R325, R338): the acknowledgement of the journal sent opens the gate of its cycle, before the gate
deadline; its lines leave the dirty set, BASE advances, and a COMPLETE journal makes the partner INSYNC. -/
def State.journalAck (s : State) (m : CtlMsg) : State :=
  let s := (s.qPushHw 47 (ctlBytes m)).partnerState m
  match s.decant.sent with
  | some j =>
    if s.pair = 3 ∧ m.arg = j.cycle ∧ s.linkUp then
      let s := s.decantCopied
      let s : State := { s with decant := { s.decant with unacked := [], sent := none } }
      let s := s.set Fld.decantBaseCycle j.cycle
      let s := if j.complete then (s.setB Fld.plinkStatePinsync true).set Fld.bootStateSyncmet 1 else s
      let off := s.get Fld.sysPhaseOffsetUs
      if j.cycle = s.cycle ∧ off < s.deadline then (s.set Fld.sysReleaseAckUs off).openGate else s
    else s
  | none => s

/-- A field of a journal. -/
def jAt (b : List Byte) (k n : Nat) : Nat := leNat ((b.drop k).take n)

/-- LEAVE with a reason (R328, R334): the message, sent when the link is up. -/
def State.sendLeave (s : State) (code : Nat) : State := s.sendCtl (s.ctlMsg 6 code false)

/-- Writes the runs of a journal from offset `k` into the shadow regions. -/
def State.commitRuns (s : State) (b : List Byte) : Nat → Nat → State → State
  | 0, _, t => t
  | n + 1, k, t =>
    let line := jAt b k 4
    let cnt := jAt b (k + 4) 2
    let rg := s.shadowRegions
    let t := (List.range cnt).foldl (fun t i =>
      t.writeRaw (256 * lineAt rg (line + i)) ((b.drop (k + 8 + 256 * i)).take 256)) t
    s.commitRuns b n (k + 8 + 256 * cnt) t

/-- JOURNAL_COMMIT_DONE (R328, R330, R338, R339): the acknowledged journal has been written; C advances, the first COMPLETE one makes the
unit INSYNC, and the 100th in a row lets a preferred unit ask for the station back. -/
def State.journalCommit (s : State) : State :=
  match s.decant.rx with
  | none => s
  | some b =>
    let cyc := jAt b 4 4
    let fl := jAt b 36 1
    let s := s.commitRuns b (jAt b 24 4) 64 s
    let lines := (jAt b 20 4 - 96 - 8 * jAt b 24 4) / 256
    let stale := s.decant.rxStale
    let d := { s.decant with rx := none, rxStale := false, committed := (cyc :: s.decant.committed).take 8 }
    let s : State := { s with decant := d }
    let s := (s.raiseSeen (jAt b 12 4)).set Fld.decantBaseCycle cyc
    let s := (s.set Fld.decantLastLines lines).set Fld.decantLastRuns (min 32767 (jAt b 24 4))
    let s := s.setMask Fld.decantStateBuf (cyc % 2) true
    if stale then s else
    let s := if bitOf fl 2 then s.set Fld.plinkHCycle (jAt b 32 4) else s
    let s := if bitOf fl 1 then s.set Fld.bootStateSyncmet 1 else s
    let s := if s.pair = 4 ∧ bitOf fl 1 then s.setPair 5 else s
    if s.pair = 5 then
      let run := min 0xFFFF (s.get Fld.plinkStateSyncrun + 1)
      let s := s.set Fld.plinkStateSyncrun run
      if run = 100 ∧ s.pairing.preferred ∧ s.getB Fld.plinkCfgAutoback then s.sendCtl (s.ctlMsg 4 0 false) else s
    else s

/-- JOURNAL_RECEIVED (R328): a buffer whose trailer is missing (`part`) is discarded at the header of the journal, which goes into its buffer
and is checked in order; one that passes is acknowledged and waits for its commit.  A commit still in progress completes first. -/
def State.journalReceived (s : State) (b : List Byte) (part : Bool) : State :=
  let n := b.length
  let cyc := jAt b 4 4
  let discard := fun (s : State) (code : Nat) => (s.raise code).bump Fld.decantCntDiscarded
  if ¬ (s.pair = 4 ∨ s.pair = 5) ∨ !s.linkUp then s
  else
    let s := if part then discard s 0x2D81 else s
    let s := s.journalCommit.setMask Fld.decantStateBuf (cyc % 2) false
    let s := s.store (s.get Fld.decantBufAddr * 65536 + cyc % 2 * 8388608) (b.take 8388608)
    if jAt b 0 4 ≠ 0x4C4E4A44 ∨ jAt b 20 4 ≠ n ∨ n < 96 ∨ 8388608 < n ∨ jAt b 28 4 ≠ s.layoutHash then discard s 0x2D02
    else if jAt b (n - 32) 4 ≠ crc32c (b.take (n - 32)) ∨
        s.journalTag (b.take (n - 16)) ≠ b.drop (n - 16) then discard s 0x2D02
    else if jAt b 12 4 < s.get Fld.claimSeenClaim then discard s 0x2D03
    else if !bitOf (jAt b 36 1) 0 ∧ (!cycleAfter cyc (s.get Fld.decantBaseCycle) ∨ !s.decant.committed.contains (jAt b 8 4)) then
      ((discard s 0x2D07).sendLeave 0x2D07).setPair 4
    else
      let s := s.sendCtl (s.ctlMsg 3 cyc false)
      { s with decant := { s.decant with rx := some b, rxStale := false } }

/-- JOURNAL_COMMIT_DONE (R328). -/
def execJournalCommitDone (s : State) : Result := .next s.journalCommit

/-! ### The link (R316, R317) -/

/-- The CFG checks of PLINK (R342) on the copy `g` reads. -/
def plinkCfgOk (g : Fld → Nat) : Bool :=
  decide (4 ≤ g Fld.plinkCfgWhmax ∧ g Fld.plinkCfgWhmax ≤ 15 ∧ 1 ≤ g Fld.plinkCfgStartWaitS ∧ g Fld.plinkCfgStartWaitS ≤ 60)

/-- PLINK_RUN (R316, R323): the lanes are trained, and in SEEKING the wait for a HELLO begins. -/
def State.plinkRun (s : State) : State :=
  if !plinkCfgOk (fun f => s.get f) then s.raise 0x2E01
  else if s.get Fld.plinkStateLink = 0 then
    let s := s.set Fld.plinkStateLink 1
    if s.pair = 1 then { s with pairing := { s.pairing with seekUs := some s.us } } else s
  else s

/-- PLINK_RUN (R316). -/
def execPlinkRun (s : State) : Result := .next s.plinkRun

/-- The link goes down. -/
def State.linkDown (s : State) : State := s.set Fld.plinkStateLink 0

/-- PLINK_STOP (R316). -/
def execPlinkStop (s : State) : Result := .next s.linkDown

/-- LINK_TRAIN_DONE (R316, R321, 14 R352): both lanes lock, HELLOs are due, and a generation change not acknowledged is sent again. -/
def execLinkTrainDone (s : State) : Result :=
  if s.get Fld.plinkStateLink = 1 then
    let s := s.set Fld.plinkStateLink 2
    let s : State := if s.keywell.unacked.isSome then { s with keywell := { s.keywell with sends := s.keywell.sends + 1 } } else s
    .next { s with pairing := { s.pairing with helloDue := some s.us } }
  else .next s

/-- LANE_DEGRADED (R316): one lane has lost lock. -/
def execLaneDegraded (s : State) : Result :=
  if s.get Fld.plinkStateLink = 2 then .next ((s.set Fld.plinkStateLink 3).raise 0x2E81) else .next s

/-- PLINK_LINK_DOWN (R316): both lanes have lost lock. -/
def execPlinkLinkDown (s : State) : Result := .next s.linkDown

/-- The out-unit whose items go to an in-unit of the partner (Table 13.1). -/
def outUnitOf (q : Nat) : Option Nat :=
  match q with
  | 42 => some 41
  | 44 => some 43
  | 46 => some 45
  | _ => none

/-- Sends items of an out-unit while the credits of the partner's in-unit allow them (R317). -/
def State.sendItems : Nat → Nat → Nat → State → State
  | 0, _, _, s => s
  | n + 1, inq, out, s =>
    match (s.queue out).items with
    | it :: _ =>
      let need := (qStored it.body.length + 63) / 64
      let have' := Map.getD s.pairing.credits inq 0
      if it.visible ∧ need ≤ have' ∧ s.linkUp then
        let s := (s.qPop out).2
        State.sendItems n inq out { s with pairing := { s.pairing with credits := Map.put s.pairing.credits inq (have' - need) } }
      else s
    | [] => s

/-- CREDIT_RETURN (R317): the partner's receive side returns credits of an in-unit, and items that waited for them are sent. -/
def execCreditReturn (unit : Fin 48) (blocks : Nat) (s : State) : Result :=
  match outUnitOf unit.val with
  | some out =>
    let c := Map.getD s.pairing.credits unit.val 0 + blocks
    let s : State := { s with pairing := { s.pairing with credits := Map.put s.pairing.credits unit.val c } }
    .next (State.sendItems (s.queue out).items.length unit.val out s)
  | none => .next s

/-! ### Heartbeats and HELLOs (R318-R323) -/

/-- ALIVE (R318): the kernel refreshes the permission to send heartbeats. -/
def State.plinkAlive (s : State) : State := { s with pairing := { s.pairing with aliveUs := some s.us } }

/-- ALIVE (R318). -/
def execAlive (s : State) : Result := .next s.plinkAlive

/-- The next 500 us of site time at which no heartbeat has been sent yet (R318), as ps: the one that the present clock belongs to, or the one
after it. -/
def State.nextBeat (s : State) : Nat :=
  let g := s.site.ps / 500000000 * 500000000
  if s.site.ps < g + 5000 ∧ s.pairing.beatPs ≠ some g then g else g + 500000000

/-- HEARTBEAT_SEND (R318): at the next 500 us of the cycle, where the conditions hold. -/
def execHeartbeatSend (s : State) : Result :=
  let g := s.nextBeat
  if s.boundaryPs ≤ g then .next s
  else match s.reachSite g with
    | none => .next s
    | some s =>
      let s : State := { s with pairing := { s.pairing with beatPs := some g } }
      if s.alive then .next (s.sendCtl (s.ctlMsg 2 (s.get Fld.decantBaseCycle) false)) else .next s

/-- HELLO_SEND (R321): every 1 ms until a HELLO is received, where the conditions of R318 hold. -/
def execHelloSend (s : State) : Result :=
  match s.pairing.helloDue with
  | none => .next s
  | some t => match s.reachUs t with
    | none => .next s
    | some s =>
      let s : State := { s with pairing := { s.pairing with helloDue := some (max t s.us + 1000) } }
      if s.alive then .next (s.sendCtl (s.ctlMsg 1 s.layoutHash false)) else .next s

/-- HEARTBEAT_RECEIVE (R320, R330, R333): TOFF from the exchange (`t1` the own T_TX of the heartbeat the partner answers, `t4` the
arrival), the partner's state, WIRE_MISMATCH after two disagreements, and TIME_SPLIT on a standby. -/
def State.heartbeat (s : State) (m : CtlMsg) (t1 t4 : Word) : State :=
  if !s.linkUp then s
  else
    let s := s.qPushHw 47 (ctlBytes m)
    let s := (s.partnerState m).set Fld.plinkHbageUs 0
    let differ := s.getB Fld.claimStatePartwire ≠ m.holding
    let mis := if differ then s.pairing.mismatch + 1 else 0
    let lost := if s.pairing.takeT.isSome ∨ s.pair = 5 then s.pairing.lost else none
    let s : State := { s with pairing := { s.pairing with mismatch := mis, partHolding := m.holding, lastRx := t4, lost := lost } }
    let s := if mis = 2 then s.raise 0x2C81 else s
    if m.tRx = 0 then s
    else
      let t := (stampDiff m.tRx t1 + stampDiff m.tTx t4) / 2
      let s := s.set Fld.plinkToffPs (unsigned 32 (t * 1000 / 65536))
      let big := decide ((s.get Fld.plinkCfgTsplitNs : Int) * 65536 < t.natAbs)
      if (s.pair = 4 ∨ s.pair = 5) ∧ big then s.raise 0x2E84 else s

/-- HEARTBEAT_RECEIVE (R320). -/
def execHeartbeatReceive (m : CtlMsg) (t1 t4 : Word) (s : State) : Result := .next (s.heartbeat m t1 t4)

/-- The first fleet-cycle boundary at least 1.5 ms from now (R335). -/
def State.takeBoundary (s : State) : Nat :=
  (s.cycle + (if s.get Fld.sysPhaseOffsetUs + 1500 ≤ s.deadline + 100 then 1 else 2)) % 2 ^ 32

/-- Partner loss is declared (R319, R328, R334, R339): an incomplete journal buffer is discarded, a hand-over before H + 1 is void, an
active whose partner does not count as INSYNC goes ALONE, a unit in SYNCING goes to SEEKING, and one in INSYNC decides on a
take-over. -/
def State.declareLost (s : State) (part : Bool) : State :=
  if s.pairing.lost.isSome ∨ ¬ (s.pair = 3 ∨ s.pair = 4 ∨ s.pair = 5) then s
  else
    let s := (s.raise 0x2E03).bump Fld.plinkCntLosses
    let s : State := { s with pairing := { s.pairing with lost := some s.takeBoundary, giving := false } }
    let s := s.set Fld.plinkHCycle 0
    let s := if part then (s.raise 0x2D81).bump Fld.decantCntDiscarded else s
    if s.pair = 3 then (if s.getB Fld.plinkStatePinsync then s else s.setPair 2)
    else if s.pair = 4 then s.setPair 1
    else s

/-- When 3.0 ms without a heartbeat are over (R319), in us: from the last one on, or from when the pair state was entered. -/
def State.beatLimit (s : State) : Nat := s.us + 3000 - min (s.get Fld.plinkHbageUs) (s.us - s.pairing.enteredUs)

/-- HEARTBEAT_TIMEOUT (R319): no heartbeat for 3.0 ms. -/
def execHeartbeatTimeout (part : Bool) (s : State) : Result :=
  match s.reachUs s.beatLimit with
  | none => .next s
  | some s => .next (s.declareLost part)

/-- PARTNER_WIRE_FALL (R319, R331): the partner's wire falls; after a heartbeat that reported HOLDING, outside a hand-over, loss is
declared. -/
def execPartnerWireFall (part : Bool) (s : State) : Result :=
  let s := s.setB Fld.claimStatePartwire false
  let s : State := { s with pairing := { s.pairing with holdBlocked := false } }
  if s.pairing.partHolding ∧ s.get Fld.plinkHCycle = 0 then .next (s.declareLost part) else .next s

/-- The end of a hand-over on the unit that gives the station (Table 13.10): the stage releases without a fault. -/
def State.handedOver (s : State) : State :=
  let s := ((s.releaseStage 0).set Fld.plinkHCycle 0).raise 0x2E83
  { s with pairing := { s.pairing with giving := false } }

/-- PARTNER_WIRE_RISE (R331, R333): a holding stage releases with CLAIM_YIELDED; in a tie, when the own wire rose within 2 us, unit B releases
and unit A keeps the claim; the unit that hands over releases without a fault; a unit in PAIRED goes to SEEKING. -/
def State.partnerRise (s : State) (tie : Bool) : State :=
  let tie := tie && match s.pairing.ownRise with
    | some t => decide (s.roots ≤ t + 12000)
    | none => false
  let s : State := { s.setB Fld.claimStatePartwire true with pairing := { s.pairing with partRise := some s.roots } }
  let block := fun (s : State) => ({ s with pairing := { s.pairing with holdBlocked := true } } : State)
  let seek := fun (s : State) => if s.pair = 3 then s.setPair 1 else s
  if s.pairing.giving ∧ s.get Fld.plinkHCycle ≠ 0 then s.handedOver
  else if tie ∧ s.holding then
    let s := s.raise 0x2C82
    if s.unit = 1 then seek (block (s.releaseStage 0x2C82)) else s
  else if s.holding then seek (block ((s.raise 0x2C02).releaseStage 0x2C02))
  else seek s

/-- PARTNER_WIRE_RISE (R333). -/
def execPartnerWireRise (tie : Bool) (s : State) : Result := .next (s.partnerRise tie)

/-- Whether a HELLO refuses the pair (R321): stepping, PAIRID, unit letter or layout hash. -/
def State.helloRefused (s : State) (m : CtlMsg) : Bool :=
  m.step ≠ s.stepCode || m.pairid ≠ s.chestAt 0x0010 || m.unit = s.unit || m.arg ≠ s.layoutHash

/-- HELLO_RECEIVE (R321, R323, R330, R5): the HELLO is answered, checked, and moves the pair state. -/
def State.hello (s : State) (m : CtlMsg) : State :=
  if !s.linkUp then s
  else
    let s := s.qPushHw 47 (ctlBytes m)
    let s := if !m.answer ∧ s.alive then s.sendCtl (s.ctlMsg 1 s.layoutHash true) else s
    let s : State := { s with pairing := { s.pairing with helloDue := none, helloSeen := true } }
    let s := s.partnerState m
    if s.pair = 0 then s
    else if s.helloRefused m then (s.raise 0x2E02).setPair 0
    else
      let own := s.getB Fld.claimStatePref
      let strap := own = m.pref
      let pref := if strap then s.unit = 0 else own
      let s := if strap then (s.raise 0x2C04).setB Fld.claimStatePrefFault true else s
      let s : State := { s with pairing := { s.pairing with preferred := pref } }
      if s.pair = 1 then
        if m.pair = 2 ∨ m.pair = 3 then s.setPair 4
        else if !s.holding ∧ !m.holding ∧ m.pair ≠ 0 then s.setPair (if pref then 2 else 4)
        else s
      else if s.pair = 2 ∧ (m.pair = 1 ∨ m.pair = 4) then (s.setPair 3).resync
      else if s.pair = 3 ∧ (m.pair = 1 ∨ m.pair = 4) then s.resync
      else s

/-- HELLO_RECEIVE (R321). -/
def execHelloReceive (m : CtlMsg) (s : State) : Result := .next (s.hello m)

/-- When the waits of R323 end, in us: START_WAIT_S after RUN or after SEEKING was entered, and as much again where the own PREF level is low. -/
def State.seekEnd (s : State) : Option Nat :=
  s.pairing.seekUs.map fun t => t + (if s.getB Fld.claimStatePref then 1 else 2) * 1000000 * s.get Fld.plinkCfgStartWaitS

/-- SEEKING_TIMEOUT (R323): START_WAIT_S has passed without a HELLO; with the partner's wire low, a unit strapped high goes ALONE, the
other one after a further START_WAIT_S. -/
def execSeekingTimeout (s : State) : Result :=
  if s.pair ≠ 1 ∨ s.pairing.helloSeen ∨ s.getB Fld.claimStatePartwire then .next s
  else match s.seekEnd.bind s.reachUs with
    | none => .next s
    | some s => .next (s.setPair 2)

/-- LEAVE (R488, R380). -/
def State.leave (s : State) (m : CtlMsg) : State :=
  if !s.linkUp then s
  else
    let s := (s.qPushHw 47 (ctlBytes m)).partnerState m
    if s.pair = 4 ∨ s.pair = 5 then s.setPair 4
    else if s.pair = 3 then
      if m.arg = 0x0C81 then
        let s := s.setB Fld.plinkStatePinsync false
        { s with pairing := { s.pairing with drop := true } }
      else s.resync
    else s

/-- LEAVE (R488). -/
def execLeave (m : CtlMsg) (s : State) : Result := .next (s.leave m)

/-! ### Hand-over, yield, loss (R334-R340) -/

/-- HANDBACK_REQ (R339): the active answers with H = its present cycle + 2. -/
def execHandbackReq (m : CtlMsg) (s : State) : Result :=
  if s.linkUp then
    let s := (s.qPushHw 47 (ctlBytes m)).partnerState m
    if s.pair = 3 ∧ s.get Fld.plinkHCycle = 0 then
      let h := (s.cycle + 2) % 2 ^ 32
      let s := s.set Fld.plinkHCycle h
      let s : State := { s with pairing := { s.pairing with giving := true } }
      .next (s.sendCtl (s.ctlMsg 5 h false))
    else .next s
  else .next s

/-- HANDBACK (R339): the preferred unit takes H. -/
def execHandback (m : CtlMsg) (s : State) : Result :=
  if s.linkUp then
    let s := (s.qPushHw 47 (ctlBytes m)).partnerState m
    if s.pair = 5 then .next (s.set Fld.plinkHCycle m.arg) else .next s
  else .next s

/-- YIELD (R340): the stage releases with REASON 0, heartbeats stop, and the unit goes to SEEKING (SOLO is left only by reset).  While an
earlier yield still runs another is ignored (00 R8). -/
def State.yieldPair (s : State) : State :=
  if s.pairing.yielding.isSome then s
  else
    let s := s.releaseStage 0
    if s.pair = 0 then s
    else
      let s := s.setPair 1
      { s with pairing := { s.pairing with yielding := some s.us } }

/-- YIELD (R340). -/
def execYield (s : State) : Result := .next s.yieldPair

/-- TAKEOVER_DECISION (R335, 14 R352): on a unit in INSYNC that has declared loss, once no commit is in progress: T is the first boundary
at least 1.5 ms after the declaration; a copy WHMAX cycles old, or generations not merged, send the unit to SEEKING. -/
def State.takeoverDecision (s : State) : State :=
  match s.pairing.lost with
  | some t =>
    if s.pair = 5 ∧ s.decant.rx = none ∧ s.pairing.takeT = none then
      let gap := signed 32 (unsigned 32 ((t : Int) - s.get Fld.decantBaseCycle))
      if (s.get Fld.plinkCfgWhmax : Int) ≤ gap ∨ !s.getB Fld.keywellStateMergeDone then s.setPair 1
      else { s.raise 0x2E82 with pairing := { s.pairing with takeT := some t } }
    else s
  | none => s

/-- TAKEOVER_DECISION (R335). -/
def execTakeoverDecision (s : State) : Result := .next s.takeoverDecision

/-- PAIR_DROPPED (R334): at the boundary after WHMAX consecutive withheld cycles an active in PAIRED goes ALONE and sends LEAVE. -/
def execPairDropped (s : State) : Result :=
  if s.pair = 3 ∧ s.get Fld.plinkCfgWhmax ≤ s.pairing.withheld ∧ s.get Fld.sysPhaseOffsetUs < s.deadline then
    .next (((s.raise 0x2E04).sendLeave 0x2E04).setPair 2)
  else .next s

/-- INSYNC_STALE (R488): a standby WHMAX cycles behind leaves INSYNC. -/
def execInsyncStale (s : State) : Result :=
  let gap := signed 32 (unsigned 32 ((s.cycle : Int) - s.get Fld.decantBaseCycle))
  if s.pair = 5 ∧ (s.get Fld.plinkCfgWhmax : Int) ≤ gap then .next (s.setPair (if s.linkUp then 4 else 1)) else .next s

/-- The stage becomes HOLDING and the own wire rises (R331).  Where the partner's wire rose less than 2 us before, the two are settled as
R333 says. -/
def State.stageHolding (s : State) : State :=
  let s := ((s.set Fld.claimStateStage 2).setB Fld.claimStateOwnwire true).bump Fld.claimCntHolds
  let s : State := { s with pairing := { s.pairing with ownRise := some s.roots } }
  let s := s.loopClaimHeld.axesClaimHeld
  let tie := match s.pairing.partRise with
    | some t => decide (s.roots ≤ t + 12000) && s.getB Fld.claimStatePartwire
    | none => false
  if tie then s.partnerRise true else s

/-- What a cycle boundary does to the pair (Tables 13.7 and 13.10, R331): the take-over at T, a planned drop, the hand-over at H and
H + 1, and a PENDING stage that becomes HOLDING. -/
def State.pairBoundary (s : State) : State :=
  let n := s.cycle
  let s := if n = 0 then { s with pairing := { s.pairing with wraps := s.pairing.wraps + 1 } } else s
  let s := if s.pairing.takeT = some n then (s.setPair 2).bump Fld.plinkCntTakeovers else s
  let s := if s.pairing.drop ∧ s.pair = 3 then s.setPair 2 else s
  let h := s.get Fld.plinkHCycle
  let s : State :=
    if h ≠ 0 ∧ n = h then
      if s.pairing.giving ∧ s.pair = 3 then
        let s := s.millStop.setPair 5 true
        let s := s.set Fld.decantBaseCycle ((h + 2 ^ 32 - 1) % 2 ^ 32)
        { s with decant := { s.decant with committed := ((h + 2 ^ 32 - 1) % 2 ^ 32 :: s.decant.committed).take 8 } }
      else if s.pair = 5 then
        let s := ((s.setPair 3).setB Fld.plinkStatePinsync true).set Fld.bootStateSyncmet 1
        { s with decant := { s.decant with complete := true, walk := none, firstDue := false, unacked := [] } }
      else s
    else if h ≠ 0 ∧ n = nextCycle h then (if s.pairing.giving then s.handedOver else s.set Fld.plinkHCycle 0)
    else s
  if s.get Fld.claimStateStage = 1 then s.stageHolding else s

/-! ### Applies (R341, R342) -/

/-- The LAYOUT checks of DECANT (R342) on the copy `g` reads. -/
def decantLayoutOk (s : State) (g : Fld → Nat → Nat) : Bool :=
  let rs := ((List.range 8).map fun r => (g Fld.decantShbaseAddr r * 65536, g Fld.decantShlenLen r * 65536)).filter fun r => r.2 ≠ 0
  let buf := (g Fld.decantBufAddr 0 * 65536, 0x1000000)
  rs.all (fun r => inGranary r.1 r.2) && decide (rs.foldl (fun n r => n + r.2) 0 ≤ 0x1000000) && s.inRam buf.1 buf.2 &&
  disjointRegions (buf :: rs)

/-- Whether DECANT's staged set passes (R342, R487): LAYOUT changes only in SOLO or SEEKING; KEY names a slot that holds a Decant key
(USAGE bit 9, 14 Table 14.5). -/
def decantApplyOk (s : State) : Bool :=
  (!s.changed Blk.decant .gLayout none ||
    (decide (s.pair = 0 ∨ s.pair = 1) && decantLayoutOk s fun f i => s.getStaged f i)) &&
  (!s.changed Blk.decant .gKey none ||
    (match Map.find s.keywell.slots (s.getStaged Fld.decantCfgKeyslot) with
      | some k => bitOf k.usage 9
      | none => false)) &&
  (!s.changed Blk.decant .gResync none ||
    decide (1 ≤ s.getStaged Fld.decantCfgResync ∧ s.getStaged Fld.decantCfgResync ≤ 32))

/-- Whether PLINK's staged set passes (R342): PAIR_EN changes only in SOLO or SEEKING. -/
def plinkApplyOk (s : State) : Bool :=
  (!s.changed Blk.plink .gCfg none || plinkCfgOk fun f => s.getStaged f) &&
  (s.getStaged Fld.plinkCfgPairEn = s.get Fld.plinkCfgPairEn || decide (s.pair = 0 ∨ s.pair = 1))

/-- What a made apply of PLINK does: a unit in SEEKING whose pairing is disabled runs solo (R6, Table 13.12). -/
def State.plinkApplied (s : State) : State :=
  if s.pair = 1 ∧ !s.getB Fld.plinkCfgPairEn then s.setPair 0 else s

end Sys2Proof.Machine
end

