-- ==== Sys2Proof/Machine/Operands.lean ====
section
/-! DEFINITION. The operands of Wilquex instructions (02 Tables 2.2 and 2.5, R46; 03 R71, R73, R80): registers of the three profiles,
immediates, the program counter, and which instructions an engine can execute. -/

namespace Sys2Proof.Machine

/-! ### Immediates -/

/-- Sign-extension of an immediate or offset to 64 bits. -/
def sx (x : BitVec 16) : Word := x.signExtend 64
/-- Zero-extension of an immediate to 64 bits. -/
def zx (x : BitVec 16) : Word := x.zeroExtend 64
/-- Sign-extension of an immediate to 32 bits. -/
def sx32 (x : BitVec 16) : Word32 := x.signExtend 32
/-- Zero-extension of an immediate to 32 bits. -/
def zx32 (x : BitVec 16) : Word32 := x.zeroExtend 32

/-! ### Registers -/

/-- A register of a file whose register 0 reads 0 (Table 2.2, R80). -/
def regRead {w : Nat} (m : Map (BitVec w)) (r : Reg) : BitVec w := if r = 0 then 0 else Map.getD m r.toNat 0

/-- Writes a register of a file whose register 0 discards writes. -/
def regWrite {w : Nat} (m : Map (BitVec w)) (r : Reg) (v : BitVec w) : Map (BitVec w) :=
  if r = 0 then m else Map.put m r.toNat v

/-- A general register of an engine, as 64 bits. -/
def State.rg (s : State) (e : Engine) (r : Reg) : Word :=
  match e with
  | .hub c => regRead (s.core c).g r
  | .node n => regRead (s.node n.val).g r
  | .seq q => (regRead (s.seq q.val).g r).zeroExtend 64

/-- Writes a general register of an engine; a sequencer takes the low 32 bits. -/
def State.wg (s : State) (e : Engine) (r : Reg) (v : Word) : State :=
  match e with
  | .hub c => s.setCore c { s.core c with g := regWrite (s.core c).g r v }
  | .node n => s.setNode n.val { s.node n.val with g := regWrite (s.node n.val).g r v }
  | .seq q => s.setSeq q.val { s.seq q.val with g := regWrite (s.seq q.val).g r (v.truncate 32) }

/-- A floating point register of an engine; f0 is a register like any other. -/
def State.rf (s : State) (e : Engine) (r : Reg) : Word :=
  match e with
  | .hub c => Map.getD (s.core c).f r.toNat 0
  | .node n => Map.getD (s.node n.val).f r.toNat 0
  | .seq _ => 0

/-- Writes a floating point register of an engine. -/
def State.wf (s : State) (e : Engine) (r : Reg) (v : Word) : State :=
  match e with
  | .hub c => s.setCore c { s.core c with f := Map.put (s.core c).f r.toNat v }
  | .node n => s.setNode n.val { s.node n.val with f := Map.put (s.node n.val).f r.toNat v }
  | .seq _ => s

/-! ### The program counter -/

/-- A hub program counter: bits [63:40] and [1:0] are always 0 (Table 2.2). -/
def pcFit (v : Word) : Word := v &&& 0xFFFFFFFFFC#64

/-- The program counter of an engine. -/
def State.pcOf (s : State) (e : Engine) : Word :=
  match e with
  | .hub c => (s.core c).pc
  | .node n => (s.node n.val).pc
  | .seq q => BitVec.ofNat 64 (s.seq q.val).pc

/-- Sets the program counter of an engine. -/
def State.setPc (s : State) (e : Engine) (v : Word) : State :=
  match e with
  | .hub c => s.setCore c { s.core c with pc := pcFit v }
  | .node n => s.setNode n.val { s.node n.val with pc := v }
  | .seq q => s.setSeq q.val { s.seq q.val with pc := v.toNat % 2 ^ 32 }

/-- An instruction retires: the program counter goes to the next word, and a sequencer counts it against R86. -/
def State.adv (s : State) (e : Engine) : State :=
  match e with
  | .hub c => s.setCore c { s.core c with pc := pcFit ((s.core c).pc + 4) }
  | .node n => s.setNode n.val { s.node n.val with pc := (s.node n.val).pc + 4 }
  | .seq q => s.setSeq q.val { s.seq q.val with pc := ((s.seq q.val).pc + 4) % 2 ^ 32, count := (s.seq q.val).count + 1 }

/-! ### Who executes -/

/-- The instruction word at an engine's pc: a hub core fetches through the L2, a node engine from memory, a sequencer from its IMEM. -/
def State.fetchWord (s : State) (e : Engine) : BitVec 32 :=
  let a := (s.pcOf e).toNat
  BitVec.ofNat 32 (leNat ((List.range 4).map fun i =>
    match e with
    | .hub _ => s.hubByte (a + i)
    | .node _ => memByte s.mem (a + i)
    | .seq q => memByte (s.seq q.val).imem (a + i)))

/-- Why the place that an engine fetches from may not be fetched, if it may not: an address that R27 refuses, a region that may not be
executed (Table 2.10, 03 R73, R80), or an uncorrectable word (R38). -/
def State.fetchPlace (s : State) (e : Engine) : Option Nat :=
  let a := (s.pcOf e).toNat
  match e with
  | .seq _ => if 0x8000 ≤ a then some 0x0401 else none
  | .hub _ =>
    match s.addrFault a false with
    | some k => some k
    | none => if regionOf a = .host ∨ s.shadowLine (a / 64) then some 0x0205 else if s.hubPoison a 4 then some 0x0801 else none
  | .node _ =>
    match s.addrFault a false with
    | some k => some k
    | none => if !(inGranary a 4 || s.inDram a 4) then some 0x0208 else if s.poisonAt a 4 then some 0x0801 else none

/-- Why an engine's fetch at its pc faults, if it does: for its place, or for a word that is no instruction of the profile (R46, R71; log
70). -/
def State.fetchFault (s : State) (e : Engine) : Option Nat :=
  match s.fetchPlace e with
  | some k => some k
  | none => if decodeInsn e (s.fetchWord e) = none then some 0x0205 else none

/-- Whether a hub core is ready for an instruction: it is running, no write of its own stalls it (R30), and the unit has not stopped on a
lockstep mismatch (R44). -/
def State.hubReady (s : State) (c : Core) : Bool :=
  (s.core c).run = .running && !s.lockstepStopped && !s.writerStalled (.hub c)

/-- Whether an engine is ready for an instruction: it executes, and no write of its own stalls it (R30). -/
def State.ready (s : State) (e : Engine) : Bool :=
  match e with
  | .hub c => s.hubReady c
  | .node n => ((s.node n.val).run = .service || (s.node n.val).run = .idle) && !s.writerStalled (.node n)
  | .seq q => (s.seq q.val).run = .running

/-- Whether an engine executes instructions now: it is ready, and its fetch at pc faults on nothing. -/
def State.runs (s : State) (e : Engine) : Bool := s.ready e && s.fetchFault e = none

/-- Whether an engine may execute a blocked instruction: it runs, or it waits in this very one (R66). -/
def State.runsOr (s : State) (e : Engine) (i : Instr) : Bool :=
  s.runs e ||
  match e with
  | .hub c => (s.core c).run = .waiting && (s.core c).blocked = some i && !s.lockstepStopped
  | .node _ => false
  | .seq q => (s.seq q.val).run = .waiting && (s.seq q.val).blocked = some i

/-- An engine waits in an instruction that cannot complete yet (R66). -/
def State.block (s : State) (e : Engine) (i : Instr) : State :=
  match e with
  | .hub c => s.setCore c { s.core c with run := .waiting, blocked := some i }
  | .node _ => s
  | .seq q => s.setSeq q.val { s.seq q.val with run := .waiting, blocked := some i }

/-- An engine's blocked instruction can complete: it runs again. -/
def State.unblock (s : State) (e : Engine) : State :=
  match e with
  | .hub c => s.setCore c { s.core c with run := .running, blocked := none }
  | .node _ => s
  | .seq q => s.setSeq q.val { s.seq q.val with run := .running, blocked := none }

/-- Whether the register fields of an instruction name registers of the engine: a sequencer has sixteen (R80). -/
def regsOk (e : Engine) (rs : List Reg) : Bool :=
  match e with
  | .seq _ => rs.all fun r => decide (r.toNat < 16)
  | _ => true

/-- STATUS.LEVEL: whether a core is at its top level (Table 2.4). -/
def State.top (s : State) (c : Core) : Bool := bitOf (s.core c).status.toNat 0

/-- CORE_ID (Table 2.3). -/
def coreId : Core → Nat
  | .kernel => 0
  | .core2 => 2
  | .core3 => 3

/-- The first code of a sequencer's owning block: 0x1B on GNSS, 0x20 on radio sequencers (03). -/
def seqCode (q : Fin 8) (n : Nat) : Nat := (if q.val < 4 then 0x1B00 else 0x2000) + n

/-- Root clocks in a clock of a sequencer's domain: GNSS ÷12, MAC ÷30 (Table 1.2). -/
def seqDiv (q : Nat) : Nat := if q < 4 then 12 else 30

/-- TNOW of a sequencer: the clocks of its domain (R81; log 20). -/
def State.tnow (s : State) (q : Nat) : Nat := s.roots / seqDiv q % 2 ^ 32

/-- CYCBASE of a sequencer: TNOW at the first clock of the present fleet cycle (Table 3.5). -/
def State.cycbase (s : State) (q : Nat) : Nat := s.cycleRoots / seqDiv q % 2 ^ 32

end Sys2Proof.Machine
end

