-- ==== Sys2Proof/Machine/Flags.lean ====
section
/-! DEFINITION. The flags of Wilquex: FCSR's rounding mode and sticky exception flags (02, FCSR; R49).  Integer arithmetic keeps no
flags (R48). -/

namespace Sys2Proof.Machine

/-- FCSR of an engine. -/
def State.fcsr (s : State) (e : Engine) : Word :=
  match e with
  | .hub c => (s.core c).fcsr
  | .node n => (s.node n.val).fcsr
  | .seq _ => 0

/-- The rounding mode of an engine: FCSR[2:0], values 5 to 7 acting as 0. -/
def State.rmode (s : State) (e : Engine) : RMode := RMode.ofCode (bits (s.fcsr e).toNat 0 3)

/-- Sets sticky flags in FCSR[8:4]. -/
def State.accrue (s : State) (e : Engine) (f : FFlags) : State :=
  let v := fun (w : Word) => w ||| BitVec.ofNat 64 f.bits
  match e with
  | .hub c => s.setCore c { s.core c with fcsr := v (s.core c).fcsr }
  | .node n => s.setNode n.val { s.node n.val with fcsr := v (s.node n.val).fcsr }
  | .seq _ => s

end Sys2Proof.Machine
end

