-- ==== Sys2Proof/Machine/Exceptions.lean ====
section
/-! DEFINITION. Exceptions, interrupts and faults of engines (02 R44, R56, R63-R67, Tables 2.15 and 2.19; 03 R72, R78, R87). -/

namespace Sys2Proof.Machine

/-! ### The lockstep pair (R44) -/

/-- A core stops. -/
def HubCore.stop (h : HubCore) : HubCore := if h.run = .inReset then h else { h with run := .halted, blocked := none }

/-- A lockstep mismatch, or what has its consequences (R44, R45, R67): the cores stop, MISMATCH is set and 0x0220 recorded, the claim
stage releases, heartbeats stop, and a unit whose gate opens without an acknowledgement rings HALT. -/
def State.lockstepStop (s : State) : State :=
  let s := { s with lockstepStopped := true, kernel := s.kernel.stop, core2 := s.core2.stop, core3 := s.core3.stop }
  let s := ((s.setB Fld.hubLstepMismatch true).raise 0x0220).releaseStage 0x0220
  if s.solo then s.bellKernel 1 else s

/-! ### Taking an exception (R63, R67) -/

/-- STATUS on an entry: PLEVEL and PIE take LEVEL and IE; LEVEL is the top level, IE 0 and EXL 1. -/
def entryStatus (w : Word) : Word :=
  BitVec.ofNat 64 (1 + 4 + 8 * (bitOf w.toNat 0).toNat + 16 * (bitOf w.toNat 1).toNat)

/-- STATUS after ERET: LEVEL and IE from PLEVEL and PIE, EXL 0. -/
def eretStatus (w : Word) : Word :=
  BitVec.ofNat 64 ((bitOf w.toNat 3).toNat + 2 * (bitOf w.toNat 4).toNat + 8 * (bitOf w.toNat 3).toNat + 16 * (bitOf w.toNat 4).toNat)

/-- A core enters its handler at EVEC + `off`: the saved words are written, the status changes, a reservation is lost (R50), and a blocked
instruction is abandoned. -/
def State.enter (s : State) (c : Core) (epc : Word) (cause eval eaddr off : Nat) : State :=
  let h := s.core c
  s.setCore c { h with
    status := entryStatus h.status, epc := pcFit epc, ecause := BitVec.ofNat 64 cause, eval := BitVec.ofNat 64 eval,
    eaddr := BitVec.ofNat 64 eaddr, pc := pcFit (h.evec + BitVec.ofNat 64 off), resv := none, run := .running, blocked := none }

/-- A synchronous exception with return address `epc` (R63); while EXL = 1 it is a double exception (R67): core 2 or 3 halts with
HALTCAUSE, and the kernel has the consequences of R44. -/
def State.except (s : State) (c : Core) (epc : Word) (cause eval eaddr : Nat) : State :=
  if bitOf (s.core c).status.toNat 2 then
    match c with
    | .kernel => s.lockstepStop
    | .core2 => ((s.setCore .core2 s.core2.stop).set Fld.hubHaltcauseCore2 0x020B).pend .kernel 60
    | .core3 => ((s.setCore .core3 s.core3.stop).set Fld.hubHaltcauseCore3 0x020B).pend .kernel 60
  else s.enter c epc cause eval eaddr 0

/-- ECAUSE of a fault code (Table 2.15). -/
def causeOf (code : Nat) : Nat :=
  match code with
  | 0x0205 => 0x01
  | 0x0202 | 0x0206 => 0x02
  | 0x0207 => 0x03
  | 0x0401 | 0x0402 | 0x0403 => 0x04
  | 0x0801 => 0x05
  | 0x0201 | 0x0203 | 0x0204 => 0x06
  | 0x0209 => 0x07
  | _ => 0x08

/-- A fault of a hub core's instruction: it has no effect, and EPC points to it (R63). -/
def State.hubFault (s : State) (c : Core) (code : Nat) (addr : Nat := 0) : State :=
  s.except c (s.core c).pc (causeOf code) code addr

/-- A completing fault of R56: EPC points to the next instruction. -/
def State.hubFaultDone (s : State) (c : Core) (code : Nat) : State :=
  s.except c ((s.core c).pc + 4) (causeOf code) code 0

/-! ### Faults of engines and sequencers (03 R72, R78, R87) -/

/-- A sequencer halts (R87): its slots are disarmed and LASTFAULT takes the code; the block raises it; GSEQ's or RADIO's words follow (06 R167, 09 Table 9.19). -/
def State.seqHalt (s : State) (q : Nat) (code : Nat) : State :=
  let x := s.seq q
  let s := if code = 0 then s else s.raise code (q % 4) (some (if q < 4 then Blk.gseq else Blk.radio))
  let s := if q < 4 then (s.set Fld.gseqStateSeq 1 q).set Fld.gseqFaultCode code q else s.set Fld.radioFaultnCode code (q - 4)
  s.setSeq q { x with run := .halted, blocked := none, slots := [], lastFault := code }

/-- A fault of an engine's instruction, named by its hub code (R72): a hub core takes the exception, a node engine's item is abandoned
(or, outside an item, the engine goes back to its image entry), a sequencer halts. -/
def State.engFault (s : State) (e : Engine) (code : Nat) (addr : Nat := 0) : State :=
  match e with
  | .hub c => s.hubFault c code addr
  | .node n =>
    let k := match code with
      | 0x0205 | 0x0206 => 0x1020
      | 0x0207 => 0x1021
      | 0x0208 => 0x1022
      | k => k
    s.nodeAbandon n.val k
  | .seq q =>
    let k := match code with
      | 0x0205 | 0x0206 => seqCode q 0x40
      | 0x0401 | 0x0402 | 0x0403 | 0x0208 => seqCode q 0x41
      | 0x0207 => seqCode q 0x42
      | 0x020A => seqCode q 0x44
      | 0x020C => seqCode q 0x45
      | k => k
    s.seqHalt q.val k

/-- What an engine does with an instruction that it cannot execute: nothing while it is not ready; otherwise it takes what its fetch faults
with (R46, 03 R72), with no data address. -/
def State.cannot (s : State) (e : Engine) : State :=
  if s.ready e then
    match s.fetchFault e with
    | some k => s.engFault e k
    | none => s
  else s

/-- An instruction that only the hub profile has: on any other engine it is illegal (R71). -/
def State.onHub (s : State) (e : Engine) (f : Core → State) : State :=
  match e with
  | .hub c => f c
  | _ => if s.runs e then s.engFault e 0x0205 else s.cannot e

/-- An instruction that only the node profile has (R71). -/
def State.onNode (s : State) (e : Engine) (f : Fin 24 → State) : State :=
  match e with
  | .node n => f n
  | _ => if s.runs e then s.engFault e 0x0205 else s.cannot e

/-- An instruction that only the sequencer profile has (R71). -/
def State.onSeq (s : State) (e : Engine) (f : Fin 8 → State) : State :=
  match e with
  | .seq q => f q
  | _ => if s.runs e then s.engFault e 0x0205 else s.cannot e

/-! ### Interrupts (R64) -/

/-- The receiving core of a mailbox (Table 2.16); none for the host. -/
def mboxCore (m : Nat) : Option Core :=
  if m < 4 then some .kernel else if m < 6 then some .core2 else if m < 8 then some .core3
  else if m < 16 then none else if m < 24 then some .kernel else if m < 28 then some .core2 else some .core3

/-- A mailbox. -/
def State.mbox (s : State) (m : Nat) : Mailbox := Map.getD s.mailboxes m {}

/-- The sources pending at a core (Table 2.19): events whose cause has not been cleared (R64; log 22), TICK at or above TCMP, mailboxes that
are not empty, and queue lines. -/
def State.ipendOf (s : State) (c : Core) : Nat :=
  let h := s.core c
  let v := h.ipend.toNat
  let v := if h.tcmp.toNat ≤ h.tick.toNat then setBit v 6 true else v
  let v := (List.range 32).foldl (fun v m =>
    if mboxCore m = some c ∧ (s.mbox m).msgs ≠ [] then setBit v (8 + m) true else v) v
  v ||| s.qLines c

/-- The sources pending and enabled at a core. -/
def State.irqs (s : State) (c : Core) : Nat := s.ipendOf c &&& (s.core c).imask.toNat

/-- The lowest source of a set. -/
def lowestSource (v : Nat) : Option Nat := (List.range 64).find? (bitOf v)

/-- Whether a core can take an interrupt now (R64, R66): it executes instructions or waits in one that has had no effect yet, which a KGEN
whose update is under way has had (DEDUCED, log 63), and no write of its own stalls it. -/
def State.takesIrq (s : State) (c : Core) : Bool :=
  let h := s.core c
  (h.run = .running || h.run = .waiting) && !s.lockstepStopped && !s.writerStalled (.hub c) && !(c = .kernel && s.keywell.kgen.isSome) &&
    bitOf h.status.toNat 1 && !bitOf h.status.toNat 2

/-- INTERRUPT_ENTRY (R63, R64, R66): with IE = 1 and EXL = 0 the lowest pending enabled source is taken, and stays
pending; a blocked instruction is abandoned, and EPC points to it. -/
def execInterruptEntry (c : Core) (s : State) : Result :=
  let h := s.core c
  if s.takesIrq c then
    match lowestSource (s.irqs c) with
    | some n => .next (s.enter c h.pc 0x10 n 0 0x100)
    | none => .next s
  else .next s

/-- TIMER_COMPARE (R64): TICK reaches TCMP, and source 6 is pending. -/
def execTimerCompare (c : Core) (s : State) : Result :=
  let h := s.core c
  if h.run = .inReset ∨ h.tcmp.toNat ≤ h.tick.toNat then .next s else .next (s.setCore c { h with tick := h.tcmp })

/-- LOCKSTEP_MISMATCH (R44). -/
def execLockstepMismatch (s : State) : Result := .next (if s.lockstepStopped then s else s.lockstepStop)

/-- LSTEP_SELFTEST (R45): the self-test runs again; a failed one raises 0x0221 and has the consequences of R44. -/
def State.lstepSelftest (s : State) (ok : Bool) : State :=
  let s := s.setB Fld.hubLstepSelftestOk ok
  if ok then s else (s.raise 0x0221).lockstepStop

/-- LSTEP_SELFTEST (R45). -/
def execLstepSelftest (ok : Bool) (s : State) : Result := .next (if s.lockstepStopped then s else s.lstepSelftest ok)

/-! ### Starting and halting cores (R70) -/

/-- The instance of core 2 or 3 in HUB's words. -/
def coreInst : Core → Nat
  | .core3 => 1
  | _ => 0

/-- START2 or START3 (R70): a core that is in reset or halted starts at its live entry address, its core words as Table 2.3 gives them.  On
a core that runs or waits while the live VALID is 0 both codes of R70 are due: only 0x0211 is raised (DESIGN CHOICE, log 264). -/
def State.coreStart (s : State) (c : Core) : State :=
  let i := coreInst c
  if c = .kernel ∨ s.lockstepStopped then s
  else if !s.getB Fld.hubEntryhiValid i then s.raise 0x0211
  else if (s.core c).run = .running ∨ (s.core c).run = .waiting then s.raise 0x0283
  else
    let a := s.get Fld.hubEntryhiAddrHi i * 2 ^ 32 + s.get Fld.hubEntryloAddrLo i * 4
    let s := s.setCore c { g := (s.core c).g, f := (s.core c).f, pc := pcFit (BitVec.ofNat 64 a), run := .running, chestQ := (s.core c).chestQ }
    if s.core2.run = .halted ∨ s.core3.run = .halted then s else s.unpend .kernel 60

/-- CORE_START (R70). -/
def execCoreStart (c : Core) (s : State) : Result := .next (s.coreStart c)

/-- HALT2 or HALT3 (R70, Table 2.21): a running core halts, a blocked instruction is abandoned, and source 60 is raised on the kernel. -/
def State.coreHalt (s : State) (c : Core) : State :=
  if c = .kernel then s
  else if (s.core c).run = .running ∨ (s.core c).run = .waiting then (s.setCore c (s.core c).stop).pend .kernel 60
  else s

/-- CORE_HALT (R70). -/
def execCoreHalt (c : Core) (s : State) : Result := .next (s.coreHalt c)

/-- The lanes of HUB.CORE (Table 2.21): STATE, LEVEL and EXL of each core. -/
def HubCore.lane (h : HubCore) : Nat :=
  let st := match h.run with
    | .inReset => 0
    | .running => 1
    | .waiting => 2
    | .halted => 3
  if h.run = .inReset then 0 else st + 4 * (bitOf h.status.toNat 0).toNat + 8 * (bitOf h.status.toNat 2).toNat

/-- HUB.CORE as the cores stand, for a read of it. -/
def State.hubSync (s : State) : State :=
  ((s.set Fld.hubCoreKernel s.kernel.lane).set Fld.hubCoreCore2 s.core2.lane).set Fld.hubCoreCore3 s.core3.lane

/-- Whether HUB's staged set passes (R69): a valid entry address lies in the Granary, the boot ROM, the flash window or fitted DRAM. -/
def hubApplyOk (s : State) : Bool :=
  (List.range 2).all fun i =>
    let a := s.getStaged Fld.hubEntryhiAddrHi i * 2 ^ 32 + s.getStaged Fld.hubEntryloAddrLo i * 4
    !s.changed Blk.hub .gEntry (some i) || s.getStaged Fld.hubEntryhiValid i = 0 ||
      (s.addrFault a false = none && regionOf a ≠ .host)

end Sys2Proof.Machine
end

