-- ==== Sys2Proof/Machine/HubMem.lean ====
section
/-! DEFINITION. Loads, stores and atomics of the three profiles (02 Tables 2.9 and 2.10, R50-R53; 03 R73, R80). -/

namespace Sys2Proof.Machine

/-- Whether an effective address of a node engine lies in its local store (R73). -/
def isLocal (a : Nat) : Bool := decide (0xFFFFFFFFFFFF8000 ≤ a)

/-- Why an engine's access of `n` bytes at `a` faults, as a hub code; a code of the node profile stands for itself.  Alignment is checked
first (log 23). -/
def State.accessFault (s : State) (e : Engine) (a n : Nat) (write : Bool) : Option Nat :=
  if a % n ≠ 0 then some 0x0207
  else match e with
    | .hub _ =>
      match s.addrFault a write with
      | some c => some c
      | none => if !write && s.hubPoison a n then some 0x0801 else none
    | .node _ =>
      if isLocal a then none
      else match regionOf a with
        | .granary => if !write && s.poisonAt a n then some 0x0801 else none
        | .dram => s.addrFault a write
        | .unmapped => some 0x0401
        | _ => some 0x1022
    | .seq _ => if a < 0x8000 then none else some 0x0401

/-- The number an engine reads, and what the read does: single-bit errors corrected (R38), a hub core's line in the L2 (R52); the host
window's bytes are free values (log 9). -/
def State.engRead (s : State) (e : Engine) (a n : Nat) : Nat × State :=
  match e with
  | .node k => if isLocal a then (leNat (readBytes (s.node k.val).store (a % 0x8000) n), s)
    else (leNat (readBytes s.mem a n), s.eccRead a n)
  | .seq q => (leNat (readBytes (s.seq q.val).dmem a n), s)
  | .hub _ =>
    if regionOf a = .host then
      let (v, s) := s.draw
      (v % 2 ^ (8 * n), s)
    else let (bs, s) := s.hubRead a n; (leNat bs, s)

/-- A hub core's own store keeps its reservation (R50: it is lost on a write by another initiator). -/
def State.hubStore (s : State) (c : Core) (a : Nat) (bs : List Byte) : State :=
  let r := (s.core c).resv
  let s := s.hubWrite c a bs
  s.setCore c { s.core c with resv := r }

/-- A node engine's own store keeps its reservation. -/
def State.nodeStore (s : State) (n : Fin 24) (a : Nat) (bs : List Byte) : State :=
  let r := (s.node n.val).resv
  let s := s.store a bs (some (.node n))
  s.setNode n.val { s.node n.val with resv := r }

/-- The bytes an engine writes; a write to the host window leaves the device; a write to the frozen set stalls the engine (R30). -/
def State.engWrite (s : State) (e : Engine) (a : Nat) (bs : List Byte) : State :=
  match e with
  | .node k =>
    if isLocal a then
      let x := s.node k.val
      s.setNode k.val { x with store := memPutAll x.store (a % 0x8000) bs }
    else s.nodeStore k a bs
  | .seq q =>
    let x := s.seq q.val
    s.setSeq q.val { x with dmem := memPutAll x.dmem a bs }
  | .hub c => if regionOf a = .host then s else s.hubStore c a bs

/-- The effective address: g[a] + sext(imm16), on 32 bits on a sequencer. -/
def State.effAddr (s : State) (e : Engine) (a : Reg) (imm : BitVec 16) : Nat :=
  match e with
  | .seq q => (regRead (s.seq q.val).g a + sx32 imm).toNat
  | _ => (s.rg e a + sx imm).toNat

/-- A read of `[a, a + n)` that faults with ECC_UNCORRECTABLE is noted by the Granary (R38). -/
def State.noteEcc (s : State) (code a n : Nat) : State := if code = 0x0801 then s.eccBad a n else s

/-- A load of `n` bytes through `f` (Table 2.9). -/
def State.load (s : State) (e : Engine) (d a : Reg) (imm : BitVec 16) (n : Nat) (kept : Bool) (put : State → Nat → State) : State :=
  if !s.runs e then s.cannot e
  else if !kept || !regsOk e [d, a] then s.engFault e 0x0205
  else
    let ad := s.effAddr e a imm
    match s.accessFault e ad n false with
    | some c => (s.noteEcc c ad n).engFault e c ad
    | none =>
      let (v, s) := s.engRead e ad n
      (put s v).adv e

/-- Whether the engine is no sequencer: what Table 3.1 leaves out of WQX-Q. -/
def notSeq (e : Engine) : Bool :=
  match e with
  | .seq _ => false
  | _ => true

/-- A number of `n` bytes sign-extended to 64 bits. -/
def sextBytes (n v : Nat) : Word := BitVec.ofInt 64 (signed (8 * n) v)

/-- A store of `n` bytes (Table 2.9). -/
def State.storeInsn (s : State) (e : Engine) (d a : Reg) (imm : BitVec 16) (n : Nat) (kept : Bool) (v : Word) : State :=
  if !s.runs e then s.cannot e
  else if !kept || !regsOk e [d, a] then s.engFault e 0x0205
  else
    let ad := s.effAddr e a imm
    match s.accessFault e ad n true with
    | some c => s.engFault e c ad
    | none => (s.engWrite e ad (leBytes v.toNat n)).adv e

/-- LB (Table 2.9). -/
def execLb (e : Engine) (d a : Reg) (imm : BitVec 16) (s : State) : Result :=
  .next (s.load e d a imm 1 true fun s v => s.wg e d (sextBytes 1 v))
/-- LH (Table 2.9). -/
def execLh (e : Engine) (d a : Reg) (imm : BitVec 16) (s : State) : Result :=
  .next (s.load e d a imm 2 true fun s v => s.wg e d (sextBytes 2 v))
/-- LW (Table 2.9). -/
def execLw (e : Engine) (d a : Reg) (imm : BitVec 16) (s : State) : Result :=
  .next (s.load e d a imm 4 true fun s v => s.wg e d (sextBytes 4 v))
/-- LD (Table 2.9). -/
def execLd (e : Engine) (d a : Reg) (imm : BitVec 16) (s : State) : Result :=
  .next (s.load e d a imm 8 (notSeq e) fun s v => s.wg e d (BitVec.ofNat 64 v))
/-- LBU (Table 2.9). -/
def execLbu (e : Engine) (d a : Reg) (imm : BitVec 16) (s : State) : Result :=
  .next (s.load e d a imm 1 true fun s v => s.wg e d (BitVec.ofNat 64 v))
/-- LHU (Table 2.9). -/
def execLhu (e : Engine) (d a : Reg) (imm : BitVec 16) (s : State) : Result :=
  .next (s.load e d a imm 2 true fun s v => s.wg e d (BitVec.ofNat 64 v))
/-- LWU (Table 2.9). -/
def execLwu (e : Engine) (d a : Reg) (imm : BitVec 16) (s : State) : Result :=
  .next (s.load e d a imm 4 (notSeq e) fun s v => s.wg e d (BitVec.ofNat 64 v))
/-- FLD (Table 2.9). -/
def execFld (e : Engine) (d a : Reg) (imm : BitVec 16) (s : State) : Result :=
  .next (s.load e d a imm 8 (notSeq e) fun s v => s.wf e d (BitVec.ofNat 64 v))

/-- SB (Table 2.9). -/
def execSb (e : Engine) (d a : Reg) (imm : BitVec 16) (s : State) : Result := .next (s.storeInsn e d a imm 1 true (s.rg e d))
/-- SH (Table 2.9). -/
def execSh (e : Engine) (d a : Reg) (imm : BitVec 16) (s : State) : Result := .next (s.storeInsn e d a imm 2 true (s.rg e d))
/-- SW (Table 2.9). -/
def execSw (e : Engine) (d a : Reg) (imm : BitVec 16) (s : State) : Result := .next (s.storeInsn e d a imm 4 true (s.rg e d))
/-- SD (Table 2.9). -/
def execSd (e : Engine) (d a : Reg) (imm : BitVec 16) (s : State) : Result := .next (s.storeInsn e d a imm 8 (notSeq e) (s.rg e d))
/-- FSD (Table 2.9). -/
def execFsd (e : Engine) (d a : Reg) (imm : BitVec 16) (s : State) : Result := .next (s.storeInsn e d a imm 8 (notSeq e) (s.rf e d))

/-! ### Atomics (R50) -/

/-- Why an atomic at `a` faults: alignment, then a node engine's local store, which is no region of Table 1.4 (R73, R50), then ADDR_UNMAPPED
outside the map (log 23), then ATOMIC_REGION outside the Granary and DRAM, then
what a read faults with. -/
def State.atomicFault (s : State) (e : Engine) (a : Nat) : Option Nat :=
  let local' := match e with
    | .node _ => isLocal a
    | _ => false
  if a % 8 ≠ 0 then some 0x0207
  else if local' then some 0x0208
  else if regionOf a = .unmapped then some 0x0401
  else if regionOf a ≠ .granary ∧ regionOf a ≠ .dram then some 0x0208
  else s.accessFault e a 8 false

/-- An atomic on the doubleword at g[a]: `f` answers the state after it from the value found. -/
def State.atomic (s : State) (e : Engine) (a : Reg) (f : State → Nat → Nat → State) : State :=
  if !s.runs e then s.cannot e
  else if !notSeq e then s.engFault e 0x0205
  else
    let ad := (s.rg e a).toNat
    match s.atomicFault e ad with
    | some c => (s.noteEcc c ad 8).engFault e c ad
    | none =>
      let (v, s) := s.engRead e ad 8
      (f s ad v).adv e

/-- The reservation of an engine. -/
def State.resvOf (s : State) (e : Engine) : Option Nat :=
  match e with
  | .hub c => (s.core c).resv
  | .node n => (s.node n.val).resv
  | .seq _ => none

/-- Sets the reservation of an engine, with the time it is set at. -/
def State.setResv (s : State) (e : Engine) (r : Option Nat) : State :=
  match e with
  | .hub c => s.setCore c { s.core c with resv := r, resvAt := s.roots }
  | .node n => s.setNode n.val { s.node n.val with resv := r, resvAt := s.roots }
  | .seq _ => s

/-- LLD (Table 2.9): d = [a], and a reservation on the 64-byte line. -/
def execLld (e : Engine) (d a : Reg) (s : State) : Result :=
  .next (s.atomic e a fun s ad v => (s.wg e d (BitVec.ofNat 64 v)).setResv e (some (ad / 64)))

/-- SCD (Table 2.9): if the reservation holds, [a] = b and d = 0; else d = 1.  The reservation is used up. -/
def execScd (e : Engine) (d a b : Reg) (s : State) : Result :=
  .next (s.atomic e a fun s ad _ =>
    if s.resvOf e = some (ad / 64) then
      ((s.engWrite e ad (leBytes (s.rg e b).toNat 8)).setResv e none).wg e d 0
    else s.wg e d 1)

/-- AMOADD (Table 2.9): d = [a]; [a] = [a] + b. -/
def execAmoadd (e : Engine) (d a b : Reg) (s : State) : Result :=
  .next (s.atomic e a fun s ad v =>
    (s.engWrite e ad (leBytes ((v + (s.rg e b).toNat) % 2 ^ 64) 8)).wg e d (BitVec.ofNat 64 v))

/-- AMOSWP (Table 2.9): d = [a]; [a] = b. -/
def execAmoswp (e : Engine) (d a b : Reg) (s : State) : Result :=
  .next (s.atomic e a fun s ad v => (s.engWrite e ad (leBytes (s.rg e b).toNat 8)).wg e d (BitVec.ofNat 64 v))

/-- AMOCAS (Table 2.9): d = [a]; if [a] = c then [a] = b. -/
def execAmocas (e : Engine) (d a b c : Reg) (s : State) : Result :=
  .next (s.atomic e a fun s ad v =>
    (if v = (s.rg e c).toNat then s.engWrite e ad (leBytes (s.rg e b).toNat 8) else s).wg e d (BitVec.ofNat 64 v))

end Sys2Proof.Machine
end

