-- ==== Sys2Proof/Machine/HubSystem.lean ====
section
/-! DEFINITION. Mailboxes, queues, the Chest, the Bell and claim instructions, and system instructions (02 Tables 2.13-2.18, R58-R66;
03 Tables 3.2 and 3.5). -/

namespace Sys2Proof.Machine

/-! ### Levels, ranges of memory -/

/-- What instructions of the top level share: a core that runs, or waits in this instruction, and its level (R42). -/
def State.topInsn (s : State) (c : Core) (i : Instr) (f : State → State) : State :=
  if !s.runsOr (.hub c) i then s.cannot (.hub c)
  else if !s.top c then s.hubFault c 0x0206
  else f s

/-- The kernel's own instructions: the Bell, claims and boot requests (Table 2.1). -/
def State.kernelInsn (s : State) (c : Core) (i : Instr) (f : State → State) : State :=
  s.topInsn c i fun s => if c = .kernel then f s else s.hubFault c 0x0206

/-- A result in d, and on to the next instruction; a blocked instruction has ended. -/
def State.done (s : State) (c : Core) (d : Reg) (v : Nat) : State :=
  ((s.unblock (.hub c)).wg (.hub c) d (BitVec.ofNat 64 v)).adv (.hub c)

/-- Why an access of `n` bytes, of any alignment, by an engine faults: the code and the address. -/
def State.rangeFault (s : State) (e : Engine) (a n : Nat) (write : Bool) : Option (Nat × Nat) :=
  if n = 0 then none
  else match e with
    | .seq _ => if a + n ≤ 0x8000 then none else some (0x0401, a)
    | _ =>
      match s.addrFault a write with
      | some c => some (c, a)
      | none =>
        match s.addrFault (a + n - 1) write with
        | some c => some (c, a + n - 1)
        | none =>
          let bad := match e with
            | .hub _ => s.hubPoison a n
            | _ => s.poisonAt a n
          if !write && bad then some (0x0801, a) else none

/-- The bytes of a range that an engine reads; the host window's are free values (log 9). -/
def State.rangeRead (s : State) (e : Engine) (a n : Nat) : List Byte × State :=
  match e with
  | .seq q => (readBytes (s.seq q.val).dmem a n, s)
  | _ =>
    if regionOf a = .host then
      s.drawBytes n
    else s.hubRead a n

/-! ### Mailboxes (R60-R62) -/

/-- Replaces a mailbox. -/
def State.setMbox (s : State) (m : Nat) (x : Mailbox) : State := { s with mailboxes := Map.put s.mailboxes m x }

/-- Whether the release gate governs a mailbox (Table 2.16). -/
def mboxGated (m : Nat) : Bool := decide (8 ≤ m ∧ m ≤ 14)

/-- A message of a core enters a mailbox that has room. -/
def State.mboxPut (s : State) (m : Nat) (bytes : List Byte) : State :=
  let x := s.mbox m
  let held := mboxGated m
  let s := s.setMbox m { x with msgs := x.msgs ++ [⟨bytes, s.cycle, held⟩], put := if held then x.put else (x.put + 1) % 2 ^ 32 }
  if m = 15 then { s with msix := s.msix ++ [7] } else s

/-- At the start of a cycle, the gated mailboxes' messages of the cycle that ended (R61): the host sees them, each with an MSI-X, if the
gate opened; otherwise they are discarded and counted. -/
def State.mboxRelease (s : State) (open' : Bool) : State :=
  (List.range 7).foldl (fun s k =>
    let m := 8 + k
    let x := s.mbox m
    let n := x.msgs.countP (·.held)
    if n = 0 then s
    else if open' then
      let s := s.setMbox m { x with msgs := x.msgs.map fun y => { y with held := false }, put := (x.put + n) % 2 ^ 32 }
      { s with msix := s.msix ++ List.replicate n k }
    else s.setMbox m { x with msgs := x.msgs.filter fun y => !y.held, discarded := (x.discarded + n) % 65536 }) s

/-- MBSEND (Table 2.17, R60, R61). -/
def execMbsend (e : Engine) (d a b : Reg) (s : State) : Result :=
  .next (s.onHub e fun c => s.topInsn c (.mbsend (.hub c) d a b) fun s =>
    let m := (s.rg (.hub c) a).toNat
    let ad := (s.rg (.hub c) b).toNat
    if m < 8 ∨ 31 < m then s.hubFault c 0x020A
    else match s.rangeFault (.hub c) ad 64 false with
      | some (k, x) => (s.noteEcc k ad 64).hubFault c k x
      | none =>
        if 4 ≤ (s.mbox m).msgs.length then s.done c d 1
        else
          let (bs, s) := s.rangeRead (.hub c) ad 64
          (s.mboxPut m bs).done c d 0)

/-- MBRECV (Table 2.17, R60). -/
def execMbrecv (e : Engine) (d a b : Reg) (s : State) : Result :=
  .next (s.onHub e fun c => s.topInsn c (.mbrecv (.hub c) d a b) fun s =>
    let m := (s.rg (.hub c) a).toNat
    let ad := (s.rg (.hub c) b).toNat
    if 31 < m ∨ mboxCore m ≠ some c then s.hubFault c 0x020A
    else match (s.mbox m).msgs with
      | [] => s.done c d 0
      | y :: rest =>
        match s.rangeFault (.hub c) ad 64 true with
        | some (k, x) => s.hubFault c k x
        | none =>
          let x := s.mbox m
          ((s.setMbox m { x with msgs := rest, get := (x.get + 1) % 2 ^ 32 }).engWrite (.hub c) ad y.bytes).done c d 1)

/-- MBWAIT (Table 2.17, R60, R66). -/
def execMbwait (e : Engine) (a : Reg) (s : State) : Result :=
  .next (s.onHub e fun c => s.topInsn c (.mbwait (.hub c) a) fun s =>
    let m := (s.rg (.hub c) a).toNat
    if 31 < m ∨ mboxCore m ≠ some c then s.hubFault c 0x020A
    else if (s.mbox m).msgs = [] then s.block (.hub c) (.mbwait (.hub c) a)
    else (s.unblock (.hub c)).adv (.hub c))

/-- MBSTAT (Table 2.17): d[2:0] occupancy, d[31:16] messages discarded under R35. -/
def execMbstat (e : Engine) (d a : Reg) (s : State) : Result :=
  .next (s.onHub e fun c => s.topInsn c (.mbstat (.hub c) d a) fun s =>
    let m := (s.rg (.hub c) a).toNat
    if 31 < m then s.hubFault c 0x020A
    else s.done c d ((s.mbox m).msgs.length + 65536 * (s.mbox m).discarded))

/-- HOST_MAILBOX_PUT (R62, 10, Stop commands): the host writes an entry of mailbox 0 to 7 that is not full and advances PUT; mailbox 3 also
copies bytes 0 to 31 to unit 40. -/
def execHostMailboxPut (m : Fin 32) (bytes : List Byte) (s : State) : Result :=
  let x := s.mbox m.val
  if m.val < 8 ∧ x.msgs.length < 4 then
    let bs := (bytes ++ List.replicate 64 0).take 64
    let s := s.setMbox m.val { x with msgs := x.msgs ++ [⟨bs, s.cycle, false⟩], put := (x.put + 1) % 2 ^ 32 }
    .next (if m.val = 3 then s.qPushHw 40 (bs.take 32) else s)
  else .next s

/-- HOST_MAILBOX_GET (R62): the host takes the oldest entry it sees of mailbox 8 to 15 and advances GET. -/
def execHostMailboxGet (m : Fin 32) (s : State) : Result :=
  let x := s.mbox m.val
  match x.msgs with
  | y :: rest =>
    if 8 ≤ m.val ∧ m.val < 16 ∧ !y.held then .next (s.setMbox m.val { x with msgs := rest, get := (x.get + 1) % 2 ^ 32 })
    else .next s
  | [] => .next s

/-! ### Queues (Table 2.17, R60-R62; 03, Queues) -/

/-- Whether an engine may push on a unit: Table 11.1 and WRITERS. -/
def State.qWriter (s : State) (e : Engine) (q : Nat) : Bool :=
  match e with
  | .hub c => s.qHubWriter c q
  | .seq i => decide (32 ≤ q ∧ q < 40) && bitOf (s.get Fld.queueCfgWriters q) (3 + i.val)
  | .node _ => false

/-- Whether an engine reads a unit: Table 11.1 and READER. -/
def State.qReader (s : State) (e : Engine) (q : Nat) : Bool :=
  match e with
  | .hub c => s.qHubReader c q
  | .seq i => decide (32 ≤ q ∧ q < 40) && s.get Fld.queueCfgReader q = 4 + i.val
  | .node _ => false

/-- What queue instructions share: who keeps them, the level, and the range of the queue index. -/
def State.queueInsn (s : State) (e : Engine) (rs : List Reg) (a : Reg) (i : Instr) (f : State → Nat → State) : State :=
  if !s.runsOr e i then s.cannot e
  else
    let priv := match e with
      | .hub c => !s.top c
      | _ => false
    let node := match e with
      | .node _ => true
      | _ => false
    if node || !regsOk e rs then s.engFault e 0x0205
    else if priv then s.engFault e 0x0206
    else
      let q := (s.rg e a).toNat
      if 47 < q then s.engFault e 0x020A else f s q

/-- A queue instruction's result, and on to the next instruction. -/
def State.doneE (s : State) (e : Engine) (d : Reg) (v : Nat) : State := ((s.unblock e).wg e d (BitVec.ofNat 64 v)).adv e

/-- A wait of a sequencer starts its count of instructions over (R86). -/
def State.waitedE (s : State) (e : Engine) : State :=
  match e with
  | .seq q => s.setSeq q.val { s.seq q.val with count := 0 }
  | _ => s

/-- QPUSH (Table 2.17, R60, R62): of a length out of range on a unit that is not attached, 0x020A is raised (DESIGN CHOICE, log 23). -/
def execQpush (e : Engine) (d a b c : Reg) (s : State) : Result :=
  .next (s.queueInsn e [d, a, b, c] a (.qpush e d a b c) fun s q =>
    let ad := (s.rg e b).toNat
    let n := (s.rg e c).toNat
    if n < 1 ∨ 4096 < n then s.engFault e 0x020A
    else if !s.qWriter e q then s.engFault e 0x020C
    else match s.rangeFault e ad n false with
      | some (k, x) => (s.noteEcc k ad n).engFault e k x
      | none =>
        let (bs, s) := s.rangeRead e ad n
        match s.qPush q bs with
        | (.written, s) => s.doneE e d 0
        | (.dropped, s) => s.doneE e d 1
        | (.stalled, s) => ((s.set Fld.queueStatState 2 q).waitedE e).block e (.qpush e d a b c))

/-- QPOP (Table 2.17, R60): d[15:0] length, d[16] gap marker, d[17] queue empty. -/
def execQpop (e : Engine) (d a b : Reg) (s : State) : Result :=
  .next (s.queueInsn e [d, a, b] a (.qpop e d a b) fun s q =>
    let ad := (s.rg e b).toNat
    if !s.qReader e q then s.engFault e 0x020C
    else match s.qPop q with
      | (none, s) => s.doneE e d 0x20000
      | (some it, t) =>
        match s.rangeFault e ad it.body.length true with
        | some (k, x) => s.engFault e k x
        | none => (t.engWrite e ad it.body).doneE e d (it.body.length + if it.gap then 0x10000 else 0))

/-- QWAIT (Table 2.17, R60, R66). -/
def execQwait (e : Engine) (a : Reg) (s : State) : Result :=
  .next (s.onHub e fun c => s.queueInsn (.hub c) [a] a (.qwait (.hub c) a) fun s q =>
    if !s.qHubReader c q then s.hubFault c 0x020C
    else if (s.queue q).ready then (s.unblock (.hub c)).adv (.hub c)
    else s.block (.hub c) (.qwait (.hub c) a))

/-- QSTAT (Table 2.17, R291): of a queue that the engine writes or reads. -/
def execQstat (e : Engine) (d a : Reg) (s : State) : Result :=
  .next (s.queueInsn e [d, a] a (.qstat e d a) fun s q =>
    if s.qReader e q || s.qWriter e q then s.doneE e d (s.qStat q) else s.engFault e 0x020C)

/-! ### The Chest (Table 2.13, R58) -/

/-- Whether a core at its top level may read a Chest location. -/
def chestReadable (c : Core) (loc : Nat) : Bool :=
  decide ((loc < 0x1000 ∧ c = .kernel) ∨ (0x1000 ≤ loc ∧ loc < 0x1100) ∨ (0x8000 ≤ loc ∧ loc < 0x10000))

/-- Whether a program may write a Chest location. -/
def chestWritable (loc : Nat) : Bool := decide (0x8000 ≤ loc ∧ loc < 0x10000)

/-- The newest value queued for a location. -/
def chestQueued (q : List (Nat × Word)) (loc : Nat) : Option Word := (q.reverse.find? fun p => p.1 = loc).map (·.2)

/-- CHRD (Table 2.14, R58): the core's own queued write is seen. -/
def execChrd (e : Engine) (d a : Reg) (s : State) : Result :=
  .next (s.onHub e fun c => s.topInsn c (.chrd (.hub c) d a) fun s =>
    let loc := (s.rg (.hub c) a).toNat
    if !chestReadable c loc then s.hubFault c 0x0209
    else match chestQueued (s.core c).chestQ loc with
      | some v => s.done c d v.toNat
      | none => s.done c d (s.chestAt loc).toNat)

/-- CHWR (Table 2.14, R58): a full queue of 16 stalls the core (writes still queued when PFW is asserted are discarded by PFW_ASSERT). -/
def execChwr (e : Engine) (a b : Reg) (s : State) : Result :=
  .next (s.onHub e fun c => s.topInsn c (.chwr (.hub c) a b) fun s =>
    let loc := (s.rg (.hub c) a).toNat
    let v := s.rg (.hub c) b
    if !chestWritable loc then s.hubFault c 0x0209
    else if 16 ≤ (s.core c).chestQ.length then s.block (.hub c) (.chwr (.hub c) a b)
    else
      let s := s.unblock (.hub c)
      let s := s.setCore c { s.core c with chestQ := (s.core c).chestQ ++ [(loc, v)] }
      s.adv (.hub c))

/-- CHSYNC (Table 2.14, R58, R66): it waits until every earlier CHWR of the core is durable, which a write that PFW has discarded never is
(DEDUCED, log 265). -/
def execChsync (e : Engine) (s : State) : Result :=
  .next (s.onHub e fun c => s.topInsn c (.chsync (.hub c)) fun s =>
    if (s.core c).chestQ = [] ∧ !(s.core c).chestLost then (s.unblock (.hub c)).adv (.hub c) else s.block (.hub c) (.chsync (.hub c)))

/-! ### Bell and claim instructions (Table 2.14, R59) -/

/-- BRING (R59, R258). -/
def execBring (e : Engine) (d a : Reg) (s : State) : Result :=
  .next (s.onHub e fun c => s.kernelInsn c (.bring (.hub c) d a) fun s =>
    let (r, s) := s.bring ((s.rg (.hub c) a).toNat % 4)
    s.done c d r)

/-- BSTAT (Table 2.14): the Bell's stop state, the number of Table 10.3. -/
def execBstat (e : Engine) (d : Reg) (s : State) : Result :=
  .next (s.onHub e fun c => s.kernelInsn c (.bstat (.hub c) d) fun s => s.done c d (s.get Fld.bellStateState))

/-- CLMRD (Table 2.14). -/
def execClmrd (e : Engine) (d : Reg) (s : State) : Result :=
  .next (s.onHub e fun c => s.kernelInsn c (.clmrd (.hub c) d) fun s => s.done c d (s.get Fld.claimHeldClaim))

/-- CLMSEEN (Table 2.14). -/
def execClmseen (e : Engine) (d : Reg) (s : State) : Result :=
  .next (s.onHub e fun c => s.kernelInsn c (.clmseen (.hub c) d) fun s => s.done c d (s.get Fld.claimSeenClaim))

/-- CLMNEXT (R59, R329). -/
def execClmnext (e : Engine) (d : Reg) (s : State) : Result :=
  .next (s.onHub e fun c => s.kernelInsn c (.clmnext (.hub c) d) fun s =>
    let (v, s) := s.clmnext
    s.done c d v)

/-! ### System instructions (Table 2.18) -/

/-- FENCE (R52, R53; kept by WQX-N): every earlier access has taken effect here; an engine whose store still stalls does not come to it. -/
def execFence (e : Engine) (s : State) : Result :=
  .next (if !s.runs e then s.cannot e else if notSeq e then s.adv e else s.engFault e 0x0205)

/-- A system instruction of the hub profile: the core goes on after `f`. -/
def State.sysInsn (s : State) (e : Engine) (f : Core → State) : State :=
  s.onHub e fun c => if s.runs (.hub c) then (f c).adv (.hub c) else s.cannot (.hub c)

/-- FENCEIO (Table 2.18). -/
def execFenceio (e : Engine) (s : State) : Result := .next (s.sysInsn e fun _ => s)
/-- DCFLUSH (Table 2.18, R52): the line at address a is written back. -/
def execDcflush (e : Engine) (a : Reg) (s : State) : Result := .next (s.sysInsn e fun _ => s.l2WriteBack ((s.rg e a).toNat / 64))
/-- DCINV (Table 2.18, R52): the line at address a leaves the L2, what was not written back with it. -/
def execDcinv (e : Engine) (a : Reg) (s : State) : Result := .next (s.sysInsn e fun _ => s.l2Drop ((s.rg e a).toNat / 64))
/-- ICINV (Table 2.18): commands name the instructions executed, and no copy of code is held (log 73). -/
def execIcinv (e : Engine) (s : State) : Result := .next (s.sysInsn e fun _ => s)

/-- Whether a core word is listed in Table 2.3. -/
def coreWordListed (i : Nat) : Bool := decide (i ≤ 14)
/-- Whether a core word is open to U for reading. -/
def coreWordUser (i : Nat) : Bool := decide (i = 0 ∨ i = 9 ∨ i = 11 ∨ i = 14)
/-- Whether a core word can be written at some level. -/
def coreWordWritable (i : Nat) : Bool := decide (i ≠ 0 ∧ i ≠ 8 ∧ i ≠ 9 ∧ i ≠ 14)

/-- The value of a core word (Table 2.3). -/
def State.coreWord (s : State) (c : Core) (i : Nat) : Word :=
  let h := s.core c
  match i with
  | 0 => BitVec.ofNat 64 (coreId c)
  | 1 => h.status
  | 2 => h.epc
  | 3 => h.ecause
  | 4 => h.eval
  | 5 => h.eaddr
  | 6 => h.evec
  | 7 => h.imask
  | 8 => BitVec.ofNat 64 (s.ipendOf c)
  | 9 => h.tick
  | 10 => h.tcmp
  | 11 => h.fcsr
  | 12 => h.scratch0
  | 13 => h.scratch1
  | _ => BitVec.ofNat 64 s.cycle

/-- A core with a core word written: STATUS keeps its five bits, EVEC loses [11:0], FCSR keeps its fields. -/
def HubCore.setWord (h : HubCore) (i : Nat) (v : Word) : HubCore :=
  match i with
  | 1 => { h with status := v &&& 0x1F }
  | 2 => { h with epc := pcFit v }
  | 3 => { h with ecause := v }
  | 4 => { h with eval := v }
  | 5 => { h with eaddr := v }
  | 6 => { h with evec := v &&& ~~~0xFFF#64 }
  | 7 => { h with imask := v }
  | 10 => { h with tcmp := v }
  | 11 => { h with fcsr := v &&& 0x1F7 }
  | 12 => { h with scratch0 := v }
  | 13 => { h with scratch1 := v }
  | _ => h

/-- The tokens of an item in service, by port. -/
def NodeEngine.tokOf (n : NodeEngine) (p : Nat) : Word := Map.getD n.tok p 0

/-- A core word of a node engine (03 Table 3.2); TICK counts MILL clocks, root ÷5. -/
def State.nodeWord (s : State) (n : Nat) (i : Nat) : Option Word :=
  let x := s.node n
  match i with
  | 0 => some (BitVec.ofNat 64 n)
  | 1 => some (BitVec.ofNat 64 x.opid)
  | 2 => some x.dest
  | 3 => some (BitVec.ofNat 64 x.seq)
  | 4 => some (BitVec.ofNat 64 x.flowMode)
  | 5 | 6 | 7 | 8 => some (x.tokOf (i - 5))
  | 9 => some (BitVec.ofNat 64 x.tokMask)
  | 10 => some (BitVec.ofNat 64 (s.roots / 5 - x.startAt / 5))
  | 11 => some x.fcsr
  | 12 => some (BitVec.ofNat 64 s.cycle)
  | 13 => some (BitVec.ofNat 64 x.lastFault)
  | 14 => some (BitVec.ofNat 64 x.tokens.length)
  | _ => none

/-- Whether a queue attached to a sequencer is not empty or passed a watermark (Table 3.9). -/
def State.seqQueue (s : State) (q : Fin 8) : Bool :=
  (List.range 8).any fun k =>
    let u := 32 + k
    (s.qReader (.seq q) u && ((s.queue u).ready || s.getB Fld.queueStatWm u)) || (s.qWriter (.seq q) u && s.getB Fld.queueStatWm u)

/-- The pending events of a sequencer (Table 3.9): those latched, and the levels. -/
def State.seqEvents (s : State) (q : Fin 8) : Nat :=
  let x := s.seq q.val
  setBit (setBit (setBit x.evpend 8 (x.dumps ≠ [])) 9 (x.rx ≠ [])) 13 (s.seqQueue q)

/-- A core word of a sequencer (03 Table 3.5). -/
def State.seqWord (s : State) (i' : Fin 8) (i : Nat) : Option Nat :=
  let q := i'.val
  let x := s.seq q
  match i with
  | 0 => some ((if q < 4 then 0x1B else 0x20) + 256 * (q % 4))
  | 1 => some (s.tnow q)
  | 2 => some (s.cycbase q)
  | 3 => some s.cycle
  | 4 => some (s.seqEvents i')
  | 5 => some ((List.range 8).foldl (fun v k => setBit v k (Map.find x.slots k).isSome) 0)
  | 6 => some x.lastFault
  | 7 => some (if q < 4 then x.dumpLost else 0)
  | _ => none

/-- MFC (Table 2.18; Tables 2.3, 3.2 and 3.5). -/
def execMfc (e : Engine) (d : Reg) (idx : BitVec 5) (s : State) : Result :=
  let i := idx.toNat
  .next (if !s.runs e then s.cannot e
    else match e with
      | .hub c =>
        if !coreWordListed i then s.hubFault c 0x0205
        else if !s.top c && !coreWordUser i then s.hubFault c 0x0206
        else (s.wg e d (s.coreWord c i)).adv e
      | .node n =>
        match s.nodeWord n.val i with
        | some v => (s.wg e d v).adv e
        | none => s.engFault e 0x0205
      | .seq q =>
        match s.seqWord q i with
        | some v => if regsOk e [d] then (s.wg e d (BitVec.ofNat 64 v)).adv e else s.engFault e 0x0205
        | none => s.engFault e 0x0205)

/-- MTC (Table 2.18; Tables 2.3, 3.2 and 3.5). -/
def execMtc (e : Engine) (a : Reg) (idx : BitVec 5) (s : State) : Result :=
  let i := idx.toNat
  .next (if !s.runs e then s.cannot e
    else match e with
      | .hub c =>
        if !coreWordListed i then s.hubFault c 0x0205
        else if !coreWordWritable i || (!s.top c && i ≠ 11) then s.hubFault c 0x0206
        else (s.setCore c ((s.core c).setWord i (s.rg e a))).adv e
      | .node n =>
        if i = 11 then (s.setNode n.val { s.node n.val with fcsr := s.rg e a &&& 0x1F7 }).adv e else s.engFault e 0x0205
      | .seq _ => s.engFault e 0x0205)

/-- TRAP (R63, Table 2.15): ECAUSE 0x09, EVAL the c field, EPC the next instruction. -/
def execTrap (e : Engine) (code : BitVec 5) (s : State) : Result :=
  .next (s.onHub e fun c => if s.runs (.hub c) then s.except c ((s.core c).pc + 4) 0x09 code.toNat 0 else s.cannot (.hub c))

/-- ERET (R63). -/
def execEret (e : Engine) (s : State) : Result :=
  .next (s.onHub e fun c =>
    let h := s.core c
    if s.runs (.hub c) then s.setCore c { h with status := eretStatus h.status, pc := pcFit h.epc } else s.cannot (.hub c))

/-- WFI (Table 2.18, R66): waits for a pending enabled interrupt. -/
def execWfi (e : Engine) (s : State) : Result :=
  .next (s.onHub e fun c =>
    if !s.runsOr (.hub c) (.wfi (.hub c)) then s.cannot (.hub c)
    else if s.irqs c = 0 then s.block (.hub c) (.wfi (.hub c))
    else (s.unblock (.hub c)).adv (.hub c))

/-- Whether a probe holds what executes BRK: debug open and a probe attached (14 R360). -/
def State.probe (s : State) : Bool := s.getB Fld.debugStateOpen && s.getB Fld.debugStateAttached

/-- BRK (14 R360): the probe halts the core; with debug closed a hub core enters its handler with ECAUSE 0x0A, and an engine or
sequencer faults with DEBUG_CLOSED. -/
def execBrk (e : Engine) (s : State) : Result :=
  .next (if !s.runs e then s.cannot e
    else match e with
      | .hub c =>
        if s.probe then
          let s := s.setCore c (s.core c).stop
          if c = .kernel then s else s.pend .kernel 60
        else s.except c (s.core c).pc 0x0A 0 0
      | .node n => if s.probe then s.setNode n.val { s.node n.val with run := .halted } else s.engFault e 0x3F01
      | .seq q => if s.probe then s.setSeq q.val { s.seq q.val with run := .halted } else s.engFault e 0x3F01)

end Sys2Proof.Machine
end

