-- ==== Sys2Proof/Machine/Node.lean ====
section
/-! DEFINITION. The dataflow instructions of node engines (03 Table 3.3, R75-R79). -/

namespace Sys2Proof.Machine

/-- What the dataflow instructions share: the engine executes. -/
def State.nodeInsn (s : State) (n : Fin 24) (f : NodeEngine → State) : State :=
  if s.runs (.node n) then f (s.node n.val) else s.cannot (.node n)

/-- TAKE (R75, R76): an item in service retires; then the engine waits for the next one, whose dispatch gives d its value. -/
def execTake (e : Engine) (d : Reg) (s : State) : Result :=
  .next (s.onNode e fun n => s.nodeInsn n fun e =>
    s.setNode n.val { e with takeReg := d.toNat, run := if e.run = .service then .retiring else .taking })

/-- Whether a destination word has a 1 in a reserved bit (Table 3.4). -/
def destReserved (d : Word) : Bool := bits d.toNat 18 2 ≠ 0 || bits d.toNat 50 14 ≠ 0

/-- EMIT (R77). -/
def execEmit (e : Engine) (a b : Reg) (s : State) : Result :=
  .next (s.onNode e fun n => s.nodeInsn n fun e =>
    let d := s.rg (.node n) a
    if destReserved d then s.nodeAbandon n.val 0x1023
    else if 32 ≤ e.tokens.length then s.nodeAbandon n.val 0x1024
    else (s.setNode n.val { e with tokens := e.tokens ++ [(d, s.rg (.node n) b)] }).adv (.node n))

/-- CANCEL (R77). -/
def execCancel (e : Engine) (a : Reg) (s : State) : Result :=
  .next (s.onNode e fun n => s.nodeInsn n fun e =>
    let d := s.rg (.node n) a
    if destReserved d then s.nodeAbandon n.val 0x1023
    else if 32 ≤ e.cancels.length then s.nodeAbandon n.val 0x1024
    else (s.setNode n.val { e with cancels := e.cancels ++ [d] }).adv (.node n))

/-- The engine whose retire a request still waits for: none outside an item. -/
def NodeEngine.claimSrc (e : NodeEngine) (n : Nat) : Option Nat := if e.run = .service then some n else none

/-- RCLAIM (R79, 08 Table 8.5): the header lies in the local store, aligned on 8 bytes; d = 1 where 64 submissions are queued or wait for their retire.  A word
count above 64 fits no operation and is kept as 65. -/
def execRclaim (e : Engine) (d a b c : Reg) (s : State) : Result :=
  .next (s.onNode e fun n => s.nodeInsn n fun e =>
    let en := Engine.node n
    let ad := (s.rg en a).toNat
    let k := min (s.rg en c).toNat 65
    if ad % 8 ≠ 0 then s.nodeAbandon n.val 0x1021
    else if !isLocal ad then s.nodeAbandon n.val 0x1022
    else if 64 ≤ s.reeve.queue.length then (s.wg en d 1).adv en
    else
      let bs := (List.range (32 + 4 * k)).map fun i => memByte e.store ((ad + i) % 0x8000)
      let r : ClaimReq := { dest := s.rg en b, c := k, bytes := bs, src := e.claimSrc n.val }
      let s : State := { s with reeve := { s.reeve with queue := s.reeve.queue ++ [r] } }
      let s := s.set Fld.reeveUsePortq (s.reeve.queue.countP fun r => r.src.isNone)
      (s.wg en d 0).adv en)

/-- ABANDON (R78): with fault code 0. -/
def execAbandon (e : Engine) (s : State) : Result := .next (s.onNode e fun n => s.nodeInsn n fun _ => s.nodeAbandon n.val 0)

end Sys2Proof.Machine
end

