-- ==== Sys2Proof/Machine/Gnss.lean ====
section
/-! DEFINITION. GNSS signal input (spec/05_gnss_signal_input.md R115-R133): antennas, samples and their chain, blanking, AGC, spectra,
notches, the jamming index. -/

namespace Sys2Proof.Machine

/-! ### Antennas (Table 5.2) -/

/-- GNSSIN.STATE.ANTa. -/
def State.antState (s : State) (a : Nat) : Nat := s.get Fld.gnssinStateAnt a

/-- A stream's own state. -/
def State.stream (s : State) (k : Nat) : GnssStream := Map.getD s.gnssin.streams k {}

/-- Replaces a stream's own state. -/
def State.setStream (s : State) (k : Nat) (x : GnssStream) : State :=
  { s with gnssin := { s.gnssin with streams := Map.put s.gnssin.streams k x } }

/-- Whether a stream delivers samples: its antenna is RUNNING and it is enabled. -/
def State.streamRuns (s : State) (k : Nat) : Bool := s.antState (k / 3) = 3 && s.getB Fld.gnssinCfgEn k

/-- The three streams of an antenna. -/
def streamsOf (a : Nat) : List Nat := [3 * a, 3 * a + 1, 3 * a + 2]

/-- A search engine of the Grinder. -/
def State.grEngine (s : State) (e : Nat) : GrEngine := Map.getD s.grinder.engines e {}

/-- Replaces a search engine. -/
def State.setGrEngine (s : State) (e : Nat) (x : GrEngine) : State :=
  { s with grinder := { s.grinder with engines := Map.put s.grinder.engines e x } }

/-- Changes the searches whose capture of a stream is in progress. -/
def State.onCaptures (s : State) (k : Nat) (f : Search → Search) : State :=
  (List.range 2).foldl (fun s e =>
    let x := s.grEngine e
    let on := fun (y : Search) => y.step = .capturing && x.caps.any fun c => c.num = y.cap && c.stream = k
    s.setGrEngine e { x with searches := x.searches.map fun y => if on y then f y else y }) s

/-- An antenna leaves RUNNING: WARN and ALARM read 0, their runs start over, and captures of its streams fail (R130, R135). -/
def State.antLeaves (s : State) (a : Nat) : State :=
  (streamsOf a).foldl (fun s k =>
    let s := (s.setB Fld.gnssinJamstatWarn false k).setB Fld.gnssinJamstatAlarm false k
    let s := s.setStream k { s.stream k with warnUp := 0, warnDown := 0, alarmUp := 0, alarmDown := 0 }
    s.onCaptures k fun y => { y with failed := true }) s

/-- The image of an antenna. -/
def State.image (s : State) (a : Nat) : TrackImage := Map.getD s.correl.images a {}

/-- Replaces the image of an antenna. -/
def State.setImage (s : State) (a : Nat) (x : TrackImage) : State :=
  { s with correl := { s.correl with images := Map.put s.correl.images a x } }

/-- ANTENNA_ALIGN (R118): from STOPPED, ALIGNED or FAILED. -/
def State.antAlign (s : State) (a : Nat) : State :=
  let st := s.antState a
  if st = 0 ∨ st = 2 ∨ st = 5 then
    { s.set Fld.gnssinStateAnt 1 a with gnssin := { s.gnssin with runDue := s.gnssin.runDue.filter (· ≠ a) } }
  else s

/-- ANTENNA_ALIGN (R118). -/
def execAntennaAlign (a : Fin 4) (s : State) : Result := .next (s.antAlign a.val)

/-- ALIGN_DONE (R118): whether every pair showed the marker and its own pattern, and the narrowest eye in taps. -/
def execAlignDone (a : Fin 4) (pattern : Bool) (eye : Nat) (s : State) : Result :=
  if s.antState a.val = 1 then
    let s := s.set Fld.gnssinLstatEye eye a.val
    .next (if !pattern then (s.set Fld.gnssinStateAnt 5 a.val).raise 0x1802
      else if eye < s.get Fld.gnssinLaneEyeMin a.val then (s.set Fld.gnssinStateAnt 5 a.val).raise 0x1803
      else s.set Fld.gnssinStateAnt 2 a.val)
  else .next s

/-- RUN of an antenna (R119): accepted in ALIGNED, it takes effect at the next millisecond. -/
def State.antRun (s : State) (a : Nat) : State :=
  if s.antState a = 2 then { s with gnssin := { s.gnssin with runDue := insertLine s.gnssin.runDue a } } else s.raise 0x1805

/-- ANTENNA_RUN (R119). -/
def execAntennaRun (a : Fin 4) (s : State) : Result := .next (s.antRun a.val)

/-- The fill of a stream's unit, as its status words say it (Table 5.13, 11 Table 11.6). -/
def State.followFill (s : State) (k : Nat) : State :=
  let n := (s.stream k).fifo.length
  let s := (s.set Fld.queueStatFill n k).setB Fld.queueStatEmpty (n = 0) k
  if k % 3 = 0 then s.set Fld.gnssinLstatFill n (k / 3) else s

/-- A stream's unit is emptied and started or stopped (11 R289). -/
def State.streamUnit (s : State) (k : Nat) (on : Bool) : State :=
  let x := s.stream k
  let y : GnssStream := { spec := x.spec, band := [], bins := [], ref := x.ref, refNext := x.refNext, learn := x.learn }
  ((s.setStream k y).set Fld.queueStatState on.toNat k).followFill k

/-- STOP of an antenna (Table 5.2): from ALIGNED, RUNNING, LOST and FAILED. -/
def State.antStop (s : State) (a : Nat) : State :=
  let st := s.antState a
  if 2 ≤ st then
    let s := if st = 3 then s.antLeaves a else s
    let s := if st = 3 ∨ st = 4 then (streamsOf a).foldl (fun s k => s.streamUnit k false) s else s
    { s.set Fld.gnssinStateAnt 0 a with gnssin := { s.gnssin with runDue := s.gnssin.runDue.filter (· ≠ a) } }
  else s

/-- ANTENNA_STOP (R119). -/
def execAntennaStop (a : Fin 4) (s : State) : Result := .next (s.antStop a.val)

/-- LANE_LOST (R119): no lane clock edge for 0.5 µs. -/
def execLaneLost (a : Fin 4) (s : State) : Result :=
  if s.antState a.val = 3 then
    .next ((((s.set Fld.gnssinStateAnt 4 a.val).setMask Fld.gnssinEventLane a.val true).raise 0x1804).antLeaves a.val)
  else .next s



/-! ### Samples (R116, R117, R123) -/

/-- The level a 4-bit code stands for (R116). -/
def codeLevel (c : Nat) : Int := 2 * c - 15

/-- Whether a code makes its sample hot (R123). -/
def codeHot (c : Nat) : Bool := c = 0 || c = 15

/-- The sample of a byte of a stream's unit: I code in [7:4], Q code in [3:0]; none is an inserted zero sample (R116, R117). -/
def sampleOf : Option Byte → Sample
  | some b => { i := codeLevel (b.toNat / 16), q := codeLevel (b.toNat % 16), hot := codeHot (b.toNat / 16) || codeHot (b.toNat % 16) }
  | none => {}

/-- The sample as the blanker leaves it. -/
def Sample.blanked (a : Sample) : Sample := { a with i := 0, q := 0, blank := true }

/-- PBs as it works on a stream: THRESH, TAIL and MAX (R123). -/
structure PbSet where
  on : Bool
  thresh : Nat
  tail : Nat
  max' : Nat

/-- The newest sample of the look-ahead, blanked. -/
def blankNewest (w : List Sample) : List Sample := w.dropLast ++ w.getLast?.toList.map Sample.blanked

/-- What the blanker makes of the look-ahead of 16 samples, the newest of which has just come (R123): a new blank takes the whole window,
one that goes on, or is in its tail, the newest sample. -/
def GnssStream.blankWindow (p : PbSet) (x : GnssStream) : GnssStream :=
  let hit := decide (p.thresh ≤ x.window.countP (·.hot))
  if !p.on ∨ 0 < x.suppress then { x with blankLen := 0, suppress := x.suppress - 1 }
  else if hit ∧ x.blankLen = 0 then
    { x with window := x.window.map Sample.blanked, blankLen := x.window.length, tail := p.tail, starts := x.starts + 1 }
  else if hit then { x with window := blankNewest x.window, blankLen := x.blankLen + 1, tail := p.tail }
  else if 0 < x.blankLen ∧ 0 < x.tail then { x with window := blankNewest x.window, blankLen := x.blankLen + 1, tail := x.tail - 1 }
  else { x with blankLen := 0 }

/-- A blank that has reached MAX samples is ended, and blanking is suppressed for 2 × MAX samples (R123). -/
def GnssStream.blankLimit (p : PbSet) (x : GnssStream) : GnssStream :=
  if 0 < x.blankLen ∧ p.max' ≤ x.blankLen then { x with blankLen := 0, suppress := 2 * p.max', sats := x.sats + 1 } else x

/-- Whether the magnitude of a level is 9 or more (R128). -/
def loud (v : Int) : Nat := if 9 ≤ v.natAbs then 1 else 0

/-- A sample at the measurement tap (R122, R128): F leaves out samples of value 0 and the gap of a FEGAIN frame. -/
def GnssStream.measure (x : GnssStream) (a : Sample) : GnssStream :=
  let x := { x with samples := x.samples + 1, blanked := x.blanked + a.blank.toNat, tap := (a.i, a.q) :: x.tap }
  let left := decide (a.i = 0 ∧ a.q = 0)
  if 0 < x.gapIn then
    let x := { x with gapIn := x.gapIn - 1 }
    if left then x else { x with hot := x.hot + loud a.i + loud a.q, counted := x.counted + 2 }
  else if 0 < x.gap then { x with gap := x.gap - 1 }
  else if left then x
  else { x with hot := x.hot + loud a.i + loud a.q, counted := x.counted + 2 }

/-- A sample read from the unit passes decode, the blanker with its look-ahead of 16 samples, and the tap (R122). -/
def GnssStream.sample (p : PbSet) (x : GnssStream) (b : Option Byte) : GnssStream :=
  let w := x.window ++ [sampleOf b]
  let x := (({ x with window := w.drop (w.length - 16) } : GnssStream).blankWindow p).blankLimit p
  match w with
  | a :: _ :: _ => if 16 < w.length then x.measure a else x
  | _ => x

/-- A byte arrives on the lanes (R117): the unit takes it, and once its fill has reached DEPTH, the read side takes one for each that comes. -/
def GnssStream.arrive (p : PbSet) (depth : Nat) (x : GnssStream) (b : Byte) : GnssStream :=
  let f := x.fifo ++ [some b]
  if x.reading then
    match f with
    | a :: rest => GnssStream.sample p { x with fifo := rest } a
    | [] => x
  else { x with fifo := f, reading := decide (depth ≤ f.length) }

/-- PBs of a stream. -/
def State.pbSet (s : State) (k : Nat) : PbSet :=
  ⟨s.getB Fld.gnssinCfgPbEn k, s.get Fld.gnssinPbThresh k, s.get Fld.gnssinPbTail k, s.get Fld.gnssinPbMax k⟩

/-- Bytes arrive on a stream that delivers samples: COUNT advances by the blanks that start, and a blank that reaches MAX sets SAT with
BLANK_SATURATED (R123). -/
def State.feed (s : State) (k : Nat) (codes : List Byte) : State :=
  if !s.streamRuns k then s
  else
    let x := codes.foldl (GnssStream.arrive (s.pbSet k) (s.get Fld.gnssinLaneDepth (k / 3))) (s.stream k)
    let s := (s.setStream k { x with starts := 0, sats := 0 }).followFill k
    let s := if x.starts = 0 then s else s.bump Fld.gnssinPbstatCount k x.starts
    if x.sats = 0 then s else (s.setB Fld.gnssinPbstatSat true k).raise 0x1884

/-- PULSE_BLANK (R123): samples arrive that fill the window; what is blanked of them follows from their codes. -/
def execPulseBlank (st : Fin 12) (codes : List Byte) (s : State) : Result := .next (s.feed st.val codes)

/-- LANE_SLIP (R119): a stream's fill departs from DEPTH by more than 16 samples; the read side discards the oldest samples, or inserts zero
samples, until the fill is DEPTH. -/
def execLaneSlip (st : Fin 12) (codes : List Byte) (s : State) : Result :=
  let k := st.val
  let a := k / 3
  let depth := s.get Fld.gnssinLaneDepth a
  let fill := codes.length
  if s.streamRuns k ∧ (depth + 16 < fill ∨ fill + 16 < depth) then
    let s := ((s.setB Fld.gnssinLstatDiscont true a).setMask Fld.gnssinEventLane a true).raise 0x1881
    let f := List.replicate (depth - fill) none ++ (codes.drop (fill - depth)).map some
    let s := (s.setStream k { s.stream k with fifo := f, reading := true }).followFill k
    let s := s.setImage a { s.image a with slipped := true }
    .next (s.onCaptures k fun y => { y with failed := true })
  else .next s

/-! ### AGC (R128, R129) -/

/-- Whether the device drives FEGAIN of an antenna. -/
def State.drivesGain (s : State) (a : Nat) : Bool := bitOf (s.get Fld.gnssinFegainMode) a

/-- The parity of a number's bits. -/
def parity (v n : Nat) : Bool := ((List.range n).countP (bitOf v)) % 2 = 1

/-- A FEGAIN frame (Table 5.6): band group, gain and frame count. -/
def fegainFrame (bg gain seq : Nat) : Nat :=
  let v := 1 + 2 * bg + 8 * gain + 512 * seq
  if parity (v / 2) 13 then v + 16384 else v

/-- DEPTH is REF − GAIN, from 0 to 63 (R128). -/
def State.followDepth (s : State) (k : Nat) : State :=
  s.set Fld.gnssinAgcstatDepth (min 63 (s.get Fld.gnssinAgcrefRef k - s.get Fld.gnssinAgcstatGain k)) k

/-- A gain change of a stream is sent on its antenna's line (R129): the frame takes 16 bits of 64 ns from a rising edge of FECLK on, and 8 idle
bits part it from the next; the samples from its start until SETTLE_US after its end do not count for F (R128). -/
def State.sendGain (s : State) (k gain : Nat) : State :=
  let a := k / 3
  let n := Map.getD s.gnssin.frames a 0
  let start := (max s.roots (Map.getD s.gnssin.lineFree a 0) + 47) / 48 * 48
  let x := { s.stream k with gapIn := (start - s.roots) / 48, gap := 128 + 125 * s.get Fld.gnssinFegainSettleUs }
  let s := s.setStream k x
  { s with gnssin := { s.gnssin with
      lastFrame := Map.put s.gnssin.lastFrame a (fegainFrame (k % 3) gain n), frames := Map.put s.gnssin.frames a ((n + 1) % 16)
      lineFree := Map.put s.gnssin.lineFree a (start + 9216) } }

/-- A gain code of a stream; a change sends a frame on the antenna's line, and DEPTH follows (R128, R129). -/
def State.setGain (s : State) (k gain : Nat) : State :=
  let old := s.get Fld.gnssinAgcstatGain k
  let s := (s.set Fld.gnssinAgcstatGain gain k).followDepth k
  if gain ≠ old ∧ s.drivesGain (k / 3) then s.sendGain k gain else s

/-- The step of the gain code at the end of a period (R128). -/
def State.agcStep (s : State) (k hot counted : Nat) : State :=
  let t := s.get Fld.gnssinAgcTarget k
  let h := s.get Fld.gnssinAgcHys k
  let g := s.get Fld.gnssinAgcstatGain k
  if (t + h) * counted < hot * 256 then (if g = 0 then s.raise 0x1886 else s.setGain k (g - 1))
  else if hot * 256 < (t - h) * counted then (if g = 63 then s.raise 0x1886 else s.setGain k (g + 1))
  else s

/-- The end of an AGC period (R128): F in 256ths of the values counted in it, and the step; without a driven line GAIN_EXT counts as the
gain (R129). -/
def State.agcEnd (s : State) (k : Nat) : State :=
  let x := s.stream k
  let s := s.setStream k { x with hot := 0, counted := 0, periods := x.periods + 1 }
  let s := if x.counted = 0 then s else s.set Fld.gnssinAgcstatF (min 255 (qround 1 (x.hot * 256) x.counted).toNat) k
  if !s.drivesGain (k / 3) then s.setGain k (s.get Fld.gnssinAgcGainExt k)
  else if x.counted = 0 ∨ !s.getB Fld.gnssinCfgAgcEn k then s
  else s.agcStep k x.hot x.counted

/-- AGC_PERIOD_END (R128): the next period of the millisecond ends, PERIOD × 10 µs after the one before; one that would cross the
millisecond's boundary ends there. -/
def execAgcPeriodEnd (st : Fin 12) (codes : List Byte) (s : State) : Result :=
  let k := st.val
  let s := s.feed k codes
  let off := ((s.stream k).periods + 1) * s.get Fld.gnssinAgcPeriod k * 10000000
  if s.streamRuns k ∧ off < 1000000000 then
    match s.reachSite (1000000000 * s.gnssin.lastMs + off) with
    | some s => .next (s.agcEnd k)
    | none => .next s
  else .next s

/-! ### Spectra and the jamming index (R124, R130, R131) -/

/-- The bins of a spectrum over the reference: numerator and denominator. -/
def GnssStream.normal (x : GnssStream) (bins : List Nat) : List (Nat × Nat) :=
  if x.ref = [] then bins.map fun b => (b, 1) else (bins.zip x.ref).map fun p => (p.1, max 1 p.2)

/-- Whether one quotient is below another. -/
def ratLt (a b : Nat × Nat) : Bool := decide (a.1 * b.2 < b.1 * a.2)

/-- Inserts a quotient into a rising list. -/
def ratInsert (a : Nat × Nat) : List (Nat × Nat) → List (Nat × Nat)
  | [] => [a]
  | b :: t => if ratLt a b then a :: b :: t else b :: ratInsert a t

/-- The median bin. -/
def medianBin (l : List (Nat × Nat)) : Nat × Nat :=
  let l := l.foldl (fun m a => ratInsert a m) []
  l.getD (if Config.medianUpper then l.length / 2 else (l.length - 1) / 2) (0, 1)

/-- Whether a quotient is at least `db` dB above another. -/
def dbAbove (a b : Nat × Nat) (db : Nat) : Bool := decide (b.1 ^ 10 * a.2 ^ 10 * 10 ^ db ≤ a.1 ^ 10 * b.2 ^ 10)

/-- The flatness of a spectrum: 255 times the geometric over the arithmetic mean, rounded to nearest. -/
def flatness (l : List (Nat × Nat)) : Nat :=
  let n := l.length
  let den := l.foldl (fun d p => d * p.2) 1
  let num := l.foldl (fun t p => t + p.1 * (den / p.2)) 0
  let prod := l.foldl (fun d p => d * p.1) 1
  -- (2 S - 1) A ≤ 510 G, with A = num / (n den) and G ^ n = prod / den
  ((List.range 256).filter fun k => k = 0 || decide (((2 * k - 1) * num) ^ n * den ≤ (510 * n * den) ^ n * prod)).foldl max 0

/-- One of R131's flags: its run of values at or above the threshold, the run below it, whether it is set and whether it sets now. -/
def jamFlag (j thr hys up down : Nat) (on : Bool) : Nat × Nat × Bool × Bool :=
  let up := if thr ≤ j then up + 1 else 0
  let down := if j + hys < thr then down + 1 else 0
  if !on ∧ 10 ≤ up then (up, 0, true, true)
  else if on ∧ 100 ≤ down then (0, down, false, false)
  else (up, down, on, false)

/-- The raw spectrum of a millisecond (R124): sixteen blocks of 256 samples, spread evenly, of which those with a blanked sample are left out;
the mean of at least 4, in 720,720ths so that it is whole. -/
def meanSpectrum (tap : List (Int × Int)) : Option (List Nat) :=
  let n := tap.length
  let blocks := (List.range 16).filterMap fun i =>
    let b := (tap.drop (i * n / 16)).take 256
    if b.length = 256 ∧ !b.contains (0, 0) then some (Config.blockPower b) else none
  if blocks.length < 4 then none
  else some ((List.range 204).map fun j => (blocks.map (·.getD j 0)).sum * (720720 / blocks.length))

/-- A valid spectrum is published (R124, R130, R131): the flatness, the bins the notches are decided from, and the index with DEPTH as it
stood at the millisecond's end. -/
def State.spectrum (s : State) (k : Nat) (bins : List Nat) (depth : Nat) : State :=
  let x := s.stream k
  let flat := flatness (x.normal bins)
  let j := min 255 ((s.get Fld.gnssinJamwWd k * depth + s.get Fld.gnssinJamwWs k * (s.get Fld.gnssinJamwSref k - flat)) / 16)
  let s := ((s.set Fld.gnssinJamstatFlat flat k).set Fld.gnssinJamstatIndex j k).setB Fld.gnssinJamstatValid true k
  let hys := s.get Fld.gnssinJamtHys k
  let w := jamFlag j (s.get Fld.gnssinJamtWarn k) hys x.warnUp x.warnDown (s.getB Fld.gnssinJamstatWarn k)
  let a := jamFlag j (s.get Fld.gnssinJamtAlarm k) hys x.alarmUp x.alarmDown (s.getB Fld.gnssinJamstatAlarm k)
  let s := s.setStream k { x with spec := none, bins := bins, warnUp := w.1, warnDown := w.2.1, alarmUp := a.1, alarmDown := a.2.1 }
  let s := (s.setB Fld.gnssinJamstatWarn w.2.2.1 k).setB Fld.gnssinJamstatAlarm a.2.2.1 k
  let s := if w.2.2.2 then (s.setMask Fld.gnssinEventWarn k true).raise 0x1882 else s
  if a.2.2.2 then (s.setMask Fld.gnssinEventAlarm k true).raise 0x1883 else s

/-- SPECTRUM_PUBLISH (R124): 50 µs after a millisecond its spectrum, if it has a valid one, is published. -/
def execSpectrumPublish (st : Fin 12) (s : State) : Result :=
  let k := st.val
  match (s.stream k).spec with
  | none => .next s
  | some p =>
    match s.reachSite (1000000000 * s.gnssin.lastMs + 50000000) with
    | some s => .next (if s.streamRuns k then s.spectrum k p.1 p.2 else s)
    | none => .next s

/-- The jamming level of an antenna (R131). -/
def State.jamLevel (s : State) (a : Nat) : Nat := (streamsOf a).foldl (fun m k => max m (s.get Fld.gnssinJamstatIndex k)) 0

/-- AGC_LEARN (R124): a LEARN while LEARNING is ignored. -/
def State.agcLearn (s : State) (k : Nat) : State :=
  if s.getB Fld.gnssinAgcrefLearning k then s
  else (s.setB Fld.gnssinAgcrefLearning true k).setStream k { s.stream k with learn := {} }

/-- AGC_LEARN (R124). -/
def execAgcLearn (st : Fin 12) (s : State) : Result := .next (s.agcLearn st.val)

/-- What a LEARN takes of a millisecond: its raw spectrum, where it has a valid one, and the gain. -/
def Learn.add (l : Learn) (bins : Option (List Nat)) (gain : Nat) : Learn :=
  { ms := l.ms + 1, gain := l.gain + gain
    bins := match bins with
      | some b => if l.bins = [] then b else (l.bins.zip b).map fun p => p.1 + p.2
      | none => l.bins }

/-- LEARN_DONE (R124): once 10,000 ms are averaged, the mean gain and LEARN_DONE; the reference takes effect at the next millisecond. -/
def execLearnDone (st : Fin 12) (s : State) : Result :=
  let k := st.val
  let x := s.stream k
  if s.getB Fld.gnssinAgcrefLearning k ∧ 10000 ≤ x.learn.ms then
    let s := (s.setB Fld.gnssinAgcrefLearning false k).setB Fld.gnssinAgcrefLearnDone true k
    let s := s.set Fld.gnssinAgcrefLearned (qround 26 x.learn.gain x.learn.ms).toNat k
    .next (s.setStream k { x with refNext := if x.learn.bins = [] then none else some x.learn.bins, learn := {} })
  else .next s

/-! ### Notches (R125-R127) -/

/-- The carriers of a band group with their main-lobe half-widths, in Hz (Table 5.4). -/
def carriers (bg : Nat) : List (Int × Int) :=
  let glo := fun (base step : Int) => (List.range 14).map fun (i : Nat) => (base + step * (Int.ofNat i - 7), (511000 : Int))
  if bg = 0 then [(1575420000, 1023000), (1575420000, 2046000), (1561098000, 2046000)] ++ glo 1602000000 562500
  else if bg = 1 then [(1227600000, 1023000), (1278750000, 5115000), (1268520000, 10230000)] ++ glo 1246000000 437500
  else [(1176450000, 10230000), (1207140000, 10230000)]

/-- Whether a notch at an offset from the LO lies in the main lobe of a signal of the stream's band group (R127). -/
def State.notchOverlap (s : State) (k : Nat) (hz : Int) : Bool :=
  (carriers (k % 3)).any fun c =>
    let d := (s.get Fld.gnssinLoLoHz k : Int) + hz - c.1
    decide (-c.2 ≤ d ∧ d ≤ c.2)

/-- The state of notch j of stream k, while it is engaged. -/
def State.notch (s : State) (k j : Nat) : Option NotchState := Map.find s.gnssin.notches (8 * k + j)

/-- Engages, moves or releases a notch, and writes its status word; a notch that engages, goes or takes another place changes the notch set of
captures. -/
def State.setNotch (s : State) (k j : Nat) (n : Option NotchState) : State :=
  let was := s.notch k j
  let m := match n with
    | some x => Map.put s.gnssin.notches (8 * k + j) x
    | none => Map.del s.gnssin.notches (8 * k + j)
  let s : State := { s with gnssin := { s.gnssin with notches := m } }
  let s := s.setB Fld.gnssinNstatEngaged n.isSome k j
  let s := match n with
    | some x => (s.setB Fld.gnssinNstatOverlap (s.notchOverlap k x.hz) k j).set Fld.gnssinNstatFreq
        (unsigned 16 (qround 2 x.hz 2000)) k j
    | none => s.setB Fld.gnssinNstatOverlap false k j
  if was.map (·.home) = n.map (·.home) then s else s.onCaptures k fun y => { y with notch := true }

/-- The centre of bin j of the 204, in Hz from the LO. -/
def binHz (j : Nat) : Int := qround 3 (((j : Int) - 102) * 1953125) 4

/-- Whether a frequency lies within 488 kHz of an engaged notch. -/
def State.notched (s : State) (k : Nat) (hz : Int) : Bool :=
  (List.range 8).any fun j => match s.notch k j with
    | some n => decide (-488000 ≤ n.hz - hz ∧ n.hz - hz ≤ 488000)
    | none => false

/-- The candidates of a stream, strongest first: bin and normalized power (R125, R126). -/
def State.candidates (s : State) (k : Nat) : List (Nat × (Nat × Nat)) :=
  let x := s.stream k
  let l := x.normal x.bins
  let med := medianBin l
  let c := ((List.range l.length).zip l).filter fun p =>
    dbAbove p.2 med (s.get Fld.gnssinNdetEngageDb k) && !s.notched k (binHz p.1)
  let ins := fun (m : List (Nat × (Nat × Nat))) p =>
    let stronger := m.takeWhile fun q => !ratLt q.2 p.2
    stronger ++ p :: m.drop stronger.length
  c.foldl ins []

/-- Whether notch j of stream k works in a mode. -/
def State.notchMode (s : State) (k j : Nat) : Nat := if s.getB Fld.gnssinCfgNotchEn k then s.get Fld.gnssinNcfgMode k j else 0

/-! The filters (Table 5.5) -/

/-- ρ times a value: ρ is 1 − 2^-e (Table 5.5), rounded in a way the spec does not state (log 13). -/
def rhoTimes (e : Nat) (v : Int) : Int := qround 27 (v * (2 ^ e - 1)) (2 ^ e)

/-- A notch's section on one value: y = x − e^(jω) x₁ + ρ e^(jω) y₁. -/
def NotchState.step (n : NotchState) (e : Nat) (x : Int × Int) : NotchState × (Int × Int) :=
  let t := Config.turn n.hz n.x1
  let u := Config.turn n.hz (rhoTimes e n.y1.1, rhoTimes e n.y1.2)
  let y := (x.1 - t.1 + u.1, x.2 - t.2 + u.2)
  ({ n with x1 := x, y1 := y }, y)

/-- A notch on the samples of a millisecond. -/
def NotchState.run (n : NotchState) (e : Nat) : List (Int × Int) → NotchState × List (Int × Int)
  | [] => (n, [])
  | x :: t =>
    let r := n.step e x
    let q := r.1.run e t
    (q.1, r.2 :: q.2)

/-- The exponent of a WIDTH (Table 5.5). -/
def widthExp (w : Nat) : Nat := 4 + 2 * w

/-- A notch's own share of the chain over a millisecond of samples: it filters them, and, in AUTO, its loop follows the interferer by at most
1 MHz and within 488 kHz of the bin where it engaged (R125); REMOVED_DB is what it removed. -/
def State.notchPass (s : State) (k : Nat) (med : Nat × Nat) (inp : List (Int × Int)) (j : Nat) : List (Int × Int) × State :=
  match s.notch k j with
  | none => (inp, s)
  | some n =>
    let r := n.run (widthExp (s.get Fld.gnssinNcfgWidth k j)) inp
    let s := s.set Fld.gnssinNstatRemovedDb (min 255 (Config.notchDb inp r.2 med)) k j
    let hz := max (n.hz - 1000000) (min (n.hz + 1000000) (Config.notchFollow (s.get Fld.gnssinNdetMu k) n.hz inp))
    let hz := max (n.home - 488000) (min (n.home + 488000) hz)
    (r.2, s.setNotch k j (some { r.1 with hz := if s.notchMode k j = 1 then hz else n.hz }))

/-- Notches 0 to 7, in index order, on the samples of the millisecond that ends, and the band output behind them (R122). -/
def State.notchChain (s : State) (k : Nat) (tap : List (Int × Int)) : State :=
  let x := s.stream k
  let med := if x.bins = [] then (0, 1) else medianBin (x.normal x.bins)
  let r := (List.range 8).foldl (fun (p : List (Int × Int) × State) j => p.2.notchPass k med p.1 j) (tap, s)
  r.2.setStream k { r.2.stream k with band := r.1 }

/-- The frequency of a FIXED notch from the LO, in Hz. -/
def State.fixedHz (s : State) (k j : Nat) : Int := qround 4 (signed 32 (s.get Fld.gnssinNfreqFreq k j) * 125000000) (2 ^ 32)

/-- The notch releases of a millisecond boundary (R125): AUTO notches whose removed power has stayed low for HOLD_MS, and those that are
engaged in another mode or place than the live set gives. -/
def State.notchReleases (s : State) (k : Nat) : State :=
  (List.range 8).foldl (fun s j =>
    match s.notch k j with
    | none => s
    | some n =>
      let mode := s.notchMode k j
      if mode = 2 then (if n.home = s.fixedHz k j then s else s.setNotch k j none)
      else if mode ≠ 1 then s.setNotch k j none
      else
        let low := if s.get Fld.gnssinNstatRemovedDb k j < s.get Fld.gnssinNdetReleaseDb k then n.low + 1 else 0
        s.setNotch k j (if s.get Fld.gnssinNdetHoldMs k ≤ low then none else some { n with low := low })) s

/-- The weakest engaged AUTO notch by the power it removes. -/
def State.weakestNotch (s : State) (k : Nat) : Option Nat :=
  (List.range 8).foldl (fun w j =>
    if (s.notch k j).isSome && s.notchMode k j = 1 then
      match w with
      | some i => if s.get Fld.gnssinNstatRemovedDb k j < s.get Fld.gnssinNstatRemovedDb k i then some j else w
      | none => some j
    else w) none

/-- How many whole dB a power stands above the median, from 0 to 255. -/
def dbOf (p med : Nat × Nat) : Nat := (List.range 256).foldl (fun n d => if dbAbove p med d then d else n) 0

/-- A notch engages at a candidate's bin, with the power it is to remove (log 121). -/
def State.engageAt (s : State) (k j : Nat) (med : Nat × Nat) (c : Nat × (Nat × Nat)) : State :=
  (s.setNotch k j (some { hz := binHz c.1, home := binHz c.1 })).set Fld.gnssinNstatRemovedDb (dbOf c.2 med) k j

/-- One candidate is given a notch: the lowest free AUTO notch, else the weakest engaged one when the candidate is 3 dB stronger and no
notch was replaced for HOLD_MS (R126). -/
def State.engage (s : State) (k : Nat) (med : Nat × Nat) (c : Nat × (Nat × Nat)) : State :=
  if s.notched k (binHz c.1) then s
  else match (List.range 8).find? fun j => s.notchMode k j = 1 && (s.notch k j).isNone with
    | some j => s.engageAt k j med c
    | none =>
      let s := s.raise 0x1885
      match s.weakestNotch k with
      | none => s
      | some j =>
        let may : Bool := match (s.stream k).replaced with
          | some t => decide (s.get Fld.gnssinNdetHoldMs k ≤ t)
          | none => true
        if may ∧ dbAbove c.2 med (s.get Fld.gnssinNstatRemovedDb k j + 3) then
          let s := s.setStream k { s.stream k with replaced := some 0 }
          (s.setNotch k j none).engageAt k j med c
        else s

/-- The notch engages of a millisecond boundary (R125): FIXED notches that are not engaged yet, at their frequency, then the candidates of a
stream that delivers samples. -/
def State.notchEngages (s : State) (k : Nat) : State :=
  let s := (List.range 8).foldl (fun s j =>
    if s.notchMode k j = 2 ∧ (s.notch k j).isNone then s.setNotch k j (some { hz := s.fixedHz k j, home := s.fixedHz k j }) else s) s
  let x := s.stream k
  if x.bins = [] ∨ !s.streamRuns k then s
  else
    let med := medianBin (x.normal x.bins)
    (s.candidates k).foldl (fun s c => s.engage k med c) s

/-! ### Millisecond boundaries (R132, R133) -/

/-- Whether LAYOUT of an antenna may change. -/
def State.antIdle (s : State) (a : Nat) : Bool := s.antState a = 0 || s.antState a = 4 || s.antState a = 5

/-- The nominal LO of a stream (Table 5.3). -/
def nominalLo (k : Nat) : Int := if k % 3 = 0 then 1582000000 else if k % 3 = 1 then 1253000000 else 1191795000

/-- The change of an antenna's LAYOUT fields. -/
def State.antLayoutChanged (s : State) (a : Nat) : Bool :=
  decide (bitOf (s.getStaged Fld.gnssinFeclkEn) a ≠ bitOf (s.get Fld.gnssinFeclkEn) a) ||
  decide (s.getStaged Fld.gnssinLaneDepth a ≠ s.get Fld.gnssinLaneDepth a) ||
  decide (s.getStaged Fld.gnssinLaneEyeMin a ≠ s.get Fld.gnssinLaneEyeMin a) ||
  (streamsOf a).any fun k => decide (s.getStaged Fld.gnssinLoLoHz k ≠ s.get Fld.gnssinLoLoHz k)

/-- Whether GNSSIN's staged set passes (Table 5.7). -/
def gnssinApplyOk (s : State) : Bool :=
  let st := fun (f : Fld) (i : Nat) => s.getStaged f i
  ((List.range 4).all fun a => !s.antLayoutChanged a ||
    (s.antIdle a && decide (32 ≤ st Fld.gnssinLaneDepth a ∧ st Fld.gnssinLaneDepth a ≤ 2048) &&
      (streamsOf a).all fun k =>
        let d := (st Fld.gnssinLoLoHz k : Int) - nominalLo k
        decide (-8000000 ≤ d ∧ d ≤ 8000000))) &&
  (List.range 12).all fun k =>
    (!s.changed Blk.gnssin .gAgc (some k) ||
      decide (st Fld.gnssinAgcHys k + 1 ≤ st Fld.gnssinAgcTarget k ∧ st Fld.gnssinAgcTarget k + st Fld.gnssinAgcHys k ≤ 254 ∧
        1 ≤ st Fld.gnssinAgcPeriod k ∧ st Fld.gnssinAgcPeriod k ≤ 100)) &&
    (!s.changed Blk.gnssin .gPb (some k) ||
      decide (1 ≤ st Fld.gnssinPbThresh k ∧ st Fld.gnssinPbThresh k ≤ 16 ∧ 256 ≤ st Fld.gnssinPbMax k)) &&
    (!s.changed Blk.gnssin .gJam (some k) ||
      decide (st Fld.gnssinJamtHys k < st Fld.gnssinJamtWarn k ∧ st Fld.gnssinJamtWarn k < st Fld.gnssinJamtAlarm k)) &&
    (!s.changed Blk.gnssin .gNotch (some k) ||
      (decide (st Fld.gnssinNdetReleaseDb k < st Fld.gnssinNdetEngageDb k ∧ 1 ≤ st Fld.gnssinNdetHoldMs k) &&
        (List.range 8).all fun j =>
          let m := s.getStaged Fld.gnssinNcfgMode k j
          let f := signed 32 (s.getStaged Fld.gnssinNfreqFreq k j)
          decide (m ≠ 3) && (decide (m ≠ 2) || decide (-1717986918 ≤ f ∧ f ≤ 1717986918))))

/-- What an applied set moves at once: DEPTH of every stream (R128), and the GPIO pins that become FEGAIN lines (R129). -/
def State.gnssinApplied (s : State) : State :=
  let s := (List.range 12).foldl State.followDepth s
  { s with loop := { s.loop with engGpio := s.loop.engGpio.filter fun p => !s.gpioTaken p.1 } }

/-- An antenna whose RUN was accepted starts (R117, R119, R128): its units are empty, and gains start at the live REF. -/
def State.antStart (s : State) (a : Nat) : State :=
  if s.antState a ≠ 2 then s
  else
    let s := s.set Fld.gnssinStateAnt 3 a
    (streamsOf a).foldl (fun s k =>
      (s.streamUnit k true).setGain k (if s.drivesGain a then s.get Fld.gnssinAgcrefRef k else s.get Fld.gnssinAgcGainExt k)) s

/-- What a stream measured of a millisecond goes to the captures in progress that took it. -/
def State.captureMs (s : State) (k ms samples blanked : Nat) : State :=
  (List.range 2).foldl (fun s e =>
    let x := s.grEngine e
    let hit := fun (c : Capture) => c.stream = k && decide (c.from' ≤ ms ∧ ms < c.from' + c.ms) &&
      x.searches.any fun y => y.cap = c.num && y.step = .capturing
    let add := fun (c : Capture) => if hit c then { c with samples := c.samples + samples, blanked := c.blanked + blanked } else c
    s.setGrEngine e { x with caps := x.caps.map add }) s

/-- The millisecond `ms` of a stream that delivers samples ends: DUTY of the samples it holds, the AGC step, the spectrum with DEPTH after
that step, what LEARN takes, and the notches' share (R122-R125, R128, R132). -/
def State.streamMs (s : State) (k ms : Nat) : State :=
  let x := s.stream k
  let tap := x.tap.reverse
  let s := if x.samples = 0 then s else s.set Fld.gnssinPbstatDuty (min 255 (qround 5 (x.blanked * 256) x.samples).toNat) k
  let s := s.captureMs k ms x.samples x.blanked
  let s := s.agcEnd k
  let bins := meanSpectrum tap
  let learning := s.getB Fld.gnssinAgcrefLearning k && decide (x.learn.ms < 10000)
  let y := s.stream k
  let s := s.setStream k { y with
    samples := 0, blanked := 0, tap := [], periods := 0
    spec := bins.map fun b => (b, s.get Fld.gnssinAgcstatDepth k)
    learn := if learning then y.learn.add bins (s.get Fld.gnssinAgcstatGain k) else y.learn
    ref := y.refNext.getD y.ref, refNext := none, replaced := y.replaced.map (· + 1) }
  s.notchChain k tap

/-- The boundary of a millisecond of site time (R132): the bytes that arrived before it, the apply, the AGC steps and statistics of the
millisecond that ends, notch releases, notch engages; and antennas whose RUN waits start. -/
def State.msTake (s : State) (ms : Nat) (codes : List (List Byte)) : State :=
  let s := (List.range 12).foldl (fun s k => s.feed k (codes.getD k [])) s
  let s : State := { s with gnssin := { s.gnssin with lastMs := ms } }
  let ok := gnssinApplyOk s
  let s := if (s.appliesOf Blk.gnssin).pending.isSome ∧ ok then (s.makeApply Blk.gnssin 0x1801 true).gnssinApplied
    else s.makeApply Blk.gnssin 0x1801 ok
  let s := (List.range 12).foldl (fun s k => if s.streamRuns k then s.streamMs k (ms - 1) else s) s
  let s := (List.range 12).foldl State.notchReleases s
  let s := (List.range 12).foldl State.notchEngages s
  let due := s.gnssin.runDue
  due.foldl State.antStart { s with gnssin := { s.gnssin with runDue := [] } }

/-- The millisecond of site time that the present instant lies in. -/
def State.msNow (s : State) : Nat := s.site.ps / 1000000000

/-- MS_BOUNDARY (R132): the next whole millisecond of site time whose boundary has not been taken. -/
def execMsBoundary (codes : List (List Byte)) (s : State) : Result :=
  let ms := if s.gnssin.lastMs < s.msNow then s.msNow else s.msNow + 1
  match s.reachSite (1000000000 * ms) with
  | some s => .next (s.msTake ms codes)
  | none => .next s

end Sys2Proof.Machine
end

