-- ==== Sys2Proof/Machine/Grinder.lean ====
section
/-! DEFINITION. The Grinder (spec/05_gnss_signal_input.md R134-R138): the search ring, searches and captures, results. -/

namespace Sys2Proof.Machine

/-! ### Signals (Table 5.4) -/

/-- A signal: its system (0 GPS, 1 Galileo, 2 BeiDou, 3 GLONASS, 4 QZSS), band group, chip rate in chips per ms, primary code period in ms,
and whether the Grinder searches it in full. -/
structure SignalInfo where
  sys : Nat
  bg : Nat
  chips : Nat
  period : Nat
  full : Bool
  deriving DecidableEq, Repr

/-- Whether a signal takes the Grinder's high capture rate. -/
def SignalInfo.high (g : SignalInfo) : Bool := decide (2046 < g.chips)

/-- The signal of a SIGNAL code. -/
def signalInfo (c : Nat) : Option SignalInfo :=
  match c with
  | 0x01 => some ⟨0, 0, 1023, 1, true⟩
  | 0x02 | 0x03 => some ⟨0, 0, 1023, 10, false⟩
  | 0x04 => some ⟨4, 0, 1023, 1, true⟩
  | 0x05 => some ⟨4, 0, 1023, 10, false⟩
  | 0x06 | 0x07 => some ⟨1, 0, 1023, 4, true⟩
  | 0x08 => some ⟨2, 0, 2046, 1, true⟩
  | 0x09 | 0x0A => some ⟨2, 0, 1023, 10, false⟩
  | 0x0B => some ⟨3, 0, 511, 1, true⟩
  | 0x10 => some ⟨0, 1, 1023, 1500, false⟩
  | 0x11 => some ⟨4, 1, 1023, 1500, false⟩
  | 0x12 | 0x13 => some ⟨1, 1, 5115, 1, true⟩
  | 0x14 => some ⟨2, 1, 10230, 1, true⟩
  | 0x15 => some ⟨3, 1, 511, 1, true⟩
  | 0x20 | 0x21 => some ⟨0, 2, 10230, 1, true⟩
  | 0x22 | 0x23 => some ⟨4, 2, 10230, 1, true⟩
  | 0x24 | 0x25 | 0x26 | 0x27 => some ⟨1, 2, 10230, 1, true⟩
  | 0x28 | 0x29 | 0x2A => some ⟨2, 2, 10230, 1, true⟩
  | _ => none

/-- Whether a PRN lies within its system (R134). -/
def prnOk (sys prn : Nat) : Bool :=
  match sys with
  | 0 => decide (1 ≤ prn ∧ prn ≤ 32)
  | 1 => decide (1 ≤ prn ∧ prn ≤ 36)
  | 2 => decide (1 ≤ prn ∧ prn ≤ 63)
  | 3 => decide (1 ≤ prn ∧ prn ≤ 14)
  | _ => decide (1 ≤ prn ∧ prn ≤ 10)

/-! ### Descriptors (Table 5.8) -/

/-- A field of `n` bytes at offset `k` of a descriptor. -/
def descAt (d : List Byte) (k n : Nat) : Nat := leNat ((d.drop k).take n)

/-- The length of a descriptor's capture, TCOH × NNC, in ms. -/
def descMs (d : List Byte) : Nat := descAt d 6 1 * descAt d 7 1

/-- Whether a descriptor is valid (R134). -/
def descOk (d : List Byte) : Bool :=
  let tcoh := descAt d 6 1
  let nnc := descAt d 7 1
  let narrow := bitOf (descAt d 5 1) 1
  match signalInfo (descAt d 3 1) with
  | none => false
  | some g =>
    decide (descAt d 2 1 ≤ 3) && prnOk g.sys (descAt d 4 1) &&
    (if g.high then decide (tcoh = 1) else decide (tcoh = 1 ∨ tcoh = 2 ∨ tcoh = 4)) &&
    (!g.full || decide (g.period ≤ tcoh)) && (g.full || narrow) && decide (1 ≤ nnc ∧ nnc ≤ 64) &&
    decide (tcoh * nnc ≤ if g.high then 32 else 128) && decide (descAt d 14 2 % 2 = 1) &&
    (!narrow || decide (1 ≤ descAt d 18 2 ∧ descAt d 18 2 ≤ 64))

/-- The stream a descriptor names, and whether it takes the high capture rate. -/
def descStream (d : List Byte) : Nat × Bool :=
  match signalInfo (descAt d 3 1) with
  | some g => (3 * descAt d 2 1 + g.bg, g.high)
  | none => (0, false)

/-- The address of entry n of the search ring. -/
def State.entryAddr (s : State) (n : Nat) : Nat := s.get Fld.grinderRingAddr * 256 + 64 + 32 * (n % max 1 (s.get Fld.grinderRinglenEntries))

/-- Entry n of the search ring. -/
def State.searchEntry (s : State) (n : Nat) : List Byte :=
  s.rd (s.entryAddr n) 32

/-! ### Results (Table 5.10, R137) -/

/-- GRINDER.STATE.STATE (Table 5.11). -/
def State.grState (s : State) : Nat := s.get Fld.grinderStateState

/-- PENDING and BUSY follow; a Grinder that is STOPPING stops after the last result (Table 5.11). -/
def State.grFollow (s : State) : State :=
  let s := s.set Fld.grinderStatePending (min 0xFFFF s.grinder.untaken.length)
  let s := (List.range 2).foldl (fun s e => s.setB Fld.grinderStateBusy ((s.grEngine e).searches ≠ []) e) s
  let idle := (List.range 2).all fun e => (s.grEngine e).searches = [] && (s.grEngine e).held = []
  if s.grState = 2 ∧ idle ∧ s.grinder.invalid = [] then s.set Fld.grinderStateState 0 else s

/-- Whether the result ring has room: RGET is read from memory. -/
def State.resultRoom (s : State) : Bool :=
  (s.get Fld.grinderRputCount + 2 ^ 32 - s.readLE (s.get Fld.grinderResAddr * 256 + 4) 4) % 2 ^ 32 ≠ s.get Fld.grinderReslenEntries

/-- Writes a result, advances RPUT and counts it. -/
def State.writeResult (s : State) (r : List Byte) : State :=
  let a := s.get Fld.grinderResAddr * 256
  let n := s.get Fld.grinderRputCount
  let s := s.store (a + 64 + 32 * (n % max 1 (s.get Fld.grinderReslenEntries))) r
  let s := (s.store a (leBytes ((n + 1) % 2 ^ 32) 4)).set Fld.grinderRputCount (n + 1)
  match descAt r 2 1 with
  | 0 => s.bump Fld.grinderCntDone
  | 1 => (s.bump Fld.grinderCntDone).bump Fld.grinderCntDetect
  | 2 => s.bump Fld.grinderCnt2Invalid
  | _ => (s.bump Fld.grinderCntDone).bump Fld.grinderCnt2Capfail

/-- A result of an engine: written, or held until there is room (R137). -/
def State.giveResult (s : State) (e : Nat) (r : List Byte) : State :=
  let x := s.grEngine e
  if x.held = [] ∧ s.resultRoom then s.writeResult r
  else
    let s := if x.held = [] ∧ s.grinder.invalid = [] then s.raise 0x1981 else s
    s.setGrEngine e { x with held := x.held ++ [r] }

/-- The start of every result: TAG, STATUS, FLAGS, SIGNAL, PRN. -/
def resultHead (d : List Byte) (status flags : Nat) : List Byte :=
  leBytes (descAt d 0 2) 2 ++ leBytes status 1 ++ leBytes flags 1 ++ leBytes (descAt d 3 1) 1 ++ leBytes (descAt d 4 1) 1

/-- The FLAGS of a result: of its capture, whether blanking took more than 1/16. -/
def Search.flags (x : Search) (c : Option Capture) : Nat :=
  let blank := match c with
    | some c => decide (c.samples < c.blanked * 16)
    | none => false
  x.notch.toNat + 2 * blank.toNat + 4 * x.reuse.toNat

/-- The capture a search uses. -/
def GrEngine.capOf (en : GrEngine) (x : Search) : Option Capture := en.caps.find? fun c => c.num = x.cap

/-- An engine's search ends with CAPTURE_FAILED (R135); what Table 5.10 holds of a peak is then open, and TCAP where the capture never
began. -/
def State.searchFails (s : State) (e : Nat) (x : Search) : State :=
  let en := s.grEngine e
  let cap := en.capOf x
  let tcap := match cap with
    | some c => c.tcap
    | none => []
  let s := s.setGrEngine e { en with searches := en.searches.filter (· ≠ x), caps := en.caps.filter fun c => c.num ≠ x.cap }
  let (t, s) := if tcap = [] then s.drawBytes 10 else (tcap, s)
  let (rest, s) := s.drawBytes 14
  ((s.raise 0x1903).giveResult e (resultHead x.desc 3 (x.flags cap) ++ t ++ rest ++ leBytes e 1 ++ [0])).grFollow

/-! ### Commands -/

/-- GRINDER_RUN (R138). -/
def State.grRun (s : State) : State := if s.grState = 0 then s.set Fld.grinderStateState 1 else s
/-- GRINDER_RUN (R138). -/
def execGrinderRun (s : State) : Result := .next s.grRun

/-- GRINDER_STOP (Table 5.11). -/
def State.grStop (s : State) : State := if s.grState = 1 then (s.set Fld.grinderStateState 2).grFollow else s
/-- GRINDER_STOP (Table 5.11). -/
def execGrinderStop (s : State) : Result := .next s.grStop

/-- A result of an invalid descriptor (R134), written at once or, with RESULT_STALL at the first of a stall, when there is room; what Table
5.10 holds of a peak is open. -/
def State.invalidResult (s : State) (d : List Byte) : State :=
  let (rest, s) := s.drawBytes 25
  let s := s.raise 0x1902
  let r := resultHead d 2 0 ++ rest ++ [0]
  if s.grinder.invalid = [] ∧ s.resultRoom then s.writeResult r
  else
    let stalled := !s.grinder.invalid.isEmpty || (List.range 2).any fun e => !(s.grEngine e).held.isEmpty
    let s := if stalled then s else s.raise 0x1981
    { s with grinder := { s.grinder with invalid := s.grinder.invalid ++ [r] } }

/-- The first of a list of invalid results that fit are written. -/
def State.invalidDrain : Nat → State → State
  | 0, s => s
  | n + 1, s =>
    match s.grinder.invalid with
    | r :: rest =>
      if s.resultRoom then State.invalidDrain n ({ s with grinder := { s.grinder with invalid := rest } }.writeResult r) else s
    | [] => s

/-- GRINDER_DOORBELL (R134): PUT is read, and the entries up to it wait to be taken; an invalid one is answered at once. -/
def State.grDoorbell (s : State) : State :=
  if s.grState ≠ 1 then s
  else
    let s := s.touch (s.get Fld.grinderRingAddr * 256) 4
    let put := s.readLE (s.get Fld.grinderRingAddr * 256) 4
    let have' := s.grinder.untaken.length
    let next := (s.get Fld.grinderGetCount + have') % 2 ^ 32
    let n := min ((put + 2 ^ 32 - next) % 2 ^ 32) (s.get Fld.grinderRinglenEntries)
    let s := (List.range n).foldl (fun s k =>
      let i := (next + k) % 2 ^ 32
      let s := s.touch (s.entryAddr i) 32
      let d := s.searchEntry i
      if descOk d then { s with grinder := { s.grinder with untaken := s.grinder.untaken ++ [i] } }
      else (s.invalidResult d).bump Fld.grinderGetCount) s
    s.grFollow

/-- GRINDER_DOORBELL (R134). -/
def execGrinderDoorbell (s : State) : Result := .next s.grDoorbell

/-- Whether a capture serves a descriptor with REUSE: its stream and rate, and it covers TCOH × NNC. -/
def Capture.serves (c : Capture) (d : List Byte) : Bool :=
  decide ((c.stream, c.high) = descStream d) && decide (descMs d ≤ c.ms)

/-- The entry that is taken next (R135): an URGENT one among the next 16, else the first. -/
def State.nextEntry (s : State) : Option Nat :=
  match (s.grinder.untaken.take 16).find? fun n => bitOf (descAt (s.searchEntry n) 5 1) 0 with
  | some n => some n
  | none => s.grinder.untaken.head?

/-- SEARCH_TAKE (R135): the engine takes the next search, or leaves it to the engine whose capture it reuses. -/
def State.searchTake (s : State) (e : Nat) : State :=
  let en := s.grEngine e
  if s.grState ≠ 1 ∨ en.held ≠ [] then s
  else match s.nextEntry with
    | none => s
    | some n =>
      let d := s.searchEntry n
      let took := fun (s : State) =>
        (({ s with grinder := { s.grinder with untaken := s.grinder.untaken.filter (· ≠ n) } }).bump Fld.grinderGetCount).grFollow
      let server := if bitOf (descAt d 5 1) 2 then
          (List.range 2).find? fun k => (s.grEngine k).caps.any fun c => c.serves d
        else none
      match server with
      | some k =>
        if k ≠ e ∨ en.searches ≠ [] then s
        else
          let num := match en.caps.find? (fun c => c.serves d) with
            | some c => c.num
            | none => 0
          took (s.setGrEngine e { en with searches := [{ desc := d, cap := num, step := .ready, reuse := true, readyAt := s.roots }] })
      | none =>
        if 2 ≤ en.searches.length then s
        else
          let num := s.grinder.nextCap
          let st := descStream d
          let used := en.caps.filter fun c => en.searches.any fun y => y.cap = c.num
          let idle := en.caps.filter fun c => !en.searches.any fun y => y.cap = c.num
          let cap : Capture := { num := num, stream := st.1, high := st.2, ms := descMs d, from' := (s.site.ps + 1000999999) / 1000000000 }
          let s : State := { s with grinder := { s.grinder with nextCap := num + 1 } }
          took (s.setGrEngine e { en with
            searches := en.searches ++ [{ desc := d, cap := num, step := .waiting }], caps := cap :: used ++ idle.take (1 - used.length) })

/-- SEARCH_TAKE (R135). -/
def execSearchTake (e : Fin 2) (s : State) : Result := .next (s.searchTake e.val)

/-- Replaces the first search of an engine that stands at a step. -/
def Search.advance (st : SearchStep) (f : Search → Search) : List Search → List Search
  | [] => []
  | x :: t => if x.step = st then f x :: t else x :: Search.advance st f t

/-- The site time at which the sample that reaches the band output at a whole millisecond was at the balls: DEPTH × 8 ns + 176 ns before it
(R117). -/
def State.atBalls (s : State) (stream ms : Nat) : SiteTime :=
  ({ sec := ms / 1000, ns := ms % 1000 * 1000000 } : SiteTime).addPs (-(s.get Fld.gnssinLaneDepth (stream / 3) * 8000 + 176000 : Nat))

/-- CAPTURE_START (R135): at the first whole millisecond at least 1 µs after the engine took the search; a stream that is not RUNNING fails
the capture. -/
def execCaptureStart (e : Fin 2) (s : State) : Result :=
  let en := s.grEngine e.val
  match en.searches.find? (fun x => x.step = .waiting) with
  | none => .next s
  | some x =>
    match en.capOf x with
    | none => .next s
    | some c =>
      match s.reachSite (1000000000 * c.from') with
      | none => .next s
      | some s =>
        if !s.streamRuns c.stream then .next (s.searchFails e.val x)
        else
          let c := { c with tcap := (s.atBalls c.stream c.from').bytes10 }
          .next (s.setGrEngine e.val { en with
            caps := en.caps.map fun (d : Capture) => if d.num = c.num then c else d
            searches := Search.advance .waiting (fun y => { y with step := .capturing }) en.searches })

/-- CAPTURE_END (R135): TCOH × NNC ms after its start, once its last millisecond's boundary is past. -/
def execCaptureEnd (e : Fin 2) (s : State) : Result :=
  let en := s.grEngine e.val
  match en.searches.find? (fun x => x.step = .capturing) with
  | none => .next s
  | some x =>
    if x.failed then .next (s.searchFails e.val x)
    else match en.capOf x with
      | none => .next s
      | some c =>
        if s.gnssin.lastMs < c.from' + c.ms then .next s
        else .next (s.setGrEngine e.val { en with
          searches := Search.advance .capturing (fun y => { y with step := .ready, readyAt := s.roots }) en.searches })

/-- The search time after the capture, in ns (R136): 4 µs and, for each bin and non-coherent sum, c. -/
def searchNs (d : List Byte) : Nat :=
  let c := if bitOf (descAt d 5 1) 1 then descAt d 18 2 * 125
    else if (descStream d).2 then 12000
    else match descAt d 6 1 with
      | 1 => 3000
      | 2 => 6000
      | _ => 12000
  4000 + descAt d 14 2 * descAt d 7 1 * c

/-- SEARCH_DONE (R136, Table 5.10): the search time after its samples are there and the engine is free; detected when METRIC reaches THRESH
and RATIO reaches 358. -/
def execSearchDone (e : Fin 2) (peak : SearchPeak) (s : State) : Result :=
  let en := s.grEngine e.val
  match en.searches.find? (fun x => x.step = .ready) with
  | none => .next s
  | some x =>
    match s.reach (max x.readyAt en.freeAt + searchNs x.desc * 6) with
    | none => .next s
    | some s =>
      let thr := if descAt x.desc 16 2 = 0 then 96 else descAt x.desc 16 2
      let metric := min 0xFFFF peak.metric
      let ratio := min 0xFFFF peak.ratio
      let cap := en.capOf x
      let tcap := match cap with
        | some c => c.tcap
        | none => []
      let r := resultHead x.desc (decide (thr ≤ metric ∧ 358 ≤ ratio)).toNat (x.flags cap) ++ (tcap ++ List.replicate 10 0).take 10 ++
        leBytes peak.code 4 ++ leBytes (unsigned 32 peak.doppler) 4 ++ leBytes metric 2 ++ leBytes ratio 2 ++
        leBytes peak.cn0 2 ++ leBytes e.val 1 ++ [0]
      let s := s.setGrEngine e.val { en with searches := en.searches.filter (· ≠ x), freeAt := s.roots }
      .next (s.giveResult e.val r).grFollow

/-- RESULT_RESUME (R137): room in the result ring lets held results be written, oldest first. -/
def execResultResume (e : Fin 2) (s : State) : Result :=
  let s := State.invalidDrain s.grinder.invalid.length s
  let en := s.grEngine e.val
  match en.held with
  | r :: rest =>
    if s.resultRoom then .next ((s.setGrEngine e.val { en with held := rest }).writeResult r).grFollow else .next s.grFollow
  | [] => .next s.grFollow

/-- Whether GRINDER's staged set passes (R138): while it is STOPPED, both rings lie in the Granary or fitted DRAM and do not overlap. -/
def grinderApplyOk (s : State) : Bool :=
  let ra := s.getStaged Fld.grinderRingAddr * 256
  let rn := s.getStaged Fld.grinderRinglenEntries
  let qa := s.getStaged Fld.grinderResAddr * 256
  let qn := s.getStaged Fld.grinderReslenEntries
  let pow := fun (n : Nat) => decide (n = 16 ∨ n = 32 ∨ n = 64 ∨ n = 128 ∨ n = 256 ∨ n = 512 ∨ n = 1024)
  s.grState = 0 && (!s.changed Blk.grinder .gRing none ||
    (pow rn && pow qn && s.inRam ra (64 + 32 * rn) && s.inRam qa (64 + 32 * qn) && !overlaps ra (64 + 32 * rn) qa (64 + 32 * qn)))

end Sys2Proof.Machine
end

