-- ==== Sys2Proof/Machine/Seq.lean ====
section
/-! DEFINITION. Sequencer instructions that touch no GNSS channel or radio port (03 R80-R88): timed actions, waits, transfers, signal
arithmetic. -/

namespace Sys2Proof.Machine

/-- What sequencer instructions share: the sequencer runs, or waits in this one, and its register fields are in range (R80). -/
def State.seqInsn (s : State) (q : Fin 8) (rs : List Reg) (i : Instr) (f : State → State) : State :=
  if !s.runsOr (.seq q) i then s
  else if !regsOk (.seq q) rs then s.engFault (.seq q) 0x0205
  else f s

/-- A register of a sequencer. -/
def State.qr (s : State) (q : Fin 8) (r : Reg) : Word32 := regRead (s.seq q.val).g r

/-- A result in d, and on to the next instruction. -/
def State.seqDone (s : State) (q : Fin 8) (d : Reg) (v : Word32) : State :=
  let s := s.unblock (.seq q)
  let x := s.seq q.val
  (s.setSeq q.val { x with g := regWrite x.g d v }).adv (.seq q)

/-- A wait ends (R86): the count of instructions starts over. -/
def State.waited (s : State) (q : Fin 8) : State := s.setSeq q.val { s.seq q.val with count := 0 }

/-- The signed difference of two TNOW values (R81). -/
def tdiff (a b : Nat) : Int := signed 32 (unsigned 32 ((a : Int) - b))

/-- The nominal cycle length in clocks (R81). -/
def cycleClocks (q : Nat) : Nat := if q < 4 then 5000000 else 2000000

/-! ### Timed actions (R82-R84) -/

/-- Whether a kind is valid on a sequencer (Table 3.10). -/
def kindOk (q k : Nat) : Bool := decide (k = 0xF) || (if q < 4 then decide (k = 8 ∨ k = 9) else decide (1 ≤ k ∧ k ≤ 4))

/-- The kind group of an action: 1 TX, 2 RX, 3 CCA, 4 channel, 0 none. -/
def kindGroup (k : Nat) : Nat := if k = 1 then 1 else if k = 2 ∨ k = 3 then 2 else if k = 4 then 3 else if k = 8 ∨ k = 9 then 4 else 0

/-- Whether an armed action has the same target, kind group and time. -/
def Action.conflicts (x y : Action) : Bool :=
  kindGroup x.kind ≠ 0 && kindGroup x.kind = kindGroup y.kind && x.target = y.target && x.rel = y.rel && x.time = y.time

/-- The lowest free action slot. -/
def Sequencer.freeSlot (x : Sequencer) : Option Nat := (List.range 8).find? fun k => (Map.find x.slots k).isNone

/-- ARM (R82-R84, R90): KIND, then WINDOW, LATE, NO_SLOT and CONFLICT; a TARGET above 383 on a GNSS sequencer raises QSEQ_OPERAND. -/
def execArm (e : Engine) (d a b : Reg) (s : State) : Result :=
  .next (s.onSeq e fun q => s.seqInsn q [d, a, b] (.arm (.seq q) d a b) fun s =>
    let x := s.seq q.val
    let t := (s.qr q a).toNat
    let w := (s.qr q b).toNat
    let act : Action := {
      kind := bits w 0 4, rel := bitOf w 4, gated := bitOf w 5, fallback := bitOf w 6, target := bits w 8 10
      param := bits w 18 14, time := t, cycle := s.cycle, order := x.armed }
    let off := tdiff t (s.cycbase q.val)
    let window := (act.rel && decide (cycleClocks q.val ≤ t)) ||
      (!act.rel && act.gated && !decide ((cycleClocks q.val : Int) ≤ off ∧ off < 2 * cycleClocks q.val))
    let res : Nat :=
      if !kindOk q.val act.kind || bitOf w 7 || (4 ≤ q.val && act.target ≠ 0) then 0x103
      else if window then 0x104
      else if !act.rel && decide (tdiff t (s.tnow q.val) < 4) then 0x100
      else match x.freeSlot with
        | none => 0x101
        | some k => if x.slots.any fun p => p.2.conflicts act then 0x102 else k
    if q.val < 4 ∧ 384 ≤ act.target then s.engFault (.seq q) 0x020A
    else if res < 8 then
      (s.setSeq q.val { x with slots := Map.put x.slots res act, armed := x.armed + 1 }).seqDone q d (BitVec.ofNat 32 res)
    else s.seqDone q d (BitVec.ofNat 32 res))

/-- DISARM (R82). -/
def execDisarm (e : Engine) (d a : Reg) (s : State) : Result :=
  .next (s.onSeq e fun q => s.seqInsn q [d, a] (.disarm (.seq q) d a) fun s =>
    let x := s.seq q.val
    let k := (s.qr q a).toNat % 8
    match Map.find x.slots k with
    | some _ => (s.setSeq q.val { x with slots := Map.del x.slots k }).seqDone q d 0
    | none => s.seqDone q d 1)

/-- WAITT (Table 3.6): until TNOW reaches a. -/
def execWaitt (e : Engine) (a : Reg) (s : State) : Result :=
  .next (s.onSeq e fun q => s.seqInsn q [a] (.waitt (.seq q) a) fun s =>
    if 0 ≤ tdiff (s.tnow q.val) (s.qr q a).toNat then ((s.unblock (.seq q)).adv (.seq q)).waited q
    else (s.waited q).block (.seq q) (.waitt (.seq q) a))

/-- The events that taking clears (Table 3.9). -/
def takenMask : Nat := 0x3DCFF

/-- WAITE (Table 3.6): the pending events of mask a are taken, or the time b is reached. -/
def execWaite (e : Engine) (d a b : Reg) (s : State) : Result :=
  .next (s.onSeq e fun q => s.seqInsn q [d, a, b] (.waite (.seq q) d a b) fun s =>
    let ev := s.seqEvents q &&& (s.qr q a).toNat &&& 0x3FFFF
    let late := decide (0 ≤ tdiff (s.tnow q.val) (s.qr q b).toNat)
    if ev ≠ 0 then
      let x := s.seq q.val
      let left := (List.range 18).foldl (fun v k => if bitOf ev k && bitOf takenMask k then setBit v k false else v) x.evpend
      ((s.setSeq q.val { x with evpend := left }).seqDone q d (BitVec.ofNat 32 ev)).waited q
    else if late then (s.seqDone q d 0x80000000).waited q
    else (s.waited q).block (.seq q) (.waite (.seq q) d a b))

/-- QSEQ_RUNAWAY (R86): 2^20 instructions without a wait. -/
def execQseqRunaway (q : Fin 8) (s : State) : Result :=
  let x := s.seq q.val
  .next (if x.run = .running ∧ 2 ^ 20 ≤ x.count then s.seqHalt q.val (seqCode q 0x43) else s)

/-! ### Transfers (R88) -/

/-- XGET and XPUT (R88): 32 to 4,096 bytes in multiples of 32, aligned at both ends, between DMEM and the Granary or fitted DRAM; a fifth
outstanding transfer waits. -/
def State.xfer (s : State) (q : Fin 8) (d a b c : Reg) (i : Instr) (get : Bool) : State :=
  s.seqInsn q [d, a, b, c] i fun s =>
    let x := s.seq q.val
    let ad := 32 * (s.qr q a).toNat
    let dm := (s.qr q b).toNat
    let n := (s.qr q c).toNat
    if dm % 32 ≠ 0 ∨ n % 32 ≠ 0 then s.engFault (.seq q) 0x0207
    else if n < 32 ∨ 4096 < n ∨ 0x8000 < dm + n ∨ !s.inRam ad n then s.engFault (.seq q) 0x0401
    else if get ∧ s.poisonAt ad n then (s.noteEcc 0x0801 ad n).engFault (.seq q) 0x0801
    else if 4 ≤ x.xfers.length then s.block (.seq q) i
    else
      let t : Xfer := { tag := x.tags, get := get, addr := ad, dmem := dm, len := n }
      let s := if get then s.eccRead ad n else s
      (s.setSeq q.val { x with xfers := x.xfers ++ [t], tags := (x.tags + 1) % 2 ^ 32 }).seqDone q d (BitVec.ofNat 32 x.tags)

/-- XGET (R88). -/
def execXget (e : Engine) (d a b c : Reg) (s : State) : Result := .next (s.onSeq e fun q => s.xfer q d a b c (.xget (.seq q) d a b c) true)
/-- XPUT (R88). -/
def execXput (e : Engine) (d a b c : Reg) (s : State) : Result := .next (s.onSeq e fun q => s.xfer q d a b c (.xput (.seq q) d a b c) false)

/-- XWAIT (Table 3.11). -/
def execXwait (e : Engine) (a : Reg) (s : State) : Result :=
  .next (s.onSeq e fun q => s.seqInsn q [a] (.xwait (.seq q) a) fun s =>
    if (s.seq q.val).xfers.any fun t => t.tag = (s.qr q a).toNat then (s.waited q).block (.seq q) (.xwait (.seq q) a)
    else ((s.unblock (.seq q)).adv (.seq q)).waited q)

/-- XFER_COMPLETE (R88): the oldest transfer completes, and event 12 is pending; one that writes a line of the frozen set is stalled there
(01 R30). -/
def execXferComplete (q : Fin 8) (s : State) : Result :=
  let x := s.seq q.val
  match x.xfers with
  | [] => .next s
  | t :: _ =>
    if s.xferStalled q then .next s
    else if t.get then .next ((s.setSeq q.val { x with dmem := memPutAll x.dmem t.dmem (s.rd t.addr t.len) }).xferDone q.val)
    else
      let s := s.store t.addr (readBytes x.dmem t.dmem t.len) (some (.seq q)) true
      .next (if s.xferStalled q then s else s.xferDone q.val)

/-! ### Signal arithmetic (Table 3.11) -/

/-- An integer saturated to 32 bits. -/
def sat32 (v : Int) : Word32 := BitVec.ofInt 32 (max (-(2 ^ 31)) (min (2 ^ 31 - 1) v))

/-- A right shift rounded half up. -/
def shiftHalfUp (v : Int) (n : Nat) : Int := if n = 0 then v else (v + 2 ^ (n - 1)).fdiv (2 ^ n)

/-- ADDS (Table 3.11). -/
def execAdds (e : Engine) (d a b : Reg) (s : State) : Result :=
  .next (s.onSeq e fun q => s.seqInsn q [d, a, b] (.adds (.seq q) d a b) fun s => s.seqDone q d (sat32 ((s.qr q a).toInt + (s.qr q b).toInt)))
/-- SUBS (Table 3.11). -/
def execSubs (e : Engine) (d a b : Reg) (s : State) : Result :=
  .next (s.onSeq e fun q => s.seqInsn q [d, a, b] (.subs (.seq q) d a b) fun s => s.seqDone q d (sat32 ((s.qr q a).toInt - (s.qr q b).toInt)))
/-- SHRR (Table 3.11). -/
def execShrr (e : Engine) (d a b : Reg) (s : State) : Result :=
  .next (s.onSeq e fun q => s.seqInsn q [d, a, b] (.shrr (.seq q) d a b) fun s =>
    s.seqDone q d (BitVec.ofInt 32 (shiftHalfUp (s.qr q a).toInt ((s.qr q b).toNat % 32))))
/-- MULQ (Table 3.11). -/
def execMulq (e : Engine) (d a b c : Reg) (s : State) : Result :=
  .next (s.onSeq e fun q => s.seqInsn q [d, a, b, c] (.mulq (.seq q) d a b c) fun s =>
    s.seqDone q d (sat32 (shiftHalfUp ((s.qr q a).toInt * (s.qr q b).toInt) ((s.qr q c).toNat % 64))))
/-- PHASE (Table 3.11): 0 when both operands are 0. -/
def execPhase (e : Engine) (d a b : Reg) (s : State) : Result :=
  .next (s.onSeq e fun q => s.seqInsn q [d, a, b] (.phase (.seq q) d a b) fun s =>
    let x := (s.qr q a).toInt
    let y := (s.qr q b).toInt
    s.seqDone q d (if x = 0 ∧ y = 0 then 0 else BitVec.ofNat 32 (Config.phaseCode x y)))

/-- A magnitude: the whole part of the root, off by what the error bound of 2^-16 leaves open. -/
def magnitude (x y : Int) : Nat :=
  let sq := x.natAbs ^ 2 + y.natAbs ^ 2
  let m := Nat.sqrt sq
  let e := m / 65536
  let hi := if m * m = sq then e else e + 1
  (m + max (-(e : Int)) (min hi (Config.magOver x y))).toNat

/-- MAG (Table 3.11). -/
def execMag (e : Engine) (d a b : Reg) (s : State) : Result :=
  .next (s.onSeq e fun q => s.seqInsn q [d, a, b] (.mag (.seq q) d a b) fun s =>
    s.seqDone q d (BitVec.ofNat 32 (magnitude (s.qr q a).toInt (s.qr q b).toInt)))

end Sys2Proof.Machine
end

