-- ==== Sys2Proof/Machine/Correl.lean ====
section
/-! DEFINITION. The correlator array and the GNSS sequencers' control (spec/06_gnss_tracking.md R140-R147, R166, R167; 03 R89, R90). -/

namespace Sys2Proof.Machine

/-! ### Channels -/

/-- A channel slot of quadrant a. -/
def State.chan (s : State) (a k : Nat) : Channel := Map.getD s.correl.chans (384 * a + k) {}

/-- A channel as the tracking image holds it. -/
def State.track (s : State) (a k : Nat) : TrackChan := Map.getD s.correl.tracks (384 * a + k) {}

/-- Replaces the image's record of a channel. -/
def State.setTrack (s : State) (a k : Nat) (x : TrackChan) : State :=
  { s with correl := { s.correl with tracks := Map.put s.correl.tracks (384 * a + k) x } }

/-- RATE of a configuration word (Table 6.2). -/
def cfgRate (w : Nat) : Nat := bits w 14 2
/-- SIGNAL of a configuration word. -/
def cfgSignal (w : Nat) : Nat := bits w 0 8
/-- PRN of a configuration word. -/
def cfgPrn (w : Nat) : Nat := bits w 8 6

/-- The lanes a configuration costs (Table 6.1). -/
def laneCost (w : Nat) : Nat := if cfgRate w = 3 then 0 else 2 ^ cfgRate w

/-- Whether a slot is free (R143). -/
def Channel.free (c : Channel) : Bool := cfgRate c.live = 3 && c.next.isNone

/-- Whether a quadrant runs. -/
def State.quadRuns (s : State) (a : Nat) : Bool := bitOf (s.get Fld.correlStateRun) a

/-- The listed channels of a quadrant. -/
def State.chansOf (s : State) (a : Nat) : List (Nat × Channel) := s.correl.chans.filter fun p => p.1 / 384 = a

/-- The lanes reserved in a quadrant. -/
def State.lanesUsed (s : State) (a : Nat) : Nat := (s.chansOf a).foldl (fun n p => n + p.2.lanes) 0

/-- A calibration pass as the free lanes of its quadrant leave it (R146, 01 Table 1.8): it pauses while fewer than 16 are free. -/
def CalPass.follow (p : CalPass) (free us : Nat) : CalPass :=
  { p with paused := if 16 ≤ free then none else p.paused.or (some us) }

/-- USEa and the calibration passes follow the channels of a quadrant. -/
def State.followLanes (s : State) (a : Nat) : State :=
  let used := s.lanesUsed a
  let f := fun (p : CalPass) => if p.quad = a then p.follow (768 - used) s.us else p
  let s : State := { s with correl := { s.correl with passes := s.correl.passes.map f } }
  (s.set Fld.correlUseSlots ((s.chansOf a).countP fun p => !p.2.free) a).set Fld.correlUseLanes used a

/-- Replaces a channel slot; USEa follows. -/
def State.setChan (s : State) (a k : Nat) (c : Channel) : State :=
  ({ s with correl := { s.correl with chans := Map.put s.correl.chans (384 * a + k) c } } : State).followLanes a

/-- Whether a configuration word is valid (R142). -/
def cfgOk (w : Nat) : Bool :=
  cfgRate w = 3 ||
  (match signalInfo (cfgSignal w) with
    | some g => prnOk g.sys (cfgPrn w)
    | none => false) &&
  decide (1 ≤ bits w 16 5 ∧ bits w 16 5 < bits w 21 5 ∧ 1 ≤ bits w 26 4 ∧ bits w 30 2 = 0)

/-- CHCFG of a valid word (R141, R89, Table 3.11): 1 where lanes are short or the quadrant does not run; else the word is staged, in place of one
still pending, and its lanes are reserved at once; the answer is 2 where one was pending and 0 otherwise (log 103). -/
def State.chcfg (s : State) (a k w : Nat) : Nat × State :=
  let c := s.chan a k
  let present := laneCost (c.next.getD c.live)
  if !s.quadRuns a then (1, s)
  else if 768 - s.lanesUsed a < laneCost w - present then (1, s)
  else (2 * c.next.isSome.toNat, s.setChan a k { c with next := some w, lanes := max c.lanes (laneCost w) })

/-- CHCFG (R141, R142): a GNSS sequencer configures a channel of its own quadrant. -/
def execChcfg (e : Engine) (d a b : Reg) (s : State) : Result :=
  .next (s.onSeq e fun q => s.seqInsn q [d, a, b] (.chcfg (.seq q) d a b) fun s =>
    let k := (s.qr q a).toNat
    let w := (s.qr q b).toNat
    if 4 ≤ q.val then s.engFault (.seq q) 0x0205
    else if 384 ≤ k ∨ !cfgOk w then s.engFault (.seq q) 0x020A
    else
      let (r, s) := s.chcfg q.val k w
      s.seqDone q d (BitVec.ofNat 32 r))

/-- NCOW (R89): both rates are staged; a second NCOW replaces both. -/
def execNcow (e : Engine) (a b c : Reg) (s : State) : Result :=
  .next (s.onSeq e fun q => s.seqInsn q [a, b, c] (.ncow (.seq q) a b c) fun s =>
    let k := (s.qr q a).toNat
    if 4 ≤ q.val then s.engFault (.seq q) 0x0205
    else if 384 ≤ k then s.engFault (.seq q) 0x020A
    else (s.setChan q.val k { s.chan q.val k with nextRates := some ((s.qr q b).toNat, (s.qr q c).toNat) }).adv (.seq q))

/-! ### Dumps (R144, 03 R90, Table 3.13) -/

/-- A dump record's bytes. -/
def dumpBytes (k flags tend count : Nat) (taps : List Word32) : List Byte :=
  leBytes k 2 ++ leBytes flags 2 ++ leBytes tend 4 ++ leBytes count 4 ++ leBytes 0 4 ++
  (List.range 16).flatMap fun i => leBytes (taps.getD i 0).toNat 4

/-- Whether a sequencer's program runs. -/
def Sequencer.active (x : Sequencer) : Bool := x.run = .running || x.run = .waiting

/-- Delivers a dump of channel k: to the dump queue, or, where it is full or the sequencer is halted, discarded and counted.  Answers
whether it was lost. -/
def State.deliverDump (s : State) (a k flags : Nat) (taps : List Word32) : Bool × State :=
  let x := s.seq a
  let c := s.chan a k
  let s := s.setChan a k { c with count := (c.count + 1) % 2 ^ 32 }
  if !x.active then (true, s.setSeq a { x with dumpLost := (x.dumpLost + 1) % 2 ^ 32 })
  else if 512 ≤ x.dumps.length then
    let s := s.setChan a k { s.chan a k with lost := (c.lost + 1) % 2 ^ 32 }
    let s := s.setSeq a { x with dumpLost := (x.dumpLost + 1) % 2 ^ 32, gapDue := insertLine x.gapDue k }
    (true, s.raise 0x1BC1 a)
  else
    let gap := x.gapDue.contains k
    let r := dumpBytes k (gap.toNat + flags) (s.tnow a) (c.count + 1) taps
    (false, s.setSeq a { x with dumps := x.dumps ++ [⟨k, r⟩], gapDue := x.gapDue.filter (· ≠ k) })

/-- The NCO phases of a channel at a root clock: they have gone on since they were noted by its rates (R147). -/
def Channel.at' (c : Channel) (now : Nat) : Channel :=
  match c.rates with
  | some (f, r) =>
    if cfgRate c.live = 3 then { c with phaseAt := now }
    else
      let n := now / 12 - c.phaseAt / 12
      { c with code := (c.code + Config.codeGoes r n) % 2 ^ 64, carr := signed 64 (unsigned 64 (c.carr + Config.carrGoes f n)), phaseAt := now }
  | none => { c with phaseAt := now }

/-- The staged rates and configuration of a channel take effect at an integration start (R89, R143): lanes that a cheaper configuration frees
return, one that changes SIGNAL or PRN, or starts the channel, restarts the replica, and a channel that starts counts its integrations
from 0.  Answers FLAGS [2:1] of the dump. -/
def Channel.start (c : Channel) (now : Nat) : Nat × Channel :=
  let flags := 2 * c.nextRates.isSome.toNat + 4 * c.next.isSome.toNat
  let live := c.next.getD c.live
  let restart := decide (cfgRate c.live = 3 ∨ cfgSignal live ≠ cfgSignal c.live ∨ cfgPrn live ≠ cfgPrn c.live)
  let x := c.at' now
  (flags, { x with
    live := live, next := none, lanes := laneCost live, rates := c.nextRates.or c.rates, nextRates := none, since := now
    code := if restart then 0 else x.code, carr := if restart then 0 else x.carr
    count := if cfgRate c.live = 3 then 0 else c.count })

/-- The stream a channel's SIGNAL is taken from. -/
def chanStream (a w : Nat) : Nat :=
  match signalInfo (cfgSignal w) with
  | some g => 3 * a + g.bg
  | none => 3 * a

/-- A sum as a tap's 32-bit word. -/
def tapWord (v : Int) : Word32 := BitVec.ofInt 32 v

/-- The taps of an integration that ends at a root clock (R145, Table 3.13): VE, E, P, L and VL by their offsets from P in samples, the strobes
before and after each transition, and N. -/
def Channel.taps (c : Channel) (a now : Nat) : List Word32 :=
  let w := c.live
  let del : Int := bits w 16 5
  let dvl : Int := bits w 21 5
  let x : Config.Integration := ⟨chanStream a w, c.since, now, cfgRate w, cfgSignal w, cfgPrn w, c.code, c.carr⟩
  let cor := Config.correlate x
  let str := Config.strobe x (bits w 26 4)
  let all := [cor (-dvl), cor (-del), cor 0, cor del, cor dvl, str false, str true, Config.noiseTap x]
  all.flatMap fun p => [tapWord p.1, tapWord p.2]

/-- DUMP (Table 3.11): the oldest record moves to DMEM. -/
def execDump (e : Engine) (d a : Reg) (s : State) : Result :=
  .next (s.onSeq e fun q => s.seqInsn q [d, a] (.dump (.seq q) d a) fun s =>
    let x := s.seq q.val
    let ad := (s.qr q a).toNat
    if 4 ≤ q.val then s.engFault (.seq q) 0x0205
    else match x.dumps with
      | [] => s.seqDone q d 0xFFFF
      | r :: rest =>
        if 0x8000 < ad + 80 then s.engFault (.seq q) 0x0401
        else (s.setSeq q.val { x with dumps := rest, dmem := memPutAll x.dmem ad r.bytes }).seqDone q d (BitVec.ofNat 32 r.chan))

/-! ### Quadrants (R166) -/

/-- A quadrant whose island is on starts; its first calibration pass is an interval away. -/
def State.quadReady (s : State) (a : Nat) : State :=
  if s.correl.runDue.contains a then
    { s.setMask Fld.correlStateRun a true with correl := { s.correl with
        runDue := s.correl.runDue.filter (· ≠ a), calAt := Map.put s.correl.calAt a s.us } }
  else s

/-- The island of a quadrant. -/
def quadIsland (a : Nat) : Island := .quad (Fin.ofNat 4 a)

/-- RUN of a quadrant (R166): its island is asked for. -/
def State.correlRun (s : State) (a : Nat) : State :=
  if s.quadRuns a then s
  else
    let s : State := { s with correl := { s.correl with runDue := insertLine s.correl.runDue a } }
    if s.islandOn (quadIsland a) then s.quadReady a else s.askIsland (quadIsland a)

/-- CORREL_RUN (R166). -/
def execCorrelRun (a : Fin 4) (s : State) : Result := .next (s.correlRun a.val)

/-- STOP of a quadrant (R166): every channel is free at once. -/
def State.correlStop (s : State) (a : Nat) : State :=
  let drop := fun {α : Type} (m : Map α) => m.filter fun p => p.1 / 384 ≠ a
  let c := { s.correl with
    chans := drop s.correl.chans, tracks := drop s.correl.tracks, runDue := s.correl.runDue.filter (· ≠ a)
    passes := s.correl.passes.filter fun p => p.quad ≠ a }
  (({ s with correl := c }.setMask Fld.correlStateRun a false).set Fld.correlUseSlots 0 a).set Fld.correlUseLanes 0 a

/-- CORREL_STOP (R166). -/
def execCorrelStop (a : Fin 4) (s : State) : Result := .next (s.correlStop a.val)

/-- Whether CORREL's staged set passes (R166): LATCHBASE lies in the Granary and changes only while all quadrants are stopped; INTERVAL_S
is at least 10. -/
def correlApplyOk (s : State) : Bool :=
  (!s.changed Blk.correl .gLayout none ||
    (s.get Fld.correlStateRun = 0 && inGranary (s.getStaged Fld.correlLatchbaseAddr * 256) 0x6400)) &&
  (!s.changed Blk.correl .gCal none || decide (10 ≤ s.getStaged Fld.correlCalIntervalS))

/-! ### Calibration (R146) -/

/-- A pass starts in a running quadrant while CAL.EN is 1, and none runs there: it pauses from the start while fewer than 16 lanes are free
(R146). -/
def State.calStart (s : State) (a : Nat) : State :=
  if s.quadRuns a ∧ s.getB Fld.correlCalEn ∧ !(s.correl.passes.any fun p => p.quad = a) then
    let p := ({ quad := a } : CalPass).follow (768 - s.lanesUsed a) s.us
    { s with correl := { s.correl with passes := s.correl.passes ++ [p], calAt := Map.put s.correl.calAt a s.us } }
  else s

/-- CAL_PASS_START (R146): every INTERVAL_S seconds. -/
def execCalPassStart (a : Fin 4) (s : State) : Result :=
  let due := Map.getD s.correl.calAt a.val 0 + 1000000 * s.get Fld.correlCalIntervalS
  match s.reach (6000 * due) with
  | some s => .next (s.calStart a.val)
  | none => .next s

/-- A 1 to CALNOW starts a pass in each running quadrant (R146). -/
def State.calNow (s : State) : State := (List.range 4).foldl (fun s a => s.calStart a) s

/-- CALNOW (R146). -/
def execCalnow (s : State) : Result := .next s.calNow

/-- CAL_PASS_DONE (R146): a pass that does not pause is complete; CALDLYa and CALSTATa update together. -/
def execCalPassDone (a : Fin 4) (d0 d1 : BitVec 16) (spread : BitVec 8) (s : State) : Result :=
  if s.correl.passes.any fun p => p.quad = a.val && p.paused.isNone then
    let s := (s.set Fld.correlCaldlyD0Ps d0.toNat a.val).set Fld.correlCaldlyD1Ps d1.toNat a.val
    let s := (s.set Fld.correlCalstatAgeS 0 a.val).set Fld.correlCalstatSpreadPs spread.toNat a.val
    let c := { s.correl with passes := s.correl.passes.filter (fun p => p.quad ≠ a.val), stale := s.correl.stale.filter (· ≠ a.val) }
    .next { s with correl := c }
  else .next s

/-- CAL_PASS_DISCARD (R146): a pass paused for more than 1 s. -/
def execCalPassDiscard (a : Fin 4) (s : State) : Result :=
  let long := fun (p : CalPass) => p.quad = a.val && (match p.paused with
    | some t => decide (t + 1000000 < s.us)
    | none => false)
  .next { s with correl := { s.correl with passes := s.correl.passes.filter fun p => !long p } }

/-- Whether a quadrant's calibration is stale: AGE_S exceeds 10 × INTERVAL_S. -/
def State.calStale (s : State) (a : Nat) : Bool := decide (10 * s.get Fld.correlCalIntervalS < s.get Fld.correlCalstatAgeS a)

/-- CAL_STALE (R146), raised once. -/
def execCalStale (a : Fin 4) (s : State) : Result :=
  if s.quadRuns a.val ∧ s.calStale a.val ∧ !s.correl.stale.contains a.val then
    .next { s.raise 0x1A81 a.val with correl := { s.correl with stale := insertLine s.correl.stale a.val } }
  else .next s

/-- A second passes: AGE_S counts, all ones meaning that no pass was made. -/
def State.calSecond (s : State) : State :=
  (List.range 4).foldl (fun s a =>
    let g := s.get Fld.correlCalstatAgeS a
    if g < 0xFFFFFE then s.set Fld.correlCalstatAgeS (g + 1) a else s) s

/-! ### The epoch latch (R147, Table 6.4) -/

/-- A latch entry (Table 6.4): the NCO phases of a channel at a root clock; 0 as the carrier phase of a free one. -/
def State.latchEntry (s : State) (addr : Nat) (c : Channel) (at' : Nat) : State :=
  let x := c.at' at'
  s.store addr (leBytes x.code 8 ++ leBytes (if c.free then 0 else unsigned 64 x.carr) 8)

/-- The latch of an epoch (R147): at the first GNSS clock at or after the boundary of site time, 0 to 1,999 ps after it; the latch tables of all
running quadrants are written. -/
def State.epochLatch (s : State) : State :=
  let after := s.site.ps - s.cyclePs
  let at' := s.roots - after / 2000 * 12
  let s : State := { s with correl := { s.correl with latchPs := after % 2000, latchAt := at' } }
  (List.range 4).foldl (fun s a =>
    if s.quadRuns a then
      let base := s.get Fld.correlLatchbaseAddr * 256 + 0x1900 * a
      (List.range 384).foldl (fun s k => s.latchEntry (base + 16 * k) (s.chan a k) at') s
    else s) s

/-! ### GNSS sequencers (R167) -/

/-- START of a GNSS sequencer (R167, 03 R92): an image that was loaded and has not run starts at its entry, with registers and core words at
their values after start and BOOTARGa in DMEM bytes 0 to 3, and the tracking image holds nothing yet; one that has halted starts only after
a reload (03 R87). -/
def State.gseqStart (s : State) (a : Nat) : State :=
  let x := s.seq a
  match x.image with
  | none => s.raise 0x1B02 a
  | some e =>
    if x.run ≠ .inReset then s
    else
      let d := memPutAll x.dmem 0 (leBytes (s.get Fld.gseqBootargAddr a) 4)
      let y : Sequencer := { imem := x.imem, dmem := d, image := x.image, pc := e, run := .running, tags := x.tags }
      let s : State := { s with correl := { s.correl with
        images := Map.del s.correl.images a, tracks := s.correl.tracks.filter fun p => p.1 / 384 ≠ a } }
      (s.setSeq a y).set Fld.gseqStateSeq 2 a

/-- GSEQ_START (R167). -/
def execGseqStart (a : Fin 4) (s : State) : Result := .next (s.gseqStart a.val)

/-- HALT of a GNSS sequencer (R167): a fault halt with code 0. -/
def State.gseqHalt (s : State) (a : Nat) : State := if (s.seq a).active then s.seqHalt a 0 else s

/-- GSEQ_HALT (R167). -/
def execGseqHalt (a : Fin 4) (s : State) : Result := .next (s.gseqHalt a.val)

/-- Whether GSEQ's staged set passes (R167): no BOOTARGa of a running sequencer changes. -/
def gseqApplyOk (s : State) : Bool :=
  (List.range 4).all fun a => !(s.seq a).active || s.getStaged Fld.gseqBootargAddr a = s.get Fld.gseqBootargAddr a

end Sys2Proof.Machine
end

