-- ==== Sys2Proof/Machine/Track.lean ====
section
/-! DEFINITION. The GNSS tracking image (spec/06_gnss_tracking.md R148-R157): control blocks, commands, channel states, measurement
blocks. -/

namespace Sys2Proof.Machine

/-- Whether the image of an antenna tracks: its sequencer runs and a control block has passed (R149). -/
def State.tracks (s : State) (a : Nat) : Bool := (s.seq a).active && (s.image a).tcb ≠ []

/-! ### Control blocks (Table 6.5, R149, R153) -/

/-- Where a sequencer's control block lies: DMEM bytes 0 to 3, address bits [39:8]. -/
def State.tcbAddr (s : State) (a : Nat) : Nat := leNat (readBytes (s.seq a).dmem 0 4) * 256

/-- Whether a loop profile passes (Table 6.8, R153). -/
def profileOk (p : List Byte) : Bool :=
  let f := descAt p
  decide (f 0 1 = 1 ∨ f 0 1 = 2 ∨ f 0 1 = 4 ∨ f 0 1 = 5 ∨ f 0 1 = 10 ∨ f 0 1 = 20) && decide (f 1 1 = 2 ∨ f 1 1 = 3) &&
  decide (10 ≤ f 2 2 ∧ f 2 2 ≤ 300) && decide (10 ≤ f 4 2 ∧ f 4 2 ≤ 200) && decide (5 ≤ f 6 2 ∧ f 6 2 ≤ 200) &&
  decide (20 ≤ f 8 2 ∧ f 8 2 ≤ 2000) && decide (f 10 2 ≤ 5000) && decide (512 ≤ f 12 2 ∧ f 12 2 ≤ 1023) &&
  decide (240 ≤ f 14 2 ∧ f 14 2 ≤ 640) && decide (16 ≤ f 16 2 ∧ f 16 2 ≤ 128) && decide (1 ≤ f 18 2 ∧ f 18 2 ≤ 4095) &&
  decide (f 20 1 < 4) && f 21 8 = 0 && f 29 3 = 0 && decide (f 2 2 * f 0 1 ≤ 3000) && decide (f 4 2 * f 0 1 ≤ 2000)

/-- Whether a control block of antenna a passes (R149): MAGIC, CHECK, ANT, the ring fields and every profile. -/
def tcbOk (a : Nat) (b : List Byte) : Bool :=
  let f := descAt b
  let pow := fun (n lo hi : Nat) => decide (lo ≤ n ∧ n ≤ hi ∧ 2 ^ Nat.log2 n = n)
  f 0 4 = 0x42435447 && f 8 4 = crc32c ((b.drop 12).take 564) && f 12 1 = a && pow (f 20 4) 4 256 && pow (f 28 4) 16 1024 &&
  (List.range 16).all fun p => profileOk ((b.drop (64 + 32 * p)).take 32)

/-- A field of `n` bytes at offset `k` of the live control block. -/
def State.tcbAt (s : State) (a k n : Nat) : Nat := descAt (s.image a).tcb k n

/-- A field of a live loop profile. -/
def State.profileAt (s : State) (a p k n : Nat) : Nat := s.tcbAt a (64 + 32 * p + k) n

/-- An event of the image on a queue: a 16-byte item; a queue that is not attached to the sequencer halts it (03 R88). -/
def State.trackPost (s : State) (a q code chan value : Nat) : State :=
  if 47 < q then s.seqHalt a (seqCode (Fin.ofNat 8 a) 0x44)
  else if !s.qWriter (.seq (Fin.ofNat 8 a)) q then s.seqHalt a (seqCode (Fin.ofNat 8 a) 0x45)
  else (s.qPush q (leBytes code 2 ++ leBytes chan 2 ++ leBytes s.cycle 4 ++ leBytes value 8)).2

/-- An event of the image on EVQ of the live control block. -/
def State.trackEvent (s : State) (a code chan value : Nat) : State := s.trackPost a (s.tcbAt a 13 1) code chan value

/-- The boundary check of the control block (R149): a changed VERSION is read whole, and is live when it passes; TCB_REJECTED goes to EVQ of the
live block and, while there is none, to the one the failing block names, if that queue is attached (log 130). -/
def State.tcbCheck (s : State) (a : Nat) : State :=
  if !(s.seq a).active then s
  else
    let s := s.touch (s.tcbAddr a) 576
    let x := s.image a
    let b := s.rd (s.tcbAddr a) 576
    if x.tcb ≠ [] ∧ descAt b 4 4 = descAt x.tcb 4 4 then s
    else if tcbOk a b then s.setImage a { x with tcb := b, changed := true }
    else
      let (v, s) := s.draw
      if x.tcb ≠ [] then s.trackEvent a 0x1B11 0xFFFF v
      else
        let q := descAt b 13 1
        if q ≤ 47 && s.qWriter (.seq (Fin.ofNat 8 a)) q then s.trackPost a q 0x1B11 0xFFFF v else s

/-! ### Commands (Table 6.6, R150) -/

/-- The settings of Table 6.3 for a signal and PRN, as a configuration word. -/
def defaultCfg (sig prn : Nat) : Nat :=
  let w := fun (rate del dvl mw : Nat) => sig % 256 + prn % 64 * 2 ^ 8 + rate * 2 ^ 14 + del * 2 ^ 16 + dvl * 2 ^ 21 + mw * 2 ^ 26
  match sig with
  | 0x01 | 0x04 => w 1 3 6 2
  | 0x02 | 0x03 | 0x05 | 0x06 | 0x07 | 0x09 | 0x0A => w 1 2 4 2
  | 0x08 => w 1 3 6 2
  | 0x0B | 0x15 => w 0 3 6 2
  | 0x10 | 0x11 => w 0 2 4 1
  | 0x12 | 0x13 => w 2 2 4 1
  | _ => w 2 1 3 1

/-- Frees a channel: RATE 3 is staged (R143). -/
def State.trackFree (s : State) (a k : Nat) : State :=
  let c := s.chan a k
  let s := if cfgRate c.live = 3 then s.setChan a k { c with next := none } else s.setChan a k { c with next := some 0xC000 }
  s.setTrack a k {}

/-- A 10-byte time in nanoseconds. -/
def time10 (b : List Byte) : Nat := descAt b 4 6 * 1000000000 + descAt b 0 4

/-- The reason a command cannot be carried out, in the order of R150's table; a TCAP with a nanosecond count above 999,999,999 is rejected too
(00 R17; log 130). -/
def State.cmdReason (s : State) (a : Nat) (b : List Byte) : Option Nat :=
  let op := descAt b 0 1
  let k := descAt b 2 2
  let h := b.drop 16
  let (sig, prn) := if op = 1 then (descAt h 4 1, descAt h 5 1) else (descAt h 0 1, descAt h 1 1)
  let w := if descAt b 4 4 = 0 then defaultCfg sig prn else descAt b 4 4
  let src := descAt b 8 2
  let sys : Nat → Option Nat := fun c => (signalInfo c).map (·.sys)
  let live := (s.chan a src).live
  if op < 1 ∨ 3 < op ∨ 15 < descAt b 1 1 ∨ 384 ≤ k then some 1
  else if op = 3 then none
  else if !(s.chan a k).free ∨ (s.track a k).state ≠ 0 then some 2
  else if 768 - s.lanesUsed a < laneCost w ∨ !s.quadRuns a then some 3
  else if op = 1 ∧ (999999999 < descAt h 6 4 ∨ 500000000 + time10 (h.drop 6) < s.site.total) then some 4
  else if !cfgOk w ∨ cfgRate w = 3 then some 5
  else if op = 2 ∧ (384 ≤ src ∨ (s.track a src).state ≠ 3 ∨ cfgPrn live ≠ cfgPrn w ∨ sys (cfgSignal live) ≠ sys (cfgSignal w)) then some 6
  else none

/-- The carrier of a signal and its half-width in Hz (Table 5.4). -/
def signalCarrier (sig prn : Nat) : Int × Int :=
  match sig with
  | 0x01 | 0x04 => (1575420000, 1023000)
  | 0x08 => (1561098000, 2046000)
  | 0x0B => (1602000000 + 562500 * ((prn : Int) - 8), 511000)
  | 0x10 | 0x11 => (1227600000, 1023000)
  | 0x12 | 0x13 => (1278750000, 5115000)
  | 0x14 => (1268520000, 10230000)
  | 0x15 => (1246000000 + 437500 * ((prn : Int) - 8), 511000)
  | 0x26 | 0x27 | 0x2A => (1207140000, 10230000)
  | 0x20 | 0x21 | 0x22 | 0x23 | 0x24 | 0x25 | 0x28 | 0x29 => (1176450000, 10230000)
  | _ => (1575420000, 2046000)

/-- A code phase in 2^-24 chip as time in 2^-32 ms. -/
def codeTime (chips code : Nat) : Nat := code * 256 / max 1 chips

/-- The chips per ms of a SIGNAL. -/
def chipsOf (sig : Nat) : Nat :=
  match signalInfo sig with
  | some g => g.chips
  | none => 1023

/-- The code phase of a START's signal now, in 1/64 chip: from its first code start after TCAP, at the chip rate its Doppler gives (R150). -/
def startAlign (sig prn : Nat) (tcap now code : Nat) (doppler : Int) : Int :=
  let c := (signalCarrier sig prn).1
  qround 32 (((now : Int) - tcap) * chipsOf sig * 64 * (16 * c + doppler)) (16000000 * c) - code

/-- The Doppler in 1/16 Hz of a source channel, scaled to a new carrier (R150). -/
def State.assistDoppler (s : State) (a src sig prn : Nat) : Int :=
  let c := s.chan a src
  let w := c.live
  let d := Config.dopplerOf (cfgSignal w) (cfgPrn w) ((c.rates.map (·.1)).getD 0)
  qround 33 (d * (signalCarrier sig prn).1) (16 * (signalCarrier (cfgSignal w) (cfgPrn w)).1)

/-- The code phase of a source channel in chips of another signal, in 1/64 chip (R150). -/
def State.assistAlign (s : State) (a src sig : Nat) : Int :=
  let c := (s.chan a src).at' s.roots
  qround 34 (codeTime (chipsOf (cfgSignal c.live)) c.code * chipsOf sig * 64) (2 ^ 32)

/-- START or ASSIST is carried out (R150): the configuration and the rates its Doppler asks for are staged, and the channel is in PULLIN. -/
def State.trackBegin (s : State) (a k : Nat) (b : List Byte) : State :=
  let h := b.drop 16
  let start := decide (descAt b 0 1 = 1)
  let sig := if start then descAt h 4 1 else descAt h 0 1
  let prn := if start then descAt h 5 1 else descAt h 1 1
  let src := descAt b 8 2
  let w := if descAt b 4 4 = 0 then defaultCfg sig prn else descAt b 4 4
  let d := if start then signed 32 (descAt h 20 4) else s.assistDoppler a src sig prn
  let align := if start then startAlign sig prn (time10 (h.drop 6)) s.site.total (descAt h 16 4) d else s.assistAlign a src sig
  let s := (s.chcfg a k w).2
  let s := s.setChan a k { s.chan a k with nextRates := some (Config.rateWords sig prn d) }
  s.setTrack a k { state := 1, since := s.roots, profile := descAt b 1 1, align := align }

/-- The image takes the command at GET, when it is one of the given row: 1 START, 2 ASSIST, 3 STOP; a command that cannot be carried out is
skipped with CMD_INVALID. -/
def State.trackCmd (s : State) (a op : Nat) : State :=
  let ring := s.tcbAt a 24 4 * 256
  let get := s.readLE (ring + 4) 4
  if !s.tracks a ∨ s.readLE ring 4 = get then s
  else
    let at' := ring + 64 + 48 * (get % s.tcbAt a 28 4)
    let b := s.rd at' 48
    let is := descAt b 0 1
    if is ≠ op ∧ 1 ≤ is ∧ is ≤ 3 then s
    else
      let k := descAt b 2 2
      let why := s.cmdReason a b
      let s := ((s.touch ring 8).touch at' 48).store (ring + 4) (leBytes ((get + 1) % 2 ^ 32) 4)
      match why with
      | some r => s.trackEvent a 0x1B10 k r
      | none => if is = 3 then s.trackFree a k else s.trackBegin a k b

/-- TRACK_START (R150). -/
def execTrackStart (a : Fin 4) (s : State) : Result := .next (s.trackCmd a.val 1)
/-- TRACK_ASSIST (R150). -/
def execTrackAssist (a : Fin 4) (s : State) : Result := .next (s.trackCmd a.val 2)
/-- TRACK_STOP (R150). -/
def execTrackStop (a : Fin 4) (s : State) : Result := .next (s.trackCmd a.val 3)

/-! ### Channel states (Table 6.7, R154) -/

/-- A cycle slip (R154). -/
def TrackChan.slipNow (x : TrackChan) : TrackChan := { x with slips := (x.slips + 1) % 65536, lockms := 0, slip := true }

/-- A move of a channel to a state: leaving PLL is a slip; entering it begins a lock, whose CARRIER starts at an open value, and resolves the half
cycle of a pilot (R154, R156). -/
def State.trackMove (s : State) (a k st : Nat) : State :=
  let x := s.track a k
  let pilot := bitOf (s.profileAt a x.profile 20 1) 1
  let x := if x.state = 3 ∧ st ≠ 3 then { x.slipNow with half := false } else x
  let (v, s) := if st = 3 then s.draw else (0, s)
  s.setTrack a k { x with
    state := st, since := s.roots, half := x.half || (st = 3 && pilot), carr0 := if st = 3 then signed 64 v else x.carr0 }

/-- A channel is lost: LOCK_LOST, and it is free (R151). -/
def State.trackLost (s : State) (a k : Nat) : State :=
  let (v, s) := s.draw
  (s.trackFree a k).trackEvent a 0x1B90 k v

/-- A move from one of the given states. -/
def State.trackFrom (s : State) (a k : Nat) (from' : List Nat) (f : State → State) : State :=
  if s.tracks a && from'.contains (s.track a k).state then f s else s

/-- A move from a state after some ms in it. -/
def State.trackAfter (s : State) (a k st ms : Nat) (f : State → State) : State :=
  if s.tracks a ∧ (s.track a k).state = st then
    match s.reach ((s.track a k).since + 6000000 * ms) with
    | some s => f s
    | none => s
  else s

/-- CHANNEL_PLL_LOCK (R151): lock at or above LOCK_THR for 20 ms. -/
def execChannelPllLock (a : Fin 4) (slot : Fin 384) (s : State) : Result :=
  .next (s.trackFrom a.val slot.val [1, 2] fun s => s.trackMove a.val slot.val 3)
/-- PULLIN_EXPIRED (R151): PULLIN_MS elapsed in PULLIN, with C/N0 at or above LOSS_CN0 or not. -/
def execPullinExpired (a : Fin 4) (slot : Fin 384) (strong : Bool) (s : State) : Result :=
  let ms := s.profileAt a.val (s.track a.val slot.val).profile 8 2
  .next (s.trackAfter a.val slot.val 1 ms fun s => if strong then s.trackMove a.val slot.val 2 else s.trackLost a.val slot.val)
/-- CHANNEL_LOSS (R151): C/N0 below LOSS_CN0 for 100 ms in FLL. -/
def execChannelLoss (a : Fin 4) (slot : Fin 384) (s : State) : Result :=
  .next (s.trackFrom a.val slot.val [2] fun s => s.trackLost a.val slot.val)
/-- PLL_TO_COAST (R151). -/
def execPllToCoast (a : Fin 4) (slot : Fin 384) (s : State) : Result :=
  .next (s.trackFrom a.val slot.val [3] fun s => s.trackMove a.val slot.val 4)
/-- PLL_TO_FLL (R151). -/
def execPllToFll (a : Fin 4) (slot : Fin 384) (s : State) : Result :=
  .next (s.trackFrom a.val slot.val [3] fun s => s.trackMove a.val slot.val 2)
/-- COAST_TO_PULLIN (R151). -/
def execCoastToPullin (a : Fin 4) (slot : Fin 384) (s : State) : Result :=
  .next (s.trackFrom a.val slot.val [4] fun s => s.trackMove a.val slot.val 1)
/-- COAST_EXPIRED (R151): COAST_MS elapsed in COAST. -/
def execCoastExpired (a : Fin 4) (slot : Fin 384) (s : State) : Result :=
  let ms := s.profileAt a.val (s.track a.val slot.val).profile 10 2
  .next (s.trackAfter a.val slot.val 4 ms fun s => s.trackLost a.val slot.val)

/-! ### Dumps (R144, R154) -/

/-- Whether an engaged notch of stream k lies in the main lobe of a signal. -/
def State.signalNotched (s : State) (k sig prn : Nat) : Bool :=
  let c := signalCarrier sig prn
  (List.range 8).any fun j => match s.notch k j with
    | some n =>
      let d := (s.get Fld.gnssinLoLoHz k : Int) + n.hz - c.1
      decide (-c.2 ≤ d ∧ d ≤ c.2)
    | none => false

/-- How far a prompt's phase stands from what was predicted, in 2^-32 cycle: by the whole angle on a pilot, modulo half a cycle on data
(Loops and channel states; R154). -/
def phaseResidual (pilot : Bool) (i q : Int) : Nat :=
  let flip := !pilot && decide (i < 0)
  let x := if flip then -i else i
  let y := if flip then -q else q
  if x = 0 ∧ y = 0 then 0 else (signed 32 (Config.phaseCode x y)).natAbs

/-- The data bit, or secondary code, of a SIGNAL in ms: 20 on GPS L1 C/A (R156). -/
def bitLength (sig : Nat) : Nat := if sig = 1 then 20 else max 1 (Config.bitMs sig)

/-- The ms between boundaries at which a coherent sum may start (R152): data bits, or on a pilot the chips of its secondary code. -/
def syncLength (sig : Nat) (pilot : Bool) : Nat :=
  if pilot then (match signalInfo sig with
    | some g => g.period
    | none => 1)
  else bitLength sig

/-- A dump joins a channel's coherent sum (R152): a sum of TCOH ms starts only at a boundary, and only with sync; on data it ends at the next;
every other dump is a sum of its own.  Answers the sum, where the dump completes it. -/
def TrackChan.integrate (x : TrackChan) (tcoh per : Nat) (pilot : Bool) (taps : List Int) : Option (List Int) × TrackChan :=
  let pos := if x.sync = 0 then 0 else (x.bitPos + 1) % per
  let x' := { x with bitPos := pos }
  let joins := decide (0 < x.sumMs) || (decide (0 < x.sync ∧ 1 < tcoh) && x.bitPos = 0)
  if !joins then (some taps, { x' with sum := [], sumMs := 0 })
  else
    let sum := if x.sumMs = 0 then taps else (x.sum.zip taps).map fun p => p.1 + p.2
    if tcoh ≤ x.sumMs + 1 ∨ (!pilot ∧ pos = 0) then (some sum, { x' with sum := [], sumMs := 0 })
    else (none, { x' with sum := sum, sumMs := x.sumMs + 1 })

/-- What a dump's data tells of the transmit time (R152, R156): at a bit or secondary code boundary it is a whole number of those; with the time of
week it is known in full.  `code` is the code phase at the dump's end. -/
def TrackChan.sync' (x : TrackChan) (chips code : Nat) : SyncFound → TrackChan
  | .none => x
  | .boundary => if x.sync = 0 then { x with sync := 1, bitPos := 0, sum := [], sumMs := 0, tx0 := -(codeTime chips code : Int) } else x
  | .week ms => { x with sync := 2, tx0 := (ms * 2 ^ 32 : Nat) - (codeTime chips code : Int), bitPos := if x.sync = 0 then 0 else x.bitPos }

/-- The rates after a coherent sum: what the loops ask for, in PULLIN and FLL the FLL and in PLL the PLL; in COAST the last rates go on changing
as they did last (Table 6.7). -/
def TrackChan.steer (x : TrackChan) (profile : List Byte) (rates : Nat × Nat) (sum : List Int) : (Nat × Nat) × TrackChan :=
  if x.state = 4 then
    ((unsigned 32 (rates.1 + x.change.1), unsigned 32 (rates.2 + x.change.2)), x)
  else
    let r := Config.loopStep (x.state = 3) profile sum rates x.mem
    let n : Nat × Nat := (r.1.1 % 2 ^ 32, r.1.2 % 2 ^ 32)
    (n, { x with mem := r.2, change := ((n.1 : Int) - rates.1, (n.2 : Int) - rates.2) })

/-- A preamble verified in a dump of a data signal in lock (R154): the half cycle is resolved, and 0.5 cycle is added to CARRIER where the loop has
locked inverted. -/
def TrackChan.preamble (x : TrackChan) (pilot : Bool) : Option Bool → TrackChan
  | some inv =>
    if pilot ∨ x.half then x
    else { x with half := true, halfAdded := inv, carr0 := if inv then x.carr0 + 2 ^ 15 else x.carr0 }
  | none => x

/-- The image takes a dump of a tracked channel: lock time, slips, what its next record says, its coherent sum, and the rates for the next
integration. -/
def State.trackDump (s : State) (a k live : Nat) (lost rateChange : Bool) (taps : List Word32) (preamble : Option Bool) (sync : SyncFound) :
    State :=
  let x := s.track a k
  if x.state = 0 ∨ !s.tracks a then s
  else
    let sig := cfgSignal live
    let st := chanStream a live
    let pilot := bitOf (s.profileAt a x.profile 20 1) 1
    let run := if lost then x.lostRun + 1 else 0
    let x := { x with
      lostRun := run, gap := x.gap || lost, lockms := if x.state = 3 then min 0xFFFFFFFF (x.lockms + 1) else 0
      overlap := x.overlap || s.signalNotched st sig (cfgPrn live), blank := x.blank || decide (16 < s.get Fld.gnssinPbstatDuty st) }
    let prompt : Int × Int := ((taps.getD 4 0).toInt, (taps.getD 5 0).toInt)
    let off := !lost && decide (s.profileAt a x.profile 16 2 * 2 ^ 24 < phaseResidual pilot prompt.1 prompt.2)
    let x := if (x.state = 3 && off) || decide (run = 3) || rateChange then x.slipNow else x
    if lost then
      let s := s.setTrack a k { x with sum := [], sumMs := 0, bitPos := if x.sync = 0 then 0 else (x.bitPos + 1) % syncLength sig pilot }
      s.setImage a { s.image a with gap := true }
    else
      let (sum, x) := x.integrate (s.profileAt a x.profile 0 1) (syncLength sig pilot) pilot (taps.map (·.toInt))
      let x := (x.preamble pilot preamble).sync' (chipsOf sig) (s.chan a k).code sync
      match sum with
      | none => s.setTrack a k x
      | some sum =>
        let c := s.chan a k
        let p := ((s.image a).tcb.drop (64 + 32 * x.profile)).take 32
        let (r, x) := x.steer p (c.rates.getD (0, 0)) sum
        (s.setChan a k { c with nextRates := some r }).setTrack a k x

/-- An integration of a channel ends (R143, R144): a channel that runs delivers its taps; staged rates and configuration take effect. -/
def State.chanDump (s : State) (a k : Nat) (preamble : Option Bool) (sync : SyncFound) : State :=
  let c := s.chan a k
  if !s.quadRuns a then s
  else
    let (flags, c') := c.start s.roots
    let taps := c.taps a s.roots
    let s := s.setChan a k c'
    if cfgRate c.live = 3 then s
    else
      let (lost, s) := s.deliverDump a k flags taps
      s.trackDump a k c.live lost (cfgRate c'.live ≠ cfgRate c.live) taps preamble sync

/-- CHANNEL_DUMP (R143, R144).  The operands are a preamble verified now, with whether the loop has locked inverted, and the sync found in the
dump's data. -/
def execChannelDump (a : Fin 4) (slot : Fin 384) (preamble : Option Bool) (sync : SyncFound) (s : State) : Result :=
  .next (s.chanDump a.val slot.val preamble sync)

/-! ### Measurement blocks (R155-R157, Tables 6.10 to 6.12) -/

/-- Whether a channel has a record: FLL, PLL or COAST. -/
def TrackChan.recorded (x : TrackChan) : Bool := decide (2 ≤ x.state ∧ x.state ≤ 4)

/-- The decimator delay of a RATE in ps, with what calibration found beyond it (Table 6.1, R146). -/
def State.decimPs (s : State) (a rate : Nat) : Int :=
  if rate = 0 then 224000 + signed 16 (s.get Fld.correlCaldlyD0Ps a)
  else if rate = 1 then 96000 + signed 16 (s.get Fld.correlCaldlyD1Ps a)
  else 0

/-- AMB_MS (R156): the primary code until sync, the bit or secondary code until the time of week is decoded, then 0. -/
def TrackChan.ambMs (x : TrackChan) (sig : Nat) : Nat :=
  if x.sync = 0 then (match signalInfo sig with
    | some g => g.period
    | none => 1)
  else if x.sync = 1 then bitLength sig
  else 0

/-- The ms after which a SIGNAL's transmit time starts over: a week, on GLONASS a day (Table 6.11). -/
def weekMs (sig : Nat) : Nat :=
  match signalInfo sig with
  | some g => if g.sys = 3 then 86400000 else 604800000
  | none => 604800000

/-- TXTIME of a channel at the latch (R156): the transmit time of the prompt replica, referred to the antenna element at the epoch by the decimator
delay, CALDLYa, ANTDELAY and LATCH_PS. -/
def State.txTime (s : State) (a k : Nat) : Nat :=
  let x := s.track a k
  let c := (s.chan a k).at' s.correl.latchAt
  let sig := cfgSignal c.live
  let ant := signed 32 (s.tcbAt a (32 + 4 * (chanStream a c.live % 3)) 4)
  let ps := ant + s.decimPs a (cfgRate c.live) - s.correl.latchPs
  let t := x.tx0 + codeTime (chipsOf sig) c.code + qround 28 (ps * 2 ^ 32) 1000000000
  let m := if x.sync = 2 then weekMs sig else x.ambMs sig
  (t % ((m * 2 ^ 32 : Nat) : Int)).toNat

/-- CARRIER of a channel at the latch (R154, R156): it rises as the carrier NCO's phase falls, continuous over a lock. -/
def State.carrierPhase (s : State) (a k : Nat) : Int :=
  (s.track a k).carr0 - qround 29 ((s.chan a k).at' s.correl.latchAt).carr 256

/-- A channel record (Table 6.11); C/N0, the noise figures and the strobe discriminator are what the image measured, and open. -/
def State.channelRecord (s : State) (a k : Nat) : List Byte × State :=
  let x := s.track a k
  let c := s.chan a k
  let w := c.live
  let (meas, s) := s.drawBytes 8
  let mp := signed 16 (descAt meas 6 2)
  let thr := s.profileAt a x.profile 18 2
  let st := x.state
  let flags := (decide (st = 2 ∨ st = 3)).toNat + 2 * (decide (st = 3)).toNat + 4 * x.half.toNat + 8 * x.slip.toNat +
    16 * x.overlap.toNat + 32 * x.blank.toNat + 64 * x.gap.toNat + 128 * (decide (st = 4)).toNat + 256 * (decide (thr ≤ mp.natAbs)).toNat +
    512 * (s.calStale a).toNat + 1024 * x.halfAdded.toNat
  let dop := Config.dopplerOf (cfgSignal w) (cfgPrn w) ((c.rates.map (·.1)).getD 0)
  let r := leBytes k 2 ++ leBytes (cfgSignal w) 1 ++ leBytes (cfgPrn w) 1 ++ leBytes flags 2 ++ meas.take 2 ++
    leBytes (s.txTime a k) 8 ++ leBytes (unsigned 64 (s.carrierPhase a k)) 8 ++ leBytes (unsigned 32 dop) 4 ++ leBytes x.lockms 4 ++
    leBytes (x.ambMs (cfgSignal w)) 2 ++ leBytes x.slips 2 ++ (meas.drop 2).take 4 ++ (meas.drop 6).take 2 ++ leBytes x.profile 1 ++
    leBytes st 1 ++ leBytes 0 4
  (r, s.setTrack a k { x with slip := false, overlap := false, blank := false, gap := false, halfAdded := false })

/-- The boundary of the present cycle as site time (Table 6.10). -/
def State.epochTime (s : State) : SiteTime := { sec := s.cyclePs / 1000000000000, ns := s.cyclePs / 1000 % 1000000000 }

/-- A block header (Table 6.10). -/
def State.measHeader (s : State) (a count : Nat) (late stepped : Bool) : List Byte × State :=
  let x := s.image a
  let flags := x.gap.toNat + 2 * x.changed.toNat + 4 * (s.calStale a).toNat + 8 * (decide (s.clock.state = 2)).toNat + 16 * stepped.toNat +
    32 * (decide (s.antState a ≠ 3) || x.slipped).toNat + 64 * late.toNat
  let h := leBytes 0x41454D47 4 ++ leBytes s.cycle 4 ++ s.epochTime.bytes10 ++ leBytes s.correl.latchPs 2 ++ leBytes a 1 ++ leBytes flags 1 ++
    leBytes count 2 ++ leBytes x.seq 4 ++ leBytes (s.get Fld.correlCalstatAgeS a) 4 ++ leBytes (s.jamLevel a) 1 ++ leBytes 0 31
  (h, s.setImage a { x with seq := (x.seq + 1) % 2 ^ 32, changed := false, slipped := false, gap := false, late := none })

/-- Where the next block of an antenna goes. -/
def State.measAddr (s : State) (a : Nat) : Nat := s.tcbAt a 16 4 * 256 + 18496 * ((s.image a).seq % max 1 (s.tcbAt a 20 4))

/-- Writes the block of the epoch: the records, then the header (R155). -/
def State.measBlock (s : State) (a : Nat) (stepped : Bool) : State :=
  let addr := s.measAddr a
  let ks := (List.range 384).filter fun k => (s.track a k).recorded
  let s := (ks.zip (List.range ks.length)).foldl (fun s p =>
    let (r, s) := s.channelRecord a p.1
    s.store (addr + 64 + 48 * p.2) r) s
  let (h, s) := s.measHeader a ks.length false stepped
  s.store addr h

/-- The image at a fleet-cycle boundary (R149, R155): the control block, then the epoch's block; one that will be late leaves its place and the
header that will stand alone. -/
def State.trackBoundary (s : State) (late : BitVec 4) (stepped : Bool) : State :=
  (List.range 4).foldl (fun s a =>
    let s := s.tcbCheck a
    if !s.tracks a then s
    else if bitOf late.toNat a then
      let addr := s.measAddr a
      let (h, s) := s.measHeader a 0 true stepped
      s.setImage a { s.image a with late := some (addr, h) }
    else s.measBlock a stepped) s

/-- MEAS_LATE (R155): at 1.950 ms the header alone is written, with COUNT 0 and LATE. -/
def execMeasLate (a : Fin 4) (s : State) : Result :=
  match (s.image a.val).late with
  | some p =>
    if s.tracks a.val then
      let s := s.moveTo 1950
      let (v, s) := s.draw
      let s := s.setImage a.val { s.image a.val with late := none }
      .next ((s.store p.1 p.2).trackEvent a.val 0x1B91 0xFFFF v)
    else .next s
  | none => .next s

end Sys2Proof.Machine
end

