-- ==== Sys2Proof/Machine/Time.lean ====
section
/-! DEFINITION. Site time (spec/12_site_time_network.md R303-R315): the feed ring, the servo, SET, STEP and SLEW, SNAP. -/

namespace Sys2Proof.Machine

/-- TIME.STATE.SERVO (Table 12.8): 0 UNSET, 1 FREE, 2 TRACK, 3 HOLD. -/
def State.servoState (s : State) : Nat := s.get Fld.timeStateServo

/-- An integer held within ±m. -/
def clampInt (m v : Int) : Int := max (-m) (min m v)

/-- FMAX in 1/256 ppb. -/
def State.fmax (s : State) : Int := s.get Fld.timeLimitFmaxPpm * 256000

/-- A whole quotient rounded to nearest, ties away from zero. -/
def roundNear (num den : Int) : Int := if 0 ≤ num then (2 * num + den).fdiv (2 * den) else -((-2 * num + den).fdiv (2 * den))

/-- TUNE's code and the part of FINT beyond it (R310). -/
def State.tune (s : State) : Nat × Bool × Int :=
  let center := s.get Fld.timeTuneCenter
  let gain := s.get Fld.timeTunegainGain
  if !s.getB Fld.timeServoTuneEn ∨ gain = 0 then (center, false, s.servo.fint)
  else
    let steps := roundNear (s.servo.fint * 256) gain
    let steps := if s.getB Fld.timeTunegainInvert then -steps else steps
    let want := (center : Int) + steps
    let code := max 0 (min 0xFFFFF want)
    if code = want then (code.toNat, false, 0)
    else
      let took := (code - center) * (if s.getB Fld.timeTunegainInvert then -1 else 1)
      (code.toNat, true, s.servo.fint - qround 21 (took * gain) 256)

/-- The servo's words follow: TUNE, FADJ from the proportional part `p`, FINT, remainders (R306, R307, R310). -/
def State.servoFollow (s : State) (p : Int) : State :=
  let (code, sat, rest) := s.tune
  let held := s.servoState = 3
  let code := if held && s.getB Fld.timeServoTuneEn then s.get Fld.timeTunecodeCode else code
  let base := if s.servoState = 0 then 0 else clampInt s.fmax (rest + p)
  let fadj := if s.servoState = 0 then 0 else clampInt s.fmax (rest + p + s.slewTerm)
  let was := s.getB Fld.timeStateTuneSat
  let s : State := { s with servo := { s.servo with fadj := fadj, slewFadj := fadj - base } }
  let s := (s.set Fld.timeTunecodeCode code).setB Fld.timeStateTuneSat sat
  let s := if sat && !was then s.raise 0x3185 else s
  let s := (s.set Fld.timeFadjValue (unsigned 32 fadj)).set Fld.timeFintValue (unsigned 32 s.servo.fint)
  let s := (s.set Fld.timeSlewremNs (unsigned 32 (qround 22 s.servo.slew 1000))).set Fld.timeStepremNs (unsigned 32 (qround 23 s.servo.step 1000))
  (s.setB Fld.timeStateSlewing (s.servo.slew ≠ 0)).setB Fld.timeStateStepPending (s.servo.step ≠ 0)

/-- A feed entry (Table 12.7). -/
structure FeedEntry where
  kind : Nat
  src : Nat
  t : Nat
  value : Int
  deriving DecidableEq, Repr

/-- Whether the entry's bytes fit Table 12.7. -/
def feedFormOk (b : List Byte) : Bool :=
  let k := descAt b 0 1
  let v := descAt b 24 8
  decide (1 ≤ k ∧ k ≤ 5) && decide (descAt b 1 1 ≤ 4) && descAt b 2 6 = 0 && descAt b 18 6 = 0 && decide (descAt b 8 4 < 1000000000) &&
  (k = 1 || k = 5 || descAt b 8 10 = 0) && (k ≠ 5 || descAt b 8 4 = 0) && ((k ≠ 4 && k ≠ 5) || v = 0)

/-- An entry read from its bytes. -/
def feedOf (b : List Byte) : FeedEntry :=
  { kind := descAt b 0 1, src := descAt b 1 1, t := descAt b 12 6 * 1000000000 + descAt b 8 4, value := signed 64 (descAt b 24 8) }

/-- Whether an entry keeps the limits of R305, R307 and R308. -/
def State.feedOk (s : State) (e : FeedEntry) : Bool :=
  let st := s.servoState
  match e.kind with
  | 2 => decide (st ≠ 0) && decide ((s.servo.slew + e.value).natAbs < 1000000000)
  | 3 => decide (st ≠ 0) && decide ((s.servo.step + e.value).natAbs ≤ 2000000000000)
  | _ => true

/-- An entry was accepted. -/
def State.feedTaken (s : State) : State := s.bump Fld.timeCntAccepted
/-- An entry was skipped and counted. -/
def State.feedSkipped (s : State) : State := s.bump Fld.timeCntRejected

/-- A MEAS entry (R306). -/
def State.servoMeas (s : State) (e : FeedEntry) : State :=
  let st := s.servoState
  let err := e.value + s.servo.slew + s.servo.step
  if st = 0 then s.feedSkipped
  else if st = 2 ∧ s.get Fld.timeOutlierOutlierNs * 1000 < err.natAbs then s.feedSkipped.raise 0x3182
  else
    let dt : Int := if st = 3 then 0 else match s.servo.lastMeas with
      | some t => min ((e.t : Int) - t) (s.get Fld.timeServoFeedToMs * 1000000)
      | none => 0
    let want := s.servo.fint - qround 20 (s.get Fld.timeKiKi * err * dt) (2 ^ 16 * 10 ^ 12)
    let fint := clampInt s.fmax want
    let slew : Int := s.get Fld.timeLimitSlewPpb * 256
    let p := if s.servo.slew ≠ 0 then 0 else clampInt slew (qround 24 (-(s.get Fld.timeKpKp * err)) 256000)
    let s : State := { s with servo := { s.servo with fint := fint, lastMeas := some e.t, measUs := s.us } }
    let s := ((s.set Fld.timeStateServo 2).setB Fld.timeStateAnchored false).feedTaken.servoFollow p
    if fint = want then s else s.raise 0x3183

/-- A SLEW entry (R307). -/
def State.servoSlew (s : State) (e : FeedEntry) : State :=
  { s with servo := { s.servo with slew := s.servo.slew + e.value } }.feedTaken.servoFollow 0

/-- A STEP entry (R308): a slew in progress is dropped. -/
def State.servoStep (s : State) (e : FeedEntry) : State :=
  { s with servo := { s.servo with step := s.servo.step + e.value, slew := 0 } }.feedTaken.servoFollow 0

/-- A HOLD entry (Table 12.8): TRACK becomes HOLD. -/
def State.servoHold (s : State) : State :=
  if s.servoState = 2 then (s.set Fld.timeStateServo 3).feedTaken.servoFollow 0 else s.feedTaken

/-- A SET entry (R309): accepted in UNSET, or before the cycle timer starts. -/
def State.servoSet (s : State) (e : FeedEntry) : State :=
  if s.servoState = 0 ∨ !s.sysRunning then
    { s with servo := { s.servo with setDue := some (e.t / 1000000000) } }.feedTaken
  else s.raise 0x3103

/-- One entry through the servo (R305): another source is skipped and counted; a limit broken is FEED_INVALID. -/
def State.feedOne (s : State) (e : FeedEntry) : State :=
  if e.src ≠ s.get Fld.timeServoSrc then s.feedSkipped
  else if !s.feedOk e then s.raise 0x3102
  else match e.kind with
    | 1 => s.servoMeas e
    | 2 => s.servoSlew e
    | 3 => s.servoStep e
    | 4 => s.servoHold
    | _ => s.servoSet e

/-! ### The feed ring (R305) -/

/-- The address of the entry at FEEDGET. -/
def State.feedAddr (s : State) : Nat :=
  s.get Fld.timeFeedbaseAddr * 256 + 64 + 32 * (s.get Fld.timeFeedgetCount % max 1 (s.get Fld.timeFeedlenEntries))

/-- The bytes of the entry at FEEDGET, where FEED has taken entries up to a PUT beyond it. -/
def State.feedHead (s : State) : Option (List Byte) :=
  if s.servo.put = s.get Fld.timeFeedgetCount then none else some (s.rd s.feedAddr 32)

/-- Skips leading entries that are invalid or of another source. -/
def State.feedSkip : Nat → State → State
  | 0, s => s
  | n + 1, s =>
    match s.feedHead with
    | none => s
    | some b =>
      let s := s.touch s.feedAddr 32
      if !feedFormOk b then State.feedSkip n ((s.bump Fld.timeFeedgetCount).raise 0x3102)
      else if (feedOf b).src ≠ s.get Fld.timeServoSrc ∨ !s.feedOk (feedOf b) then
        State.feedSkip n ((s.bump Fld.timeFeedgetCount).feedOne (feedOf b))
      else s

/-- TIME_FEED (R305): the entries from FEEDGET up to PUT are due. -/
def State.timeFeed (s : State) : State :=
  let a := s.get Fld.timeFeedbaseAddr * 256
  let s : State := { s.touch a 4 with servo := { s.servo with put := s.readLE a 4 } }
  State.feedSkip 1024 s

/-- TIME_FEED (R305). -/
def execTimeFeed (s : State) : Result := .next s.timeFeed

/-- Acts on the entry at FEEDGET, when it is due and of a kind. -/
def State.feedKind (s : State) (kind : Nat) : State :=
  match s.feedHead with
  | none => s
  | some b =>
    if feedFormOk b ∧ (feedOf b).kind = kind then State.feedSkip 1024 ((s.bump Fld.timeFeedgetCount).feedOne (feedOf b)) else s

/-- FEED_MEAS (R306). -/
def execFeedMeas (s : State) : Result := .next (s.feedKind 1)
/-- FEED_SLEW (R307). -/
def execFeedSlew (s : State) : Result := .next (s.feedKind 2)
/-- FEED_STEP (R308). -/
def execFeedStep (s : State) : Result := .next (s.feedKind 3)
/-- FEED_HOLD (R306). -/
def execFeedHold (s : State) : Result := .next (s.feedKind 4)
/-- FEED_SET (R309). -/
def execFeedSet (s : State) : Result := .next (s.feedKind 5)

/-! ### Events -/

/-! ### Pulse outputs (R311, R312) -/

/-- Period, width and offset of a pulse output in 1/16 ns, where it is on: PPS0, PPS1 and, as 2, REFOUT.  An edge lies on the 0.5 ns grid, a tie
going to the later point. -/
def State.pulseSet (s : State) (n : Nat) : Option (Nat × Nat × Int) :=
  if n < 2 then
    if s.getB Fld.timePpscfgEn n then
      some (16 * s.get Fld.timePpsperPeriodNs n, 16 * s.get Fld.timePpswidWidthNs n,
        (signed 32 (s.get Fld.timePpsoffOffset n) + 4).fdiv 8 * 8)
    else none
  else match s.get Fld.timeRefoutSel with
    | 1 => some (16000, 8000, 0)
    | 2 => some (3200, 1600, 0)
    | 3 => some (1600, 800, 0)
    | _ => none

/-- How far site time is past the last ideal rising edge of a train, in 1/16 ns. -/
def State.pulsePhase (s : State) (per : Nat) (off : Int) : Nat :=
  (((s.site.total * 16 + s.site.frac / 2 ^ 44 : Nat) - off) % (max 1 per : Nat)).toNat

/-- What a jump left of a pulse output. -/
def State.pulse (s : State) (n : Nat) : Pulse := Map.getD s.servo.pulses n {}

/-- Whether a pulse output is in a pulse: one that began before a jump, or the present one of its train, whose edge was not dropped. -/
def State.inPulse (s : State) (n : Nat) : Bool :=
  let x := s.pulse n
  decide (s.roots < x.hold) || match s.pulseSet n with
    | some (per, wid, off) =>
      let ph := s.pulsePhase per off
      decide (ph < wid) && decide (x.quiet + ph * 6 / 16 ≤ s.roots)
    | none => false

/-- Whether a pulse output runs (R312): a PPS not in UNSET, unless FREE, nor in HOLD with MUTE. -/
def State.pulseRuns (s : State) (n : Nat) : Bool :=
  2 ≤ n || ((s.servoState ≠ 0 || s.getB Fld.timePpscfgFree n) && (s.servoState ≠ 3 || !s.getB Fld.timePpscfgMute n))

/-- The level of a pulse output; POL inverts a PPS, and an output gated by the claim stage is inactive without it (13 Table 13.5). -/
def State.pulseLevel (s : State) (n : Nat) : Bool :=
  (!s.pulseGated n && s.pulseRuns n && s.inPulse n) != (decide (n < 2) && s.getB Fld.timePpscfgPol n)

/-- The root clock at which the pulse in progress ends, or the last one ended. -/
def State.pulseFall (s : State) (n : Nat) : Nat :=
  let x := s.pulse n
  match s.pulseSet n with
  | some (per, wid, off) => max x.hold (s.roots + wid * 6 / 16 - s.pulsePhase per off * 6 / 16)
  | none => x.hold

/-- A pulse output over a jump of the counter or a new setting: a pulse that has begun completes its full width, and a rising edge less than `gap`
root clocks after its end, or the end of the one before, is dropped. -/
def State.pulseKeep (s : State) (n gap : Nat) : State :=
  if (s.pulseSet n).isNone then s
  else
    let fall := s.pulseFall n
    let x : Pulse := { hold := if s.pulseRuns n && s.inPulse n then fall else 0, quiet := fall + gap }
    { s with servo := { s.servo with pulses := Map.put s.servo.pulses n x } }

/-- The pulse outputs at a jump of the counter (R312): edges keep WIDTH + 8 ns from the falling edge before. -/
def State.pulseJump (s : State) : State :=
  (List.range 3).foldl (fun s n =>
    match s.pulseSet n with
    | some (_, wid, _) => s.pulseKeep n ((wid / 16 + 8) * 6)
    | none => s) s

/-- The load of T (R309, 15 R376): a fleet cycle with its number begins there; both remainders and FINT are 0, STEPSEQ advances, and UNSET
becomes FREE; the STEP that the first decision left (R164) follows. -/
def State.loadSite (s : State) (t : Nat) : State :=
  let s : State := { s.pulseJump with site := { sec := t % 2 ^ 48, ns := 0, frac := 0 } }
  let s : State := { s with cyclePs := s.site.ps, cycleRoots := s.roots, cycleStep := 0 }
  let s := ((s.set Fld.sysCycleNumber s.siteCycle).set Fld.sysPhasePhase 0).set Fld.sysPhaseOffsetUs 0
  let s : State := { s with servo := { s.servo with fint := 0, slew := 0, slewAcc := 0, step := 0, setDue := none, lastMeas := none } }
  let s := s.bump Fld.timeStateStepseq
  let s := if s.servoState = 0 then s.set Fld.timeStateServo 1 else s
  let s := s.servoFollow 0
  match s.clock.afterSet with
  | some v => { s with clock := { s.clock with afterSet := none } }.feedOne { kind := 3, src := 0, t := 0, value := v }
  | none => s

/-- SET_LOAD (R309): at the counter's next whole second T is loaded. -/
def State.setLoad (s : State) : State :=
  match s.servo.setDue with
  | none => s
  | some t => (s.reachSite (1000000000000 * (s.site.ps / 1000000000000 + 1))).elim s (State.loadSite · t)

/-- SET_LOAD (R309). -/
def execSetLoad (s : State) : Result := .next s.setLoad

/-- FEED_TIMEOUT (Table 12.8): no accepted MEAS for FEED_TO_MS. -/
def execFeedTimeout (s : State) : Result :=
  if s.servoState ≠ 2 then .next s
  else match s.reachUs (1000 * s.get Fld.timeServoFeedToMs + s.servo.measUs) with
    | none => .next s
    | some s => .next (((s.set Fld.timeStateServo 3).servoFollow 0).raise 0x3181)

/-- The root clock at which the slew remainder is 0. -/
def State.slewEnd (s : State) : Nat :=
  let rate := 4 * s.servo.slewFadj.natAbs
  if s.slewLeft = 0 ∨ rate = 0 then s.roots else (s.roots / 24 + (s.slewLeft + rate - 1) / rate) * 24

/-- SLEW_COMPLETE (R307): the remainder reaches 0. -/
def execSlewComplete (s : State) : Result :=
  if !s.getB Fld.timeStateSlewing then .next s
  else match s.reach s.slewEnd with
    | none => .next s
    | some s =>
      .next ({ s with servo := { s.servo with slew := 0, slewAcc := 0 }, clock := { s.clock with slewing := false } }.servoFollow 0)

/-- SNAP (R304). -/
def State.timeSnap (s : State) : State :=
  let s := (s.set Fld.timeSnapnsNs s.site.ns).set Fld.timeSnapsloSecLo (s.site.sec % 2 ^ 32)
  (s.set Fld.timeSnapshiSecHi (s.site.sec / 2 ^ 32)).set Fld.timeSnapshiFrac (s.site.frac / 2 ^ 32)

/-- TIME_SNAP (R304). -/
def execTimeSnap (s : State) : Result := .next s.timeSnap

/-- The part of the step remainder that the present cycle ends with (R308): at most 1 ms, as fixed at its first clock, and all of it before
the cycle timer runs. -/
def State.stepPart (s : State) : Int :=
  if s.sysRunning then s.cycleStep else s.servo.step

/-- The counter takes a step of x ps (R298, R308, R312): the remainder shrinks, STEPSEQ advances and the pulse trains restart. -/
def State.takeStep (s : State) (x : Int) : State :=
  let s := s.pulseJump
  let s : State := { s with site := s.site.addPs x, servo := { s.servo with step := s.servo.step - x } }
  let s : State := { s with clock := { s.clock with stepped := true, stepDue := s.servo.step ≠ 0 } }
  ((s.bump Fld.timeStateStepseq).servoFollow 0).raise 0x3184

/-- Whether TIME's staged set passes (R315). -/
def timeApplyOk (s : State) : Bool :=
  let st := fun (f : Fld) (i : Nat) => s.getStaged f i
  let base := st Fld.timeFeedbaseAddr 0 * 256
  let n := st Fld.timeFeedlenEntries 0
  (!s.changed Blk.time .gFeed none ||
    (s.inRam base (64 + 32 * n) && decide (n = 16 ∨ n = 32 ∨ n = 64 ∨ n = 128 ∨ n = 256 ∨ n = 512 ∨ n = 1024))) &&
  (!s.changed Blk.time .gServo none ||
    (decide (st Fld.timeServoSrc 0 ≤ 4) && decide (10 ≤ st Fld.timeServoFeedToMs 0 ∧ st Fld.timeServoFeedToMs 0 ≤ 60000) &&
      decide (1 ≤ st Fld.timeLimitFmaxPpm 0 ∧ st Fld.timeLimitFmaxPpm 0 ≤ 200) &&
      decide (1 ≤ st Fld.timeLimitSlewPpb 0 ∧ st Fld.timeLimitSlewPpb 0 ≤ 50) &&
      (st Fld.timeServoTuneEn 0 = 0 || st Fld.timeTunegainGain 0 ≠ 0))) &&
  ((List.range 2).all fun k => !s.changed Blk.time .gPps (some k) ||
    (let per := st Fld.timePpsperPeriodNs k
     let wid := st Fld.timePpswidWidthNs k
     decide (100 ≤ per) && decide (1000000000 % per = 0) && decide (8 ≤ wid ∧ wid + 8 ≤ per) &&
       decide ((signed 32 (st Fld.timePpsoffOffset k)).natAbs < 16 * per))) &&
  (!s.changed Blk.time .gUtc none || st Fld.timeUtcLeap61 0 = 0 || st Fld.timeUtcLeap59 0 = 0)

/-- Whether an apply of TIME moves the feed ring. -/
def State.feedMoves (s : State) : Bool :=
  decide (s.getStaged Fld.timeFeedbaseAddr ≠ s.get Fld.timeFeedbaseAddr) ||
  decide (s.getStaged Fld.timeFeedlenEntries ≠ s.get Fld.timeFeedlenEntries)

/-- After an apply of TIME (R311, R315): a changed ring starts at 0, the servo's words follow, and a changed pulse output starts on its new setting
after the pulse in progress; `old` is the state before it. -/
def State.timeApplied (s old : State) : State :=
  let s := if old.feedMoves then { s.set Fld.timeFeedgetCount 0 with servo := { s.servo with put := 0 } } else s
  let s := (List.range 3).foldl (fun s n =>
    if s.pulseSet n = old.pulseSet n then s
    else
      let x : Pulse := if old.pulseRuns n && old.inPulse n then ⟨old.pulseFall n, old.pulseFall n⟩ else {}
      { s with servo := { s.servo with pulses := Map.put s.servo.pulses n x } }) s
  s.servoFollow (s.servo.fadj - s.servo.fint - s.slewTerm)

end Sys2Proof.Machine
end

