-- ==== Sys2Proof/Machine/Clock.lean ====
section
/-! DEFINITION. The clock solution and the reference states (spec/06_gnss_tracking.md R158-R165). -/

namespace Sys2Proof.Machine

/-- The time settings block's defaults (Table 6.14) where none has passed. -/
def tsbDefault : List Byte :=
  leBytes 0 12 ++ leBytes 0 1 ++ leBytes 10 1 ++ leBytes 560 2 ++ leBytes 5000 4 ++ leBytes 2000 4 ++ leBytes 1000 4 ++
  leBytes 1000 4 ++ leBytes 0 32

/-- Whether a time settings block passes: MAGIC, CHECK and the ranges of Table 6.14. -/
def tsbOk (b : List Byte) : Bool :=
  b.length = 64 && descAt b 0 4 = 0x42535447 && descAt b 8 4 = crc32c ((b.drop 12).take 52) && decide (descAt b 12 1 ≤ 2) &&
  decide (descAt b 13 1 ≤ 45)

/-- A field of the settings in force. -/
def State.tsbAt (s : State) (k n : Nat) : Nat := descAt (if s.clock.tsb = [] then tsbDefault else s.clock.tsb) k n

/-- UNC_PS in holdover (R161), truncated to whole ps. -/
def State.holdoverUnc (s : State) : Nat :=
  let d := s.us - s.clock.lastUs
  s.clock.unc0 + (s.tsbAt 20 4 * d * 2000000000 + s.tsbAt 24 4 * d * d) / 2000000000000000

/-- Whether a satellite counts for a qualified epoch (R159): its channel is in PLL state, and it stands at or above TQ_ELEV and TQ_CN0. -/
def State.satCounts (s : State) (v : SolSat) : Bool :=
  (s.track v.ant.val v.slot.val).state = 3 && decide ((s.tsbAt 13 1 : Int) ≤ v.elev) && decide (s.tsbAt 14 2 ≤ v.cn0)

/-- System and PRN of a satellite, from its channel. -/
def State.satId (s : State) (v : SolSat) : Nat × Nat :=
  let w := (s.chan v.ant.val v.slot.val).live
  ((match signalInfo (cfgSignal w) with
    | some g => g.sys
    | none => 5), cfgPrn w)

/-- The satellites of a solution that count, each once. -/
def State.goodSats (s : State) (v : ClockSol) : List (Nat × Nat) := ((v.sats.filter s.satCounts).map s.satId).eraseDups

/-- Whether an epoch's solution is qualified (R159): the base position is fixed, four satellites that count enter it, one of the pivot system
among them, and the post-fit RMS is within its limit with at most one outlier removed. -/
def State.qualified (s : State) (v : ClockSol) : Bool :=
  s.clock.posFixed && decide (4 ≤ (s.goodSats v).length) && ((s.goodSats v).any fun p => p.1 = s.tsbAt 12 1) &&
  decide (v.rms ≤ s.tsbAt 16 4) && decide (v.removed ≤ 1)

/-- The two forms of each system's offset after an epoch (R158): as broadcast, and as estimated with a 300 s smoothing. -/
def Clock.offsets (c : Clock) (v : ClockSol) : Clock :=
  (List.range 5).foldl (fun c k =>
    let c := match v.bcast.getD k none with
      | some x => { c with bcast := Map.put c.bcast k x }
      | none => c
    match v.est.getD k none with
    | some x => { c with est := Map.put c.est k (match Map.find c.est k with
      | some y => Config.smooth300 y x
      | none => x) }
    | none => c) c

/-- The form of a system's offset that a record gives: its source (0 none, 1 broadcast, 2 estimated) and the value; of two, which is open. -/
def Clock.sysOff (c : Clock) (cycle k : Nat) : Nat × Int :=
  match Map.find c.bcast k, Map.find c.est k with
  | some b, some e => if Config.givesEstimate k cycle then (2, e) else (1, b)
  | some b, none => (1, b)
  | none, some e => (2, e)
  | none, none => (0, 0)

/-- The time solution record (Table 6.15). -/
def State.timeRecord (s : State) (v : ClockSol) (q : Bool) : List Byte :=
  let c := s.clock
  let flags := q.toNat + 2 * c.stepDue.toNat + 4 * c.stepped.toNat + 8 * c.slewing.toNat + 16 * c.corrOk.toNat + 32 * c.posFixed.toNat
  let hold := if c.state = 2 then (s.us - c.holdUs) / 1000000 else 0
  leBytes s.cycle 4 ++ leBytes c.state 1 ++ leBytes (min 255 (v.sats.map s.satId).eraseDups.length) 1 ++ leBytes (s.tsbAt 12 1) 1 ++ leBytes flags 1 ++
  leBytes (unsigned 64 v.offset) 8 ++ leBytes (min 0xFFFFFFFF c.unc) 4 ++ leBytes v.rms 4 ++
  ((List.range 5).flatMap fun k => leBytes (unsigned 32 (c.sysOff s.cycle k).2) 4) ++
  ((List.range 5).flatMap fun k => leBytes (c.sysOff s.cycle k).1 1) ++ leBytes 0 3 ++ leBytes hold 4 ++ leBytes 0 8

/-- The offset still to be removed, in ps (R162): what is left of a slew and of a step, and the STEP that waits for a SET. -/
def State.offsetLeft (s : State) : Nat := s.servo.slew.natAbs + s.servo.step.natAbs + (s.clock.afterSet.getD 0).natAbs

/-- A qualified epoch (R159-R163): counts, the offsets before a decision, and the servo's MEAS. -/
def State.clockGood (s : State) (v : ClockSol) : State :=
  let c := s.clock
  let fresh := c.state = 2
  let st := if fresh then 3 else c.state
  let decided := c.decided && !fresh
  let sums := if fresh then 0 else c.sums
  let open' := (st = 0 || st = 3) && !decided && decide (sums < 100)
  let c := { c with
    state := st, decided := decided, unqual := 0, qual := if fresh then 1 else c.qual + 1
    qualRe := if fresh then 1 else if st = 0 then 0 else c.qualRe + 1
    sum := (if fresh then 0 else c.sum) + (if open' then v.offset else 0), sums := if open' then sums + 1 else sums }
  let s : State := { s with clock := c }
  let (u, s) : Nat × State :=
    if st = 0 then s.draw
    else if st = 3 ∧ !decided then (s.holdoverUnc, s)
    else (v.unc + s.offsetLeft, s)
  let held := (st = 0 || (st = 3 && !decided))
  let s : State := { s with clock := { s.clock with
    unc := u, sigma := v.unc, unc0 := if held then c.unc0 else u, lastUs := if held then c.lastUs else s.us } }
  if st = 1 ∨ (st = 3 ∧ decided) then s.feedOne { kind := 1, src := 0, t := s.site.total, value := v.offset } else s

/-- An unqualified epoch (R160-R163): the counts of qualified epochs start over and CORR_OK is cleared. -/
def State.clockBad (s : State) : State :=
  let c := s.clock
  let hold := c.state = 2 || (c.state = 3 && !c.decided)
  let c := { c with
    unqual := c.unqual + 1, qual := 0, qualRe := 0, corrOk := false, sum := if c.decided then c.sum else 0
    sums := if c.decided then c.sums else 0 }
  let s : State := { s with clock := c }
  let (u, s) : Nat × State := if hold then (s.holdoverUnc, s) else s.draw
  { s with clock := { s.clock with unc := u } }

/-- CLOCK_SOLUTION (R158-R163): the settings block as it stands now, and what the epoch's solution found. -/
def execClockSolution (tsb : List Byte) (sol : ClockSol) (s : State) : Result :=
  let new := tsbOk tsb && (s.clock.tsb = [] || descAt tsb 4 4 ≠ descAt s.clock.tsb 4 4)
  let s : State := if new then { s with clock := { s.clock with tsb := tsb } } else s
  let q := s.qualified sol
  let s : State := { s with clock := s.clock.offsets sol }
  let s := if q then s.clockGood sol else s.clockBad
  .next { s with clock := { s.clock with record := s.timeRecord sol q, stepped := false } }

/-- HOLDOVER_ENTER (R160): the 100th unqualified epoch in a row; the servo holds its frequency. -/
def execHoldoverEnter (s : State) : Result :=
  if (s.clock.state = 1 ∨ s.clock.state = 3) ∧ 100 ≤ s.clock.unqual then
    let s : State := { s with clock := { s.clock with state := 2, decided := false, sums := 0, sum := 0, holdUs := s.us, outOfLimit := false } }
    .next ({ s with clock := { s.clock with unc := s.holdoverUnc } }.feedOne { kind := 4, src := 0, t := 0, value := 0 })
  else .next s

/-- HOLDOVER_OUT_OF_LIMIT (R161). -/
def execHoldoverOutOfLimit (s : State) : Result :=
  let c := s.clock
  if (c.state = 2 ∨ (c.state = 3 ∧ !c.decided)) ∧ s.tsbAt 28 4 * 1000 < c.unc then
    .next { s with clock := { c with outOfLimit := true } }
  else .next s

/-- The mean of the first hundred offsets. -/
def Clock.mean (c : Clock) : Int := qround 30 c.sum 100

/-- REACQUIRE_DECISION (R162): the mean offset of 100 qualified epochs is slewed, or stepped from 10 µs on. -/
def execReacquireDecision (s : State) : Result :=
  let c := s.clock
  if c.state = 3 ∧ !c.decided ∧ 100 ≤ c.sums then
    let e := c.mean
    let slew := decide (e.natAbs < 10000000)
    let c := { c with decided := true, slewing := slew && decide (e ≠ 0), stepDue := !slew, unc := c.sigma + e.natAbs, outOfLimit := false }
    .next ({ s with clock := c }.feedOne { kind := if slew then 2 else 3, src := 0, t := 0, value := -e })
  else .next s

/-- FIRST_DECISION (R164): from FREERUN; an UNSET servo is given a SET and, after it, a STEP of what remains. -/
def execFirstDecision (s : State) : Result :=
  let c := s.clock
  if c.state = 0 ∧ 100 ≤ c.sums then
    let e := c.mean
    if s.servoState = 0 then
      let next : Int := (s.site.sec + 1 : Nat) * 1000000000000 - e
      let t := qround 31 next 1000000000000
      let rest := t * 1000000000000 - next
      let after := if 20000 ≤ rest.natAbs then some (-rest) else none
      let c := { c with state := 3, decided := true, qualRe := 0, afterSet := after, stepDue := after.isSome, unc := c.sigma + rest.natAbs }
      .next ({ s with clock := c }.feedOne { kind := 5, src := 0, t := t.toNat * 1000000000, value := 0 })
    else
      let step := decide (20000 ≤ e.natAbs)
      let c := { c with state := 3, decided := true, qualRe := 0, stepDue := step, unc := c.sigma + e.natAbs }
      .next (if step then { s with clock := c }.feedOne { kind := 3, src := 0, t := 0, value := -e } else { s with clock := c })
  else .next s

/-- TRACKING_ENTER (R160): 1,000 qualified epochs in a row and no slew in progress. -/
def execTrackingEnter (s : State) : Result :=
  .next (if s.clock.state = 3 ∧ s.clock.decided ∧ 1000 ≤ s.clock.qual ∧ !s.clock.slewing then
      { s with clock := { s.clock with state := 1 } }
    else s)

/-- CORR_OK_SET (R163): the 1,000th qualified epoch in a row from the first of REACQUIRE. -/
def execCorrOkSet (s : State) : Result :=
  .next (if (s.clock.state = 3 ∨ s.clock.state = 1) ∧ 1000 ≤ s.clock.qualRe then { s with clock := { s.clock with corrOk := true } } else s)

end Sys2Proof.Machine
end

