-- ==== Sys2Proof/Machine/CorrCells.lean ====
section
/-! DEFINITION. The settings block, the records and the cells of the correction graphs (spec/07_corrections.md R168-R173, R188). -/

namespace Sys2Proof.Machine

/-! ### The settings block (R168) -/

/-- A signed little-endian field of a block. -/
def descInt (b : List Byte) (k n : Nat) : Int := signed (8 * n) (descAt b k n)

/-- Whether bytes are an ASCII text, padded with NUL. -/
def asciiText (b : List Byte) : Bool := (b.all fun c => decide (c.toNat < 128)) && (b.dropWhile fun c => decide (c ≠ 0)).all fun c => decide (c = 0)

/-- Whether a settings block passes (R168, Table 7.1). -/
def csbOk (b : List Byte) : Bool :=
  let f := descAt b
  let within := fun (k n lo hi : Nat) => decide (lo ≤ f k n ∧ f k n ≤ hi)
  let x := descInt b 16 8
  let y := descInt b 24 8
  let z := descInt b 32 8
  let d := x * x + y * y + z * z
  b.length = 256 && f 0 4 = 0x42534347 && f 8 4 = crc32c ((b.drop 12).take 244) && f 12 1 / 32 = 0 && within 13 1 0 3 &&
  within 14 2 0 4095 && decide (63000000000 ^ 2 ≤ d ∧ d ≤ 64000000000 ^ 2) &&
  ((List.range 12).all fun k => decide (-1000000 ≤ descInt b (40 + 4 * k) 4 ∧ descInt b (40 + 4 * k) 4 ≤ 1000000)) &&
  f (40 + 12 * f 13 1) 12 = 0 && within 88 4 60 86400 && within 92 2 1 1000 && within 94 1 0 45 && within 95 1 4 20 &&
  within 96 2 1 60 && within 98 2 64 1024 && within 100 2 10 10080 && within 102 2 20 4000 && within 104 2 10 2000 &&
  within 106 2 10 2000 && within 109 1 10 255 && within 110 1 0 47 && within 111 1 0 47 && f 176 80 = 0 &&
  asciiText ((b.drop 112).take 32) && asciiText ((b.drop 144).take 32)

/-- A field of the settings in force. -/
def State.csbAt (s : State) (k n : Nat) : Nat := descAt s.corr.csb k n

/-- A bit of MODE. -/
def State.csbMode (s : State) (k : Nat) : Bool := bitOf (s.csbAt 12 1) k

/-- The graphs push on a general unit through its Mill ring (11 R288). -/
def State.graphPush (s : State) (q : Nat) (body : List Byte) : State :=
  if 32 ≤ q ∧ q < 40 ∧ bitOf (s.get Fld.queueCfgWriters q) 11 then (s.qPush q body).2 else s

/-- An event of the correction graphs (R168). -/
def State.corrPost (s : State) (code value : Nat) : State :=
  s.graphPush (s.csbAt 110 1) (leBytes code 2 ++ leBytes 0xFFFF 2 ++ leBytes s.cycle 4 ++ leBytes value 8)

/-- An event whose VALUE the spec does not give. -/
def State.corrEvent (s : State) (code : Nat) : State :=
  let (v, s) := s.draw
  s.corrPost code v

/-! ### Positions (R169) -/

/-- A vector as Config's functions take it. -/
def ecefTuple (v : Ecef) : Int × Int × Int := (v.x, v.y, v.z)

/-- A position moved by a vector. -/
def ecefAdd (v : Ecef) (d : Int × Int × Int) : Ecef := ⟨v.x + d.1, v.y + d.2.1, v.z + d.2.2⟩

/-- The base position: the settings' or the survey's (R169, R170). -/
def State.basePos (s : State) : Ecef :=
  if s.csbMode 0 then s.corr.base else ⟨descInt s.corr.csb 16 8, descInt s.corr.csb 24 8, descInt s.corr.csb 32 8⟩

/-- The reference point of an antenna: the base moved by its LEVER, rotated from east, north and up (R169). -/
def State.antPos (s : State) (a : Nat) : Ecef :=
  let l := fun (k : Nat) => descInt s.corr.csb (40 + 12 * a + 4 * k) 4
  let b := s.basePos
  ecefAdd b (Config.fromEnu (ecefTuple b) (l 0, l 1, l 2))

/-- Speed of light, nm/s. -/
def lightNm : Int := 299792458000000000

/-- A time in ps as a length in nm. -/
def psNm (ps : Int) : Int := qround 35 (ps * 299792458) 1000

/-- The square of the distance of two points, in 10^-2 mm². -/
def dist2 (p q : Ecef) : Nat := ((p.x - q.x) ^ 2 + (p.y - q.y) ^ 2 + (p.z - q.z) ^ 2).toNat

/-- The geometric range from a point to a satellite at its transmit time with the Sagnac term, in nm (R173); the Earth's rate is that of WGS 84
(log 140). -/
def rangeNm (sat x : Ecef) : Int :=
  let d : Nat := Nat.sqrt (dist2 sat x * 10 ^ 10)
  let up := Config.roundsUp 36 (dist2 sat x) 1
  d + up.toNat + qround 37 ((sat.x * x.y - sat.y * x.x) * 72921151467) (10 ^ 5 * lightNm)

/-- How fast that range grows, in nm/s. -/
def rangeRate (v : CorrSat) (x : Ecef) : Int :=
  let p := v.pos
  let dot := (p.x - x.x) * v.vel.x + (p.y - x.y) * v.vel.y + (p.z - x.z) * v.vel.z
  qround 38 (dot * 10 ^ 10) (max 1 (Nat.sqrt (dist2 p x * 10 ^ 10)))

/-! ### Records (06 Table 6.11) -/

/-- A channel record as the graphs read it. -/
structure Rec where
  ant : Nat
  sig : Nat
  prn : Nat
  flags : Nat
  cn0 : Nat
  tx : Nat
  carr : Int
  dop : Int
  lockms : Nat
  amb : Nat
  state : Nat
  deriving DecidableEq, Repr

/-- A record from its 48 bytes. -/
def recOf (a : Nat) (b : List Byte) : Rec :=
  { ant := a, sig := descAt b 2 1, prn := descAt b 3 1, flags := descAt b 4 2, cn0 := descAt b 6 2, tx := descAt b 8 8, carr := descInt b 16 8
    dop := descInt b 24 4, lockms := descAt b 28 4, amb := descAt b 32 2, state := descAt b 43 1 }

/-- Where the measurement block of an antenna for the present epoch lies. -/
def State.epochBlock (s : State) (a : Nat) : Nat :=
  s.tcbAt a 16 4 * 256 + 18496 * (((s.image a).seq + 2 ^ 32 - 1) % 2 ^ 32 % max 1 (s.tcbAt a 20 4))

/-- The records of an antenna for the present epoch, where its block is written whole (06 R155). -/
def State.records (s : State) (a : Nat) : List Rec :=
  let p := s.epochBlock a
  if s.tracks a ∧ s.readLE p 4 = 0x41454D47 ∧ s.readLE (p + 4) 4 = s.cycle then
    (List.range (min 384 (s.readLE (p + 22) 2))).map fun k => recOf a (s.rd (p + 64 + 48 * k) 48)
  else []

/-- What the graphs' reading of those blocks does at the Granary. -/
def State.recordsTouch (s : State) : State := (List.range 4).foldl (fun s a => if s.tracks a then s.touch (s.epochBlock a) 18496 else s) s

/-- The jamming level of an antenna (R182): 0, 1 WARN, 2 ALARM, the highest of its three streams (05 R131). -/
def State.antJam (s : State) (a : Nat) : Nat :=
  if (streamsOf a).any fun k => s.getB Fld.gnssinJamstatAlarm k then 2
  else if (streamsOf a).any fun k => s.getB Fld.gnssinJamstatWarn k then 1
  else 0

/-- Whether a SIGNAL carries cells: not the data signal of a data and pilot pair (R172). -/
def cellSignal (sig : Nat) : Bool :=
  (signalInfo sig).isSome && !([0x03, 0x06, 0x0A, 0x12, 0x20, 0x22, 0x24, 0x26, 0x28] : List Nat).contains sig

/-- The system of a SIGNAL. -/
def sysOf (sig : Nat) : Nat := match signalInfo sig with
  | some g => g.sys
  | none => 5

/-- The band group of a signal. -/
def groupOf (sig : Nat) : Nat := match signalInfo sig with
  | some g => g.bg
  | none => 3

/-- Whether a record may serve a cell (R172), but for the satellite: its antenna RUNNING and below ALARM, PLL state with CARR_VALID. -/
def State.recOk (s : State) (r : Rec) : Bool :=
  s.antState r.ant = 3 && s.antJam r.ant ≠ 2 && r.state = 3 && bitOf r.flags 1 && cellSignal r.sig

/-- The records of a satellite that may serve a cell. -/
def State.satRecs (s : State) (v : CorrSat) (l : List Rec) : List Rec := l.filter fun r => s.recOk r && sysOf r.sig = v.sys && r.prn = v.prn

/-! ### Sources and signals (R172, R182) -/

/-- The source with the highest CN0, the first of equals. -/
def bestSource (l : List Rec) : Option Rec :=
  l.foldl (fun b c => match b with
    | some d => if d.cn0 < c.cn0 then some c else b
    | none => some c) none

/-- The source of a cell (R172, R182): the present one while it is eligible; otherwise the best below WARN, or the best at WARN. -/
def State.chooseSource (s : State) (old : Option Nat) (l : List Rec) : Option Rec :=
  let clear := l.filter fun c => s.antJam c.ant = 0
  match l.find? fun c => some c.ant = old with
  | some c => if s.antJam c.ant = 1 ∧ clear ≠ [] then bestSource clear else some c
  | none => if clear ≠ [] then bestSource clear else bestSource l

/-- PRN of a satellite in a frame: on GLONASS the orbital slot (R178). -/
def satNumber (v : CorrSat) : Nat := if v.sys = 3 then v.slot else v.prn

/-- The cell of a satellite and signal so far. -/
def State.cellOf (s : State) (v : CorrSat) (sig : Nat) : Option CorrCell :=
  s.corr.cells.find? fun c => c.sys = v.sys && c.prn = satNumber v && c.signal = sig

/-- The signal of a satellite's cell in a band group (R172): the one served so far while it has a source, otherwise the lowest (log 143). -/
def State.signalIn (s : State) (v : CorrSat) (g : Nat) (l : List Rec) : Option Nat :=
  let sigs := ((l.filter fun r => groupOf r.sig = g).map (·.sig)).mergeSort
  match sigs.find? fun k => ((s.cellOf v k).map (·.on)).getD false with
  | some k => some k
  | none => sigs.head?

/-! ### Values (R173) -/

/-- A length in nm as carrier cycles of a frequency in Hz, in units of 2^-32 cycle. -/
def cycles32 (nm hz : Int) : Int := qround 40 (nm * hz * 2 ^ 32) lightNm

/-- The integer nearest to a number of cycles in units of 2^-32. -/
def roundCycles (x : Int) : Int := (x + 2 ^ 31).fdiv (2 ^ 32)

/-- Whole cycles of a carrier in nm. -/
def cyclesNm (k hz : Int) : Int := qround 41 (k * lightNm) hz

/-- OFFSET_PS of the last time solution record (06 Table 6.15). -/
def State.offsetPs (s : State) : Int := descInt s.clock.record 8 8

/-- t_e in units of 10 ms of TAI: the boundary corrected by OFFSET_PS, rounded. -/
def State.epoch10 (s : State) : Int := roundNear ((s.cyclePs : Int) - s.offsetPs) 10000000000

/-- GPST time of week of the epoch in ms (R173, Table 7.5). -/
def State.epochTow (s : State) : Nat := ((s.epoch10 * 10 - 315964819000) % 604800000).toNat

/-- The receiver's time in a system's own scale, in units of 2^-32 ms: site time at the boundary, less the whole seconds between TAI and that
scale. -/
def State.recvTime (s : State) (sys : Nat) : Int :=
  let sec : Int := if sys = 2 then 315964819 + 14 else if sys = 3 then s.get Fld.timeUtcOffsetS - 10800 else 315964819
  qround 39 (((s.cyclePs : Int) - sec * 1000000000000) * 2 ^ 32) 1000000000

/-- The nm light goes in a millisecond. -/
def msNm : Int := 299792458000000

/-- A pseudorange in nm: receiver time less TXTIME, whose ambiguity is resolved at a range expected in nm (06 R156; log 140). -/
def State.codeNm (s : State) (r : Rec) (expect : Int) : Int :=
  let m : Int := (if r.amb = 0 then weekMs r.sig else r.amb : Nat) * 2 ^ 32
  let t := (s.recvTime (sysOf r.sig) - r.tx) % m
  let e := qround 48 (expect * 2 ^ 32) msNm
  qround 49 ((t + roundNear (e - t) m * m) * msNm) (2 ^ 32)

/-- A cell at the present epoch: the cell, Q, the IOD and elevation of its satellite, its uncorrected phase and carrier; and, for RTCM, code and
phase at the base and the phase-range rate (nm, nm/s), C/N0, lock time and half cycle of its record, and whether SLIP advanced. -/
structure CellNow where
  cell : CorrCell
  q : Nat
  iod : Nat
  elev : Int
  raw : Int
  hz : Int
  code : Int
  phase : Int
  range' : Int
  cn0 : Nat
  lockms : Nat
  half : Bool
  slipped : Bool
  deriving DecidableEq, Repr

/-- SLIP advances (R172). -/
def CellNow.bump (c : CellNow) : CellNow := { c with cell := { c.cell with slip := (c.cell.slip + 1) % 8 }, slipped := true }

/-- dt_rx of a system in ps (R173): the pivot term and the estimated SYSOFF. -/
def State.dtRx (s : State) (sys : Nat) : Int :=
  let off := match Map.find s.clock.est sys with
    | some x => x
    | none => if sys = s.tsbAt 12 1 then 0 else Config.sysOffset sys s.cycle
  s.offsetPs + off

/-- The cell of a satellite and signal at this epoch, from the records that may serve it (R172, R173). -/
def State.cellNow (s : State) (v : CorrSat) (sig : Nat) (elev : Int) (l : List Rec) : Option CellNow :=
  let old := s.cellOf v sig
  let prev := old.bind fun d => if d.on then some d.src else none
  (s.chooseSource prev l).map fun r =>
    let hz := (signalCarrier sig v.prn).1
    let base := s.basePos
    let shift := rangeNm v.pos (s.antPos r.ant) - rangeNm v.pos base
    let model := rangeNm v.pos base + psNm v.clk - psNm (s.dtRx v.sys)
    let dt := s.epoch10 * 10000000000 - (s.cyclePs - s.offsetPs)
    let rr := -qround 51 (r.dop * lightNm) (256 * hz)
    let move := qround 52 (rr * dt) 1000000000000
    let code := s.codeNm r (rangeNm v.pos (s.antPos r.ant)) + move - shift
    let phase := qround 53 (r.carr * lightNm) (65536 * hz) + move - shift
    let prc := model - code
    let raw := model - phase
    let rate := rangeRate v (s.antPos r.ant) - rr
    let q := if s.antJam r.ant = 1 then 3 else if bitOf r.flags 4 then 2 else if bitOf r.flags 8 ∨ bitOf r.flags 5 then 1 else 0
    let on := (old.map (·.on)).getD false
    let k := if on then (old.map (·.k)).getD 0 else roundCycles (cycles32 (prc - raw) hz)
    let add := if on then (old.map (·.add)).getD 0 else 0
    let slip := (old.map (·.slip)).getD 0
    let adv := !on || prev ≠ some r.ant || bitOf r.flags 3 || (old.map (·.due)).getD false
    let cell : CorrCell :=
      { sys := v.sys, prn := satNumber v, signal := sig, src := r.ant, slip := if adv then (slip + 1) % 8 else slip, k := k, add := add, prc := prc
        cpc := raw + cyclesNm k hz + add, rate := rate, fcn := r.prn }
    { cell := cell, q := q, iod := v.iod, elev := elev, raw := raw, hz := hz, code := code, phase := phase, range' := rr, cn0 := r.cn0
      lockms := r.lockms, half := bitOf r.flags 2, slipped := adv }

/-- The order of a full frame (R178). -/
def cellBefore (a b : CellNow) : Bool :=
  decide (a.cell.sys < b.cell.sys ∨ (a.cell.sys = b.cell.sys ∧ (a.cell.prn < b.cell.prn ∨
    (a.cell.prn = b.cell.prn ∧ a.cell.signal < b.cell.signal))))

/-- Inserts a cell in that order. -/
def cellInsert (a : CellNow) : List CellNow → List CellNow
  | [] => [a]
  | b :: t => if cellBefore a b then a :: b :: t else b :: cellInsert a t

/-- The cells of the epoch, in frame order: healthy satellites at or above the mask, at most one signal of a band group (R172). -/
def State.epochCells (s : State) (sats : List CorrSat) (l : List Rec) : List CellNow :=
  let one := fun (v : CorrSat) =>
    let elev := Config.elevation (ecefTuple s.basePos) (ecefTuple v.pos)
    let r := s.satRecs v l
    if v.healthy ∧ 100 * (s.csbAt 94 1 : Int) ≤ elev ∧ (v.sys ≠ 3 ∨ v.slot ≠ 0) then
      (List.range 3).filterMap fun g => match s.signalIn v g r with
        | some k => s.cellNow v k elev (r.filter fun x => x.sig = k)
        | none => none
    else []
  (sats.flatMap one).foldl (fun l c => cellInsert c l) []

/-- The cells after an epoch: those served, and, not served, those of before with their SLIP. -/
def cellsAfter (now : List CellNow) (old : List CorrCell) : List CorrCell :=
  let l := now.map (·.cell)
  l ++ (old.filter fun d => !l.any fun c => c.sys = d.sys && c.prn = d.prn && c.signal = d.signal).map fun d => { d with on := false }

/-- A record with SLIP at an epoch between the correction epochs (R172): its cell's SLIP advances at the next. -/
def State.corrSlips (s : State) : State :=
  if s.corr.cells.any (·.on) then
    let l := ((List.range 4).flatMap s.records).filter fun r => bitOf r.flags 3
    let hit := fun (c : CorrCell) => c.on && l.any fun r => r.ant = c.src && r.sig = c.signal && r.prn = c.fcn
    if s.corr.cells.any hit then
      { s with corr := { s.corr with cells := s.corr.cells.map fun c => { c with due := c.due || hit c } } }
    else s
  else s

/-! ### Taking over (R188) -/

/-- The distance of two fractions of a cycle in units of 2^-32, around the circle. -/
def arc (a b : Int) : Nat := let d := ((a - b) % 2 ^ 32).toNat; min d (2 ^ 32 - d)

/-- The circular median (R188): the fraction with the least sum of distances to the others; which of equals is free. -/
def State.circMedian (s : State) (l : List Int) : Int × State :=
  let cost := fun (x : Int) => l.foldl (fun n y => n + arc x y) 0
  let least := l.foldl (fun m x => match m with
    | some n => some (min n (cost x))
    | none => some (cost x)) (none : Option Nat)
  let best := l.filter fun x => some (cost x) = least
  let (n, s) := s.draw
  (best.getD (n % max 1 best.length) 0, s)

/-- QCC_TAKEOVER_ALIGN (R188) of the cells of one band group; `dt` is the time since the phases sent last, in ms. -/
def State.alignGroup (s : State) (g : Nat) (dt : Int) (old : List CorrCell) (l : List CellNow) : List CellNow × State :=
  let expected := fun (c : CellNow) =>
    (old.find? fun d => d.sys = c.cell.sys && d.prn = c.cell.prn && d.signal = c.cell.signal).map fun d => d.cpc + d.rate * dt / 1000
  let x := fun (c : CellNow) => (expected c).map fun e => cycles32 (e - c.raw) c.hz
  let mine := fun (c : CellNow) => groupOf c.cell.signal = g && c.cell.sys ≠ 3
  let (f0, s) := s.circMedian ((l.filter mine).filterMap fun c => (x c).map (· % 2 ^ 32))
  let one := fun (c : CellNow) =>
    let bump := c.bump
    if groupOf c.cell.signal ≠ g then c
    else if c.cell.sys = 3 then bump
    else
      let add := qround 42 (f0 * lightNm) (c.hz * 2 ^ 32)
      match x c with
      | none => { c with cell := { c.cell with add := add, cpc := c.raw + cyclesNm c.cell.k c.hz + add } }
      | some v =>
        let k := roundCycles (v - f0)
        let rest := (v - f0 - k * 2 ^ 32).natAbs
        if 15 * 2 ^ 32 < 100 * rest then
          { bump with cell := { bump.cell with add := add, cpc := c.raw + cyclesNm c.cell.k c.hz + add } }
        else { c with cell := { c.cell with k := k, add := add, cpc := c.raw + cyclesNm k c.hz + add } }
  (l.map one, s)

end Sys2Proof.Machine
end

