-- ==== Sys2Proof/Machine/Rtcm.lean ====
section
/-! DEFINITION. RTCM 3 output (spec/07_corrections.md R175, R176).  The spec names RTCM Standard 10403.3 for the frames; the order and the widths
of the data fields are that standard's (log 145). -/

namespace Sys2Proof.Machine

/-- A field of a message: value and width; fields are packed MSB first. -/
abbrev MsgField := Int × Nat

/-- Packs fields after one another, MSB first, padded to a whole byte with 0. -/
def packMsb (l : List MsgField) : List Byte :=
  let r := l.foldl (fun (a : Nat × Nat) f => (a.1 * 2 ^ f.2 + unsigned f.2 f.1, a.2 + f.2)) (0, 0)
  let n := (r.2 + 7) / 8
  (leBytes (r.1 * 2 ^ (8 * n - r.2)) n).reverse

/-- One bit of a CRC-24Q, and `n` of them. -/
def crc24Bits : Nat → Nat → Nat
  | 0, c => c
  | n + 1, c => crc24Bits n (if bitOf c 23 then (2 * c) ^^^ 0x1864CFB else 2 * c)

/-- CRC-24Q of bytes. -/
def crc24q (bs : List Byte) : Nat := bs.foldl (fun c b => crc24Bits 8 (c ^^^ (b.toNat * 65536))) 0

/-- The transport frame of a message (R175): 0xD3, 6 reserved bits, a 10-bit length, the message, CRC-24Q. -/
def rtcmFrame (msg : List Byte) : List Byte :=
  let h := packMsb [(0xD3, 8), (0, 6), (msg.length, 10)] ++ msg
  h ++ packMsb [(crc24q h, 24)]

/-- STATION (Table 7.1), DF003. -/
def State.station (s : State) : Int := s.csbAt 14 2

/-- Message 1005: the reference point at the base position (Table 7.2). -/
def State.msg1005 (s : State) : List Byte :=
  let b := s.basePos
  packMsb [(1005, 12), (s.station, 12), (0, 6), (1, 1), (1, 1), (1, 1), (0, 1), (b.x, 38), (1, 1), (0, 1), (b.y, 38), (0, 2), (b.z, 38)]

/-- A text field: its length and its characters. -/
def textField (b : List Byte) : List MsgField := ((b.length : Int), 8) :: b.map fun c => ((c.toNat : Int), 8)

/-- A NUL-padded text of the settings block. -/
def State.csbText (s : State) (k : Nat) : List Byte := ((s.corr.csb.drop k).take 32).takeWhile fun c => decide (c ≠ 0)

/-- Message 1033: the antenna's descriptor and serial number, setup ID 0, and the receiver's type, firmware and serial number (Table 7.2). -/
def State.msg1033 (s : State) : List Byte :=
  let type : List Byte := "QUOVAL PRL-8600".toList.map fun c => BitVec.ofNat 8 c.toNat
  packMsb ([(1033, 12), (s.station, 12)] ++ textField ((s.csbText 112).take 31) ++ [(0, 8)] ++ textField ((s.csbText 144).take 31) ++
    textField type ++ textField ((Config.versionText s.boot.kernelVer).take 31) ++
    textField ((Config.serialText (s.chestAt 0x0010).toNat).take 31))

/-! ### MSM7 (R176, Table 7.3) -/

/-- The MSM7 message of a system, in the order of Table 7.2: GPS, Galileo, BeiDou, QZSS, GLONASS. -/
def msmSystems : List (Nat × Nat) := [(0, 1077), (1, 1097), (2, 1127), (4, 1117), (3, 1087)]

/-- The standard's ID of a signal in its system, where R176 reports it: 1C, 1L, 2L, 5Q; 6C, 7Q; 2I, 1P, 6I, 5P; 1C, 2C. -/
def rtcmSignal (sig : Nat) : Option Nat :=
  match sig with
  | 0x01 | 0x04 | 0x07 | 0x08 | 0x0B => some 2
  | 0x02 | 0x05 | 0x09 => some 31
  | 0x10 | 0x11 => some 16
  | 0x13 | 0x14 | 0x15 => some 8
  | 0x27 => some 15
  | 0x21 | 0x23 | 0x25 | 0x29 => some 23
  | _ => none

/-- The epoch time of a system (DF004, DF248, DF427; DF416 and DF034), from t_e: 30 bits. -/
def State.msmTime (s : State) (sys : Nat) : List MsgField :=
  let ms := s.epoch10 * 10
  if sys = 3 then
    let t := ms - (s.get Fld.timeUtcOffsetS - 10800 : Int) * 1000
    [((t / 86400000 + 4) % 7, 3), (t % 86400000, 27)]
  else [((ms - 315964819000 - (if sys = 2 then 14000 else 0)) % 604800000, 30)]

/-- A satellite's rough range in 2^-10 ms, and its rough phase-range rate in m/s, from its first cell. -/
def roughOf (c : CellNow) : Int × Int := (roundNear (c.code * 1024) msNm, roundNear c.range' 1000000000)

/-- A value in a signed field of `w` bits, or the standard's mark of an invalid one where it does not fit. -/
def msmFine (w : Nat) (v : Int) : MsgField := (if v.natAbs < 2 ^ (w - 1) then v else -(2 ^ (w - 1)), w)

/-- DF407: the lock time indicator of a time in ms. -/
def lockIndicator (ms : Nat) : Nat :=
  if ms < 64 then ms else if 67108864 ≤ ms then 704 else let j := Nat.log2 ms - 5; ms / 2 ^ j + 32 * j

/-- The fine fields of a cell, in the order DF405, DF406, DF407, DF420, DF408, DF404. -/
def msmCell (rough : Int × Int) (c : CellNow) : List MsgField :=
  [msmFine 20 (qround 54 (c.code * 2 ^ 29 - rough.1 * 2 ^ 19 * msNm) msNm), msmFine 24 (qround 55 (c.phase * 2 ^ 31 - rough.1 * 2 ^ 21 * msNm) msNm),
    (if c.slipped then 0 else lockIndicator c.lockms, 10), ((!c.half).toNat, 1), (min 1023 c.cn0, 10),
    msmFine 15 (qround 56 (c.range' - rough.2 * 1000000000) 100000)]

/-- The n-th field of every list, for each n below a count: fields of one kind stand together. -/
def transposed (n : Nat) (l : List (List MsgField)) : List MsgField := (List.range n).flatMap fun k => l.map fun x => x.getD k (0, 0)

/-- A mask of `w` bits, bit 1 first. -/
def maskFields (w : Nat) (on : Nat → Bool) : List MsgField := (List.range w).map fun k => ((on (k + 1)).toNat, 1)

/-- An MSM7 message of a system over satellites with their reported cells, in PRN order; `more` is DF393. -/
def State.msm7 (s : State) (sys num : Nat) (more : Bool) (l : List (List CellNow)) : List Byte :=
  let cells := l.flatten
  let id := fun (c : CellNow) => (rtcmSignal c.cell.signal).getD 0
  let prn := fun (x : List CellNow) => ((x.head?).map (·.cell.prn)).getD 0
  let sigs := (List.range 32).filter fun k => cells.any fun c => id c = k + 1
  let steering : MsgField := (1, 2)
  let ext := fun (x : List CellNow) => if sys = 3 then (((x.head?).map (·.cell.fcn)).getD 1 : Int) - 1 else 15
  let rough := fun (x : List CellNow) => ((x.head?).map roughOf).getD (0, 0)
  let sat := fun (x : List CellNow) =>
    let r := rough x
    let bad := decide (r.1 < 0 ∨ 255 * 1024 ≤ r.1)
    let rate := if r.2.natAbs < 8192 then r.2 else -8192
    [((if bad then 255 else r.1 / 1024 : Int), 8), (ext x, 4), (if bad then 0 else r.1 % 1024, 10), (rate, 14)]
  packMsb ([((num : Int), 12), (s.station, 12)] ++ s.msmTime sys ++
    [((more.toNat : Int), 1), (0, 3), (0, 7), steering, (if s.clock.state = 1 then 1 else if s.clock.state = 0 then 0 else 2, 2), (0, 1), (0, 3)] ++
    maskFields 64 (fun n => l.any fun x => prn x = n) ++ maskFields 32 (fun n => sigs.contains (n - 1)) ++
    (l.flatMap fun x => sigs.map fun k => (((x.any fun c => id c = k + 1).toNat : Int), 1)) ++
    transposed 4 (l.map sat) ++ transposed 6 (l.flatMap fun x => x.map (msmCell (rough x))))

/-- The reported cells of a system by satellite, each satellite's in the order of its signals' IDs. -/
def reported (sys : Nat) (l : List (List CellNow)) : List (List CellNow) :=
  let id := fun (c : CellNow) => (rtcmSignal c.cell.signal).getD 0
  let one := fun (x : List CellNow) => (x.filter fun c => c.cell.sys = sys && (rtcmSignal c.cell.signal).isSome).mergeSort fun a b => decide (id a ≤ id b)
  (l.map one).filter fun x => decide (x ≠ [])

/-- How many entries the cell mask of some satellites has: satellites times signals. -/
def maskSize (l : List (List CellNow)) : Nat :=
  l.length * ((List.range 33).countP fun k => l.any fun x => x.any fun c => rtcmSignal c.cell.signal = some k)

/-- Splits satellites, in order, into messages whose cell mask holds at most 64 (R176; log 145). -/
def splitMsm : List (List CellNow) → List (List CellNow) → List (List (List CellNow))
  | [], [] => []
  | cur, [] => [cur]
  | cur, x :: t => if cur ≠ [] ∧ 64 < maskSize (cur ++ [x]) then cur :: splitMsm [x] t else splitMsm (cur ++ [x]) t

/-- The MSM7 messages of a system: every one but the last has DF393 = 1. -/
def State.msmOf (s : State) (sys num : Nat) (l : List (List CellNow)) : List (List Byte) :=
  let parts := splitMsm [] (reported sys l)
  parts.zipIdx.map fun p => s.msm7 sys num (decide (p.2 + 1 < parts.length)) p.1

/-- The frames of an RTCM epoch (Table 7.2): 1005 and 1033 at the whole seconds of GPST that 10 divides (log 145), then the MSM7 set. -/
def State.rtcmFrames (s : State) (second : Bool) (l : List (List CellNow)) : List (List Byte) :=
  let site := if second ∧ (s.epoch10 / 100 - 315964819) % 10 = 0 then [s.msg1005, s.msg1033] else []
  (site ++ msmSystems.flatMap fun p => s.msmOf p.1 p.2 l).map rtcmFrame

end Sys2Proof.Machine
end

