-- ==== Sys2Proof/Machine/Corr.lean ====
section
/-! DEFINITION. Correction frames, correction states and the sky-cell bias map (spec/07_corrections.md R170, R171, R174, R177-R188). -/

namespace Sys2Proof.Machine

/-! ### The shadow region (R168, R183) -/

/-- Whether the graphs run on this unit: on a standby the shadow regions are locked (13 R325), and the active's graphs speak for the station
(log 141). -/
def State.corrRuns (s : State) : Bool := !s.getB Fld.decantStateLocked

/-- The 8 bytes of a map entry (Table 7.7). -/
def MapCell.bytes (x : MapCell) : List Byte :=
  leBytes (unsigned 16 x.ph) 2 ++ leBytes (unsigned 16 x.code) 2 ++ leBytes x.weight 2 ++ leBytes x.sigma 1 ++
  leBytes (x.valid.toNat + 2 * x.clamped.toNat + 4 * x.dirty.toNat) 1

/-- Where map entry c lies. -/
def mapAddr (c : Nat) : Nat := Config.corrBase + 256 + 8 * c

/-- Replaces a map cell, and its entry in the shadow region. -/
def State.setCell (s : State) (c : Nat) (x : MapCell) : State :=
  ({ s with corr := { s.corr with map := Map.put s.corr.map c x } } : State).store (mapAddr c) x.bytes

/-- A list of records of numbers with their count in front. -/
def counted (l : List (List Int)) : List Int := (l.length : Int) :: l.flatten

/-- The numbers of a cell. -/
def CorrCell.nums (c : CorrCell) : List Int :=
  [c.sys, c.prn, c.signal, c.src, c.slip, c.due.toNat, c.on.toNat, c.k, c.add, c.prc, c.cpc, c.rate, c.fcn]

/-- A cell from its numbers. -/
def cellOfNums (l : List Int) : CorrCell :=
  let n := fun (k : Nat) => (l.getD k 0).toNat
  { sys := n 0, prn := n 1, signal := n 2, src := n 3, slip := n 4, due := n 5 = 1, on := n 6 = 1, k := l.getD 7 0, add := l.getD 8 0
    prc := l.getD 9 0, cpc := l.getD 10 0, rate := l.getD 11 0, fcn := n 12 }

/-- The numbers of the correction state (R168): the values sent last, the source antennas, the survey, what the map holds beside its entries, and
the residual buffer. -/
def Corr.nums (c : Corr) : List Int :=
  let nats : List Nat := [c.surveyed.toNat, c.used, c.state, c.short, c.good, c.staleUs, c.normalUs, c.normalTow, c.iof, c.fullTow, c.sentTow,
    c.epochTow, c.resume.toNat, c.gen, c.sweep, c.dropped, c.rejected]
  nats.map Int.ofNat ++ [c.base.x, c.base.y, c.base.z, c.sum.x, c.sum.y, c.sum.z] ++ counted (c.csb.map fun b => [(b.toNat : Int)]) ++
  counted (c.full.map fun f => [(f.sys : Int), f.prn, f.signal, f.prc, f.cpc, f.rate, f.marked.toNat]) ++
  counted (c.cells.map CorrCell.nums) ++ counted (c.sent.map CorrCell.nums) ++
  counted (c.map.map fun p => [(p.1 : Int), p.2.sentPh, p.2.sentCode, p.2.withdraw.toNat, p.2.last]) ++
  counted (c.resid.map fun r => [(r.cell : Int), r.ph, r.code]) ++
  counted (c.batches.map fun b => [(b.length : Int)]) ++ counted (c.batches.flatten.map fun r => [(r.cell : Int), r.ph, r.code])

/-- Where the correction state lies: after the map; each number in 16 bytes (log 140). -/
def stateAddr (k : Nat) : Nat := Config.corrBase + 256 + 248832 + 16 * k

/-- The correction state is written into the shadow region. -/
def State.corrSave (s : State) : State := s.store (stateAddr 0) (s.corr.nums.flatMap fun v => leBytes (unsigned 128 v) 16)

/-- A number of the correction state in the shadow region. -/
def State.corrNum (s : State) (k : Nat) : Int := signed 128 (s.readLE (stateAddr k) 16)

/-- A counted list of records of `w` numbers at a place, and the place after it. -/
def State.corrList (s : State) (w : Nat) (p : Nat) : List (List Int) × Nat :=
  let n := min 40000 (s.corrNum p).toNat
  ((List.range n).map fun k => (List.range w).map fun j => s.corrNum (p + 1 + w * k + j), p + 1 + w * n)

/-- A map cell from its entry, without what the entry does not hold. -/
def State.readCell (s : State) (c : Nat) : MapCell :=
  let b := s.rd (mapAddr c) 8
  let f := descAt b 7 1
  { ph := descInt b 0 2, code := descInt b 2 2, weight := descAt b 4 2, sigma := descAt b 6 1, valid := bitOf f 0, clamped := bitOf f 1
    dirty := bitOf f 2 }

/-- A residual from its numbers. -/
def residOf (l : List Int) : Residual := { cell := (l.getD 0 0).toNat, ph := l.getD 1 0, code := l.getD 2 0 }

/-- Cuts a list into pieces of given lengths. -/
def pieces {α : Type} : List Nat → List α → List (List α)
  | [], _ => []
  | n :: t, l => l.take n :: pieces t (l.drop n)

/-- The correction state as the shadow region holds it. -/
def State.readCorr (s : State) : Corr :=
  let n := fun (k : Nat) => (s.corrNum k).toNat
  let v := s.corrNum
  let csb := s.corrList 1 23
  let full := s.corrList 7 csb.2
  let cells := s.corrList 13 full.2
  let sent := s.corrList 13 cells.2
  let map := s.corrList 5 sent.2
  let resid := s.corrList 3 map.2
  let lens := s.corrList 1 resid.2
  let rest := s.corrList 3 lens.2
  let fullOf := fun (l : List Int) => ({ sys := (l.getD 0 0).toNat, prn := (l.getD 1 0).toNat, signal := (l.getD 2 0).toNat
                                         prc := l.getD 3 0, cpc := l.getD 4 0, rate := l.getD 5 0, marked := l.getD 6 0 = 1 } : FullCell)
  let mapOf := fun (m : Map MapCell) (l : List Int) =>
    let c := (l.getD 0 0).toNat
    Map.put m c { s.readCell c with sentPh := l.getD 1 0, sentCode := l.getD 2 0, withdraw := l.getD 3 0 = 1, last := (l.getD 4 0).toNat }
  { csb := csb.1.map fun l => BitVec.ofInt 8 (l.getD 0 0)
    surveyed := n 0 = 1, used := n 1, state := n 2, short := n 3, good := n 4, staleUs := n 5, normalUs := n 6, normalTow := n 7, iof := n 8
    fullTow := n 9, sentTow := n 10, epochTow := n 11, resume := n 12 = 1, gen := n 13, sweep := n 14, dropped := n 15, rejected := n 16
    base := ⟨v 17, v 18, v 19⟩, sum := ⟨v 20, v 21, v 22⟩, full := full.1.map fullOf, cells := cells.1.map cellOfNums
    sent := sent.1.map cellOfNums, map := map.1.foldl mapOf [], resid := resid.1.map residOf
    batches := pieces (lens.1.map fun l => (l.getD 0 0).toNat) (rest.1.map residOf) }

/-- A new active takes the correction state from the shadow region, which the last sealed journal left there, and aligns it at its first correction
epoch (R188). -/
def State.corrRestore (s : State) : State :=
  let c := s.readCorr
  { s with
    corr := { c with align := true, first := true, stepSec := s.corr.stepSec }
    clock := { s.clock with posFixed := c.csb ≠ [] && (descAt c.csb 12 1 % 2 = 0 || c.surveyed) } }

/-! ### The settings block goes live (R168-R170, R185) -/

/-- MAP_CLEAR of a zone (R185): its cells are 0, with DIRTY. -/
def State.clearZone (s : State) (z : Nat) : State :=
  let lo := 3888 * z
  let m := s.corr.map
  let cell := fun (c : Nat) =>
    let x := Map.getD m c {}
    (c, ({ dirty := true, sentPh := x.sentPh, sentCode := x.sentCode, withdraw := x.valid || x.withdraw } : MapCell))
  let zone := (List.range 3888).map fun k => cell (lo + k)
  let m := m.filter (fun p => p.1 < lo) ++ zone ++ m.filter fun p => lo + 3888 ≤ p.1
  ({ s with corr := { s.corr with map := m } } : State).store (mapAddr lo) (zone.flatMap fun p => p.2.bytes)

/-- MAP_CLEAR (R185) of the zones named. -/
def State.mapClear (s : State) (zones : Nat) : State :=
  (List.range 8).foldl (fun s z => if bitOf zones z then s.clearZone z else s) s

/-- Enters STOPPED (R181). -/
def State.corrStop (s : State) : State := ({ s with corr := { s.corr with state := 3 } } : State).corrEvent 0x10C2

/-- The check of the settings block at a correction epoch (R168): a block of another VERSION is live when it passes; with POS_SRC 0 the base
position is fixed, with POS_SRC 1 and no survey one begins (R169, R170).  CSB_REJECTED goes to EVQ of the live block and, while there is none, to
that of the failing one (log 142). -/
def State.csbCheck (s : State) : State :=
  let s := s.touch Config.corrBase 256
  let b := s.rd Config.corrBase 256
  if s.corr.csb ≠ [] ∧ descAt b 4 4 = s.csbAt 4 4 then s
  else if csbOk b then
    let s : State := { s with corr := { s.corr with csb := b } }
    let s := s.mapClear (descAt b 108 1)
    if s.csbMode 0 then
      if s.corr.surveyed then s
      else
        let c := { s.corr with state := 0 }
        let c := if s.corr.state = 0 then c else { c with sum := ⟨0, 0, 0⟩, used := 0 }
        { s with corr := c, clock := { s.clock with posFixed := false } }
    else
      let s : State := { s with clock := { s.clock with posFixed := true } }
      if s.corr.state = 0 then s.corrStop else s
  else
    let (v, s) := s.draw
    let q := if s.corr.csb = [] then descAt b 110 1 else s.csbAt 110 1
    s.graphPush q (leBytes 0x1040 2 ++ leBytes 0xFFFF 2 ++ leBytes s.cycle 4 ++ leBytes v 8)

/-! ### QCC frames (R177-R180) -/

/-- A field of a fragment: value and width; fields are packed LSB first. -/
abbrev BitField := Int × Nat

/-- Packs fields after one another from bit 0 up, padded to a whole byte with 0. -/
def packBits (l : List BitField) : List Byte :=
  let r := l.foldl (fun (a : Nat × Nat) f => (a.1 + unsigned f.2 f.1 * 2 ^ a.2, a.2 + f.2)) (0, 0)
  leBytes r.1 ((r.2 + 7) / 8)

/-- Whether a value fits in `w` bits, signed. -/
def fitsSigned (w : Nat) (v : Int) : Bool := decide (-(2 ^ (w - 1)) ≤ v ∧ v < 2 ^ (w - 1))

/-- A cell in the units of Table 7.6. -/
def CellNow.units (c : CellNow) : FullCell :=
  { sys := c.cell.sys, prn := c.cell.prn, signal := c.cell.signal, prc := qround 43 c.cell.prc 10000000
    cpc := qround 44 c.cell.cpc 500000, rate := qround 45 c.cell.rate 1000000 }

/-- Whether a cell's values fit their fields (R178). -/
def FullCell.inRange (c : FullCell) : Bool := fitsSigned 16 c.prc && fitsSigned 22 c.cpc && fitsSigned 12 c.rate

/-- The fields of a cell in a full frame. -/
def CellNow.fields (c : CellNow) : List BitField :=
  let u := c.units
  [(u.signal, 8), (u.prc, 16), (u.cpc, 22), (u.rate, 12), (c.cell.slip, 3), (c.q, 2), (0, 1)]

/-- The cells grouped by satellite. -/
def bySat : List CellNow → List (List CellNow)
  | [] => []
  | c :: t => match bySat t with
    | (d :: u) :: r => if d.cell.sys = c.cell.sys ∧ d.cell.prn = c.cell.prn then (c :: d :: u) :: r else [c] :: (d :: u) :: r
    | r => [c] :: r

/-- The fields of a satellite block with its cells (Table 7.6). -/
def satFields (l : List CellNow) : List BitField :=
  match l with
  | [] => []
  | c :: _ =>
    let head : List BitField := [(c.cell.sys, 3), (c.cell.prn, 6), (c.iod % 256, 8), ((l.length : Int) - 1, 3), (0, 4)]
    head ++ l.flatMap CellNow.fields

/-- The width of fields in bits. -/
def widthOf (l : List BitField) : Nat := l.foldl (fun n f => n + f.2) 0

/-- Fills fragments of at most `room` bytes after the header with whole blocks, in order: the number of the first block of each and its
fields. -/
def fillBlocks (room : Nat) : List (List BitField) → Nat → Option (Nat × List BitField) → List (Nat × List BitField)
  | [], _, none => []
  | [], _, some x => [x]
  | b :: t, n, none => fillBlocks room t (n + 1) (some (n, b))
  | b :: t, n, some x =>
    if widthOf x.2 + widthOf b ≤ 8 * room then fillBlocks room t (n + 1) (some (x.1, x.2 ++ b))
    else x :: fillBlocks room t (n + 1) (some (n, b))

/-- The fragments of a frame: at least one, though it be empty (R177). -/
def fillFrags (room : Nat) (l : List (List BitField)) : List (Nat × List BitField) :=
  match fillBlocks room l 0 none with
  | [] => [(0, [])]
  | r => r

/-- FLAGS of the header (Table 7.5). -/
def State.qccFlags (s : State) : Nat :=
  let jam := fun (n : Nat) => (List.range 4).any fun a => s.antJam a = n
  (decide (s.corr.state = 2)).toNat + 2 * (jam 1).toNat + 4 * (jam 2).toNat + 8 * (decide (s.clock.state = 2)).toNat + 16 * (s.csbMode 0).toNat +
  32 * (decide (s.corr.stepSec = some s.site.sec)).toNat + 64 * s.corr.first.toNat

/-- A fragment: the header of Table 7.5 and what follows it. -/
def fragBytes (type frag nfrag tow issue flags first : Nat) (body : List Byte) : List Byte :=
  leBytes (type + 16) 1 ++ leBytes (frag + 16 * (nfrag - 1)) 1 ++ leBytes (tow % 2 ^ 30) 4 ++ leBytes issue 1 ++ leBytes flags 1 ++
  leBytes first 2 ++ body

/-- The fragments of a frame from its filled blocks. -/
def frameOf (type tow issue flags : Nat) (l : List (Nat × List BitField)) : List (List Byte) :=
  l.zipIdx.map fun p => fragBytes type p.2 l.length tow issue flags p.1.1 (packBits p.1.2)

/-- Leaves the lowest satellite out. -/
def dropLowest (l : List (List CellNow)) : List (List CellNow) :=
  let elev := fun (x : List CellNow) => match x with
    | c :: _ => c.elev
    | [] => 0
  match l with
  | [] => []
  | x :: _ =>
    let m := l.foldl (fun m y => min m (elev y)) (elev x)
    let k := l.findIdx fun y => elev y = m
    l.eraseIdx k

/-- Leaves satellites out until the frame has at most 16 fragments; how many were left out. -/
def fitFull (room : Nat) : Nat → List (List CellNow) → List (List CellNow) × Nat
  | 0, l => (l, 0)
  | n + 1, l =>
    if (fillFrags room (l.map satFields)).length ≤ 16 then (l, 0)
    else let r := fitFull room n (dropLowest l); (r.1, r.2 + 1)

/-- The bytes of a fragment after the header. -/
def State.fragRoom (s : State) : Nat := s.csbAt 98 2 - 10

/-- QCC_FULL_FRAME (R178): IOF advances; satellites out of range or without a fragment are left out, each with CELL_RANGE. -/
def State.fullFrame (s : State) (tow : Nat) (cells : List CellNow) : List (List Byte) × State :=
  let sats := bySat cells
  let fit := sats.filter fun l => l.all fun c => c.units.inRange
  let r := fitFull s.fragRoom fit.length fit
  let s := (List.range (sats.length - fit.length + r.2)).foldl (fun s _ => s.corrEvent 0x10C5) s
  let iof := (s.corr.iof + 1) % 256
  let out := frameOf 1 tow iof s.qccFlags (fillFrags s.fragRoom (r.1.map satFields))
  (out, { s with corr := { s.corr with iof := iof, fullTow := tow, full := r.1.flatten.map CellNow.units } })

/-- The cell of a delta (R179): its fields, and the full cell with its mark. -/
def State.deltaCell (s : State) (tow : Nat) (cells : List CellNow) (u : FullCell) : List BitField × FullCell :=
  let dt := ((tow : Int) - s.corr.fullTow) % 604800000
  match cells.find? fun c => c.cell.sys = u.sys && c.cell.prn = u.prn && c.cell.signal = u.signal with
  | none => ([(0, 1)], { u with marked := true })
  | some c =>
    let dp := qround 46 (c.cell.prc - (u.prc * 10000000 + u.rate * dt * 1000)) 10000000
    let dc := qround 47 (c.cell.cpc - (u.cpc * 500000 + u.rate * dt * 1000)) 500000
    if u.marked ∨ !fitsSigned 10 dp ∨ !fitsSigned 14 dc then ([(0, 1)], { u with marked := true })
    else ([(1, 1), (dp, 10), (dc, 14), (c.cell.slip, 3)], u)

/-- QCC_DELTA_FRAME (R179). -/
def State.deltaFrame (s : State) (tow : Nat) (cells : List CellNow) : List (List Byte) × State :=
  let l := s.corr.full.map (s.deltaCell tow cells)
  let out := frameOf 2 tow s.corr.iof s.qccFlags (fillFrags s.fragRoom (l.map (·.1)))
  (out, { s with corr := { s.corr with full := l.map (·.2) } })

/-- The status fragment (R180). -/
def State.statusFrag (s : State) : List Byte :=
  let age := min 0xFFFF ((s.us - s.corr.normalUs) / 100000)
  fragBytes 4 0 1 s.corr.normalTow s.corr.iof s.qccFlags 0 (leBytes s.corr.state 1 ++ leBytes age 2)

/-! ### The map broadcast (R187) -/

/-- Stored PH in the 0.25 mm of a record. -/
def phRecord (ph : Int) : Int := roundNear (2 * ph) 5

/-- What a record of a cell says: PH, -2048 for a withdrawal, and CODE. -/
def MapCell.said (x : MapCell) : Int × Int := (if x.valid then phRecord x.ph else -2048, x.code)

/-- A record of a map frame. -/
def mapRecord (r : Nat × Int × Int) : List BitField := [(r.1, 15), (r.2.1, 12), (r.2.2, 12), (0, 1)]

/-- A cell after a record of it was sent: DIRTY is clear unless the cell says something else by now. -/
def MapCell.sent (x : MapCell) (said : Int × Int) : MapCell :=
  { x with
    dirty := x.dirty && decide (x.said ≠ said), withdraw := x.withdraw && decide (said.1 ≠ -2048)
    sentPh := if said.1 = -2048 then 0 else said.1, sentCode := if said.1 = -2048 then 0 else said.2 }

/-- The cells a sweep goes on to: the next valid cells from its place, around the map. -/
def sweepCells (m : Map MapCell) (from' n : Nat) : List Nat :=
  let v := (m.filter fun p => p.2.valid).map (·.1)
  (v.filter (from' ≤ ·) ++ v.filter (· < from')).take n

/-- The cells whose records go out in the room for `n` records (R187): changed and withdrawn ones, then the sweep's share. -/
def State.mapCells (s : State) (n : Nat) : List Nat × List Nat :=
  let m := s.corr.map
  let due := ((m.filter fun p => (p.2.dirty && p.2.valid) || p.2.withdraw).map (·.1)).take n
  let valid := m.countP fun p => p.2.valid
  let share := (valid + 10 * s.csbAt 109 1 - 1) / (10 * s.csbAt 109 1)
  (due, sweepCells m s.corr.sweep (min share (n - due.length)))

/-- MAP_FRAME (R187) in at most the given number of fragments, each with its records. -/
def State.mapFrame (s : State) (tow slots : Nat) : List Fragment × State :=
  let per := s.fragRoom / 5
  let (due, swept) := s.mapCells (per * min 16 slots)
  let recs : List (Nat × Int × Int) := (due ++ swept).map fun c => (c, (Map.getD s.corr.map c {}).said)
  let n := (recs.length + per - 1) / per
  let out := (List.range n).map fun k =>
    let r := (recs.drop (k * per)).take per
    ({ epoch := s.cycle, bytes := fragBytes 3 k n tow s.corr.gen s.qccFlags r.length (packBits (r.flatMap mapRecord)), map := r } : Fragment)
  let sweep := match swept.getLast? with
    | some c => c + 1
    | none => s.corr.sweep
  (out, { s with corr := { s.corr with sweep := sweep } })

/-! ### The correction epoch (R170, R171, R174, R181) -/

/-- A slot's byte of a plan. -/
def planByte (plan : List Byte) (k : Nat) : Nat := descAt plan k 1

/-- The correction slots of a port in the superframe that follows a cycle (09 R223). -/
def corrSlots (plan : List Byte) (second : Bool) : List Nat :=
  (List.range 40).filter fun k => planByte plan k % 16 = 2 || (second && planByte plan k % 16 = 3)

/-- A port of the radio MAC. -/
def State.port (s : State) (n : Nat) : RadioPort := Map.getD s.radio.ports n {}

/-- Replaces a port. -/
def State.setPort (s : State) (n : Nat) (p : RadioPort) : State :=
  { s with radio := { s.radio with ports := Map.put s.radio.ports n p } }

/-- The running ports. -/
def State.runningPorts (s : State) : List Nat := (List.range 4).filter fun n => s.get Fld.radioStatState n = 2

/-- How many correction slots every running port has in the superframe that follows the present cycle: none with no port running. -/
def State.slotsLeft (s : State) : Nat :=
  match s.runningPorts.map fun n => (corrSlots (s.port n).planLive s.onSecond).length with
  | [] => 0
  | k :: t => t.foldl min k

/-- The fragments and the RTCM frames of an epoch in the present state. -/
def State.corrOutput (s : State) (tow : Nat) (cells : List CellNow) : State :=
  let qcc := s.csbMode 2
  let second := s.onSecond
  let wrap := fun (l : List (List Byte)) => l.map fun b => ({ epoch := s.cycle, bytes := b } : Fragment)
  if s.corr.state = 1 then
    let (cf, s) : List (List Byte) × State :=
      if !qcc then ([], s) else if second ∨ s.corr.resume then s.fullFrame tow cells else s.deltaFrame tow cells
    let (mf, s) : List Fragment × State :=
      if qcc ∧ s.csbMode 3 ∧ cf.length < s.slotsLeft then s.mapFrame tow (s.slotsLeft - cf.length) else ([], s)
    let s : State := { s with corr := { s.corr with
      frags := wrap cf ++ mf, resume := false, normalUs := s.us, normalTow := tow, first := s.corr.first && !qcc } }
    if s.csbMode 1 ∧ (second ∨ s.csbMode 4) then
      (s.rtcmFrames second (bySat cells)).foldl (fun s b => s.graphPush (s.csbAt 111 1) b) s
    else s
  else
    let due := qcc && (second || decide (s.corr.state = 2))
    { s with corr := { s.corr with frags := if due then wrap [s.statusFrag] else [] } }

/-- An epoch of the survey (R170): the solution of REFANT's position counts where at least MIN_SAT satellites entered it. -/
def State.surveyEpoch (s : State) (sats : List CorrSat) (l : List Rec) (fix : Option Ecef) : State :=
  let n := (sats.filter fun v => v.healthy && !(s.satRecs v l).isEmpty).length
  match fix with
  | some p =>
    if s.corr.state = 0 ∧ s.csbAt 95 1 ≤ n then
      { s with corr := { s.corr with sum := ecefAdd s.corr.sum (ecefTuple p), used := s.corr.used + 1 } }
    else s
  | none => s

/-- Aligns the cells of a new active's first correction epoch (R188). -/
def State.corrAlign (s : State) (tow : Nat) (cells : List CellNow) : List CellNow × State :=
  let dt := ((tow : Int) - s.corr.sentTow) % 604800000
  let old := s.corr.sent.filter (·.on)
  (List.range 3).foldl (fun (x : List CellNow × State) g => x.2.alignGroup g dt old x.1) (cells, s)

/-- What the graphs compute at a correction epoch that is in time (R172, R181, R188). -/
def State.corrCompute (s : State) (sats : List CorrSat) (fix : Option Ecef) : State :=
  let s := s.recordsTouch
  let l := (List.range 4).flatMap s.records
  let s := s.surveyEpoch sats l fix
  let tow := s.epochTow
  let cells := if s.clock.posFixed then s.epochCells sats l else []
  let (cells, s) := if s.corr.align then s.corrAlign tow cells else (cells, s)
  let cells := if s.corr.resume ∧ s.corr.state = 1 then cells.map CellNow.bump else cells
  let enough := decide (s.csbAt 95 1 ≤ (bySat cells).length)
  let s : State := { s with corr := { s.corr with
    cells := cellsAfter cells s.corr.cells, align := false, short := if enough then 0 else s.corr.short + 1
    good := if enough then s.corr.good + 1 else 0, epochTow := tow } }
  s.corrOutput tow cells

/-- CORRECTION_EPOCH (R171-R181): once at a tenth-second boundary, and only before the freeze of its cycle. -/
def State.correctionEpoch (s : State) (sats : List CorrSat) (fix : Option Ecef) : State :=
  if !s.onTenth ∨ !s.corrRuns ∨ s.corr.lastEpoch = some s.cyclePs then s
  else
    let s := ({ s with corr := { s.corr with lastEpoch := some s.cyclePs } } : State).csbCheck
    if s.corr.csb = [] then s
    else if 2 ≤ s.get Fld.sysPhasePhase then s.corrEvent 0x10C4
    else (s.corrCompute sats fix).corrSave

/-- CORRECTION_EPOCH (R171): what the ephemerides give of the satellites and, in SURVEYING, the epoch's solution of REFANT's position. -/
def execCorrectionEpoch (sats : List CorrSat) (fix : Option Ecef) (s : State) : Result := .next (s.correctionEpoch sats fix)

/-- Discards output of the graphs that is not sent (R174, R180). -/
def State.corrDiscard (s : State) (n : Nat) : State := (List.range n).foldl (fun s _ => s.corrEvent 0x10C4) s

/-- FRAGMENT_SLOT_OFFER (R174, R180): in the release phase of cycle N the fragments of its epoch are offered, in order, to the correction
slots of N+1 on every running port; a fragment that is left over on one is discarded. -/
def State.offerFrags (s : State) : State :=
  let mine := s.corr.frags.filter fun f => f.epoch = s.cycle
  let late := s.corr.frags.length - mine.length
  let ports := s.runningPorts.map fun n => (n, corrSlots (s.port n).planLive s.onSecond)
  let offered := ports.flatMap fun p => (p.2.zip mine).map fun x => (p.1, x.1, x.2.bytes)
  let most := ports.foldl (fun m p => max m p.2.length) 0
  let left := if ports = [] then mine.length else ports.foldl (fun m p => max m (mine.length - p.2.length)) 0
  let going := (mine.take most).flatMap (·.map)
  let s : State := { s with corr := { s.corr with
    frags := [], offered := offered, going := going, goingCycle := if mine = [] then none else some s.cycle } }
  s.corrDiscard (late + left)

/-- The output of a cycle is released when its gate opens: the map records count as sent (R187), and the cells' values are the last released
(R188). -/
def State.corrReleased (s : State) (opened : Bool) : State :=
  let c := s.corr
  let s : State := { s with corr := { c with offered := [], going := [], goingCycle := none } }
  if opened ∧ c.goingCycle = some s.cycle ∧ s.corrRuns then
    let s := c.going.foldl (fun s r => s.setCell r.1 ((Map.getD s.corr.map r.1 {}).sent r.2)) s
    if c.state = 1 then ({ s with corr := { s.corr with sent := s.corr.cells, sentTow := s.corr.epochTow } } : State).corrSave else s.corrSave
  else s

/-! ### Survey and states (R170, R181) -/

/-- SURVEY_DONE (R170): SURVEY_S seconds of epochs were used, and the 3D 1σ of their mean, in mm, is within SURVEY_MM; the mean is the base
position, and the event's VALUE is the position in cm as three signed 21-bit fields. -/
def execSurveyDone (sigma : Nat) (s : State) : Result :=
  if s.corrRuns ∧ s.corr.state = 0 ∧ s.csbAt 88 4 * 10 ≤ s.corr.used ∧ sigma ≤ s.csbAt 92 2 then
    let mean := fun (v : Int) => qround 57 v s.corr.used
    let cm := fun (v : Int) => unsigned 21 (qround 58 v 100)
    let b : Ecef := ⟨mean s.corr.sum.x, mean s.corr.sum.y, mean s.corr.sum.z⟩
    let s : State := { s with corr := { s.corr with surveyed := true, base := b, good := 0 }, clock := { s.clock with posFixed := true } }
    .next (((s.corrPost 0x10C7 (cm b.x + cm b.y * 2 ^ 21 + cm b.z * 2 ^ 42)).corrStop).corrSave)
  else .next s

/-- CORR_STALE (R181). -/
def execCorrStale (s : State) : Result :=
  .next (if s.corrRuns ∧ s.corr.state = 1 ∧ (!s.clock.corrOk ∨ 10 ≤ s.corr.short) then
      (({ s with corr := { s.corr with state := 2, staleUs := s.us } } : State).corrEvent 0x10C1).corrSave
    else s)

/-- CORR_STOPPED (R181): STALE_S in STALE have elapsed. -/
def execCorrStopped (s : State) : Result :=
  .next (if s.corrRuns ∧ s.corr.state = 2 ∧ s.corr.staleUs + s.csbAt 96 2 * 1000000 ≤ s.us then s.corrStop.corrSave else s)

/-- CORR_RESUMED (R181): CORR_OK, and enough satellites at 10 correction epochs in a row; the stream starts with a full frame. -/
def execCorrResumed (s : State) : Result :=
  .next (if s.corrRuns ∧ (s.corr.state = 2 ∨ s.corr.state = 3) ∧ s.clock.corrOk ∧ 10 ≤ s.corr.good then
      (({ s with corr := { s.corr with state := 1, resume := true } } : State).corrEvent 0x10C3).corrSave
    else s)

/-! ### Residuals and the batch (R184-R186) -/

/-- What residuals are multiplied with, so that a mean over 5 to 48 of them is whole. -/
def residScale : Int := 442720643463713815200

/-- A record of a report (Table 7.8), and its cell, when it is in range. -/
def reportRecord (zone : Nat) (b : List Byte) : Option (Nat × Int × Int × Nat) :=
  let v := leNat b
  let az := bits v 0 9
  let el := bits v 9 7
  let g := bits v 16 2
  if az ≤ 359 ∧ el ≤ 90 ∧ g ≤ 2 then
    some (g, signed 12 (bits v 18 12), signed 12 (bits v 30 12), ((zone * 3 + g) * 18 + min 17 (el / 5)) * 72 + az / 5)
  else none

/-- The residuals of a band group less their mean. -/
def groupResid (l : List (Nat × Int × Int × Nat)) (g : Nat) : List Residual :=
  let m := l.filter fun r => r.1 = g
  let n : Int := m.length
  let sp := m.foldl (fun t r => t + r.2.1) 0
  let sc := m.foldl (fun t r => t + r.2.2.1) 0
  if m.length < 5 then []
  else m.map fun r => { cell := r.2.2.2, ph := (n * r.2.1 - sp) * (residScale / n), code := (n * r.2.2.1 - sc) * (residScale / n) }

/-- RESIDUAL_REPORT (R184). -/
def State.residualReport (s : State) (b : List Byte) : State :=
  let n := descAt b 8 1
  let gen := descAt b 3 1
  let ok := bitOf (descAt b 2 1) 3 && decide (5 ≤ n ∧ n ≤ 48) && decide (gen = s.corr.gen ∨ (gen + 1) % 256 = s.corr.gen)
  if s.corr.csb = [] ∨ !s.csbMode 3 ∨ !s.corrRuns then s
  else if !ok then (({ s with corr := { s.corr with rejected := s.corr.rejected + 1 } } : State).corrEvent 0x10C6).corrSave
  else
    let recs := (List.range n).filterMap fun r => reportRecord (descAt b 2 1 % 8) ((b.drop (10 + 6 * r)).take 6)
    let l := groupResid recs 0 ++ groupResid recs 1 ++ groupResid recs 2
    let room := 8192 - s.corr.resid.length
    let c := { s.corr with resid := s.corr.resid ++ l.take room, dropped := s.corr.dropped + (l.length - room) }
    ({ s with corr := c } : State).corrSave

/-- RESIDUAL_REPORT (R184). -/
def execResidualReport (payload : List Byte) (s : State) : Result := .next (s.residualReport payload)

/-- A whole second begins: the residuals of the second before wait for their batch (R185). -/
def State.corrSecond (s : State) : State :=
  if s.corr.resid = [] then s else { s with corr := { s.corr with resid := [], batches := s.corr.batches ++ [s.corr.resid] } }

/-- The nearest whole number to the root of num / den. -/
def sqrtNear (num den : Nat) : Nat := (Nat.sqrt (4 * num / den) + 1) / 2

/-- A value held at its limit, and whether it was beyond (R186). -/
def heldAt (num den lim limDen : Int) : Int × Bool :=
  if lim * den < num * limDen then (roundNear lim limDen, true)
  else if num * limDen < -lim * den then (roundNear (-lim) limDen, true)
  else (roundNear num den, false)

/-- exp(-num / den) for num at most den, in units of 2^-256: 64 terms of its series. -/
def expSmall (num den : Nat) : Int :=
  ((List.range 64).foldl (fun (a : Int × Int) k =>
    let t := -a.2 * num / (den * (k + 1) : Nat)
    (a.1 + t, t)) ((2 ^ 256 : Int), (2 ^ 256 : Int))).1

/-- exp(-dt / (60 tau)) of R185 for dt in s and tau in min, in units of 2^-128: far finer than the 1/16 to which a weight is rounded. -/
def mapDecay (dt tau : Nat) : Nat :=
  let n := dt / (60 * tau)
  if 128 < n then 0
  else (expSmall (dt % (60 * tau)) (60 * tau) * expSmall 1 1 ^ n / (2 ^ 128 * 2 ^ (256 * n))).toNat

/-- The update of one cell from the residuals that name it (R185, R186). -/
def State.mapUpdate (s : State) (x : MapCell) (l : List Residual) : MapCell :=
  let keep := l.filter fun r => decide (10 * r.ph.natAbs ≤ 4 * 4 * max x.sigma 20 * residScale.natAbs)
  let n : Nat := keep.length
  if n = 0 then x
  else
    let one : Nat := 2 ^ 132
    let w : Nat := x.weight * mapDecay (s.site.sec - x.last) (s.csbAt 100 2) + n * one
    let g : Int := residScale
    let sp : Int := keep.foldl (fun t r => t + r.ph) 0
    let sc : Int := keep.foldl (fun t r => t + r.code) 0
    let sq : Nat := keep.foldl (fun t r => t + r.ph.natAbs ^ 2) 0
    let wi : Int := w
    let ph := heldAt (2 * x.ph * wi * g + 5 * sp * one) (2 * wi * g) (5 * s.csbAt 104 2) 2
    let code := heldAt (x.code * wi * g + sc * one) (wi * g) (s.csbAt 106 2) 1
    let weight : Nat := min 0xFFFF ((2 * w + one / 16) / (one / 8))
    let g2 : Nat := residScale.natAbs ^ 2
    let sig : Nat := min 255 (sqrtNear (4 * x.sigma ^ 2 * (w - n * one) * g2 + 25 * sq * one) (4 * w * g2))
    let valid := decide (16 * s.csbAt 102 2 ≤ weight)
    let y := { x with
      ph := ph.1, code := code.1, weight := weight, sigma := sig, valid := valid, clamped := ph.2 || code.2
      withdraw := x.withdraw && !valid || x.valid && !valid, last := s.site.sec }
    { y with dirty := x.dirty || decide (phRecord y.ph ≠ x.sentPh ∨ y.code ≠ x.sentCode) }

/-- The numbers in a list of residuals, rising, each once. -/
def residCells (l : List Residual) : List Nat := l.foldl (fun t r => insertLine t r.cell) []

/-- The cells of one batch of residuals, each updated once (R185); beside the state, whether a cell became DIRTY. -/
def State.mapBatch (s : State) (l : List Residual) : State × Bool :=
  (residCells l).foldl (fun (a : State × Bool) c =>
    let x := Map.getD a.1.corr.map c {}
    let y := s.mapUpdate x (l.filter fun r => r.cell = c)
    if x = y then a else (a.1.setCell c y, a.2 || (y.dirty && !x.dirty))) (s, false)

/-- MAP_BATCH (R185): the batch of the oldest second that waits; the generation advances when a DIRTY flag is set. -/
def execMapBatch (s : State) : Result :=
  match s.corr.batches with
  | [] => .next s
  | l :: rest =>
    if !s.corrRuns then .next s
    else
      let r := s.mapBatch l
      let t := r.1
      .next ({ t with corr := { t.corr with batches := rest, gen := if r.2 then (t.corr.gen + 1) % 256 else t.corr.gen } } : State).corrSave

end Sys2Proof.Machine
end

