-- ==== Sys2Proof/Machine/Radio.lean ====
section
/-! DEFINITION. The fleet radio MAC, its ports and limits (spec/09_fleet_radio.md R217-R225, R231, R241-R245, R249-R251) and the firing of
timed actions (spec/03_wilquex_node_sequencer.md R82-R85). -/

namespace Sys2Proof.Machine

/-! ### Slot geometry and plans (R220-R224) -/

/-- Reads a field of the live or the staged set. -/
abbrev FieldRead := Fld → Nat → Nat

/-- The live set. -/
def State.liveRead (s : State) : FieldRead := fun f i => s.get f i

/-- The staged set. -/
def State.stagedRead (s : State) : FieldRead := fun f i => s.getStaged f i

/-- Slots of a superframe and their length in us. -/
def geometry (rate : Nat) : Nat × Nat := if 1000 ≤ rate then (40, 250) else (20, 500)

/-- The air time of `len` bytes in the unit (us) × (kb/s): T(L) times RATE. -/
def airRate (g : FieldRead) (n len : Nat) : Nat := 8000 * (g Fld.radioPhyPhyovh n + len)

/-- Whether a frame armed at `off` us fits a span that ends at `stop` us (R220). -/
def frameFits (g : FieldRead) (n off len stop : Nat) : Bool :=
  decide ((off + g Fld.radioTimTxlatUs n + g Fld.radioTimGuardUs n) * g Fld.radioPhyRateKbps n + airRate g n len ≤
    stop * g Fld.radioPhyRateKbps n)

/-- TYPE and SPAN of a plan's slot. -/
def slotType (plan : List Byte) (k : Nat) : Nat := planByte plan k % 16
/-- The slots a span covers. -/
def slotSpan (plan : List Byte) (k : Nat) : Nat := bits (planByte plan k) 4 3 + 1

/-- The span that contains an offset (us): its first slot, start and end. -/
def spanAt (plan : List Byte) (rate us : Nat) : Option (Nat × Nat × Nat) :=
  let (ns, len) := geometry rate
  ((List.range ns).find? fun k => slotType plan k ≠ 0 && decide (k * len ≤ us ∧ us < (k + slotSpan plan k) * len)).map
    fun k => (k, k * len, (k + slotSpan plan k) * len)

/-- Whether the POLL sub-slot layout fits a span of `us` us (R237). -/
def pollFits (g : FieldRead) (n us : Nat) : Bool :=
  let rate := g Fld.radioPhyRateKbps n
  let sub := 2 ^ g Fld.radioPollNsub n
  let ans := g Fld.radioPollAnsoffUs n
  decide (g Fld.radioPollNsub n ≤ 2) &&
  decide ((g Fld.radioTimLeadpUs n + g Fld.radioPollPguardUs n) * rate + airRate g n 16 ≤ ans * rate) &&
  decide (sub * ((ans + g Fld.radioTimTxlatUs n + g Fld.radioTimGuardUs n) * rate + airRate g n 22) ≤ us * rate)

/-- Whether a plan passes (R223, R224). -/
def planOk (g : FieldRead) (n : Nat) (plan : List Byte) : Bool :=
  let (ns, len) := geometry (g Fld.radioPhyRateKbps n)
  let perWin := 2000 / len
  let starts := (List.range ns).filter fun k => slotType plan k ≠ 0
  let spanOk := fun (k : Nat) =>
    let t := slotType plan k
    let m := slotSpan plan k
    planByte plan k / 128 = 0 && decide (t ≤ 8) && decide (t = 1 ↔ k = 0) && decide (k + m ≤ ns ∧ k / perWin = (k + m - 1) / perWin) &&
    ((List.range m).all fun j => j = 0 || planByte plan (k + j) = 0) &&
    (t < 5 || (List.range m).all fun j => decide ((if ns = 40 then 2 else 1) ≤ (k + j) % perWin)) &&
    (t ≠ 6 || pollFits g n (m * len)) && (t ≠ 1 || frameFits g n 0 30 (m * len))
  slotType plan 0 = 1 && starts.all spanOk && ((List.range ns).all fun k => slotType plan k ≠ 0 || planByte plan k = 0) &&
  ((List.range 64).all fun k => k < ns || k = 48 || planByte plan k = 0) &&
  decide (starts.countP (fun k => slotType plan k = 5) ≤ 16) && decide (starts.countP (fun k => slotType plan k = 6) ≤ 16)

/-- The plan block of a port in memory (R223). -/
def State.planOf (s : State) (g : FieldRead) (n : Nat) : List Byte := s.rd (g Fld.radioPlanbaseAddr 0 * 256 + 64 * n) 64

/-! ### Consistency groups (R251) -/

/-- LAYOUT (R251). -/
def State.radioLayoutOk (s : State) (g : FieldRead) : Bool :=
  let nb := g Fld.radioNbrbaseAddr 0 * 256
  let pb := g Fld.radioPlanbaseAddr 0 * 256
  s.inShadow nb 67072 && inGranary pb 256 && !overlaps nb 67072 pb 256

/-- PORTn (R251). -/
def State.radioPortOk (s : State) (g : FieldRead) (n : Nat) : Bool :=
  let within := fun (f : Fld) (lo hi : Nat) => decide (lo ≤ g f n ∧ g f n ≤ hi)
  within Fld.radioPhyRateKbps 500 12000 && within Fld.radioPhyPhyovh 4 31 && within Fld.radioPhySyncb 1 31 &&
  within Fld.radioTimGuardUs 5 63 && planOk g n (s.planOf g n)

/-- The beacon map. -/
def beaconMap (g : FieldRead) (n : Nat) : Nat := g Fld.radioBmaploMap n + g Fld.radioBmaphiMap n * 2 ^ 32

/-- The set bits of a 64-bit map, ascending. -/
def setBits (v : Nat) : List Nat := (List.range 64).filter (bitOf v)

/-- REGn (R251, Table 9.17). -/
def radioRegOk (g : FieldRead) (n : Nat) : Bool :=
  let within := fun (f : Fld) (lo hi : Nat) => decide (lo ≤ g f n ∧ g f n ≤ hi)
  let dbm := signed 8 (g Fld.radioRegCcaDbm n)
  let mode := g Fld.radioRegMode n
  decide (-120 ≤ dbm ∧ dbm ≤ -40) && within Fld.radioLbtCcaUs 5 160 && within Fld.radioLbtBoUs 5 100 && within Fld.radioRegCw 1 32 &&
  within Fld.radioRegTries 1 8 && within Fld.radioDutyDutyPm 1 1000 && within Fld.radioDutyDutyWinS 1 3600 &&
  within Fld.radioDwellDwellMaxMs 1 65535 && within Fld.radioDwellDwellWinS 1 3600 &&
  decide (g Fld.radioDwellrResMs n ≤ g Fld.radioDwellDwellMaxMs n) &&
  (mode % 2 = 0 || decide (g Fld.radioLbtCcaUs n + 2 ≤ g Fld.radioTimGuardUs n)) &&
  (mode < 2 || decide (2 ≤ (setBits (beaconMap g n)).length)) && bitOf (beaconMap g n) (g Fld.radioBchBch n)

/-- KEY (R251): both slots hold keys of the radio type. -/
def State.radioKeyOk (s : State) (g : FieldRead) : Bool := s.slotUsage (g Fld.radioKeyRoot 0) 6 && s.slotUsage (g Fld.radioKeyLroot 0) 6

/-- Whether a port is stopped or failed. -/
def State.portStopped (s : State) (n : Nat) : Bool := s.get Fld.radioStatState n = 0 || s.get Fld.radioStatState n = 3

/-- Whether all ports are stopped (R250). -/
def State.portsStopped (s : State) : Bool := (List.range 4).all s.portStopped

/-- Whether RADIO's staged set passes (R223, R251, R487). -/
def radioApplyOk (s : State) : Bool :=
  let g := s.stagedRead
  let fixed := fun (f : Fld) (n : Nat) => s.getStaged f n = s.get f n
  let phy := [Fld.radioPhyRateKbps, Fld.radioPhyPhyovh, Fld.radioPhySyncb, Fld.radioTimTxlatUs, Fld.radioTimGuardUs,
    Fld.radioTimRxguardUs, Fld.radioTimLeadpUs]
  (!s.changed Blk.radio .gLayout none || (s.portsStopped && s.radioLayoutOk g)) &&
  (!s.changed Blk.radio .gKey none || s.radioKeyOk g) &&
  (List.range 4).all fun n =>
    ((!s.changed Blk.radio .gPort (some n) && s.portStopped n) ||
      (s.radioPortOk g n && (s.portStopped n || phy.all fun f => fixed f n))) &&
    (!s.changed Blk.radio .gReg (some n) || radioRegOk g n) &&
    (s.getStaged Fld.radioBootargAddr n = s.get Fld.radioBootargAddr n || !(s.seq (4 + n)).active)

/-- After an apply (R223): running ports read their plan again, and so does a stopped port whose PORTn group has changed; `old` is the state
before it. -/
def State.radioApplied (s old : State) : State :=
  (List.range 4).foldl (fun s n =>
    if s.portStopped n && !old.changed Blk.radio .gPort (some n) then s
    else s.setPort n { s.port n with planLive := s.planOf s.liveRead n }) s

/-! ### Channels (R231) -/

/-- The beacon channel of a port in a cycle. -/
def State.beaconChan (s : State) (n cyc : Nat) : Nat :=
  let l := setBits (beaconMap s.liveRead n)
  if s.get Fld.radioRegMode n < 2 ∨ l = [] then s.get Fld.radioBchBch n
  else l.getD (cyc * s.get Fld.radioBchBhop n % l.length) 0

/-- A field of `k` bytes at offset `o` of neighbour i's entry (Table 9.12). -/
def State.nbrAt (s : State) (i o k : Nat) : Nat := s.readLE (s.nbrAddr i + o) k

/-- EVT of an entry in a cycle. -/
def State.nbrEvt (s : State) (i cyc : Nat) : Nat := unsigned 16 ((cyc : Int) - s.nbrAt i 4 4)

/-- The connection channel of an entry in a cycle. -/
def State.connChan (s : State) (i cyc : Nat) : Nat :=
  let l := setBits (s.nbrAt i 8 8)
  if l = [] then 0 else l.getD (s.nbrEvt i cyc * s.nbrAt i 1 1 % l.length) 0

/-- PORT_SETCH (R231): before a span on another channel, of a neighbour's connection or the beacon channel, in this cycle or the next. -/
def execPortSetch (n : Fin 4) (dest : Option (Fin 1024)) (next : Bool) (s : State) : Result :=
  let cyc := if next then nextCycle s.cycle else s.cycle
  let c := match dest with
    | some i => s.connChan i.val cyc
    | none => s.beaconChan n.val cyc
  .next (s.setPort n.val { s.port n.val with channel := c })

/-! ### Port start and stop (R249) -/

/-- The events of a radio port's sequencer. -/
def State.portEvent (s : State) (n bit : Nat) : State :=
  let x := s.seq (4 + n)
  s.setSeq (4 + n) { x with evpend := setBit x.evpend bit true }

/-- RUN of a port (R249, R487): a stopped or failed port whose live groups and plan pass starts. -/
def State.radioRun (s : State) (n discards : Nat) : State :=
  let g := s.liveRead
  if !s.portStopped n then s
  else if s.radioLayoutOk g && s.radioPortOk g n && radioRegOk g n && s.radioKeyOk g then
    let s := (s.set Fld.radioStatState 1 n).unitStart (12 + n)
    let s := s.unitStart (16 + n)
    s.setPort n { s.port n with stopping := false, planLive := s.planOf g n, xdrop := discards % 256, stamps := [], stamp := none, parked := [] }
  else s.raise 0x2001

/-- RADIO_RUN (R249); the transceiver answers STATUS with its discard count. -/
def execRadioRun (n : Fin 4) (discards : BitVec 8) (s : State) : Result := .next (s.radioRun n.val discards.toNat)

/-- XCVR_NO_RESPONSE (R249): no STATUS answer within 100 us. -/
def execXcvrNoResponse (n : Fin 4) (s : State) : Result :=
  .next (if s.get Fld.radioStatState n.val = 1 then (s.set Fld.radioStatState 3 n.val).raise 0x2002 else s)

/-- STOP of a port (R249): at the next boundary. -/
def State.radioStop (s : State) (n : Nat) : State :=
  if s.portStopped n then s else s.setPort n { s.port n with stopping := true }

/-- RADIO_STOP (R249). -/
def execRadioStop (n : Fin 4) (s : State) : Result := .next (s.radioStop n.val)

/-- The end of slot timing: every action of the port is disarmed. -/
def State.portStops (s : State) (n : Nat) : State :=
  let s := ((s.set Fld.radioStatState 0 n).unitStop (12 + n)).unitStop (16 + n)
  let s := s.setPort n { s.port n with stopping := false, wait := none, rxOpen := none, stamps := [], parked := [] }
  s.setSeq (4 + n) { s.seq (4 + n) with slots := [] }

/-! ### Frames on air (R218, R226, R244, R245) -/

/-- The MIC key of a frame (R226): by DEST or SRC for native frames, the legacy root for legacy ones. -/
def State.frameKey (s : State) (b : List Byte) : Nat :=
  if descAt b 0 1 / 16 = 1 then s.slotKey (s.get Fld.radioKeyLroot)
  else s.derivedKey (s.get Fld.radioKeyRoot) (descAt b 2 2) (s.get Fld.radioKeyEpoch) 0x52

/-- Replaces bytes of a frame at an offset. -/
def patch (b : List Byte) (k : Nat) (v : List Byte) : List Byte :=
  if k + v.length ≤ b.length then b.take k ++ v ++ b.drop (k + v.length) else b

/-- The frame of a TX buffer as the port loads it (R218): CYCLE in a native downlink header, and the MIC. -/
def State.portFrame (s : State) (n buf : Nat) : List Byte :=
  let b := Map.getD (s.seq (4 + n)).tx buf []
  let b := if descAt b 0 1 / 16 = 2 then patch b 8 (leBytes s.cycle 4) else b
  b ++ micOf (s.frameKey b) b 4

/-- A frame crosses the port's transmit unit to the transceiver (R217, 11 R277); a unit that does not take it lets nothing through. -/
def State.txCross (s : State) (n : Nat) (f : List Byte) : Bool × State :=
  match s.qCross (16 + n) f with
  | (true, s) => (true, s.setPort n { s.port n with loaded := f })
  | (false, s) => (false, s)

/-- PORT_TXLOAD (R218). -/
def execPortTxload (n buf : Fin 4) (s : State) : Result := .next (s.txCross n.val (s.portFrame n.val buf.val)).2

/-- Air time in ns of `len` bytes (R220). -/
def State.airNs (s : State) (n len : Nat) : Nat :=
  (qround 50 (airRate s.liveRead n len * 1000 : Nat) (s.get Fld.radioPhyRateKbps n)).toNat

/-- The air time used in a window of 20 bins that spans `win` s (R244). -/
def usedNs (l : List AirUse) (now win : Nat) (keep : AirUse → Bool) : Nat :=
  let bin := fun (us : Nat) => us / (50000 * win)
  l.foldl (fun n u => if keep u && bin now - bin u.at' ≤ 19 then n + u.ns else n) 0

/-- Whether the duty window admits a frame; a Bell frame may use the reserve. -/
def State.dutyOk (s : State) (n len : Nat) (bell : Bool) : Bool :=
  let pm := s.get Fld.radioDutyDutyPm n
  let win := s.get Fld.radioDutyDutyWinS n
  let limit := pm * win * 1000000 - (if bell then 0 else s.get Fld.radioDutyrResMs n * 1000000)
  pm = 1000 || decide (usedNs (s.port n).use s.us win (fun _ => true) + s.airNs n len ≤ limit)

/-- Whether the dwell window of the present channel admits a frame. -/
def State.dwellOk (s : State) (n len : Nat) (bell : Bool) : Bool :=
  let c := (s.port n).channel
  let limit := (s.get Fld.radioDwellDwellMaxMs n - if bell then 0 else s.get Fld.radioDwellrResMs n) * 1000000
  s.get Fld.radioRegMode n < 2 ||
    decide (usedNs (s.port n).use s.us (s.get Fld.radioDwellDwellWinS n) (fun u => u.chan = c) + s.airNs n len ≤ limit)

/-- Counts a transmission and follows with DUTY_USED; uses older than both windows are dropped. -/
def State.useAir (s : State) (n len : Nat) : State :=
  let p := s.port n
  let keep := fun (u : AirUse) => decide (s.us < u.at' + 3600000000)
  let s := s.setPort n { p with use := p.use.filter keep ++ [⟨s.us, s.airNs n len, p.channel⟩] }
  let win := s.get Fld.radioDutyDutyWinS n
  let used := usedNs (s.port n).use s.us win fun _ => true
  s.set Fld.radioStatDutyUsed (min 1023 (used / (max 1 win * 1000000))) n

/-- Whether a frame's air time from an offset (5 ns) meets the Bell frame's in this cycle (R85). -/
def State.bellOverlap (s : State) (n off len : Nat) : Bool :=
  let rate := s.get Fld.radioPhyRateKbps n
  (s.port n).bellAir.any fun w =>
    decide (off < 200 * w.2 ∧ 200 * w.1 * rate < (off + 200 * s.get Fld.radioTimTxlatUs n) * rate + 200 * airRate s.liveRead n len)

/-- Whether the Bell holds slot 0 (R261): an offset inside its span while the state is HALT, BRAKE or RELEASING. -/
def State.bellSlot0 (s : State) (n off : Nat) : Bool :=
  let st := s.get Fld.bellStateState
  decide (1 ≤ st ∧ st ≤ 3) && match spanAt (s.port n).planLive (s.get Fld.radioPhyRateKbps n) (off / 200) with
    | some (k, _, _) => k = 0
    | none => false

/-- The outcome of a TX action (R245): written by TX_COMPLETE. -/
def State.txOutcome (s : State) (n : Nat) (w : TxWait) (flags : Nat) : State :=
  let p := s.port n
  let o : TxOutcome := { buf := w.buf, word := flags + 256 * (w.attempts % 256) + 65536 * (w.deferral % 65536), gated := w.gated }
  s.setPort n { p with wait := none, outcomes := p.outcomes ++ [o] }

/-- A frame starts: it has crossed to the transceiver, is on air, counts against the limits, and in slot 0 resets BMISS. -/
def State.txStart (s : State) (n : Nat) (w : TxWait) : State :=
  let f := s.portFrame n w.buf
  match s.txCross n f with
  | (false, s) => s.txOutcome n w 0
  | (true, s) =>
    let s := s.useAir n f.length
    let x := s.seq (4 + n)
    let s := s.setSeq (4 + n) { x with onAir := insertLine x.onAir w.buf }
    let slot0 := match spanAt (s.port n).planLive (s.get Fld.radioPhyRateKbps n) (w.off / 200) with
      | some (k, _, _) => decide (k = 0)
      | none => false
    let s := if slot0 then (s.set Fld.radioStatBmiss 0 n).setPort n { s.port n with slot0 := true } else s
    s.txOutcome n w 1

/-- The end of the span an offset (5 ns) lies in, in us; the offset itself where there is none. -/
def State.spanEnd (s : State) (n off : Nat) : Nat :=
  match spanAt (s.port n).planLive (s.get Fld.radioPhyRateKbps n) (off / 200) with
  | some (_, _, e) => e
  | none => off / 200

/-- Whether a frame at an offset of 5 ns units fits the rest of its span. -/
def State.fitsRest (s : State) (n off off' len : Nat) : Bool :=
  let rate := s.get Fld.radioPhyRateKbps n
  decide ((off' + 200 * (s.get Fld.radioTimTxlatUs n + s.get Fld.radioTimGuardUs n)) * rate + 200 * airRate s.liveRead n len ≤
    200 * s.spanEnd n off * rate)

/-- A TX action whose gate and claim let it pass tries to start (R85, R225, R243-R245); `rssi` is what the CCA measures. -/
def State.txAttempt (s : State) (n : Nat) (w : TxWait) (rssi : Int) : State :=
  let b := Map.getD (s.seq (4 + n)).tx w.buf []
  let len := b.length + 4
  let off := w.off + 200 * w.deferral
  let lbt := s.get Fld.radioRegMode n % 2 = 1
  if b = [] then s.txOutcome n w 0
  else if s.bellSlot0 n w.off || s.bellOverlap n off len then (s.portEvent n 16).txOutcome n w 0x10
  else if !s.fitsRest n w.off off len then
    if w.attempts = 0 then (s.warnOnce 0x2087 n).txOutcome n w 0
    else ((s.bump Fld.radioCnt2Lbt n).warnOnce 0x2082 n).txOutcome n w 2
  else if !s.dutyOk n len false then ((s.bump Fld.radioCnt2Limit n).warnOnce 0x2083 n).txOutcome n w 4
  else if !s.dwellOk n len false then ((s.bump Fld.radioCnt2Limit n).warnOnce 0x2084 n).txOutcome n w 8
  else if lbt then
    let w := { w with attempts := w.attempts + 1 }
    if rssi < signed 8 (s.get Fld.radioRegCcaDbm n) then s.txStart n w
    else
      let (k, s) := s.draw
      let d := w.deferral + (1 + k % max 1 (s.get Fld.radioRegCw n)) * s.get Fld.radioLbtBoUs n
      if s.get Fld.radioRegTries n ≤ w.attempts ∨ !s.fitsRest n w.off (w.off + 200 * d) len then
        ((s.bump Fld.radioCnt2Lbt n).warnOnce 0x2082 n).txOutcome n w 2
      else s.setPort n { s.port n with wait := some { w with deferral := d } }
  else s.txStart n w

/-- LBT_RETRY (R243). -/
def execLbtRetry (n : Fin 4) (rssi : Int) (s : State) : Result :=
  match (s.port n.val).wait with
  | some w => .next (s.txAttempt n.val w rssi)
  | none => .next s

/-- Whether the gate and the claim stage let an action through at its fire clock (R84): a gated one once the gate of the cycle of its ARM has
opened, and a gated one or a transmission while the claim stage passes outputs. -/
def State.actionPass (s : State) (a : Action) : Bool :=
  (!a.gated || (s.radio.gatePrev && nextCycle a.cycle = s.cycle)) && ((!a.gated && a.kind ≠ 1) || s.holding)

/-- The offset of an action in the present cycle, in 5 ns. -/
def State.actionOff (s : State) (n : Nat) (a : Action) : Nat := (tdiff a.time (s.cycbase (4 + n))).toNat

/-- Whether the Bell takes the place of a TX action (R85). -/
def State.bellTakes (s : State) (n : Nat) (a : Action) : Bool :=
  let len := (Map.getD (s.seq (4 + n)).tx (a.param % 4) []).length + 4
  s.bellSlot0 n (s.actionOff n a) || s.bellOverlap n (s.actionOff n a) len

/-- An action of a radio sequencer that does not pass (R84, R245): WITHHELD, and BELL_TOOK as well where the Bell would take its place; with
FALLBACK buffer 3 is started in its place, which passes the claim stage and the Bell in its turn. -/
def State.withheldAction (s : State) (n : Nat) (a : Action) (rssi : Int) : State :=
  let bell := a.kind = 1 && s.bellTakes n a
  let s := s.portEvent n 15
  let s := if bell then s.portEvent n 16 else s
  let s := if a.kind = 1 then
      s.txOutcome n { buf := a.param % 4, off := s.actionOff n a, gated := a.gated } (if bell then 0x30 else 0x20)
    else s
  if a.fallback && s.holding then s.txAttempt n { buf := 3, off := s.actionOff n a } rssi else s

/-- A TX action that passes, at its fire clock (R85, R245): the Bell comes first. -/
def State.txFire (s : State) (n : Nat) (a : Action) (rssi : Int) : State :=
  s.txAttempt n { buf := a.param % 4, off := s.actionOff n a, gated := a.gated } rssi

/-! ### Timed actions fire (03 R82-R85, Table 3.10) -/

/-- The root clocks until TNOW of a sequencer reaches a time; none when it has passed. -/
def State.clocksUntil (s : State) (q t : Nat) : Nat :=
  let d := tdiff t (s.tnow q)
  if 0 < d then d.toNat * seqDiv q - s.roots % seqDiv q else 0

/-- Whether an armed action is the next to fire (R82): its time comes in the present cycle, and neither an earlier action nor a lower slot
of its clock is still armed. -/
def State.actionDue (s : State) (q slot : Nat) (a : Action) : Bool :=
  let r := s.clocksUntil q a.time
  !a.rel && (r = 0 || decide (r < s.clocksTo (rawOfPs s.boundaryPs))) &&
    !((s.seq q).slots.any fun p => !p.2.rel &&
      (decide (tdiff p.2.time a.time < 0) || (p.2.time = a.time && decide (p.1 < slot))))

/-- What an action of a kind other than 0x1 does when it fires (Table 3.10). -/
def State.actionEffect (s : State) (q : Nat) (a : Action) : State :=
  let n := q - 4
  if a.kind = 2 then s.setPort n { s.port n with rxOpen := some (s.actionOff n a + a.param) }
  else if a.kind = 3 then s.setPort n { s.port n with rxOpen := none }
  else if a.kind = 4 then s.portEvent n 11
  else if a.kind = 8 then s.latchEntry (s.get Fld.correlLatchbaseAddr * 256 + 0x1900 * q + 16 * 384) (s.chan q a.target) s.roots
  else if a.kind = 9 then s.chanDump q a.target none .none
  else s

/-- An action fires at its clock (R82, R84, R85): it frees its slot and sets its slot event, unless it is withheld or gives way to the Bell. -/
def State.fireAction (s : State) (q slot : Nat) (a : Action) (rssi : Int) : State :=
  let s := s.passInCycle (s.clocksUntil q a.time)
  let x := s.seq q
  let s := s.setSeq q { x with slots := Map.del x.slots slot }
  let fired := fun (s : State) => let y := s.seq q; s.setSeq q { y with evpend := setBit y.evpend slot true }
  let n := q - 4
  if 4 ≤ q ∧ s.portStopped n ∧ a.kind ≠ 0xF then s
  else if 4 ≤ q ∧ !s.actionPass a then s.withheldAction n a rssi
  else if a.kind = 1 then (if s.bellTakes n a then s else fired s).txFire n a rssi
  else (fired s).actionEffect q a

/-- ACTION_FIRE (R82): the next action of a sequencer fires; `rssi` is what a clear-channel assessment measures. -/
def execActionFire (q slot : Fin 8) (rssi : Int) (s : State) : Result :=
  match Map.find (s.seq q.val).slots slot.val with
  | none => .next s
  | some a => .next (if s.actionDue q.val slot.val a then s.fireAction q.val slot.val a rssi else s)

/-! ### TX buffers and received frames (03 Table 3.11) -/

/-- TXLOAD (Table 3.11): only on a radio sequencer; a length outside 1 to 2,047 and a buffer index above 3 raise QSEQ_OPERAND
(R90). -/
def execTxload (e : Engine) (d a b c : Reg) (s : State) : Result :=
  .next (s.onSeq e fun q => s.seqInsn q [d, a, b, c] (.txload (.seq q) d a b c) fun s =>
    let x := s.seq q.val
    let ad := (s.qr q a).toNat
    let len := (s.qr q b).toNat
    let buf := (s.qr q c).toNat
    let armed := (x.slots.any fun p => p.2.kind = 1 && p.2.param % 4 = buf) || x.onAir.contains buf ||
      decide (((s.port (q.val - 4)).wait.map (·.buf)) = some buf)
    if q.val < 4 then s.engFault (.seq q) 0x0205
    else if len < 1 ∨ 2047 < len ∨ 4 ≤ buf then s.engFault (.seq q) 0x020A
    else if 0x8000 < ad + len then s.engFault (.seq q) 0x0401
    else if armed then s.seqDone q d 1
    else (s.setSeq q.val { x with tx := Map.put x.tx buf (readBytes x.dmem ad len) }).seqDone q d 0)

/-- RXGET (Table 3.11). -/
def execRxget (e : Engine) (d a : Reg) (s : State) : Result :=
  .next (s.onSeq e fun q => s.seqInsn q [d, a] (.rxget (.seq q) d a) fun s =>
    let x := s.seq q.val
    let ad := (s.qr q a).toNat
    if q.val < 4 then s.engFault (.seq q) 0x0205
    else match x.rx with
      | [] => s.seqDone q d 0
      | f :: rest =>
        if 0x8000 < ad + f.length then s.engFault (.seq q) 0x0401
        else (s.setSeq q.val { x with rx := rest, dmem := memPutAll x.dmem ad f }).seqDone q d (BitVec.ofNat 32 f.length))

end Sys2Proof.Machine
end

