-- ==== Sys2Proof/Machine/RadioImage.lean ====
section
/-! DEFINITION. The neighbour table, received frames and the Quoval radio image (spec/09_fleet_radio.md R226-R241, R246-R248; 13 R336). -/

namespace Sys2Proof.Machine

/-! ### The neighbour table (R229-R233) -/

/-- Writes bytes of neighbour i's entry at an offset. -/
def State.nbrPut (s : State) (i o : Nat) (bs : List Byte) : State := s.store (s.nbrAddr i + o) bs

/-- Writes the state of an entry. -/
def State.nbrSetState (s : State) (i st : Nat) : State :=
  let b := s.nbrAt i 0 1
  s.nbrPut i 0 (leBytes (b % 16 + st * 16) 1)

/-- The bits of the occupancy map that an entry holds: port, span and phases (R229). -/
def occBits (port span per phase : Nat) : List Nat :=
  ((List.range 128).filter fun p => p % 2 ^ per = phase).map fun p => 128 * (16 * port + span) + p

/-- The address of the occupancy map. -/
def State.occAddr (s : State) : Nat := s.get Fld.radioNbrbaseAddr * 256 + 0x10200

/-- Whether a bit of the occupancy map is set. -/
def State.occBit (s : State) (b : Nat) : Bool := bitOf (s.readLE (s.occAddr + b / 8) 1) (b % 8)

/-- Sets or clears a bit of the occupancy map. -/
def State.occSet (s : State) (v : Bool) (b : Nat) : State :=
  s.store (s.occAddr + b / 8) (leBytes (setBit (s.readLE (s.occAddr + b / 8) 1) (b % 8) v) 1)

/-- The occupancy bits of the entry in the table: those of a KIND 1 entry that is not IDLE. -/
def State.occOf (s : State) (i : Nat) : List Nat :=
  if s.nbrKind i = 1 ∧ s.nbrState i ≠ 0 ∧ s.nbrAt i 25 1 ≤ 7 then
    occBits (s.nbrPort i) (s.nbrAt i 24 1 % 16) (s.nbrAt i 25 1) (s.nbrAt i 26 2)
  else []

/-- NBRSET (R230): a GO while one is pending is ignored. -/
def State.nbrGo (s : State) (index line : Nat) : State :=
  match s.radio.nbrset with
  | some _ => s
  | none => (s.set Fld.radioNbrresDone 0).set Fld.radioNbrresIndex index |> fun s =>
    { s with radio := { s.radio with nbrset := some (index, line) } }

/-- How many spans of a TYPE a plan has. -/
def spanCount (plan : List Byte) (t : Nat) : Nat := (List.range 40).countP fun k => slotType plan k = t

/-- How many entries of a kind the table holds. -/
def State.kindCount (s : State) (k : Nat) : Nat := (List.range 1024).countP fun i => s.nbrKind i = k

/-- The plan of a port that the table's checks go by (R230): the one it has read, or, while it is stopped, the one its RUN would read. -/
def State.planInUse (s : State) (n : Nat) : List Byte := if s.portStopped n then s.planOf s.liveRead n else (s.port n).planLive

/-- The fault code of the first check of R230 that an image fails, 0 where it passes. -/
def State.nbrCheck (s : State) (i : Nat) (b : List Byte) : Nat :=
  let f := descAt b
  let kind := f 0 1 % 4
  let port := bits (f 0 1) 2 2
  let st := f 0 1 / 16
  let per := f 25 1
  let plan := s.planInUse port
  let limit := if kind = 1 then 128 else if kind = 2 then 512 else 384
  let others := s.kindCount kind - if s.nbrKind i = kind then 1 else 0
  let hop := 2 ≤ s.get Fld.radioRegMode port
  let inst := unsigned 16 ((f 48 2 : Int) - unsigned 16 ((s.cycle : Int) - f 4 4))
  let mine := s.occOf i
  let wanted := occBits port (f 24 1 % 16) per (f 26 2)
  if 4 < st then 0x2003
  else if kind = 0 then 0
  else if f 1 1 = 0 ∨ 63 < f 1 1 ∨ f 8 8 = 0 ∨ (hop ∧ (setBits (f 8 8)).length < 2) then 0x2003
  else if kind ≠ 3 ∧ ((if kind = 1 then 7 else 15) < per ∨ 2 ^ per ≤ f 26 2) then 0x2003
  else if kind ≠ 3 ∧ spanCount plan (if kind = 1 then 5 else 6) ≤ f 24 1 % 16 then 0x2003
  else if kind ≠ 3 ∧ 2 ^ s.get Fld.radioPollNsub port ≤ bits (f 24 1) 4 2 then 0x2003
  else if limit ≤ others then 0x2004
  else if kind = 1 ∧ wanted.any fun x => s.occBit x && !mine.contains x then 0x2005
  else if f 50 1 % 8 ≠ 0 ∧ ¬(6 ≤ inst ∧ inst ≤ 32767) then 0x2003
  else 0

/-- Writes COUNT. -/
def State.countNbrs (s : State) : State :=
  ((s.set Fld.radioCountConn (s.kindCount 1)).set Fld.radioCountSleepy (s.kindCount 2)).set Fld.radioCountLegacy (s.kindCount 3)

/-- NBRSET_APPLY (R230): the image of the pending NBRSET is checked and written; a robot that joins a roster during a stop is owed (10
R269). -/
def State.nbrApply (s : State) : State :=
  match s.radio.nbrset with
  | none => s
  | some (i, line) =>
    let at' := s.get Fld.radioNbrbaseAddr * 256 + 0x10000 + 64 * line
    let s := s.touch at' 64
    let b := s.rd at' 64
    let code := s.nbrCheck i b
    let s : State := { s with radio := { s.radio with nbrset := none } }
    let s := ((s.set Fld.radioNbrresResult code).set Fld.radioNbrresDone 1).set Fld.radioNbrresIndex i
    if code ≠ 0 then s
    else
      let old := s.occOf i
      let keep := s.rd (s.nbrAddr i + 16) 8
      let b := if bitOf (descAt b 29 1) 0 then b else patch b 16 keep
      let b := if descAt b 50 1 % 8 ≠ 0 then patch b 0 (leBytes (descAt b 0 1 % 16 + 3 * 16) 1) else b
      let was := (List.range 4).any fun n => (s.roster n).contains i
      let s := old.foldl (State.occSet · false) s
      let s := s.nbrPut i 0 b
      let s := (s.occOf i).foldl (State.occSet · true) s
      let s := s.countNbrs
      let st := s.get Fld.bellStateState
      let joins := !was && (List.range 4).any fun n => (s.roster n).contains i
      if joins ∧ (st = 1 ∨ st = 2) then (s.setOwed i true).countAcks else s.countAcks

/-- NBRSET (R230): at once when all ports are stopped. -/
def State.nbrSet (s : State) (index line : Nat) : State :=
  let t := s.nbrGo index line
  if s.portsStopped then t.nbrApply else t

/-- NBRSET (R230). -/
def execNbrset (index : Fin 1024) (line : Fin 8) (s : State) : Result := .next (s.nbrSet index.val line.val)

/-- NBRSET_APPLY (R230). -/
def execNbrsetApply (s : State) : Result := .next s.nbrApply

/-- PEND_INSTANT (R232) of one entry. -/
def State.pendInstant (s : State) (i : Nat) : State :=
  let pend := s.nbrAt i 50 1 % 8
  let d := unsigned 16 ((s.nbrEvt i s.cycle : Int) - s.nbrAt i 48 2)
  let kind := s.nbrKind i
  if pend = 0 ∨ ¬(kind = 1 ∨ kind = 2) ∨ 32768 ≤ d then s
  else
    let old := s.occOf i
    let s := old.foldl (State.occSet · false) s
    let s := if bitOf pend 0 then (s.nbrPut i 8 (s.rd (s.nbrAddr i + 32) 8)).nbrPut i 1 (leBytes (s.nbrAt i 40 1) 1) else s
    let s := if bitOf pend 1 then
        ((s.nbrPut i 24 (leBytes (s.nbrAt i 41 2) 2)).nbrPut i 26 (leBytes (s.nbrAt i 44 2) 2)).nbrPut i 2 (leBytes (s.nbrAt i 46 2) 2)
      else s
    let s := (s.nbrPut i 50 [0]).nbrSetState i (if bitOf pend 2 then 0 else 2)
    let s := (s.occOf i).foldl (State.occSet · true) s
    if bitOf pend 2 then s.countAcks else s

/-- SUPERVISION_LOST (R233). -/
def execSupervisionLost (i : Fin 1024) (s : State) : Result :=
  let i := i.val
  let st := s.nbrState i
  let tmo := s.nbrAt i 2 2
  let gap := unsigned 32 ((s.cycle : Int) - s.nbrAt i 20 4)
  let kind := s.nbrKind i
  .next (if (kind = 1 ∨ kind = 2) ∧ 1 ≤ st ∧ st ≤ 3 ∧ tmo ≠ 0 ∧ tmo < gap then
      ((s.nbrSetState i 4).warnOnce 0x2086 (s.nbrPort i) i).countAcks
    else s)

/-! ### The image's store and control block (R246, R248) -/

/-- The radio image's store of a port. -/
def State.rimg (s : State) (n : Nat) : RadioImage := Map.getD s.radio.image n {}

/-- Replaces it. -/
def State.setRimg (s : State) (n : Nat) (x : RadioImage) : State := { s with radio := { s.radio with image := Map.put s.radio.image n x } }

/-- A field of the control block in force. -/
def State.rcbAt (s : State) (n k w : Nat) : Nat := descAt (s.rimg n).rcb k w

/-- Whether the image of a port works: its sequencer runs and a control block has passed. -/
def State.imgRuns (s : State) (n : Nat) : Bool := (s.seq (4 + n)).active && (s.rimg n).rcb ≠ []

/-- Whether it works as an active unit's (R248). -/
def State.imgActive (s : State) (n : Nat) : Bool := s.imgRuns n && s.rcbAt n 15 1 ≠ 0

/-- An item of the image on a queue; one not attached to the sequencer halts it (03 R88). -/
def State.imgPush (s : State) (n q : Nat) (body : List Byte) : State :=
  let e : Engine := .seq (Fin.ofNat 8 (4 + n))
  if 47 < q then s.seqHalt (4 + n) 0x2044
  else if !s.qWriter e q then s.seqHalt (4 + n) 0x2045
  else (s.qPush q body).2

/-- An event of the image, counted, with a content the spec does not give (R239, R246). -/
def State.imgEvent (s : State) (n : Nat) : State :=
  let x := s.rimg n
  let s := s.setRimg n { x with events := x.events + 1 }
  let (b, s) := s.drawBytes 16
  s.imgPush n (s.rcbAt n 13 1) b

/-- Whether a control block passes (Table 9.15). -/
def rcbOk (n : Nat) (b : List Byte) : Bool :=
  let f := descAt b
  f 0 4 = 0x42435252 && f 8 4 = crc32c ((b.drop 12).take 52) && f 12 1 = n && decide (f 15 1 ≤ 2) &&
  decide (16 ≤ f 24 2 ∧ f 24 2 ≤ 256) && decide (1 ≤ f 26 2 ∧ f 26 2 ≤ 3600)

/-- ROLE_TAKEOVER (R248): HANDOVER is due, LSEQTX of legacy entries moves on, and the held-frame store is emptied. -/
def State.roleTakeover (s : State) (n : Nat) : State :=
  let s := s.setRimg n { s.rimg n with handover := true, held := [], toHold := [], nextHold := [] }
  (List.range 1024).foldl (fun s i =>
    if s.nbrKind i = 3 && s.nbrPort i = n then s.nbrPut i 30 (leBytes ((s.nbrAt i 30 2 + 0x400) % 65536) 2) else s) s

/-- RCB_CHECK (R246): a control block of another VERSION is read whole and is live when it passes; a failing one posts an event, to EVQ of the
live block or, while there is none, to the one it names, if that queue is attached (log 130). -/
def State.rcbCheck (s : State) (n : Nat) : State :=
  let x := s.rimg n
  let a := leNat (readBytes (s.seq (4 + n)).dmem 0 4) * 256
  let b := s.rd a 64
  if !(s.seq (4 + n)).active ∨ (x.rcb ≠ [] ∧ descAt b 4 4 = descAt x.rcb 4 4) then s
  else
    let s := s.touch a 64
    if rcbOk n b then
      let was := if x.rcb = [] then 0 else descAt x.rcb 15 1
      let s := s.setRimg n { x with rcb := b }
      if descAt b 15 1 = 2 ∧ was ≠ 2 then s.roleTakeover n else s
    else if x.rcb ≠ [] then s.imgEvent n
    else if descAt b 13 1 ≤ 47 && s.qWriter (.seq (Fin.ofNat 8 (4 + n))) (descAt b 13 1) then
      let s := s.setRimg n { x with events := x.events + 1 }
      let (v, s) := s.drawBytes 16
      s.imgPush n (descAt b 13 1) v
    else s

/-! ### Arming (03 R82, 09 R247) -/

/-- Arms an action of the image in the lowest free slot. -/
def State.imgArm (s : State) (n : Nat) (a : Action) : State :=
  let x := s.seq (4 + n)
  match x.freeSlot with
  | some k =>
    if x.slots.any fun p => p.2.conflicts a then s
    else s.setSeq (4 + n) { x with slots := Map.put x.slots k { a with order := x.armed, cycle := s.cycle }, armed := x.armed + 1 }
  | none => s

/-- A TX action of the image: relative to the next boundary, or absolute in the present cycle. -/
def txAction (buf time : Nat) (rel gated fallback : Bool) : Action :=
  { kind := 1, rel := rel, gated := gated, fallback := fallback, target := 0, param := buf, time := time, cycle := 0, order := 0 }

/-- Loads a TX buffer. -/
def State.txLoad (s : State) (n buf : Nat) (b : List Byte) : State :=
  let x := s.seq (4 + n)
  s.setSeq (4 + n) { x with tx := Map.put x.tx buf b }

/-- Whether a buffer is armed, on air or not yet reported. -/
def State.bufBusy (s : State) (n buf : Nat) : Bool :=
  let x := s.seq (4 + n)
  (x.slots.any fun p => p.2.kind = 1 && p.2.param % 4 = buf) || x.onAir.contains buf ||
  decide (((s.port n).wait.map (·.buf)) = some buf) || (s.port n).outcomes.any fun o => o.buf = buf

/-- The lowest free buffer of 0 to 2. -/
def State.freeBuf (s : State) (n : Nat) : Option Nat := (List.range 3).find? fun b => !s.bufBusy n b

/-- The present offset in the cycle in 5 ns units. -/
def State.off5 (s : State) : Nat := 200 * s.get Fld.sysPhaseOffsetUs

/-- Where the frame sent last ends, as an offset in the present cycle (5 ns). -/
def State.onAirEnd (s : State) (n : Nat) : Nat :=
  match (s.port n).use.getLast? with
  | some u => s.off5 + 200 * u.at' + u.ns / 5 - 200 * s.us
  | none => 0

/-- The air time of `len` bytes in 5 ns units, rounded up. -/
def State.air5 (s : State) (n len : Nat) : Nat :=
  let rate := s.get Fld.radioPhyRateKbps n
  (200 * airRate s.liveRead n len + rate - 1) / max 1 rate

/-- Where the frames armed in the present cycle start and end (5 ns), in order. -/
def State.armedAir (s : State) (n : Nat) : List (Nat × Nat) :=
  let x := s.seq (4 + n)
  let l := x.slots.filterMap fun p =>
    if p.2.kind = 1 && !p.2.rel then
      let off := s.actionOff n p.2
      some (off, off + s.air5 n ((Map.getD x.tx (p.2.param % 4) []).length + 4))
    else none
  l.mergeSort fun a b => decide (a.1 ≤ b.1)

/-- When a frame of the list is sent (in units of 5 ns from the cycle's start): at its offset, or 1 µs from now when that has gone by, and
behind the frames that are on air or armed then. -/
def State.armAt (s : State) (n : Nat) (f : ListFrame) : Nat :=
  let base := if f.off ≤ s.off5 then max (s.off5 + 200) (s.onAirEnd n) else f.off
  (s.armedAir n).foldl (fun t w => if w.1 < t + s.air5 n (f.bytes.length + 4) ∧ t < w.2 then w.2 else t) base

/-- Whether a released frame need not wait: it no longer fits its span, or a buffer is free. -/
def State.armOk (s : State) (n : Nat) (f : ListFrame) : Bool :=
  !s.fitsRest n f.off (s.armAt n f) (f.bytes.length + 4) || (s.freeBuf n).isSome

/-- Arms one released frame in the present superframe when a buffer is free; one that no longer fits its span is not sent (R225, R247). -/
def State.armFrame (s : State) (n : Nat) (f : ListFrame) : State :=
  if !s.fitsRest n f.off (s.armAt n f) (f.bytes.length + 4) then s.warnOnce 0x2087 n
  else match s.freeBuf n with
    | some buf => (s.txLoad n buf f.bytes).imgArm n (txAction buf (s.cycbase (4 + n) + s.armAt n f) false false false)
    | none => s

/-- Arms frames in order while buffers are free; answers those that wait. -/
def State.armFrames (s : State) (n : Nat) : List ListFrame → List ListFrame × State
  | [] => ([], s)
  | f :: t => if s.armOk n f then (s.armFrame n f).armFrames n t else (f :: t, s)

/-- CHAIN_ARM (R247): released frames of the present superframe, and, once the chain is open, the rest of the list. -/
def State.chainArm (s : State) (n : Nat) : State :=
  let p := s.armFrames n (s.rimg n).ready
  let s := p.2.setRimg n { p.2.rimg n with ready := p.1 }
  if (s.rimg n).chain ∧ p.1 = [] then
    let q := s.armFrames n (s.rimg n).list
    q.2.setRimg n { q.2.rimg n with list := q.1 }
  else s

/-- Holds a released frame for a sleepy partner: a third replaces the oldest, which counts as an event (R239). -/
def State.holdFrame (s : State) (n : Nat) (h : HeldFrame) : State :=
  let x := s.rimg n
  let mine := x.held.filter fun f => f.dest = h.dest
  if mine.length < 2 then s.setRimg n { x with held := x.held ++ [{ h with since := s.us }] }
  else
    let k := x.held.findIdx fun f => f.dest = h.dest
    (s.setRimg n { x with held := x.held.eraseIdx k ++ [{ h with since := s.us }] }).imgEvent n

/-- HELD_FRAME_EXPIRE (R239). -/
def execHeldFrameExpire (n : Fin 4) (i : Nat) (s : State) : Result :=
  let x := s.rimg n.val
  match x.held[i]? with
  | some h =>
    if h.since + s.rcbAt n.val 26 2 * 1000000 < s.us then .next ((s.setRimg n.val { x with held := x.held.eraseIdx i }).imgEvent n.val)
    else .next s
  | none => .next s

/-- TX_COMPLETE (R245, R247): the oldest outcome is written to DMEM and its event set; a gated action's outcome opens the chain of the
list or ends it. -/
def execTxComplete (n : Fin 4) (s : State) : Result :=
  let n := n.val
  let p := s.port n
  match p.outcomes with
  | [] => .next s
  | o :: rest =>
    let s := s.setPort n { p with outcomes := rest }
    let x := s.seq (4 + n)
    let s := s.setSeq (4 + n) { x with
      dmem := memPutAll x.dmem (0x7FF0 + 4 * o.buf) (leBytes o.word 4), onAir := x.onAir.filter (· ≠ o.buf)
      evpend := setBit x.evpend 10 true }
    let sent := bitOf o.word 0
    let s := if sent then s.bump Fld.radioCnt0Tx n else s
    if !s.imgActive n then .next s
    else
      let withheld := bitOf o.word 5
      let y := s.rimg n
      let s :=
        if o.gated ∧ (sent ∨ (bitOf o.word 4 ∧ !withheld)) ∧ !y.chain then
          let s := s.setRimg n { y with chain := true, claim := y.listClaim, handover := false, toHold := [] }
          y.toHold.foldl (fun s h => s.holdFrame n h) s
        else if o.gated ∧ o.buf = 0 ∧ withheld then s.setRimg n { y with list := [], toHold := [], chain := false }
        else s
      .next (s.chainArm n)

/-! ### Transmit lists and beacons (R228, R246, R247, 13 R336) -/

/-- An entry of a transmit list. -/
structure TxEntry where
  slot : Nat
  hold : Bool
  dest : Nat
  body : List Byte
  deriving DecidableEq, Repr

/-- The transmit list of a cycle: its CLAIM and its entries, where the list in memory is that cycle's. -/
def State.txList (s : State) (n cyc : Nat) : Option (Nat × List TxEntry) :=
  let a := s.rcbAt n (if cyc % 2 = 0 then 16 else 20) 4 * 256
  let count := min (s.readLE (a + 4) 2) (s.rcbAt n 24 2)
  let entry := fun (k : Nat) =>
    let e := a + 64 + 16 * k
    ({ slot := s.readLE e 1, hold := bitOf (s.readLE (e + 1) 1) 0, dest := s.readLE (e + 2) 2,
       body := s.rd (s.readLE (e + 8) 4) (s.readLE (e + 4) 2) } : TxEntry)
  if s.readLE a 4 = cyc then some (s.readLE (a + 8) 4, (List.range count).map entry) else none

/-- What reading the list of a cycle does to the words it meets (01 R38). -/
def State.txTouch (s : State) (n cyc : Nat) : State :=
  let a := s.rcbAt n (if cyc % 2 = 0 then 16 else 20) 4 * 256
  let count := if s.readLE a 4 = cyc then min (s.readLE (a + 4) 2) (s.rcbAt n 24 2) else 0
  (List.range count).foldl (fun s k =>
    let e := a + 64 + 16 * k
    s.touch (s.readLE (e + 8) 4) (s.readLE (e + 4) 2)) (s.touch a (64 + 16 * count))

/-- Writes the CLAIM into a native downlink frame (R227). -/
def withClaim (claim : Nat) (b : List Byte) : List Byte := if descAt b 0 1 / 16 = 2 then patch b 4 (leBytes claim 4) else b

/-- Whether an entry is an LSYNC frame (Table 9.11). -/
def TxEntry.lsync (e : TxEntry) : Bool := descAt e.body 0 1 = 0x11

/-- The first GRANT span after slot 0 of a plan. -/
def firstGrant (plan : List Byte) : Option Nat := (List.range 40).find? fun k => slotType plan k = 4

/-- Whether an entry's slot starts a span whose type carries its frame (R246, Tables 9.7 and 9.11). -/
def entryFits (plan : List Byte) (e : TxEntry) : Bool :=
  let t := slotType plan e.slot
  let v := descAt e.body 0 1 / 16
  let k := descAt e.body 0 1 % 16
  e.slot < 40 && e.body ≠ [] &&
  if v = 1 then (if k = 1 then firstGrant plan = some e.slot else decide (t = 3 ∨ t = 4) && decide (k = 2 ∨ k = 4))
  else decide (v = 2) && ((t = 2 && k = 2) || (t = 3 && decide (2 ≤ k ∧ k ≤ 7)) || (t = 4 && decide (3 ≤ k ∧ k ≤ 7)))

/-- Inserts an entry in slot order, behind those of its slot; an LSYNC goes before them (Table 9.11). -/
def entryInsert (e : TxEntry) : List TxEntry → List TxEntry
  | [] => [e]
  | f :: t => if e.slot < f.slot ∨ (e.slot = f.slot ∧ e.lsync ∧ !f.lsync) then e :: f :: t else f :: entryInsert e t

/-- DEST and IDX of a downlink frame; IDX 32 for a legacy one, which has none. -/
def destIdx (b : List Byte) : Nat × Nat := (descAt b 2 2, if descAt b 0 1 / 16 = 2 then descAt b 12 2 / 2048 else 32)

/-- Keeps at most 32 frames to a destination, with those already used (R226); answers them with what is used then. -/
def limitDest (used : List (Nat × Nat)) (l : List TxEntry) : List TxEntry × List (Nat × Nat) :=
  l.foldl (fun (a : List TxEntry × List (Nat × Nat)) e =>
    let d := destIdx e.body
    if (a.2.countP fun u => u.1 = d.1) < 32 then (a.1 ++ [e], a.2 ++ [d]) else a) ([], used)

/-- The frame index of a further frame to a destination (R226): behind those used, or one that is still unused; none after 32 frames. -/
def nextIdx (used : List (Nat × Nat)) (dest : Nat) : Option Nat :=
  let mine := (used.filter fun u => u.1 = dest).map (·.2)
  let top := (mine.filter (· < 32)).foldl (fun m k => max m (k + 1)) 0
  if 32 ≤ mine.length then none else if top < 32 then some top else (List.range 32).find? fun k => !mine.contains k

/-- Writes the frame index of a native downlink frame. -/
def withIdx (idx : Nat) (b : List Byte) : List Byte := patch b 12 (leBytes (descAt b 12 2 % 2048 + 2048 * idx) 2)

/-- Gives frames that the image builds itself their frame index, and drops those beyond 32 to a destination. -/
def numberOwn (used : List (Nat × Nat)) (l : List TxEntry) : List TxEntry × List (Nat × Nat) :=
  l.foldl (fun (a : List TxEntry × List (Nat × Nat)) e =>
    match nextIdx a.2 (descAt e.body 2 2) with
    | some k => (a.1 ++ [{ e with body := withIdx k e.body }], a.2 ++ [(descAt e.body 2 2, k)])
    | none => a) ([], used)

/-- A native downlink frame that the image builds itself, its CYCLE and IDX still 0 (Table 9.5). -/
def ownFrame (type flags dest claim : Nat) (pay : List Byte) : List Byte :=
  leBytes (0x20 + type) 1 ++ leBytes flags 1 ++ leBytes dest 2 ++ leBytes claim 4 ++ leBytes 0 4 ++ leBytes (pay.length % 2048) 2 ++ pay

/-- Frames placed in a superframe: in the order of their offsets, where those of each span end, and how many did not fit. -/
structure Placing where
  frames : List ListFrame := []
  placed : Map Nat := []
  long : Nat := 0
  deriving DecidableEq, Repr

/-- The offset (5 ns) at which a frame of `len` bytes goes out in the span of a slot, behind what is placed there; none where the room left
does not hold it (R225). -/
def State.placeIn (s : State) (n : Nat) (placed : Map Nat) (slot len : Nat) : Option Nat :=
  let start := 200 * (geometry (s.get Fld.radioPhyRateKbps n)).2 * slot
  let off := max start (Map.getD placed slot start)
  if s.fitsRest n start off len then some off else none

/-- Inserts a frame by its offset. -/
def frameInsert (f : ListFrame) : List ListFrame → List ListFrame
  | [] => [f]
  | g :: t => if f.off < g.off then f :: g :: t else g :: frameInsert f t

/-- Places an entry in its span (R246: those of one slot back to back). -/
def State.placeFrame (s : State) (n : Nat) (p : Placing) (e : TxEntry) : Placing :=
  let len := e.body.length + 4
  match s.placeIn n p.placed e.slot len with
  | some off =>
    { p with frames := frameInsert { slot := e.slot, off := off, bytes := e.body } p.frames
             placed := Map.put p.placed e.slot (off + s.air5 n len) }
  | none => { p with long := p.long + 1 }

/-- Places an ACK frame (R247): in the first GRANT span with room. -/
def State.placeAck (s : State) (n : Nat) (p : Placing) (e : TxEntry) : Placing :=
  let plan := (s.port n).planLive
  match (List.range 40).find? (fun k => slotType plan k = 4 && (s.placeIn n p.placed k (e.body.length + 4)).isSome) with
  | some k => s.placeFrame n p { e with slot := k }
  | none => { p with long := p.long + 1 }

/-- Sets MORE in each CORR and ACK frame that a later frame to its destination follows (Table 9.5). -/
def markMore : List ListFrame → List ListFrame
  | [] => []
  | f :: t =>
    let own := decide (descAt f.bytes 0 1 = 0x22 ∨ descAt f.bytes 0 1 = 0x26)
    let more := t.any fun g => descAt g.bytes 2 2 = descAt f.bytes 2 2
    { f with bytes := if own && more then patch f.bytes 1 (leBytes (setBit (descAt f.bytes 1 1) 2 true) 1) else f.bytes } :: markMore t

/-- The ACK frames of a release: one for every 60 uplinks (R247), with the CLAIM of the newest list released. -/
def State.ackEntries (s : State) (n : Nat) : List TxEntry :=
  let x := s.rimg n
  (List.range ((x.acksDue.length + 59) / 60)).map fun j =>
    let a := (x.acksDue.drop (60 * j)).take 60
    let pay := leBytes a.length 1 ++ [0] ++ a.flatMap fun p => leBytes p.1 2 ++ leBytes p.2 2
    { slot := 0, hold := false, dest := 0xFFFF, body := ownFrame 6 0 0xFFFF x.claim pay }

/-- The CORR frames of a release (07 R174, R180; DESIGN CHOICE, log 175: the image adds them to the list): one fragment in each correction slot
to which one is offered, before the list's frames there, with the list's CLAIM. -/
def State.corrEntries (s : State) (n claim : Nat) : List TxEntry :=
  (s.corr.offered.filter fun o => o.1 = n).map fun o =>
    { slot := o.2.1, hold := false, dest := 0xFFFF, body := ownFrame 2 0 0xFFFF claim o.2.2 }

/-- The hold beacon for the superframe of the next cycle, from a beacon body of a released cycle (R228). -/
def State.holdBeacon (s : State) (n rel : Nat) (b : List Byte) : List Byte :=
  let b := patch b 1 (leBytes (setBit (descAt b 1 1) 1 true) 1)
  let b := patch (patch b 14 (leBytes rel 4)) 18 (leBytes (s.get Fld.reeveBucketNext) 2)
  patch b 22 (leBytes (s.beaconChan n (nextCycle (nextCycle s.cycle))) 1)

/-- HOLD_BEACON_RELOAD (R228): TX buffer 3 takes the hold beacon of the last released cycle. -/
def State.holdReload (s : State) (n : Nat) : State :=
  let x := s.rimg n
  if x.lastBeacon = [] then s else s.txLoad n 3 (s.holdBeacon n x.lastCycle x.lastBeacon)

/-- The beacon of a cycle whose gate has opened is the last released one (R228). -/
def State.beaconReleased (s : State) (n : Nat) : State :=
  let x := s.rimg n
  if s.radio.gatePrev ∧ x.beacon ≠ [] ∧ nextCycle x.beaconCycle = s.cycle then
    s.setRimg n { x with lastBeacon := x.beacon, lastCycle := x.beaconCycle }
  else s

/-- STANDBY_HOLD_BEACON (13 R336): in ROLE 0, at each boundary, from the newest committed list, which is the last released one for a unit
that takes over; the slot-0 action is armed gated with FALLBACK. -/
def State.standbyHold (s : State) (n : Nat) : State :=
  match s.decant.committed with
  | [] => s.imgArm n (txAction 0 0 true true true)
  | c :: _ =>
    let s := s.txTouch n c
    let s := match s.txList n c with
      | some (claim, l) => match l.find? (fun (e : TxEntry) => e.slot = 0) with
        | some e => s.setRimg n { s.rimg n with lastBeacon := withClaim claim e.body, lastCycle := c }
        | none => s
      | none => s
    (s.holdReload n).imgArm n (txAction 0 0 true true true)

/-- What the list of a cycle gives the next superframe (R246, R247): its frames, with the CORR and ACK frames, in slot order and list order,
where each goes out, and the DEST and IDX used. -/
def State.planRelease (s : State) (n claim : Nat) (beacon : List Byte) (send : List TxEntry) : Placing × List (Nat × Nat) :=
  let listed := limitDest [destIdx beacon] (send.map fun e => { e with body := withClaim claim e.body })
  let corr := numberOwn listed.2 (s.corrEntries n claim)
  let acks := numberOwn corr.2 (s.ackEntries n)
  let all := (corr.1 ++ listed.1).foldl (fun k e => entryInsert e k) []
  let p := all.foldl (s.placeFrame n) { placed := (s.rimg n).nextPlaced }
  let p := acks.1.foldl (s.placeAck n) p
  ({ p with frames := markMore p.frames }, acks.2)

/-- RADIO_RELEASE_ARM (R246, R247) of one port: the beacon and the first two frames of the list are armed gated. -/
def State.releaseArm (s : State) (n : Nat) : State :=
  let s := (s.rcbCheck n).holdReload n
  let plan := (s.port n).planLive
  let holdOnly := fun (s : State) => s.imgArm n (txAction 3 0 true false false)
  let x := s.rimg n
  let s := s.setRimg n { x with nextList := [], nextHold := [] }
  if !s.imgActive n then s
  else
    let s := s.txTouch n s.cycle
    match s.txList n s.cycle with
    | none => holdOnly s
    | some (0, _) => holdOnly (s.imgEvent n)
    | some (claim, l) => match l.find? (fun (e : TxEntry) => e.slot = 0) with
      | none => holdOnly s
      | some b =>
        let body := withClaim claim b.body
        let body := if (s.rimg n).handover then patch body 21 (leBytes (setBit (descAt body 21 1) 3 true) 1) else body
        let rest := l.filter fun e => e.slot ≠ 0
        let fit := rest.filter (entryFits plan)
        let s := (List.range (rest.length - fit.length)).foldl (fun s _ => s.imgEvent n) s
        let held := (fit.filter (·.hold)).map fun e => ({ dest := e.dest, body := withClaim claim e.body, since := 0 } : HeldFrame)
        let (p, used) := s.planRelease n claim body (fit.filter fun e => !e.hold)
        let s := if p.long = 0 then s else s.warnOnce 0x2087 n
        let s := s.txLoad n 0 body
        let s := s.imgArm n (txAction 0 0 true true true)
        let s := (p.frames.take 2).zipIdx.foldl (fun s q =>
          (s.txLoad n (q.2 + 1) q.1.bytes).imgArm n (txAction (q.2 + 1) q.1.off true true false)) s
        let y := s.rimg n
        s.setRimg n { y with
          nextList := p.frames.drop 2, nextHold := held, nextClaim := claim, beacon := body, beaconCycle := s.cycle, acksDue := []
          nextPlaced := p.placed, nextUsed := used }

/-- The radio's part of the release phase on every running port. -/
def State.radioRelease (s : State) : State :=
  s.runningPorts.foldl (fun s n => if (s.seq (4 + n)).active then s.releaseArm n else s) s

/-- The ingest window closes (01 R28): uplinks that asked for acknowledgement belong to the present cycle. -/
def State.radioIngest (s : State) : State :=
  (List.range 4).foldl (fun s n =>
    let x := s.rimg n
    if x.acks = [] then s else s.setRimg n { x with acksDue := x.acksDue ++ x.acks, acks := [] }) s

/-! ### The boundary (R219, R232, R241, R249) -/

/-- BEACON_MISSED (R241) of the superframe that ends. -/
def State.beaconMissed (s : State) (n : Nat) : State :=
  if s.get Fld.radioStatState n ≠ 2 ∨ (s.port n).slot0 then s
  else (s.set Fld.radioStatBmiss (min 255 (s.get Fld.radioStatBmiss n + 1)) n).warnOnce 0x2081 n

/-- PORT_STATUS_READ (R219): the transceiver's discard count, modulo 256. -/
def State.statusRead (s : State) (n d : Nat) : State :=
  let p := s.port n
  let rise := unsigned 8 ((d : Int) - p.xdrop)
  if s.get Fld.radioStatState n ≠ 2 ∨ rise = 0 then s
  else ((s.setPort n { p with xdrop := d % 256 }).bump Fld.radioCnt3Xdrop n rise).warnOnce 0x2089 n

/-- Gives held frames that go out in the superframe their frame index (R226). -/
def numberFrames (used : List (Nat × Nat)) (l : List ListFrame) : List ListFrame × List (Nat × Nat) :=
  l.foldl (fun (a : List ListFrame × List (Nat × Nat)) f =>
    match nextIdx a.2 (descAt f.bytes 2 2) with
    | some k => (a.1 ++ [{ f with bytes := withIdx k f.bytes }], a.2 ++ [(descAt f.bytes 2 2, k)])
    | none => a) ([], used)

/-- A port and its image at a fleet-cycle boundary. -/
def State.portBoundary (s : State) (n : Nat) (d : Option Nat) : State :=
  let s := s.beaconMissed n
  let s := if (s.port n).stopping then s.portStops n else s
  let s := if s.get Fld.radioStatState n = 1 then s.set Fld.radioStatState 2 n else s
  let s := match d with
    | some v => s.statusRead n v
    | none => s
  let s := s.setPort n { s.port n with slot0 := false, bellAir := [] }
  let s := (s.rcbCheck n).beaconReleased n
  let x := s.rimg n
  let extra := numberFrames x.nextUsed x.extra
  let s := s.setRimg n { x with
    list := x.nextList, toHold := x.nextHold, listClaim := x.nextClaim, chain := false, nextList := [], nextHold := []
    ready := extra.1, extra := [], placed := x.nextPlaced, nextPlaced := [], used := extra.2, nextUsed := [] }
  if s.get Fld.radioStatState n ≠ 2 then s
  else if s.imgActive n then s.chainArm n
  else if s.imgRuns n then s.standbyHold n
  else s

/-- The radio at a fleet-cycle boundary; `discards` holds what STATUS answers on each running port.  Pending values take effect in a table
that lies in a shadow region, unless the region is locked. -/
def State.radioBoundary (s : State) (discards : List Nat) : State :=
  let s := (List.range 4).foldl (fun s n => s.portBoundary n (discards[n]?)) s
  if !s.inShadow (s.get Fld.radioNbrbaseAddr * 256) 67072 ∨ s.getB Fld.decantStateLocked then s
  else (List.range 1024).foldl State.pendInstant s

/-! ### Received frames (R218, R219, R222, R234-R239) -/

/-- RXTS_RISE (R218): the port latches TNOW; `off` is the offset in the present cycle in 5 ns units. -/
def execRxtsRise (n : Fin 4) (off : Nat) (s : State) : Result :=
  let t := (s.cycbase (4 + n.val) + off) % 2 ^ 32
  let s := s.passInCycle (min (s.clocksUntil (4 + n.val) t) (s.clocksTo (rawOfPs s.boundaryPs)))
  .next (s.setPort n.val { s.port n.val with stamp := some ⟨t, off, s.cycle⟩ })

/-- RXREAD of the oldest complete frames (R218, R219): while HOLD is low they go through the port's receive unit, with RSSI and STATUS. -/
def State.rxRead : Nat → Nat → State → State
  | 0, _, s => s
  | k + 1, n, s =>
    let p := s.port n
    match p.parked with
    | [] => s
    | (st, b) :: rest =>
      if s.getB Fld.queueStatWm (12 + n) then s
      else
        let s := s.setPort n { p with parked := rest }
        match s.qPush (12 + n) b with
        | (.written, s) => State.rxRead k n (s.setPort n { s.port n with stamps := (s.port n).stamps ++ [st] })
        | (_, s) => State.rxRead k n s

/-- RXTS_FALL (R218, R219): RXREAD is issued unless HOLD is high; the transceiver keeps four complete frames while it is. -/
def execRxtsFall (n : Fin 4) (frame : List Byte) (rssi : BitVec 8) (fcs : Bool) (s : State) : Result :=
  let p := s.port n.val
  match p.stamp with
  | none => .next s
  | some st =>
    if s.portStopped n.val then .next s
    else
      let item := (st, frame ++ [rssi, if fcs then 1 else 0])
      let s := s.setPort n.val { p with stamp := none, parked := if p.parked.length < 4 then p.parked ++ [item] else p.parked }
      .next (State.rxRead 4 n.val s)

/-- Where a frame was received: the slot, TYPE of its span, the span's number among those of its type, and its bounds (us). -/
structure RxSpan where
  slot : Nat
  type : Nat
  num : Nat
  start : Nat
  stop : Nat
  deriving DecidableEq, Repr

/-- A span of a plan as a receiver sees it. -/
def rxSpanOf (plan : List Byte) (rate slot k : Nat) : RxSpan :=
  let len := (geometry rate).2
  let t := slotType plan k
  { slot := max slot k, type := t, num := (List.range k).countP fun j => slotType plan j = t
    start := k * len, stop := (k + slotSpan plan k) * len }

/-- The span an RXTS offset (5 ns) belongs to: the last one whose first window has opened by then (R222, R234, R238); an RXTS outside that span's
time belongs to the span it lies in. -/
def State.rxSpan (s : State) (n off : Nat) : RxSpan :=
  let plan := (s.port n).planLive
  let rate := s.get Fld.radioPhyRateKbps n
  let (ns, len) := geometry rate
  let lead := 200 * s.get Fld.radioTimLeadpUs n * rate + 1600000 * s.get Fld.radioPhySyncb n
  let early := fun (t : Nat) =>
    200 * rate * (if t = 5 then s.get Fld.radioTimRxguardUs n else if t = 6 then s.get Fld.radioPollPguardUs n else 0)
  let opened := fun (k : Nat) =>
    let t := slotType plan k
    t ≠ 0 && (if t < 5 then decide (200 * len * k ≤ off) else decide (200 * len * k * rate + lead ≤ off * rate + early t))
  let slot := off / 200 / len
  let here := match spanAt plan rate (off / 200) with
    | some (k, _, _) => rxSpanOf plan rate slot k
    | none => { slot := slot, type := 0, num := 0, start := 0, stop := 0 }
  match ((List.range ns).filter opened).getLast? with
  | some k => if off < 200 * len * (k + slotSpan plan k) then rxSpanOf plan rate slot k else here
  | none => here

/-- Whether an RXTS offset (5 ns) lies within `guard` us of the expected one for a start in us (R222), times RATE. -/
def State.rxNear (s : State) (n off : Nat) (num den : Nat) (guard : Nat) : Bool :=
  let rate := s.get Fld.radioPhyRateKbps n
  let want : Int := 200 * ((num : Int) + den * s.get Fld.radioTimLeadpUs n) * rate + den * 1600000 * s.get Fld.radioPhySyncb n
  let got : Int := den * off * rate
  decide ((got - want).natAbs ≤ 200 * den * guard * rate)

/-- Whether an RXTS offset is not before the expected one at a span's start. -/
def State.rxFrom (s : State) (n off start : Nat) : Bool :=
  let rate := s.get Fld.radioPhyRateKbps n
  decide (200 * (start + s.get Fld.radioTimLeadpUs n) * rate + 1600000 * s.get Fld.radioPhySyncb n ≤ off * rate)

/-- Whether neighbour i owns an UPL or POLL occurrence of the present cycle (R234, R237). -/
def State.ownsSpan (s : State) (i num cyc : Nat) : Bool :=
  s.nbrAt i 24 1 % 16 = num && cyc % 2 ^ s.nbrAt i 25 1 = s.nbrAt i 26 2

/-- Whether TYPE and VERSION are valid in a span type (R235 step 2). -/
def rxTypeOk (v k t : Nat) : Bool :=
  (v = 2 && k = 0xB && (t = 5 || t = 7)) || (v = 2 && k = 0xC && t = 6) || (v = 2 && k = 0xA && t = 7) || (v = 1 && k = 3 && t = 8)

/-- Whether the entry of SRC admits the frame in this span (R235 step 3, Table 9.13); a POLL's own sub-slot is step 4. -/
def State.rxAdmits (s : State) (n i v k : Nat) (sp : RxSpan) (cyc : Nat) : Bool :=
  let kind := s.nbrKind i
  let st := s.nbrState i
  let own := s.ownsSpan i sp.num cyc
  decide (i < 1024) && s.nbrPort i = n && decide (if v = 1 then kind = 3 else kind = 1 ∨ kind = 2) &&
  if v = 1 then decide (st = 2 ∨ st = 3)
  else if k = 0xA then decide (st = 0 ∨ st = 1 ∨ st = 4)
  else if k = 0xC then decide (kind = 2 ∧ (st = 2 ∨ st = 3))
  else if sp.type = 5 then decide (kind = 1) && own && decide (1 ≤ st ∧ st ≤ 3)
  else decide (st = 2 ∨ st = 3)

/-- Whether the RXTS lies in the window of step 4. -/
def State.rxWindow (s : State) (n i off : Nat) (sp : RxSpan) (cyc : Nat) : Bool :=
  if sp.type = 5 then s.rxNear n off sp.start 1 (s.get Fld.radioTimRxguardUs n)
  else if sp.type = 6 then
    let sub := 2 ^ s.get Fld.radioPollNsub n
    s.ownsSpan i sp.num cyc &&
    s.rxNear n off (sub * sp.start + bits (s.nbrAt i 24 1) 4 2 * (sp.stop - sp.start)) sub (s.get Fld.radioPollPguardUs n)
  else s.rxFrom n off sp.start && decide (off ≤ 200 * (sp.stop - s.get Fld.radioTimGuardUs n))

/-- Takes TX buffer 2 back for an answer that must go out at its time (DESIGN CHOICE, log 176): its frame, not yet on air, waits again with those
of its superframe. -/
def State.takeBack (s : State) (n : Nat) : State :=
  let x := s.seq (4 + n)
  match x.slots.find? fun p => p.2.kind = 1 && p.2.param % 4 = 2 with
  | none => s
  | some (k, a) =>
    let off := if a.rel then a.time else s.actionOff n a
    let f : ListFrame := { slot := off / 200 / (geometry (s.get Fld.radioPhyRateKbps n)).2, off := off, bytes := Map.getD x.tx 2 [] }
    let s := s.setSeq (4 + n) { x with slots := Map.del x.slots k }
    let y := s.rimg n
    s.setRimg n (if a.rel then { y with nextList := f :: y.nextList } else { y with ready := f :: y.ready })

/-- Sends a frame of the image at an offset of the present cycle, ungated. -/
def State.sendAt (s : State) (n off : Nat) (body : List Byte) : State :=
  let s := if (s.freeBuf n).isSome then s else s.takeBack n
  match s.freeBuf n with
  | some buf => (s.txLoad n buf body).imgArm n (txAction buf (s.cycbase (4 + n) + off) false false false)
  | none =>
    let y := s.rimg n
    s.setRimg n { y with ready := { slot := off / 200 / (geometry (s.get Fld.radioPhyRateKbps n)).2, off := off, bytes := body } :: y.ready }

/-- Where the oldest frame held for a partner goes out after a poll (R239): the next GRANT span with room, and whether that is in the next
superframe. -/
def State.heldPlace (s : State) (n stop len : Nat) : Option (Nat × Nat × Bool) :=
  let x := s.rimg n
  let plan := (s.port n).planLive
  let unit := (geometry (s.get Fld.radioPhyRateKbps n)).2
  let grants := (List.range 40).filter fun k => slotType plan k = 4
  match (grants.filter fun k => stop ≤ k * unit).findSome? fun k => (s.placeIn n x.placed k len).map fun o => (k, o, false) with
  | some p => some p
  | none => grants.findSome? fun k => (s.placeIn n x.nextPlaced k len).map fun o => (k, o, true)

/-- The held frame goes out where it is placed. -/
def State.heldSend (s : State) (n : Nat) (h : HeldFrame) (p : Nat × Nat × Bool) : State :=
  let x := s.rimg n
  let x := { x with held := x.held.eraseIdx (x.held.findIdx fun (g : HeldFrame) => g.dest = h.dest) }
  let stop := p.2.1 + s.air5 n (h.body.length + 4)
  let f : ListFrame := { slot := p.1, off := p.2.1, bytes := h.body }
  if p.2.2 then s.setRimg n { x with extra := x.extra ++ [f], nextPlaced := Map.put x.nextPlaced p.1 stop }
  else
    let g := numberFrames x.used [f]
    (s.setRimg n { x with ready := x.ready ++ g.1, used := g.2, placed := Map.put x.placed p.1 stop }).chainArm n

/-- POLL_ANSWER (R239): POLLANS at ANSOFF of the sub-slot, ungated; DSLOT names the next GRANT span with room, in which the oldest held frame
goes. -/
def State.pollAnswer (s : State) (n i : Nat) (sp : RxSpan) : State :=
  let x := s.rimg n
  let mine := x.held.filter fun h => h.dest = i
  let place := match mine with
    | [] => none
    | h :: _ => (s.heldPlace n sp.stop (h.body.length + 4)).map fun p => (h, p)
  let (dslot, more) : Nat × Nat := match place with
    | none => (0xFF, 0)
    | some (_, k, _, late) => if late then (k + 64, 0) else (k, 4)
  let body := ownFrame 8 more i x.claim (leBytes mine.length 1 ++ leBytes dslot 1 ++ leBytes 0 2)
  let sub := 2 ^ s.get Fld.radioPollNsub n
  let start := 200 * sp.start + 200 * (sp.stop - sp.start) * bits (s.nbrAt i 24 1) 4 2 / sub
  let s := match nextIdx x.used i with
    | some k =>
      (s.setRimg n { x with used := x.used ++ [(i, k)] }).sendAt n (start + 200 * s.get Fld.radioPollAnsoffUs n) (withIdx k body)
    | none => s
  match place with
  | some (h, p) => s.heldSend n h p
  | none => s

/-- An accepted or duplicate frame goes to the sequencer with the header of Table 9.14; the image notes acknowledgements, answers polls,
and passes frames on to RXQ, a duplicate not again. -/
def State.rxDeliver (s : State) (n i k v : Nat) (f : List Byte) (st : RxStamp) (rssi : Byte) (sp : RxSpan) (dup : Bool) : State :=
  let hdr := leBytes st.tnow 4 ++ leBytes f.length 2 ++ [rssi] ++ leBytes (dup.toNat + 2 * (decide (v = 1)).toNat + 4 * sp.slot) 1
  if !s.imgRuns n then
    let x := s.seq (4 + n)
    if x.active then s.setSeq (4 + n) { x with rx := x.rx ++ [hdr ++ f] } else s
  else if !s.imgActive n then s
  else
    let x := s.rimg n
    let ack := bitOf (descAt f 1 1) 0
    let s := if ack ∧ v = 2 then s.setRimg n { x with acks := x.acks ++ [(i, descAt f 4 2)] } else s
    if dup then s
    else
      let s := s.imgPush n (s.rcbAt n 14 1) (hdr ++ f)
      if k = 0xC ∧ v = 2 then s.pollAnswer n i sp else s

/-- FRAME_RECEIVE (R235): the oldest frame read is checked, in the order of the steps, and delivered or dropped.  A gap marker is no frame
(11 R283), and in ROLE 0 no receive window is open (R248). -/
def State.frameReceive (s : State) (n : Nat) : State :=
  match s.qPop (12 + n) with
  | (none, s) => s
  | (some it, s) =>
    if it.gap then s
    else
    let p := s.port n
    let st := p.stamps.headD ⟨0, 0, 0⟩
    let s := s.setPort n { p with stamps := p.stamps.drop 1 }
    let f := it.body.take (it.body.length - 2)
    let rssi : Byte := it.body.getD (it.body.length - 2) 0
    let good := it.body.getD (it.body.length - 1) 0 = 1
    let v := descAt f 0 1 / 16
    let k := descAt f 0 1 % 16
    let i := descAt f 2 2
    let sp := s.rxSpan n st.off
    let mask := if v = 1 then 65536 else 4294967296
    let cnt := if v = 1 then descAt f 4 2 else descAt f 4 4
    let poll := v = 2 && k = 0xC
    if s.imgRuns n ∧ !s.imgActive n then s
    else if !good then s.bump Fld.radioCnt3Fcs n
    else if !rxTypeOk v k sp.type then (if poll then s.warnOnce 0x2088 n (i % 1024) else s)
    else if !s.rxAdmits n i v k sp st.cycle then s
    else if !s.rxWindow n i st.off sp st.cycle then (if poll then s.warnOnce 0x2088 n i else s)
    else
      let body := f.take (f.length - 4)
      if f.drop (f.length - 4) ≠ micOf (s.frameKey f) body 4 then s.bump Fld.radioCnt1Mic n
      else
        let last := if v = 1 then s.nbrAt i 16 2 else s.nbrAt i 16 4
        let d := ((cnt : Int) - last) % mask
        if d = 0 then s.rxDeliver n i k v f st rssi sp true
        else if d < mask / 2 then
          let s := (s.nbrPut i 16 (leBytes cnt (if v = 1 then 2 else 4))).nbrPut i 20 (leBytes s.cycle 4)
          let s := s.bump Fld.radioCnt0Rx n
          let s := if s.nbrState i = 1 ∧ k = 0xB ∧ sp.type = 5 then s.nbrSetState i 2 else s
          s.rxDeliver n i k v f st rssi sp false
        else ((s.bump Fld.radioCnt1Replay n).warnOnce 0x2085 n i)

/-- FRAME_RECEIVE (R235); with room in the receive unit the port reads on (R219). -/
def execFrameReceive (n : Fin 4) (s : State) : Result := .next (State.rxRead 4 n.val (s.frameReceive n.val))

end Sys2Proof.Machine
end

