-- ==== Sys2Proof/Machine/BellAir.lean ====
section
/-! DEFINITION. Bell frames on the radio ports (spec/10_bell.md R260-R274, R276): the window check, frames, listen-before-talk, names and
acknowledgements, the second voice. -/

namespace Sys2Proof.Machine

/-! ### The window check (R263, R268) -/

/-- W of R268 for N names, in us times RATE. -/
def bellW (g : FieldRead) (p n : Nat) : Nat :=
  let rate := g Fld.radioPhyRateKbps p
  let retry := if g Fld.radioRegMode p % 2 = 1 then g Fld.bellWinBretryUs p else 0
  let acks := 8000 * g Fld.radioPhySyncb p + (g Fld.bellWinAoffUs p + n * g Fld.bellWinAsubUs p) * rate
  (retry + g Fld.radioTimTxlatUs p + g Fld.radioTimGuardUs p) * rate + max (airRate g p (16 + 2 * n)) acks

/-- The window check of port p (R268). -/
def bellFits (g : FieldRead) (p : Nat) : Bool :=
  let rate := g Fld.radioPhyRateKbps p
  let n := g Fld.bellWinNack p
  let second := g Fld.bellWin2SecondUs p
  decide (bellW g p n ≤ 500 * rate) &&
  (n = 0 || (decide (airRate g p (16 + 2 * n) + 10 * rate ≤ g Fld.bellWinAoffUs p * rate + 8000 * g Fld.radioPhySyncb p) &&
    decide ((g Fld.radioTimLeadpUs p + 2 * g Fld.radioTimRxguardUs p) * rate + airRate g p 16 ≤ g Fld.bellWinAsubUs p * rate))) &&
  (second = 0 || (decide (bellW g p n ≤ second * rate) &&
    decide ((second + g Fld.radioTimTxlatUs p + g Fld.radioTimGuardUs p) * rate + airRate g p 16 ≤ 500 * rate)))

/-- BOUND_OK (R263): a change to 0 raises BOUND_LOST. -/
def State.boundCheck (s : State) : State :=
  let ok := (List.range 4).all fun n => !s.getB Fld.bellEstEn n || (List.range 4).all fun p =>
    s.get Fld.radioStatState p ≠ 2 ||
      decide (s.get Fld.bellEstFiltUs n + s.get Fld.radioTimTxlatUs p + s.get Fld.bellWinBretryUs p ≤ 149)
  let was := s.getB Fld.bellStateBoundOk
  let s := s.setB Fld.bellStateBoundOk ok
  if was ∧ !ok then s.raise 0x2485 else s

/-- FIT and BOUND_OK after a BELL or RADIO apply (R263, R268): a RADIO apply that clears a FIT bit raises BOUND_LOST. -/
def State.bellFit (s : State) (radio : Bool) : State :=
  let s := (List.range 4).foldl (fun s p =>
    let ok := bellFits s.liveRead p
    let was := bitOf (s.get Fld.bellStateFit) p
    let s := s.setMask Fld.bellStateFit p ok
    if radio ∧ was ∧ !ok then s.raise 0x2485 else s) s
  s.boundCheck

/-- Whether BELL's staged set passes (R276, R487). -/
def bellApplyOk (s : State) : Bool :=
  let g : FieldRead := fun f i => if f.block = Blk.bell then s.getStaged f i else s.get f i
  let within := fun (f : Fld) (lo hi : Nat) => decide (lo ≤ g f 0 ∧ g f 0 ≤ hi)
  (!s.changed Blk.bell .gInput none || (within Fld.bellTestTperMs 10 1000 && within Fld.bellTestTpUs 100 1000 &&
    within Fld.bellDiscDiscMs 10 5000 &&
    (List.range 4).all fun n => decide (g Fld.bellEstFiltUs n ≤ 80) && decide (g Fld.bellEstClass n = 1 ∨ g Fld.bellEstClass n = 2))) &&
  (!s.changed Blk.bell .gKey none || (s.slotUsage (g Fld.bellKeyRoot 0) 7 && s.slotUsage (g Fld.bellKeyCmdroot 0) 8)) &&
  (!s.changed Blk.bell .gCstop none || (List.range 4).all fun k => g Fld.bellCstopMode k ≠ 3) &&
  (List.range 4).all fun p => !s.changed Blk.bell .gWin (some p) || (decide (g Fld.bellWinNack p ≤ 8) && bellFits g p)

/-- What a BELL apply moves (R253-R255, R262, R263): a new EPOCH starts COUNT at 1 with a new reservation; an input whose EN, TEST_EN or
TPER_MS takes a new value starts its test pulses over, one enabled while a channel is counted open latches, and a disabled one has no
condition; the cabinet outputs follow. `old` is the state before the apply. -/
def State.bellApplied (s old : State) : State :=
  let s := if s.get Fld.bellKeyEpoch ≠ old.get Fld.bellKeyEpoch then (s.set Fld.bellCountValue 1).bellReserve 65536 else s
  let s := (List.range 4).foldl (fun s n =>
    let new := fun (f : Fld) (i : Nat) => s.get f i ≠ old.get f i
    let s := if new Fld.bellEstEn n ∨ new Fld.bellEstTestEn n ∨ new Fld.bellTestTperMs 0 then s.testStart n else s
    let s := s.discFollow n
    if bitOf (s.get Fld.bellEststatAopen) n ∨ bitOf (s.get Fld.bellEststatBopen) n then s.estLatch n else s) s
  (s.followCond.bellUpdate).bellFit false

/-! ### Frames (R260-R262, R266, R267, R273, R274) -/

/-- The K_B of R262. -/
def State.bellKey (s : State) : Nat := s.derivedKey (s.get Fld.bellKeyRoot) 0xFFFE (s.get Fld.bellKeyEpoch) 0x42

/-- UNIT of this unit's frames. -/
def State.bellUnit (s : State) : Nat := if s.get Fld.plinkStatePair = 0 then 0 else s.get Fld.claimStateUnit

/-- A Bell frame (Table 10.4). -/
def State.bellBytes (s : State) (f : BellFrame) (voice : Nat) : List Byte :=
  let b := leBytes 0x29 1 ++ leBytes (f.cls + 4 * s.bellUnit + 8 * voice) 1 ++ leBytes (s.get Fld.bellKeyEpoch) 1 ++
    leBytes f.names.length 1 ++ leBytes f.count 4 ++ f.names.flatMap fun n => leBytes n 2
  b ++ micOf s.bellKey b 8

/-- Whether a port carries Bell frames: starting or running, or stopped with KEEP (R274). -/
def State.bellPort (s : State) (p : Nat) : Bool :=
  let st := s.get Fld.radioStatState p
  st = 1 || st = 2 || (st = 0 && s.getB Fld.bellWin2Keep p)

/-- Whether this unit is the first voice (R273). -/
def State.firstVoice (s : State) : Bool := s.get Fld.plinkStatePair = 0 || s.holding

/-- Whether the Bell sends in a window that starts now (R260): a stop or RELEASING, for at least 120 us. -/
def State.bellRings (s : State) : Bool :=
  let st := s.get Fld.bellStateState
  decide (1 ≤ st ∧ st ≤ 3) && decide (s.bell.since + 120 ≤ s.us)

/-- The names of the next frame on a port (R269): robots owed and not named in this episode, rising, then the others owed, in rotation. -/
def State.pickNames (s : State) (p n : Nat) : List Nat :=
  let owed := (s.roster p).filter s.owed
  let fresh := owed.filter fun i => !s.bell.named.contains i
  let again := s.bell.named.filter fun i => owed.contains i
  (fresh ++ again).take n

/-- RELEASING_DONE (R257): the tenth window has been sent and no port still defers its frame. -/
def State.releasingDone (s : State) : State :=
  if s.get Fld.bellStateState = 3 ∧ 10 ≤ s.bell.relWindows ∧ s.bell.retry = [] then s.putBell 0 |>.bellUpdate else s

/-- COUNT of a frame sent now: it advances with the first frame of a window; a count that is not yet reserved durably is raised, and the next
reservation is requested in time (R262). -/
def State.bellCount (s : State) : State :=
  if s.bell.winSent then s
  else
    let c := (s.get Fld.bellCountValue + 1) % 2 ^ 32
    let rel := if s.get Fld.bellStateState = 3 then 1 else 0
    let s := s.set Fld.bellCountValue c
    let s : State := { s with bell := { s.bell with winSent := true, relWindows := s.bell.relWindows + rel } }
    let resv := s.get Fld.bellResvValue
    let s := if s.bell.resvDue ∧ (s.chestAt 0x0208).toNat ≤ c then s.raise 0x2486 else s
    if resv ≤ c + 32768 then s.bellReserve (resv + 65536) else s

/-- The Bell's air time in the present window is given up on a port. -/
def State.bellGiveUp (s : State) (p : Nat) : State :=
  let x := s.port p
  s.setPort p { x with bellAir := x.bellAir.filter fun w => w.1 ≠ s.bell.window }

/-- A Bell frame leaves a port, unless it would exceed a limit together with its reserve (R267); it is fired `off` us into the window. -/
def State.bellSend (s : State) (p : Nat) (f : BellFrame) (voice off : Nat) : State :=
  let s := s.setPort p { s.port p with channel := s.beaconChan p s.cycle }
  let len := 16 + 2 * f.names.length
  if !s.dutyOk p len true || !s.dwellOk p len true then ((s.bellGiveUp p).raise 0x2482).bump Fld.bellCntSkipped p
  else
    let s := s.bellCount
    let f := { f with count := s.get Fld.bellCountValue, fire := s.bell.window + off }
    let s := (s.useAir p len).set Fld.queueStatState 1 (16 + p)
    let s := (s.txCross p (s.bellBytes f voice)).2
    let x := s.port p
    let s := s.setPort p { x with slot0 := x.slot0 || s.bell.window = 0 }
    let s := if s.bell.window = 0 then s.set Fld.radioStatBmiss 0 p else s
    let named := (s.bell.named.filter fun i => !f.names.contains i) ++ f.names
    let s : State := { s with bell := { s.bell with frames := Map.put s.bell.frames p f, named := named } }
    s.bump Fld.bellCntSent p

/-- A port's window carries no frame (R266). -/
def State.bellDeferred (s : State) (p : Nat) : State := ((s.bellGiveUp p).bump Fld.bellCntSkipped p).raise 0x2481

/-- A measurement of the first voice on port p (R266): clear, the frame goes; busy, it is tried again BO_US later while that stays within
BRETRY_US of the window's start. -/
def State.bellTry (s : State) (p : Nat) (off : Nat) (rssi : Int) : State :=
  match Map.find s.bell.built p with
  | none => s
  | some f =>
    let s : State := { s with bell := { s.bell with retry := Map.del s.bell.retry p } }
    if s.get Fld.radioRegMode p % 2 = 0 ∨ rssi < signed 8 (s.get Fld.radioRegCcaDbm p) then
      { s with bell := { s.bell with built := Map.del s.bell.built p } }.bellSend p f 0 off
    else
      let next := off + s.get Fld.radioLbtBoUs p
      if next ≤ s.get Fld.bellWinBretryUs p then { s with bell := { s.bell with retry := Map.put s.bell.retry p next } }
      else { s with bell := { s.bell with built := Map.del s.bell.built p } }.bellDeferred p

/-- The end of the Bell's air time in a window, in us of the cycle (R261). -/
def State.bellEnd (s : State) (p n : Nat) : Nat :=
  let g := s.liveRead
  let rate := max 1 (g Fld.radioPhyRateKbps p)
  let second := g Fld.bellWin2SecondUs p
  let two := s.get Fld.plinkStatePair ≠ 0 ∧ second ≠ 0 ∧ bitOf (s.get Fld.bellStateFit) p
  let span := if two then (second + g Fld.radioTimTxlatUs p) * rate + airRate g p 16 else bellW g p n
  s.bell.window + (span + rate - 1) / rate

/-- BELL_WINDOW (R260): the window at k × 2 ms; `rssi` is what each port's CCA measures before the fire clock. -/
def execBellWindow (k : Fin 5) (rssi : List Int) (s : State) : Result :=
  let s := s.moveTo (max (s.get Fld.sysPhaseOffsetUs) (2000 * k.val))
  let s : State := { s with bell := { s.bell with window := 2000 * k.val, winSent := false, built := [], retry := [] } }
  if !s.bellRings ∨ !s.firstVoice then .next s
  else
    let st := s.get Fld.bellStateState
    let s := (List.range 4).foldl (fun s p =>
      if s.bellPort p then
        let n := if bitOf (s.get Fld.bellStateFit) p then s.get Fld.bellWinNack p else 0
        let f : BellFrame := { count := 0, cls := st, names := if st = 3 then [] else s.pickNames p n, episode := s.bell.episode }
        let x := s.port p
        let s := s.setPort p { x with bellAir := x.bellAir ++ [(2000 * k.val, s.bellEnd p n)] }
        ({ s with bell := { s.bell with built := Map.put s.bell.built p f } }).bellTry p 0 (rssi.getD p 0)
      else s) s
    .next s.releasingDone

/-- BELL_CCA_RETRY (R266). -/
def execBellCcaRetry (port : Fin 4) (rssi : Int) (s : State) : Result :=
  match Map.find s.bell.retry port.val with
  | some off => .next ((s.moveTo (s.bell.window + off)).bellTry port.val off rssi).releasingDone
  | none => .next s

/-- Whether a frame heard is a good Bell frame of the partner's UNIT with a class at or above this unit's merged class (R273); RELEASE ranks
lowest (R252). -/
def State.bellHeard (s : State) (b : List Byte) : Bool :=
  let n := descAt b 3 1
  let c := descAt b 1 1 % 4
  decide (n ≤ 8) && b.length = 16 + 2 * n && descAt b 0 1 = 0x29 && descAt b 2 1 = s.get Fld.bellKeyEpoch &&
  decide (bits (descAt b 1 1) 2 1 ≠ s.bellUnit) && decide (1 ≤ c) && decide (s.bellMerged ≤ if c = 3 then 0 else c) &&
  b.drop (8 + 2 * n) = micOf s.bellKey (b.take (8 + 2 * n)) 8

/-- SECOND_VOICE (R266, R273): at SECOND_US the other unit sends VOICE 1 without names, unless it heard a good frame of the partner of at least
its merged class (`heard`: the frame received in its listen span, empty where none was); it measures once. -/
def execSecondVoice (port : Fin 4) (rssi : Int) (heard : List Byte) (s : State) : Result :=
  let p := port.val
  let st := s.get Fld.bellStateState
  let off := s.get Fld.bellWin2SecondUs p
  if s.firstVoice ∨ !s.bellPort p ∨ st = 0 ∨ 3 < st ∨ off = 0 ∨ !bitOf (s.get Fld.bellStateFit) p ∨
      s.bellHeard heard ∨ s.us < s.bell.since + 120 then .next s
  else
    let s := s.moveTo (s.bell.window + off)
    if s.get Fld.radioRegMode p % 2 = 1 ∧ signed 8 (s.get Fld.radioRegCcaDbm p) ≤ rssi then .next (s.bellDeferred p)
    else .next (s.bellSend p { count := 0, cls := st, names := [], episode := s.bell.episode } 1 off).releasingDone

/-! ### Acknowledgements (R270, R271) -/

/-- Whether an RXTS offset (5 ns) lies within RXGUARD of the one of name i of a frame (R270). -/
def State.ackNear (s : State) (p : Nat) (f : BellFrame) (i off : Nat) : Bool :=
  let rate := s.get Fld.radioPhyRateKbps p
  let us := f.fire + s.get Fld.radioTimTxlatUs p + s.get Fld.bellWinAoffUs p + i * s.get Fld.bellWinAsubUs p + s.get Fld.radioTimLeadpUs p
  let want : Int := 200 * us * rate + 2 * 1600000 * s.get Fld.radioPhySyncb p
  decide (((off * rate : Nat) - want : Int).natAbs ≤ 200 * s.get Fld.radioTimRxguardUs p * rate)

/-- BELL_ACK (R270): `off` is the offset of its RXTS in the cycle (5 ns). -/
def execBellAck (port : Fin 4) (frame : List Byte) (off : Nat) (s : State) : Result :=
  let src := descAt frame 2 2
  match Map.find s.bell.frames port.val with
  | none => .next s
  | some f =>
    let key := s.derivedKey (s.get Fld.radioKeyRoot) src (s.get Fld.radioKeyEpoch) 0x52
    let ok := frame.length = 16 && descAt frame 0 1 = 0x29 && f.names.contains src && descAt frame 4 4 = f.count &&
      s.ackNear port.val f (f.names.idxOf src) off && decide (f.cls ≤ descAt frame 1 1 % 4) && frame.drop 8 = micOf key (frame.take 8) 8
    if ok ∧ f.episode = s.bell.episode then .next (s.setOwed src false).countAcks else .next s

/-- ACK_OVERDUE (R271): robots still owed 35 ms after the episode began, each once. -/
def execAckOverdue (s : State) : Result :=
  let st := s.get Fld.bellStateState
  match s.reachUs (35000 + s.bell.episodeUs) with
  | none => .next s
  | some t =>
    let late := (List.range 1024).filter fun i => t.owed i && !t.bell.overdue.contains i
    match late with
    | [] => .next s
    | i :: _ =>
      if st = 1 ∨ st = 2 then .next { t.raise 0x2483 i with bell := { t.bell with overdue := t.bell.overdue ++ late } }
      else .next s

end Sys2Proof.Machine
end

