-- ==== Sys2Proof/Machine/Keywell.lean ====
section
/-! DEFINITION. The Keywell (spec/14_keywell.md): key hierarchy and blobs, slots, generations, the Chest journal, jobs, random numbers,
self-tests and debug access.  Cryptographic functions are those of Config, which nothing is known of (log 11): algorithm 2 is the
root of a state, 3 and 4 AES-KWP (bytes and check), 5 the AES jobs, 6 CMAC and HMAC, 7 and 8 SHA-256 and SHA-384, 9 the KDF of
ECDH, 10 ECDSA verification, 11 the decryption of IMPORT, 12 public keys, 13 to 17 the tokens of R344, R346 and R360. -/

namespace Sys2Proof.Machine

/-! ### Generations (R347, R348) -/

/-- The Chest location of a generation entry. -/
def gixLoc (g : Nat) : Nat := 0x0400 + g

/-- A generation entry (Table 14.3). -/
def State.gixEntry (s : State) (g : Nat) : Nat := (s.chestAt (gixLoc g)).toNat

/-- GEN. -/
def entryGen (e : Nat) : Nat := bits e 0 24
/-- PG. -/
def entryPg (e : Nat) : Nat := bits e 24 24
/-- PARENT. -/
def entryParent (e : Nat) : Nat := bits e 48 12
/-- CARRY. -/
def entryCarry (e : Nat) : Bool := bitOf e 60
/-- USED. -/
def entryUsed (e : Nat) : Bool := bitOf e 61

/-- An entry of the given fields. -/
def entryOf (gen pg parent : Nat) (carry : Bool) : Nat :=
  gen % 2 ^ 24 + pg % 2 ^ 24 * 2 ^ 24 + parent % 2 ^ 12 * 2 ^ 48 + carry.toNat * 2 ^ 60 + 2 ^ 61

/-- Whether a GIX is live (R348), following at most `n` parents. -/
def State.gixLive (s : State) : Nat → Nat → Bool
  | 0, _ => false
  | n + 1, g =>
    let e := s.gixEntry g
    let p := entryParent e
    entryUsed e && (g = 0 || (entryPg e = entryGen (s.gixEntry p) && s.gixLive n p))

/-- Whether a GIX is live (R348); a chain of parents is at most 3,072 long. -/
def State.live (s : State) (g : Nat) : Bool := s.gixLive 3072 g

/-- The lowest GIX from 1 to 3,071 that is unused or not live (R348). -/
def State.gixFree (s : State) : Option Nat := ((List.range 3071).map (· + 1)).find? fun g => !s.live g

/-- The life-cycle state (Table 14.1). -/
def State.lc (s : State) : Nat := s.get Fld.keywellStateLc

/-- The root of the present state as a key reference (R343, Table 14.1): none in DEAD. -/
def State.rootKey (s : State) : Option Nat :=
  if 4 ≤ s.lc then none
  else
    let seed := (List.range 4).flatMap fun i => leBytes (s.chestAt (0x1100 + i)).toNat 8
    some (leNat (Config.crypto 2 s.lc (if s.lc = 2 then seed else [])))

/-! ### Slots (R350) -/

/-- Whether a live KEY field of RADIO or BELL, or the live DECANT.CFG.KEYSLOT, names a slot. -/
def State.slotInUse (s : State) (n : Nat) : Bool :=
  [Fld.radioKeyRoot, Fld.radioKeyLroot, Fld.bellKeyRoot, Fld.bellKeyCmdroot, Fld.decantCfgKeyslot].any fun f => s.get f = n

/-- The key in a slot. -/
def State.slot (s : State) (n : Nat) : Option KeySlot := Map.find s.keywell.slots n

/-- Loads a slot, replacing what it held. -/
def State.putSlot (s : State) (n : Nat) (k : KeySlot) : State :=
  { s with keywell := { s.keywell with slots := Map.put s.keywell.slots n k } }

/-- Empties a slot. -/
def State.emptySlot (s : State) (n : Nat) : State :=
  { s with keywell := { s.keywell with slots := Map.del s.keywell.slots n } }

/-- Empties the slots that a test picks. -/
def State.emptySlots (s : State) (p : Nat → KeySlot → Bool) : State :=
  { s with keywell := { s.keywell with slots := s.keywell.slots.filter fun x => !p x.1 x.2 } }

/-- Whether a slot's key is bound to a generation that its parent no longer has (R349 step 3). -/
def State.orphaned (s : State) (k : KeySlot) : Bool :=
  !s.live k.parentGix || entryGen (s.gixEntry k.parentGix) ≠ k.pgen

/-- Slots orphaned by entries that came from the partner are emptied, those in use stay loaded (R352); a carried key takes the generation
its parent has risen to; slots that have left use are emptied, and ORPHAN_IN_USE follows. -/
def State.orphanSettle (s : State) (news : Bool) : State :=
  let up := s.keywell.slots.map fun x =>
    let g := entryGen (s.gixEntry x.2.parentGix)
    if x.2.carry && g = x.2.pgen + 1 then (x.1, { x.2 with pgen := g, carry := false }) else x
  let s : State := { s with keywell := { s.keywell with slots := up } }
  let s := s.emptySlots fun n k => s.orphaned k && !s.slotInUse n
  let left := s.keywell.slots.filter fun x => s.orphaned x.2
  let s := s.setB Fld.keywellStateOrphanInUse (!left.isEmpty)
  match left with
  | x :: _ => if news then s.raise 0x3483 x.1 else s
  | [] => s

/-! ### Boot record fields kept in the Chest (15 Table 15.4) -/

/-- BOOT's words as the Chest holds them (Table 15.9). -/
def State.bootSync (s : State) : State :=
  let r := (s.chestAt 0).toNat
  let id := (s.chestAt 0x0011).toNat
  let s := ((s.set Fld.bootStateRec (bits r 0 3)).set Fld.bootStateTrials (bits r 3 2)).setB Fld.bootStateGoldlock (bitOf r 5)
  let s := (s.setB Fld.bootStateIdset (bitOf id 49)).setB Fld.bootStateUnit (bitOf id 48)
  s.set Fld.bootMinsecValue (bits (s.chestAt 1).toNat 0 32)

/-! ### The Chest journal (R353-R356) -/

/-- The first location of a journal slot. -/
def jslotBase (i : Nat) : Nat := if i = 0 then 0x0240 else 0x0251

/-- The CRC-32C of locations 0 to 15 of a journal slot. -/
def jslotCrc (ws : List Nat) : Nat := crc32c (ws.flatMap fun w => leBytes w 8)

/-- The locations of a journal slot as the Chest holds them. -/
def State.jslot (s : State) (i : Nat) : List Nat := (List.range 17).map fun k => (s.chestAt (jslotBase i + k)).toNat

/-- The SEQ of a journal slot whose commit is complete: CRC and SEQ agree. -/
def State.jslotSeq (s : State) (i : Nat) : Option Nat :=
  let ws := s.jslot i
  let c := ws.getD 16 0
  let seq := bits (ws.getD 0 0) 0 31
  if bits c 0 32 = jslotCrc (ws.take 16) ∧ bits c 32 31 = seq then some seq else none

/-- The journal slot that holds the newest committed SEQ, and that SEQ; SEQ is compared as a 31-bit difference. -/
def State.jnewest (s : State) : Option (Nat × Nat) :=
  match s.jslotSeq 0, s.jslotSeq 1 with
  | some a, some b => if 0 < signed 31 (unsigned 31 ((b : Int) - a)) then some (1, b) else some (0, a)
  | some a, none => some (0, a)
  | none, some b => some (1, b)
  | none, none => none

/-- The three words that list an update's targets (Table 14.7). -/
def jtargetWords (ts : List (Nat × Word)) : List Nat :=
  (List.range 3).map fun k => (List.range 4).foldl (fun v j => v + ((ts.map (·.1)).getD (4 * k + j) 0) * 2 ^ (16 * j)) 0

/-- The steps of an update of several targets (R354): header, target words, values, commit, targets, the fuse burn, and DONE, which
waits for the boot ROM's wipe where there is one. -/
def State.journalSteps (s : State) (kind : Nat) (fuse : Option Nat) (wipe : Bool) (ts : List (Nat × Word)) : List KwStep :=
  let (i, seq) := match s.jnewest with
    | some (n, q) => (1 - n, (q + 1) % 2 ^ 31)
    | none => (0, 1)
  let b := jslotBase i
  let head := seq + ts.length * 2 ^ 32 + kind * 2 ^ 36 +
    (match fuse with
      | some f => ((f + 3) % 4) * 2 ^ 40 + 2 ^ 42
      | none => 0) + wipe.toNat * 2 ^ 43
  let tw := jtargetWords ts
  let vs := ts.map fun t => t.2.toNat
  let old := (s.jslot i).take 16
  let ws := head :: tw ++ vs ++ old.drop (4 + vs.length)
  let commit := jslotCrc ws + seq * 2 ^ 32
  let wr := fun (k v : Nat) => KwStep.write (b + k) (BitVec.ofNat 64 v)
  wr 0 head :: (tw.zipIdx.map fun p => wr (1 + p.2) p.1) ++ (vs.zipIdx.map fun p => wr (4 + p.2) p.1) ++ [wr 16 commit] ++
    (ts.map fun t => KwStep.write t.1 t.2) ++
    (match fuse with
      | some f => [KwStep.burn f]
      | none => []) ++
    (if wipe then [] else [wr 16 (commit + 2 ^ 63)])

/-- Starts an update (R353): one target is written directly, several go through the journal. -/
def State.startUpdate (s : State) (u : KwUpdate) (kind : Nat) (fuse : Option Nat) (wipe : Bool) (ts : List (Nat × Word)) : State :=
  let st := match ts with
    | [t] => if kind = 1 ∨ kind = 4 then [KwStep.write t.1 t.2] else s.journalSteps kind fuse wipe ts
    | _ => s.journalSteps kind fuse wipe ts
  { s with keywell := { s.keywell with steps := st, update := some u, targets := ts } }

/-- STATE.JOURNAL: 0 idle, 1 writing, 2 applying (what is left are targets, the fuse burn and DONE). -/
def State.journalState (s : State) : Nat :=
  let k := s.keywell
  let burn := k.steps.countP fun x => x matches .burn _
  let last := match k.steps.getLast? with
    | some (.write l _) => (l = 0x0250 || l = 0x0261).toNat
    | _ => 0
  if k.steps = [] then 0 else if k.targets.length + burn + last < k.steps.length then 1 else 2

/-- Makes one step of an update. -/
def State.kwStep (s : State) : KwStep → State
  | .write loc v => s.chestSet loc v
  | .burn f => { s with keywell := { s.keywell with fuseState := max f s.keywell.fuseState } }

/-! ### KGEN (R351, R352) -/

/-- The GIX of the key that stands directly below `g` on the way from `c` up to it, within `n` parents. -/
def State.gixTop (s : State) (g : Nat) : Nat → Nat → Option Nat
  | 0, _ => none
  | n + 1, c =>
    if c = 0 ∨ c = g then none
    else
      let p := entryParent (s.gixEntry c)
      if p = g then some c else s.gixTop g n p

/-- Whether a slot's key lies below the key of a GIX. -/
def State.below (s : State) (g : Nat) (k : KeySlot) : Bool := k.parentGix = g || (s.gixTop g 3072 k.parentGix).isSome

/-- Whether a slot below a key survives its rise (R351 step 2); nothing survives the rise of the root. -/
def State.survives (s : State) (g : Nat) (k : KeySlot) : Bool :=
  if g = 0 then false
  else if k.parentGix = g then k.carry
  else match s.gixTop g 3072 k.parentGix with
    | some c => entryCarry (s.gixEntry c)
    | none => false

/-- The carried WRAP children of a key (R351 step 3). -/
def State.carriedChildren (s : State) (g : Nat) : List Nat :=
  if g = 0 then []
  else ((List.range 3071).map (· + 1)).filter fun c =>
    let e := s.gixEntry c
    entryUsed e && entryParent e = g && entryCarry e && s.live c

/-- The targets of a rise of a key: its own entry, and those of its carried WRAP children (R351 step 4). -/
def State.kgenTargets (s : State) (g : Nat) : List (Nat × Word) :=
  let e := s.gixEntry g
  let n := entryGen e + 1
  (gixLoc g, BitVec.ofNat 64 (e + 1)) :: (s.carriedChildren g).map fun c =>
    let f := s.gixEntry c
    (gixLoc c, BitVec.ofNat 64 (entryOf (entryGen f) n g false))

/-- The slots that a rise empties (R351 step 2). -/
def State.doomedSlots (s : State) (g : Nat) : List Nat :=
  (s.keywell.slots.filter fun x => s.below g x.2 && !s.survives g x.2).map (·.1)

/-- The slots after a rise (R351 step 5): doomed ones are emptied, carried ones take the new PGEN. -/
def State.kgenSlots (s : State) (g : Nat) (doomed : List Nat) : State :=
  let n := entryGen (s.gixEntry g)
  let s := s.emptySlots fun k _ => doomed.contains k
  let up := s.keywell.slots.map fun x =>
    if x.2.parentGix = g && x.2.carry then (x.1, { x.2 with pgen := n, carry := false }) else x
  { s with keywell := { s.keywell with slots := up } }

/-- Sends a change of generations to the partner (R352): in SOLO there is none. -/
def State.toPartner (s : State) (ts : List (Nat × Word)) : State :=
  if s.pair = 0 then s
  else
    let l := match s.keywell.unacked with
      | some l => l
      | none => []
    { s with keywell := { s.keywell with unacked := some (l ++ ts), sends := s.keywell.sends + s.linkUp.toNat } }

/-- The result of the KGEN in progress. -/
def State.kgenResult (s : State) (r : Nat) : State :=
  match s.keywell.kgen with
  | some k => { s with keywell := { s.keywell with kgen := some { k with result := some r } } }
  | none => s

/-- Whether every row of Table 14.13 that the device can tell holds (R361). -/
def State.approved (s : State) : Bool :=
  s.lc = 2 && s.getB Fld.keywellStateOwned && !s.getB Fld.debugStateOpened && s.getB Fld.keywellCfgApproved &&
  !s.getB Fld.keywellStateError && s.keywell.slots.all fun x => x.2.level ≠ 1 || x.2.imported

/-- An update is durable: what it was made for goes on (R351 step 5, R352, R357). -/
def State.updateDone (s : State) (u : KwUpdate) : State :=
  let ts := s.keywell.targets
  let s : State := { s with keywell := { s.keywell with update := none, targets := [] } }
  let s := s.bootSync
  match u with
  | .kgen g doomed =>
    let s := (s.kgenSlots g doomed).toPartner ts
    let s : State := { s with keywell := { s.keywell with sentUs := s.us } }
    if s.pair = 0 then s.kgenResult 0 else s
  | .job => { s with keywell := { s.keywell with executed := some (BitVec.ofNat 64 (s.approved.toNat * 65536)) } }
  | .partner =>
    let s : State := { s with keywell := { s.keywell with acks := s.keywell.acks + 1 } }
    s.orphanSettle true

/-- The oldest partner update that waits begins, unless another update is in progress (R352). -/
def State.partnerNext (s : State) : State :=
  match s.keywell.partnerQ with
  | ts :: rest =>
    if s.keywell.update = none then
      ({ s with keywell := { s.keywell with partnerQ := rest } } : State).startUpdate .partner 4 none false ts
    else s
  | [] => s

/-- The next step of the Keywell's update (R354), ahead of all other Chest writes. -/
def State.kwWrite (s : State) : State :=
  match s.keywell.steps with
  | [] => s
  | x :: rest =>
    let s := s.kwStep x
    let s : State := { s with keywell := { s.keywell with steps := rest } }
    match rest, s.keywell.update with
    | [], some u => (s.updateDone u).partnerNext
    | _, _ => s

/-- CHEST_WRITE_DURABLE (R58, 10 R262, 18 R433, 14 R353, R356): a write of the Keywell goes first, unless a power-fail warning has stopped it,
then the Bell's reservation, then one of the Tally's save; then the oldest write of the core's queue is durable. -/
def execChestWriteDurable (c : Core) (s : State) : Result :=
  if s.keywell.steps ≠ [] ∧ !s.keywell.stopped then .next s.kwWrite
  else if s.bell.resvDue then
    .next { s.chestSet 0x0208 (BitVec.ofNat 64 (s.get Fld.bellResvValue)) with bell := { s.bell with resvDue := false } }
  else match s.tally.save with
    | (l, v) :: rest => .next { s.chestSet l v with tally := { s.tally with save := rest } }
    | [] =>
      match (s.core c).chestQ with
      | (l, v) :: rest => .next ((s.chestSet l v).setCore c { s.core c with chestQ := rest })
      | [] => .next s

/-! ### Blobs (Tables 14.4 and 14.5, R347-R349) -/

/-- The bytes of key material of a TYPE. -/
def keyBytes (type : Nat) : Nat :=
  match type with
  | 1 => 16
  | 2 | 3 | 5 => 32
  | _ => 48

/-- Whether a USAGE is allowed for a TYPE (Table 14.5). -/
def usageOk (type usage : Nat) : Bool :=
  let aes := type = 1 || type = 2
  let special := bits usage 6 4
  decide (usage < 1024) && (!bitOf usage 0 || type = 2) && ((bits usage 1 2 = 0) || aes) &&
  (!bitOf usage 3 || aes || type = 3 || type = 4) && ((bits usage 4 2 = 0) || type = 5 || type = 6) &&
  (special = 0 || (type = 2 && decide (usage = 64 ∨ usage = 128 ∨ usage = 256 ∨ usage = 512)))

/-- Bytes 0 to 31 of a key's blob. -/
def blobHead (k : KeySlot) : List Byte :=
  leBytes 0x4C42574B 4 ++ leBytes 1 1 ++ leBytes k.type 1 ++ leBytes k.level 1 ++ leBytes 0 1 ++ leBytes k.usage 2 ++
  leBytes (if bitOf k.usage 0 then k.gix else 0xFFFF) 2 ++ leBytes k.parentGix 2 ++ leBytes 0 2 ++ leBytes k.pgen 4 ++
  leBytes k.keyid 4 ++ leBytes k.label 8

/-- A key's blob under its parent's key: AES-KWP, algorithm 3, gives 8 bytes more than it wraps. -/
def blobOf (parent : Nat) (k : KeySlot) : List Byte :=
  let h := blobHead k
  let w := (Config.crypto 3 parent (h ++ k.material) ++ List.replicate 96 0).take (40 + k.material.length)
  (h ++ w ++ List.replicate 96 0).take 128

/-- A number at a byte offset. -/
def numAt (b : List Byte) (k n : Nat) : Nat := leNat ((b.drop k).take n)

/-- The attributes in bytes 0 to 31 of a blob. -/
def headSlot (b material : List Byte) : KeySlot :=
  { type := numAt b 5 1, level := numAt b 6 1, usage := numAt b 8 2, gix := numAt b 10 2, parentGix := numAt b 12 2,
    pgen := numAt b 16 3, keyid := numAt b 20 4, label := numAt b 24 8, material := material }

/-- Step 1 of R349 on bytes 0 to 31: the form of a blob. -/
def headForm (b : List Byte) : Option Nat :=
  let ty := numAt b 5 1
  if numAt b 0 4 ≠ 0x4C42574B ∨ numAt b 4 1 ≠ 1 ∨ ty < 1 ∨ 6 < ty ∨ !usageOk ty (numAt b 8 2) ∨ numAt b 7 1 ≠ 0 ∨ numAt b 14 2 ≠ 0 ∨
      numAt b 19 1 ≠ 0 then some 0x3402
  else if numAt b 6 1 < 1 ∨ 3 < numAt b 6 1 then some 0x3408
  else none

/-- The key of a parent: the root for level 1, else a loaded slot of the GIX at the level above (R349 step 2). -/
def State.parentKey (s : State) (level gix : Nat) : Option Nat :=
  if level = 1 then s.rootKey
  else (s.keywell.slots.find? fun x => bitOf x.2.usage 0 && x.2.gix = gix && x.2.level + 1 = level).map fun x => leNat x.2.material

/-- The bytes that follow the 32-byte header in a blob of a TYPE, up to its zeros. -/
def blobWrapped (b : List Byte) : List Byte := (b.drop 32).take (40 + keyBytes (numAt b 5 1))

/-- KLOAD's checks (R349) on a blob for slot `n`: a code, or the key. -/
def State.kload (s : State) (n : Nat) (b : List Byte) : Nat ⊕ KeySlot :=
  match headForm b with
  | some c => .inl c
  | none =>
    let k := headSlot b []
    if (b.drop (72 + keyBytes k.type)).any (fun x => x ≠ 0) then .inl 0x3402
    else match s.parentKey k.level k.parentGix with
      | none => .inl 0x3405
      | some pk =>
        let e := s.gixEntry k.gix
        if s.orphaned k || (k.level = 1 && k.parentGix ≠ 0) ||
            (bitOf k.usage 0 && !(decide (k.gix < 3072) && entryUsed e && entryParent e = k.parentGix)) then .inl 0x3404
        else if !Config.cryptoOk 4 pk b then .inl 0x3403
        else if s.slotInUse n then .inl 0x3406
        else .inr { k with material := (Config.crypto 4 pk (blobWrapped b) ++ List.replicate 48 0).take (keyBytes k.type) }

/-! ### The queue of jobs (R350, R357, Tables 14.9 and 14.10) -/

/-- Whether a job's operation names a slot as its key or target. -/
def KwJob.namesSlot (j : KwJob) (n : Nat) : Bool :=
  (j.slot = n && !(j.op = 5 || j.op = 7 || decide (13 ≤ j.op))) || (j.parent = n && (j.op = 9 || j.op = 11))

/-- Whether an earlier job that names a slot has not completed (R350). -/
def State.slotAwaited (s : State) (n : Nat) : Bool := s.keywell.jobs.any fun j => j.namesSlot n

/-- The job of a descriptor's 64 bytes (Table 14.9), with the code its form fails with. -/
def jobOf (num : Nat) (c : Core) (b : List Byte) (aligned : Bool) : KwJob :=
  let op := numAt b 0 1
  let mode := numAt b 1 1
  let slot := numAt b 2 1
  let ty := numAt b 42 1
  let us := numAt b 40 2
  let par := numAt b 43 1
  let make' := op = 9 || op = 11
  let ok := aligned && decide (1 ≤ op ∧ op ≤ 16) && decide (numAt b 3 1 < 4) && (b.drop 44).all (fun x => x = 0) &&
    (decide (slot < 64) || (op = 12 && slot = 0xFF)) &&
    (!(op = 1 || op = 2) || decide (mode ≤ 3)) && (!(op = 3 || op = 4 || op = 5) || decide (mode ≤ 1)) &&
    (!make' || (decide (1 ≤ ty ∧ ty ≤ 6) && usageOk ty us && (decide (par < 64) || par = 0xFF)))
  { num := num, core := c, op := op, mode := mode, slot := slot, flags := numAt b 3 1, len := numAt b 4 4, src := numAt b 8 8,
    dst := numAt b 16 8, aux := numAt b 24 8, auxlen := numAt b 32 4, keyid := numAt b 36 4, usage := us, type := ty, parent := par,
    form := if ok then 0 else 0x340E }

/-- The next job number: 1 to 65,535, wrapping and skipping 0. -/
def nextNum (n : Nat) : Nat := if n = 65535 then 1 else n + 1

/-- The DRBG is freshly seeded. -/
def State.drbgSeed (s : State) : State := { s with keywell := { s.keywell with drbgRequests := 0, reseedUs := s.us } }

/-- One more request of the DRBG (R358): with prediction resistance it is seeded first; after 2^20 it has reseeded. -/
def State.drbgUse (s : State) (pr : Bool := false) : State :=
  let s := if pr || s.getB Fld.keywellCfgPr then s.drbgSeed else s
  let n := s.keywell.drbgRequests + 1
  if n = 1048576 then s.drbgSeed else { s with keywell := { s.keywell with drbgRequests := n } }

/-- Whether the DRBG gives output. -/
def State.entropyOk (s : State) : Bool := s.getB Fld.keywellStateEntropyOk

/-- Draws bytes from the DRBG. -/
def State.drbgBytes (s : State) (n : Nat) (pr : Bool := false) : List Byte × State := (s.drbgUse pr).drawBytes n

/-- What a job ends with: its code, the bytes of output, and the state. -/
abbrev JobEnd := Nat × Nat × State

/-- A job that fails. -/
def State.jobFail (s : State) (code : Nat) : JobEnd := (code, 0, s)

/-- A job that writes its output. -/
def State.jobOut (s : State) (dst : Nat) (out : List Byte) : JobEnd := (0, out.length, s.store dst out)

/-- Output of a length, from the bytes of an algorithm. -/
def fitBytes (n : Nat) (bs : List Byte) : List Byte := (bs ++ List.replicate n 0).take n

/-- Whether all ranges a job names lie in the Granary or fitted DRAM. -/
def State.ramAll (s : State) (l : List (Nat × Nat)) : Bool := l.all fun r => r.2 = 0 || s.inRam r.1 r.2

/-- A key of a slot fit for a job: the slot is not empty (0x3413), its USAGE has the bit and its TYPE is one of those given (0x3407). -/
def State.jobKey (s : State) (n bit : Nat) (types : List Nat) (f : KeySlot → JobEnd) : JobEnd :=
  match s.slot n with
  | none => s.jobFail 0x3413
  | some k => if bitOf k.usage bit && types.contains k.type then f k else s.jobFail 0x3407

/-- ENCRYPT and DECRYPT (Table 14.10, R357, R361): IV, tag and AAD stand at AUX. -/
def State.jobAes (s : State) (j : KwJob) (dec : Bool) : JobEnd :=
  s.jobKey j.slot (if dec then 2 else 1) [1, 2] fun k =>
    let need := match j.mode with
      | 0 => 0
      | 3 => 44
      | _ => 16
    if j.mode = 0 ∧ s.getB Fld.keywellCfgApproved then s.jobFail 0x340B
    else if j.auxlen < need then s.jobFail 0x340E
    else if !s.ramAll [(j.src, j.len), (j.dst, j.len), (j.aux, need)] then s.jobFail 0x3412
    else
      let gcm := j.mode = 3
      let aad := if gcm then (s.readLE (j.aux + 32) 8, s.readLE (j.aux + 40) 4) else (0, 0)
      if !s.ramAll [aad] then s.jobFail 0x3412
      else
        let inp := leBytes (4 * k.type + j.mode) 1 ++ s.rd j.aux (min need 16) ++ leBytes aad.2 4 ++
          s.rd aad.1 aad.2 ++ s.rd j.src j.len
        let key := leNat k.material
        if dec then
          if gcm && !Config.cryptoOk 5 key (inp ++ s.rd (j.aux + 16) 16) then
            (0x3481, j.len, s.store j.dst (List.replicate j.len 0))
          else s.jobOut j.dst (fitBytes j.len (Config.crypto 5 key (leBytes 1 1 ++ inp)))
        else
          let out := Config.crypto 5 key (leBytes 0 1 ++ inp)
          let (_, n, s) := s.jobOut j.dst (fitBytes j.len out)
          (0, n, if gcm then s.store (j.aux + 16) (fitBytes 16 (out.drop j.len)) else s)

/-- The tag of a MAC job: CMAC under an AES key, HMAC under an HMAC key. -/
def State.macTag (s : State) (j : KwJob) (k : KeySlot) : List Byte :=
  let msg := s.rd j.src j.len
  let key := leNat k.material
  if k.type ≤ 2 then micOf key msg 16
  else fitBytes (if j.mode = 0 then 32 else 48) (Config.crypto 6 key (leBytes j.mode 1 ++ msg))

/-- MAC and MACVERIFY. -/
def State.jobMac (s : State) (j : KwJob) (verify : Bool) : JobEnd :=
  s.jobKey j.slot 3 [1, 2, 3, 4] fun k =>
    let t := s.macTag j k
    if verify then
      if !s.ramAll [(j.src, j.len), (j.aux, t.length)] then s.jobFail 0x3412
      else if s.rd j.aux t.length = t then (0, 0, s) else (0x3481, 0, s)
    else if !s.ramAll [(j.src, j.len), (j.dst, t.length)] then s.jobFail 0x3412
    else s.jobOut j.dst t

/-- HASH. -/
def State.jobHash (s : State) (j : KwJob) : JobEnd :=
  let n := if j.mode = 0 then 32 else 48
  if !s.ramAll [(j.src, j.len), (j.dst, n)] then s.jobFail 0x3412
  else s.jobOut j.dst (fitBytes n (Config.crypto (7 + j.mode) 0 (s.rd j.src j.len)))

/-- SIGN: an ECDSA signature, whose secret number the DRBG draws. -/
def State.jobSign (s : State) (j : KwJob) : JobEnd :=
  s.jobKey j.slot 4 [5, 6] fun k =>
    let n := if k.type = 5 then 64 else 96
    if !s.ramAll [(j.src, j.len), (j.dst, n)] then s.jobFail 0x3412
    else
      let (bs, s) := s.drbgBytes n (bitOf j.flags 1)
      s.jobOut j.dst bs

/-- VERIFY: the public key and signature at AUX. -/
def State.jobVerify (s : State) (j : KwJob) : JobEnd :=
  if !s.ramAll [(j.src, j.len), (j.aux, j.auxlen)] then s.jobFail 0x3412
  else if Config.cryptoOk 10 j.mode (s.rd j.aux j.auxlen ++ s.rd j.src j.len) then (0, 0, s) else (0x3481, 0, s)

/-- ECDH: the private key in SLOT gives way to the AES-256 key that the KDF makes; the spec states no USAGE for it (log 61). -/
def State.jobEcdh (s : State) (j : KwJob) : JobEnd :=
  s.jobKey j.slot 5 [5, 6] fun k =>
    if !s.ramAll [(j.aux, j.auxlen)] then s.jobFail 0x3412
    else if s.slotInUse j.slot then s.jobFail 0x3406
    else
      let (u, s) := s.draw
      let m := fitBytes 32 (Config.crypto 9 (leNat k.material) (s.rd j.aux j.auxlen))
      (0, 0, s.putSlot j.slot { k with type := 2, usage := u % 1024, gix := 0xFFFF, material := m, carry := false })

/-- The parent that a GENERATE names: its key, GIX and level, or a code. -/
def State.jobParent (s : State) (p : Nat) : Nat ⊕ (Nat × Nat × Nat) :=
  if p = 0xFF then
    match s.rootKey with
    | some k => .inr (k, 0, 0)
    | none => .inl 0x3409
  else match s.slot p with
    | none => .inl 0x3413
    | some k => if !bitOf k.usage 0 then .inl 0x3407 else if 3 ≤ k.level then .inl 0x3408 else .inr (leNat k.material, k.gix, k.level)

/-- A new key enters its slot and its blob goes to DST (R347, R348, R350): a WRAP key is allocated the lowest GIX that is free. -/
def State.jobNewKey (s : State) (j : KwJob) (parent gix : Nat) (k : KeySlot) : JobEnd :=
  let next := bitOf j.flags 0
  let pg := entryGen (s.gixEntry gix)
  let wrap := bitOf k.usage 0
  let k := { k with parentGix := gix, pgen := pg, carry := next, gix := 0xFFFF }
  let blobGen := if next then pg + 1 else pg
  if !wrap then
    let s := s.putSlot j.slot k
    s.jobOut j.dst (blobOf parent { k with pgen := blobGen })
  else match s.gixFree with
    | none => s.jobFail 0x3410
    | some g =>
      let v := BitVec.ofNat 64 (entryOf (entryGen (s.gixEntry g) + 1) pg gix next)
      let k := { k with gix := g }
      let s := ((s.chestSet (gixLoc g) v).putSlot j.slot k).toPartner [(gixLoc g, v)]
      s.jobOut j.dst (blobOf parent { k with pgen := blobGen })

/-- GENERATE (R348, R350, R358, R359): an elliptic-curve key that fails its pairwise consistency test is a failed self-test. -/
def State.jobGenerate (s : State) (j : KwJob) (pairwiseOk : Bool) : JobEnd :=
  if !s.entropyOk then s.jobFail 0x340D
  else if !s.ramAll [(j.dst, 128)] then s.jobFail 0x3412
  else match s.jobParent j.parent with
    | .inl c => s.jobFail c
    | .inr (pk, gix, lv) =>
      if s.slotInUse j.slot then s.jobFail 0x3406
      else if 5 ≤ j.type ∧ !pairwiseOk then
        let s := (s.setB Fld.keywellStateError true).emptySlots fun n _ => !s.slotInUse n
        s.jobFail 0x340C
      else
        let (m, s) := s.drbgBytes (keyBytes j.type) (bitOf j.flags 1)
        let (l, s) := s.draw
        s.jobNewKey j pk gix { type := j.type, level := lv + 1, usage := j.usage, gix := 0, parentGix := 0, pgen := 0, keyid := j.keyid,
                               label := l % 2 ^ 64, material := m, imported := lv ≠ 0 }

/-- WRAP (R350, Table 14.5). -/
def State.jobWrap (s : State) (j : KwJob) : JobEnd :=
  match s.slot j.slot with
  | none => s.jobFail 0x3413
  | some k =>
    match s.parentKey k.level k.parentGix with
    | none => s.jobFail (if k.level = 1 then 0x3409 else 0x3405)
    | some pk =>
      if !s.ramAll [(j.dst, 128)] then s.jobFail 0x3412
      else if !bitOf j.flags 0 then s.jobOut j.dst (blobOf pk k)
      else
        let g := entryGen (s.gixEntry k.parentGix)
        let s := s.putSlot j.slot { k with carry := true }
        let s := if bitOf k.usage 0 then s.chestSet (gixLoc k.gix) (BitVec.ofNat 64 (setBit (s.gixEntry k.gix) 60 true)) else s
        s.jobOut j.dst (blobOf pk { k with pgen := g + 1 })

/-- DEVID, 8 bytes. -/
def State.devid (s : State) : List Byte := leBytes (s.get Fld.keywellDevidloDevid) 4 ++ leBytes (s.get Fld.keywellDevidhiDevid) 4

/-- IMPORT (R347, Table 14.10): a level-1 key wrapped to the device identity key. -/
def State.jobImport (s : State) (j : KwJob) : JobEnd :=
  if !s.entropyOk then s.jobFail 0x340D
  else if !s.ramAll [(j.aux, j.auxlen), (j.dst, 128)] then s.jobFail 0x3412
  else match s.rootKey with
    | none => s.jobFail 0x3409
    | some pk =>
      let inp := s.devid ++ s.rd j.aux j.auxlen
      if !Config.cryptoOk 11 0 inp then (0x3481, 0, s)
      else
        let b := Config.crypto 11 0 inp
        match headForm b with
        | some c => s.jobFail c
        | none =>
          let k := headSlot b (fitBytes (keyBytes j.type) (b.drop 32))
          if k.level ≠ 1 then s.jobFail 0x3408
          else if k.type ≠ j.type ∨ k.usage ≠ j.usage then s.jobFail 0x3402
          else if s.slotInUse j.slot then s.jobFail 0x3406
          else s.jobNewKey j pk 0 { k with keyid := j.keyid }

/-- PUBKEY: of a slot, or of the device identity key with its certificate. -/
def State.jobPubkey (s : State) (j : KwJob) : JobEnd :=
  let out := fun (bs : List Byte) => if s.ramAll [(j.dst, bs.length)] then s.jobOut j.dst bs else s.jobFail 0x3412
  if j.slot = 0xFF then (if 4 ≤ s.lc then s.jobFail 0x3409 else out (Config.crypto 12 0 s.devid))
  else match s.slot j.slot with
    | none => s.jobFail 0x3413
    | some k =>
      if k.type = 5 ∧ bits k.usage 6 4 = 0 then out (fitBytes 64 (Config.crypto 12 (leNat k.material) []))
      else if k.type = 6 ∧ bits k.usage 6 4 = 0 then out (fitBytes 96 (Config.crypto 12 (leNat k.material) []))
      else s.jobFail 0x3407

/-- RAND. -/
def State.jobRand (s : State) (j : KwJob) : JobEnd :=
  if !s.entropyOk then s.jobFail 0x340D
  else if !s.ramAll [(j.dst, j.len)] then s.jobFail 0x3412
  else
    let (bs, s) := s.drbgBytes j.len (bitOf j.flags 1)
    s.jobOut j.dst bs

/-- LCNONCE. -/
def State.jobNonce (s : State) (j : KwJob) : JobEnd :=
  if !s.ramAll [(j.dst, 16)] then s.jobFail 0x3412
  else
    let (bs, s) := s.drbgBytes 16 (bitOf j.flags 1)
    let s : State := { s with keywell := { s.keywell with nonce := some bs } }
    s.jobOut j.dst bs

/-! ### Life cycle and owner (R344-R346, 15 R375) -/

/-- Whether an owner record is well formed and names at least one IMAGE and one TRANSFER key. -/
def recordOk (b : List Byte) : Bool :=
  let n := numAt b 4 4
  let fl := (List.range n).map fun i => numAt b (16 + 40 * i + 32) 1
  numAt b 0 4 = 0x524F574B && decide (1 ≤ n ∧ n ≤ 8) && decide (b.length = 16 + 40 * n) && numAt b 8 8 = 0 &&
  fl.all (fun f => decide (f < 8)) && (List.range n).all (fun i => numAt b (16 + 40 * i + 33) 7 = 0) &&
  fl.any (fun f => bitOf f 0) && fl.any (fun f => bitOf f 1)

/-- SHA-384 of a record as six words. -/
def recordHash (b : List Byte) : List Word := (List.range 6).map fun i => BitVec.ofNat 64 (numAt (Config.crypto 8 0 b) (8 * i) 8)

/-- What every change of owner or state carries among its targets (15 R375): BOOTREC with GOLDLOCK clear, IDENT with SET clear. -/
def State.bootTargets (s : State) : List (Nat × Word) :=
  [(0x0000, BitVec.ofNat 64 (setBit (s.chestAt 0).toNat 5 false)), (0x0011, BitVec.ofNat 64 (setBit (s.chestAt 0x0011).toNat 49 false))]

/-- Locations from `loc` up with values. -/
def locsFrom (loc : Nat) (vs : List Word) : List (Nat × Word) := vs.zipIdx.map fun p => (loc + p.2, p.1)

/-- The address of an owner record copy in the flash window (15 Table 15.1): behind GOLDEN, whose length the directory gives. -/
def State.recordAddr (s : State) (copy : Nat) : Nat :=
  0x800000000 + 0x10000 + s.readLE (0x800000000 + 12) 4 * 65536 + copy * 32768

/-- The record copy in flash. -/
def State.recordAt (s : State) (copy : Nat) : List Byte :=
  let a := s.recordAddr copy
  s.rd a (16 + 40 * (s.readLE (a + 4) 4 % 16))

/-- The record copy in force: the one whose hash is kept in the Chest (15 Table 15.1 ff.). -/
def State.recordInForce (s : State) : Option Nat :=
  (List.range 2).find? fun c => recordHash (s.recordAt c) = (List.range 6).map fun i => s.chestAt (0x0220 + i)

/-- The other copy takes a new record. -/
def State.writeRecord (s : State) (b : List Byte) : State :=
  let c := match s.recordInForce with
    | some 0 => 1
    | _ => 0
  s.writeRaw (s.recordAddr c) b

/-- The key that must have signed a token, as a key reference: the record in force for a TRANSFER or DEBUG key, 0 for Quoval's. -/
def State.recordKey (s : State) : Nat :=
  match s.recordInForce with
  | some c => leNat (s.recordAt c)
  | none => 0

/-- Whether a token of R344 passes: a nonce was given out, an owner's token has a record in force, and the signature over its fields
verifies. -/
def State.tokenOk (s : State) (alg lc' : Nat) (hash token : List Byte) : Bool :=
  match s.keywell.nonce with
  | none => false
  | some n =>
    (alg = 13 || s.recordInForce.isSome) && Config.cryptoOk alg (if alg = 13 then 0 else s.recordKey)
      (s.devid ++ leBytes s.lc 1 ++ leBytes lc' 1 ++ n ++ hash ++ token)

/-- What a job that starts an update answers: it goes on until the update is durable. -/
abbrev JobStart := JobEnd ⊕ State

/-- LCSTEP (R344, R345, Table 14.2): MODE names the new state (log 62), SRC the new owner record, AUX the token. -/
def State.jobLcstep (s : State) (j : KwJob) : JobStart :=
  let lc' := j.mode
  let tok := s.rd j.aux j.auxlen
  let rec' := s.rd j.src j.len
  let fresh := s.drbgBytes 32 (bitOf j.flags 1)
  let seed := (List.range 4).map fun i => BitVec.ofNat 64 (numAt fresh.1 (8 * i) 8)
  let erase := locsFrom 0x1100 (List.replicate 4 0)
  let zero := List.replicate 48 (0 : Byte)
  let s' : State := { s with keywell := { s.keywell with nonce := none } }
  let go := fun (s : State) (fuse : Option Nat) (wipe : Bool) (ts : List (Nat × Word)) =>
    (.inr (s.startUpdate .job 3 fuse wipe (ts ++ s.bootTargets)) : JobStart)
  let owned := fun (fuse : Option Nat) =>
    go (fresh.2.writeRecord rec') fuse true (locsFrom 0x1100 seed ++ locsFrom 0x0220 (recordHash rec'))
  if !s.ramAll [(j.aux, j.auxlen), (j.src, j.len)] then .inl (s.jobFail 0x3412)
  else if lc' = 4 ∧ s.lc < 4 then go s' (some 4) false erase
  else if s.lc = 0 ∧ lc' = 1 then (if s.tokenOk 13 lc' zero tok then go s' (some 1) true [] else .inl (s'.jobFail 0x340A))
  else if s.lc = 1 ∧ lc' = 2 ∧ j.core = .kernel then (if recordOk rec' then owned (some 2) else .inl (s'.jobFail 0x340E))
  else if s.lc = 2 ∧ lc' = 2 then
    if !recordOk rec' then .inl (s'.jobFail 0x340E)
    else if s.tokenOk 14 lc' (Config.crypto 8 0 rec') tok then owned none else .inl (s'.jobFail 0x340A)
  else if s.lc = 2 ∧ lc' = 3 then (if s.tokenOk 14 lc' zero tok then go s' (some 3) false erase else .inl (s'.jobFail 0x340A))
  else .inl (s'.jobFail 0x3409)

/-- OWNER (R346): the record is replaced, on a token from a present TRANSFER key. -/
def State.jobOwner (s : State) (j : KwJob) : JobStart :=
  let tok := s.rd j.aux j.auxlen
  let rec' := s.rd j.src j.len
  if !s.ramAll [(j.aux, j.auxlen), (j.src, j.len)] then .inl (s.jobFail 0x3412)
  else if s.lc ≠ 2 then .inl (s.jobFail 0x3409)
  else if !recordOk rec' then .inl (s.jobFail 0x340E)
  else if !s.tokenOk 14 s.lc (Config.crypto 8 0 rec') tok then .inl (s.jobFail 0x340A)
  else
    let s := s.writeRecord rec'
    .inr (s.startUpdate .job 2 none false (locsFrom 0x0220 (recordHash rec') ++ s.bootTargets))

/-! ### Running jobs (R357) -/

/-- Keeps what the head job has ended with: the code, the approved-service indicator and the output bytes. -/
def JobEnd.keep (e : JobEnd) : State :=
  let (code, n, s) := e
  let w := BitVec.ofNat 64 (code + s.approved.toNat * 65536 + n * 2 ^ 32)
  let s := if code = 0 then s else s.raise code (match s.keywell.jobs with
    | j :: _ => j.slot
    | [] => 0)
  { s with keywell := { s.keywell with executed := some w } }

/-- What the reads of a job do at the Granary (01 R38): its input, and its parameters. -/
def State.jobTouch (s : State) (j : KwJob) : State :=
  let s := if [1, 2, 3, 4, 5, 6, 7, 15, 16].contains j.op && s.inRam j.src j.len then s.touch j.src j.len else s
  if [1, 2, 4, 7, 8, 11, 15, 16].contains j.op && s.inRam j.aux j.auxlen then s.touch j.aux j.auxlen else s

/-- Whether a job writes a generation entry, which it cannot while a power-fail warning has stopped the Keywell's writes (R356). -/
def KwJob.writesEntry (j : KwJob) : Bool := ((j.op = 9 || j.op = 11) && bitOf j.usage 0) || (j.op = 10 && bitOf j.flags 0)

/-- What all operations share: the job at the head of the queue, not executed yet, of the operation given, is executed; the form, ERROR and a
blocked root fail it first (R357, R359, R360). -/
def State.runJob (s : State) (op : Nat) (f : State → KwJob → JobStart) : State :=
  match s.keywell.jobs with
  | j :: _ =>
    if j.op ≠ op ∨ s.keywell.executed ≠ none ∨ s.keywell.update ≠ none ∨ (s.keywell.stopped ∧ j.writesEntry) then s
    else if j.form ≠ 0 then (s.jobFail j.form).keep
    else if s.getB Fld.keywellStateError then (s.jobFail 0x340C).keep
    else if s.keywell.rootBlocked then (s.jobFail 0x3409).keep
    else match f (s.jobTouch j) j with
      | .inl (code, n, t) => if code = 0 ∨ code = 0x3481 then JobEnd.keep (code, n, t) else match f s j with
        | .inl e => e.keep
        | .inr t => t
      | .inr t => t
  | [] => s

/-- ENCRYPT (Table 14.10). -/
def execEncrypt (s : State) : Result := .next (s.runJob 1 fun s j => .inl (s.jobAes j false))
/-- DECRYPT (Table 14.10). -/
def execDecrypt (s : State) : Result := .next (s.runJob 2 fun s j => .inl (s.jobAes j true))
/-- MAC (Table 14.10). -/
def execMac (s : State) : Result := .next (s.runJob 3 fun s j => .inl (s.jobMac j false))
/-- MACVERIFY (Table 14.10). -/
def execMacverify (s : State) : Result := .next (s.runJob 4 fun s j => .inl (s.jobMac j true))
/-- HASH (Table 14.10). -/
def execHash (s : State) : Result := .next (s.runJob 5 fun s j => .inl (s.jobHash j))
/-- SIGN (Table 14.10). -/
def execSign (s : State) : Result := .next (s.runJob 6 fun s j => .inl (s.jobSign j))
/-- VERIFY (Table 14.10). -/
def execVerify (s : State) : Result := .next (s.runJob 7 fun s j => .inl (s.jobVerify j))
/-- ECDH (Table 14.10). -/
def execEcdh (s : State) : Result := .next (s.runJob 8 fun s j => .inl (s.jobEcdh j))
/-- GENERATE (R348). -/
def execGenerate (pairwiseOk : Bool) (s : State) : Result := .next (s.runJob 9 fun s j => .inl (s.jobGenerate j pairwiseOk))
/-- WRAP (R348, R350). -/
def execWrap (s : State) : Result := .next (s.runJob 10 fun s j => .inl (s.jobWrap j))
/-- IMPORT (R347). -/
def execImport (s : State) : Result := .next (s.runJob 11 fun s j => .inl (s.jobImport j))
/-- PUBKEY (R343). -/
def execPubkey (s : State) : Result := .next (s.runJob 12 fun s j => .inl (s.jobPubkey j))
/-- RAND (R358). -/
def execRand (s : State) : Result := .next (s.runJob 13 fun s j => .inl (s.jobRand j))
/-- LCNONCE (R344). -/
def execLcnonce (s : State) : Result := .next (s.runJob 14 fun s j => .inl (s.jobNonce j))
/-- LCSTEP (R344, R345). -/
def execLcstep (s : State) : Result := .next (s.runJob 15 fun s j => s.jobLcstep j)
/-- OWNER (R346). -/
def execOwner (s : State) : Result := .next (s.runJob 16 fun s j => s.jobOwner j)

/-- KW_JOB_DONE (R357): the executed job leaves the queue, and its result is kept among the last sixteen; a job whose descriptor names no
operation of Table 14.10 fails here. -/
def execKwJobDone (s : State) : Result :=
  let s := match s.keywell.jobs with
    | j :: _ => if j.op = 0 ∨ 16 < j.op then s.runJob j.op fun s _ => .inl (s.jobFail 0x340E) else s
    | [] => s
  match s.keywell.jobs, s.keywell.executed with
  | j :: rest, some w =>
    let s : State := { s with keywell := { s.keywell with
      jobs := rest, executed := none, results := ((j.num, w) :: s.keywell.results).take 16 } }
    let s := s.bump Fld.keywellCntJobs
    let code := w.toNat % 65536
    .next (if code ≠ 0 ∧ code % 256 < 0x80 then s.bump Fld.keywellCntFailed else s)
  | _, _ => .next s

/-! ### Instructions (Table 2.14) -/

/-- KLOAD (R349, R350). -/
def execKload (e : Engine) (d a b : Reg) (s : State) : Result :=
  .next (s.onHub e fun c => s.topInsn c (.kload (.hub c) d a b) fun s =>
    let ad := (s.rg (.hub c) a).toNat
    let n := (s.rg (.hub c) b).toNat % 64
    match s.rangeFault (.hub c) ad 128 false with
    | some (k, x) => (s.noteEcc k ad 128).hubFault c k x
    | none =>
      if s.slotAwaited n then s.block (.hub c) (.kload (.hub c) d a b)
      else
        let (bs, s) := s.rangeRead (.hub c) ad 128
        let r := if s.getB Fld.keywellStateError then .inl 0x340C
          else if s.keywell.rootBlocked then .inl 0x3409
          else s.kload n bs
        match r with
        | .inl code => (s.raise code n).done c d code
        | .inr k => (s.putSlot n k).done c d 0)

/-- KOP (R357): the job joins the queue of 16, and d is its number, or 0 when the queue is full. -/
def execKop (e : Engine) (d a : Reg) (s : State) : Result :=
  .next (s.onHub e fun c => s.topInsn c (.kop (.hub c) d a) fun s =>
    let ad := (s.rg (.hub c) a).toNat
    match s.rangeFault (.hub c) ad 64 false with
    | some (k, x) => (s.noteEcc k ad 64).hubFault c k x
    | none =>
      if 16 ≤ s.keywell.jobs.length then s.done c d 0
      else
        let (bs, s) := s.rangeRead (.hub c) ad 64
        let n := nextNum s.keywell.lastNum
        let j := jobOf n c bs (ad % 8 = 0)
        let j := if s.inRam ad 64 then j else { j with form := 0x3412 }
        ({ s with keywell := { s.keywell with jobs := s.keywell.jobs ++ [j], lastNum := n } } : State).done c d n)

/-- KWAIT (R357, R66): a job that waits or runs blocks; the result of one that is no longer kept is KW_STATUS_LOST. -/
def execKwait (e : Engine) (d a : Reg) (s : State) : Result :=
  .next (s.onHub e fun c => s.topInsn c (.kwait (.hub c) d a) fun s =>
    let n := (s.rg (.hub c) a).toNat
    if s.keywell.jobs.any fun j => j.num = n then s.block (.hub c) (.kwait (.hub c) d a)
    else match Map.find s.keywell.results n with
      | some w => s.done c d w.toNat
      | none => (s.raise 0x3484).done c d 0x3484)

/-- KRAND (R358, R359): 64 bits from the DRBG; 0 while it is stopped or ERROR is set. -/
def execKrand (e : Engine) (d : Reg) (s : State) : Result :=
  .next (s.onHub e fun c => s.topInsn c (.krand (.hub c) d) fun s =>
    if !s.entropyOk || s.getB Fld.keywellStateError then s.done c d 0
    else
      let (v, s) := s.drbgUse.draw
      s.done c d v)

/-- KFREE (R350). -/
def execKfree (e : Engine) (a : Reg) (s : State) : Result :=
  .next (s.onHub e fun c => s.topInsn c (.kfree (.hub c) a) fun s =>
    let n := (s.rg (.hub c) a).toNat % 64
    if s.slotAwaited n then s.block (.hub c) (.kfree (.hub c) a)
    else
      let s := s.unblock (.hub c)
      (if s.slotInUse n then s.raise 0x3406 n else s.emptySlot n).adv (.hub c))

/-- The GIX of the key that a KGEN names: 0 for the root, that of a WRAP key in a slot. -/
def State.kgenGix (s : State) (n : Nat) : Option Nat :=
  if n = 0xFF then some 0
  else match s.slot (n % 64) with
    | some k => if bitOf k.usage 0 then some k.gix else none
    | none => none

/-- KGEN's checks (R351 steps 1 to 3): a code, or the GIX. -/
def State.kgenCheck (s : State) (n : Nat) : Nat ⊕ Nat :=
  match s.kgenGix n with
  | none => .inl 0x3407
  | some g =>
    if 0xFFFFFF ≤ entryGen (s.gixEntry g) then .inl 0x3411
    else if (s.doomedSlots g).any s.slotInUse then .inl 0x3406
    else if 11 < (s.carriedChildren g).length then .inl 0x340F
    else .inr g

/-- KGEN (R351, R352, R66): starts the rise, waits until it is durable and acknowledged, and takes its result; no interrupt abandons it
while the rise is under way (`State.takesIrq`). -/
def execKgen (e : Engine) (d a : Reg) (s : State) : Result :=
  .next (s.onHub e fun c => s.kernelInsn c (.kgen (.hub c) d a) fun s =>
    let n := (s.rg (.hub c) a).toNat % 256
    let wait := fun (s : State) => s.block (.hub c) (.kgen (.hub c) d a)
    let clear := fun (s : State) => ({ s with keywell := { s.keywell with kgen := none } } : State)
    let start := fun (s : State) =>
      if s.slotAwaited (n % 64) && n ≠ 0xFF || s.keywell.update ≠ none then wait s
      else match s.kgenCheck n with
        | .inl code => (s.raise code (n % 64)).done c d code
        | .inr g =>
          let dm := s.doomedSlots g
          let s := s.startUpdate (.kgen g dm) 1 none false (s.kgenTargets g)
          wait { s with keywell := { s.keywell with kgen := some ⟨n, none⟩ } }
    match s.keywell.kgen with
    | some k =>
      match k.result with
      | some r => if k.slot = n then (clear s).done c d r else start (clear s)
      | none => wait s
    | none => start s)

/-! ### The partner (R352) -/

/-- KW_PARTNER_ACK (R352): the partner has applied the change; a waiting KGEN returns 0. -/
def execKwPartnerAck (s : State) : Result :=
  let s : State := { s with keywell := { s.keywell with unacked := none } }
  match s.keywell.kgen, s.keywell.update with
  | some k, none => .next (if k.result = none then s.kgenResult 0 else s)
  | _, _ => .next s

/-- KW_PARTNER_TIMEOUT (R352): no acknowledgement within 10 ms; KGEN returns the warning, and the change is sent again at the next
link-up. -/
def execKwPartnerTimeout (s : State) : Result :=
  match s.keywell.kgen, s.keywell.update with
  | some k, none =>
    if k.result ≠ none then .next s
    else match s.reachUs (10000 + s.keywell.sentUs) with
      | none => .next s
      | some s => .next ((s.raise 0x3482).kgenResult 0x3482)
  | _, _ => .next s

/-- The key of the Keywell channel (R352). -/
def State.channelKey (s : State) : Nat := s.derivedKey (s.get Fld.decantCfgKeyslot) 0xFFFC 0 0x4B

/-- KW_PARTNER_UPDATE (R352): a message that fails its MIC is dropped; otherwise the partner's entries are applied through the journal, after an update
in progress. -/
def execKwPartnerUpdate (msg mic : List Byte) (targets : List (Nat × Word)) (s : State) : Result :=
  let ts := targets.filter fun t => decide (gixLoc 0 ≤ t.1 ∧ t.1 < 0x1000)
  if mic ≠ micOf s.channelKey msg 8 ∨ !s.linkUp ∨ ts = [] ∨ 12 < ts.length then .next s
  else .next ({ s with keywell := { s.keywell with partnerQ := s.keywell.partnerQ ++ [ts] } } : State).partnerNext

/-- The entry that a merge keeps: the higher GEN; at equal GEN with different contents unit A's. -/
def State.mergeEntry (s : State) (g : Nat) (v : Word) : State :=
  let own := s.chestAt (gixLoc g)
  if own = v ∨ 3072 ≤ g then s
  else
    let a := entryGen own.toNat
    let b := entryGen v.toNat
    if b < a then s
    else if a < b then s.chestSet (gixLoc g) v
    else
      let s := s.raise 0x3485
      if s.unit = 0 then s else s.chestSet (gixLoc g) v

/-- KW_MERGE (R352): the partner's entries, by GIX, are merged; an entry not given reads 0. -/
def execKwMerge (theirs : List (Nat × Word)) (s : State) : Result :=
  if !s.linkUp ∨ s.keywell.stopped then .next s
  else
    let own := (s.chest.filter fun p => decide (gixLoc 0 ≤ p.1 ∧ p.1 < 0x1000) && !theirs.any fun q => gixLoc q.1 = p.1).map fun p =>
      (p.1 - gixLoc 0, (0 : Word))
    let s := (theirs ++ own).foldl (fun s p => s.mergeEntry p.1 p.2) s
    let s : State := { s with keywell := { s.keywell with unacked := none } }
    .next ((s.orphanSettle true).setB Fld.keywellStateMergeDone true)

/-! ### Random numbers and self-tests (R358, R359) -/

/-- KW_ENTROPY (R358). -/
def execKwEntropy (s : State) : Result :=
  .next (({ s with keywell := { s.keywell with testUs := s.us } } : State).setB Fld.keywellStateEntropyOk false |>.raise 0x340D)

/-- ENTROPY_RETEST (R358): 100 ms after the last test; once it passes the DRBG resumes, freshly seeded. -/
def execEntropyRetest (ok : Bool) (s : State) : Result :=
  if s.entropyOk then .next s
  else match s.reachUs (100000 + s.keywell.testUs) with
    | none => .next s
    | some s =>
      let s : State := { s with keywell := { s.keywell with testUs := s.us } }
      .next (if ok then (s.setB Fld.keywellStateEntropyOk true).drbgSeed else s)

/-- DRBG_RESEED (R358): RESEED_S after the last seed. -/
def execDrbgReseed (s : State) : Result :=
  if !s.entropyOk then .next s
  else match s.reachUs (1000000 * s.get Fld.keywellCfgReseedS + s.keywell.reseedUs) with
    | none => .next s
    | some s => .next s.drbgSeed

/-- The Keywell's own tests (R359). -/
def State.kwSelftest (s : State) (ok : Bool) : State :=
  if ok then s.setB Fld.keywellStateError false
  else ((s.setB Fld.keywellStateError true).raise 0x340C).emptySlots fun n _ => !s.slotInUse n

/-- KW_SELFTEST (R359). -/
def execKwSelftest (ok : Bool) (s : State) : Result := .next (s.kwSelftest ok)

/-! ### Debug access (R360) -/

/-- DEBUG_UNLOCK (R360): the probe answers the port's nonce with a token; in TEST access is open already. -/
def execDebugUnlock (token : List Byte) (s : State) : Result :=
  let s := s.setB Fld.debugStateAttached true
  if s.lc = 0 ∨ 4 ≤ s.lc ∨ s.getB Fld.debugStateOpen ∨ s.keywell.debugClosed then .next s
  else
    let (nonce, s) := s.drawBytes 16
    let ok := (s.lc ≠ 2 || s.recordInForce.isSome) && Config.cryptoOk (if s.lc = 2 then 17 else 16) (if s.lc = 2 then s.recordKey else 0) (s.devid ++ nonce ++ token)
    let busy := s.lc = 2 && s.keywell.slots.any fun x => s.slotInUse x.1
    if !ok || busy then .next (s.raise 0x3F02)
    else
      let s := (s.setB Fld.debugStateOpen true).setB Fld.debugStateOpened true
      let s := if s.lc = 2 then s.emptySlots fun _ _ => true else s
      .next (if s.lc = 3 then s else { s with keywell := { s.keywell with rootBlocked := true } })

/-- DEBUG.CTRL.CLOSE (R360). -/
def State.debugClose (s : State) : State :=
  let s := s.setB Fld.debugStateOpen false
  { s with keywell := { s.keywell with debugClosed := true } }

/-- DEBUG_CLOSE (R360). -/
def execDebugClose (s : State) : Result := .next s.debugClose

/-! ### Control words (R362) -/

/-- Whether KEYWELL's staged set passes. -/
def keywellApplyOk (s : State) : Bool :=
  !s.changed Blk.keywell .gCfg none || decide (1 ≤ s.getStaged Fld.keywellCfgReseedS ∧ s.getStaged Fld.keywellCfgReseedS ≤ 60)

/-- KEYWELL's words as the Keywell stands, for a read of one (Table 14.15). -/
def State.keywellSync (s : State) (index : Nat) : State :=
  if index = 1 then
    let s := (s.setB Fld.keywellStateApproved s.approved).set Fld.keywellStateQueue s.keywell.jobs.length
    s.set Fld.keywellStateJournal s.journalState
  else if 0x100 ≤ index ∧ index < 0x180 then
    let n := index % 64
    let s := s.setB Fld.keywellSlotInuse (s.slotInUse n) n
    let (o, k) : Bool × KeySlot := match s.slot n with
      | some k => (true, k)
      | none => (false, ⟨0, 0, 0, 0, 0, 0, 0, 0, [], false, true⟩)
    let s := ((s.setB Fld.keywellSlotOcc o n).setB Fld.keywellSlotCarry k.carry n).set Fld.keywellSlotType k.type n
    ((s.set Fld.keywellSlotLevel k.level n).set Fld.keywellSlotUsage k.usage n).set Fld.keywellSlotidKeyid k.keyid n
  else s

end Sys2Proof.Machine
end

