-- ==== Sys2Proof/Machine/Boot.lean ====
section
/-! DEFINITION. Start-up and firmware update (spec/15_boot_update.md; 03 R91, R92): flash, bundles and images, the start sequence, the boot
record, requests to BOOT, trials and planned restarts. -/

namespace Sys2Proof.Machine

/-! ### Flash (Table 15.1, R363) -/

/-- The flash window (01 Table 1.4). -/
def flashBase : Nat := 0x800000000

/-- SLOTLEN in bytes, as the directory gives it. -/
def State.slotLen (s : State) : Nat := s.readLE (flashBase + 12) 4 * 65536
/-- FLASHLEN in bytes. -/
def State.flashLen (s : State) : Nat := s.readLE (flashBase + 8) 4 * 1048576
/-- Offset of GOLDEN. -/
def goldenOff : Nat := 0x10000
/-- Offset of ACTIVE. -/
def State.activeOff (s : State) : Nat := 0x20000 + s.slotLen
/-- Offset of STAGE. -/
def State.stageOff (s : State) : Nat := 0x20000 + 2 * s.slotLen
/-- Offset of the data area. -/
def State.dataOff (s : State) : Nat := 0x20000 + 3 * s.slotLen

/-- Whether the directory passes (R363). -/
def State.directoryOk (s : State) : Bool :=
  let b := readBytes s.mem flashBase 64
  let fl := numAt b 8 4
  let sl := numAt b 12 4
  let gb := numAt b 16 4
  numAt b 0 4 = 0x44585157 && numAt b 4 4 = 1 && numAt b 60 4 = crc32c (b.take 60) &&
  decide (fl = 16 ∨ fl = 32 ∨ fl = 64 ∨ fl = 128 ∨ fl = 256) && decide (16 ≤ sl ∧ sl ≤ 1280) &&
  decide (3 * sl * 65536 + 131072 ≤ fl * 1048576) && decide (gb = 0 ∨ gb = 1 ∨ gb = 2 ∨ gb = 4 ∨ gb = 8 ∨ gb = 16)

/-- Reads of flash and memory by the boot logic, and what they do at the Granary (01 R38). -/
def State.bootRead (s : State) (a n : Nat) : List Byte × State := (s.rd a n, s.touch a n)

/-- Programs bytes at a flash offset; the window reflects them at the next read (01 R27). -/
def State.flashWrite (s : State) (off : Nat) (bs : List Byte) : State := s.writeRaw (flashBase + off) bs

/-- Erases a range of the flash. -/
def State.flashErase (s : State) (off n : Nat) : State := s.flashWrite off (List.replicate n Config.erasedByte)

/-! ### Images (03 R91, Tables 3.14 and 3.15) -/

/-- A section of an image: offset, length, load address, kind. -/
structure Section where
  off : Nat
  len : Nat
  load : Nat
  kind : Nat
  deriving DecidableEq, Repr

/-- The sections of an image. -/
def imageSections (b : List Byte) : List Section :=
  (List.range (numAt b 16 2)).map fun i =>
    let o := 256 + 16 * i
    ⟨numAt b o 4, numAt b (o + 4) 4, numAt b (o + 8) 4, numAt b (o + 12) 1⟩

/-- The memory a section goes to, by profile: 0 physical, 1 the library region, 2 IMEM, 3 DMEM. -/
def sectionSpace (profile kind : Nat) : Nat := if profile = 1 then 0 else if profile = 2 then 1 else if kind = 1 then 2 else 3

/-- The first address of a section in its memory. -/
def sectionStart (profile : Nat) (x : Section) : Nat := if profile = 1 then x.load * 256 else x.load

/-- Whether a section's kind, payload and memory are right. -/
def State.sectionOk (s : State) (profile len : Nat) (b : List Byte) (x : Section) : Bool :=
  let a := sectionStart profile x
  (decide (1 ≤ x.kind ∧ x.kind ≤ 3) || (x.kind = 4 && profile = 2)) &&
  (x.kind = 3 || (decide (x.off % 16 = 0 ∧ 256 + 16 * numAt b 16 2 ≤ x.off ∧ x.off + x.len ≤ len - 96))) &&
  (match sectionSpace profile x.kind with
    | 0 => s.inRam a x.len
    | 1 => decide (a + x.len ≤ 0x400000)
    | _ => decide (a + x.len ≤ 0x8000))

/-- Whether two sections overlap, in the image or in memory. -/
def sectionsOverlap (profile : Nat) (x y : Section) : Bool :=
  (x.kind ≠ 3 && y.kind ≠ 3 && overlaps x.off x.len y.off y.len) ||
  (sectionSpace profile x.kind = sectionSpace profile y.kind && overlaps (sectionStart profile x) x.len (sectionStart profile y) y.len)

/-- Whether no two elements of a list stand in a relation. -/
def pairsOk {α : Type} (r : α → α → Bool) : List α → Bool
  | [] => true
  | x :: t => !t.any (r x) && pairsOk r t

/-- Whether a KEY_ID is accepted in the present state (14 Table 14.1): in FIELD an owner record key with IMAGE set; in the other states a
published, manufacturing or return key. -/
def State.keyAccepted (s : State) (id : List Byte) : Bool :=
  if s.lc = 2 then
    match s.recordInForce with
    | some c =>
      let r := s.recordAt c
      (List.range (numAt r 4 4)).any fun i => (r.drop (16 + 40 * i)).take 32 = id && bitOf (numAt r (16 + 40 * i + 32) 1) 0
    | none => false
  else decide (s.lc < 4) && Config.cryptoOk 19 s.lc id

/-- Whether a signed object's signature, its last 96 bytes, verifies under its KEY_ID, and that key is accepted. -/
def State.signedOk (s : State) (id b : List Byte) : Bool := Config.cryptoOk 18 (leNat id) b && s.keyAccepted id

/-- R91's checks of an image that stand apart from its targets; `profile` and `target` are the manifest entry's. -/
def State.imageCheck (s : State) (b : List Byte) (profile target : Nat) : Option Nat :=
  let n := b.length
  let secs := imageSections b
  if numAt b 0 4 ≠ 0x49585157 ∨ numAt b 4 2 ≠ 1 ∨ numAt b 8 4 ≠ n ∨ n < 352 then some 0x0C10
  else if numAt b 6 1 ≠ profile ∨ numAt b 7 1 ≠ target then some 0x0C11
  else if !s.signedOk ((b.drop 32).take 32) b then some 0x0C12
  else if s.stepCode < numAt b 18 2 then some 0x0C13
  else if profile = 5 then none
  else if secs.length < 1 ∨ 8 < secs.length ∨ !secs.all (s.sectionOk profile n b) ∨ !pairsOk (sectionsOverlap profile) secs then some 0x0C14
  else none

/-! ### Bundles (R365, Table 15.2) -/

/-- An entry of a manifest: offset, length, profile, target, SHA-384. -/
structure BundleEntry where
  off : Nat
  len : Nat
  profile : Nat
  target : Nat
  sha : List Byte
  deriving DecidableEq, Repr

/-- Entry `i` of a manifest. -/
def manifestEntry (m : List Byte) (i : Nat) : BundleEntry :=
  let o := 64 + 64 * i
  ⟨numAt m o 4, numAt m (o + 4) 4, numAt m (o + 8) 1, numAt m (o + 9) 1, (m.drop (o + 16)).take 48⟩

/-- The entries a manifest counts. -/
def manifestEntries (m : List Byte) : List BundleEntry := (List.range (numAt m 6 1)).map (manifestEntry m)

/-- The form of a manifest (R365, first point). -/
def manifestOk (m : List Byte) (slotLen : Nat) : Bool :=
  let n := numAt m 6 1
  let es := manifestEntries m
  let within := fun (o k lo hi : Nat) => decide (lo ≤ numAt m o k ∧ numAt m o k ≤ hi)
  numAt m 0 4 = 0x53585157 && numAt m 4 2 = 1 && decide (1 ≤ n ∧ n ≤ 12) && numAt m 7 1 = 0 && within 0x16 2 60 3600 && within 0x18 2 60 7200 &&
  within 0x1A 2 10 1440 && within 0x1C 1 0 1 && numAt m 0x1D 3 = 0 && ((m.drop (64 + 64 * n)).take (64 * (12 - n) + 96)).all (fun x => x = 0) &&
  (List.range n).all (fun i => numAt m (64 + 64 * i + 10) 6 = 0) &&
  es.countP (fun e => e.profile = 1 && e.target = 1) = 1 &&
  pairsOk (fun (x y : BundleEntry) => (x.profile = y.profile && (x.target &&& y.target) ≠ 0) || overlaps x.off x.len y.off y.len) es &&
  es.all (fun e => decide (e.off % 4096 = 0 ∧ 1024 ≤ e.off ∧ e.off + e.len ≤ slotLen))

/-- An image against its entry and the manifest (R365, last point), after R91. -/
def State.entryCheck (s : State) (m : List Byte) (e : BundleEntry) (b : List Byte) : Option Nat :=
  match s.imageCheck b e.profile e.target with
  | some c => some c
  | none =>
    if (Config.crypto 8 0 b).take 48 ≠ e.sha ∨ (b.drop 32).take 32 ≠ (m.drop 32).take 32 ∨ numAt b 20 4 ≠ numAt m 8 4 then some 0x0C18
    else none

/-- The manifest of the slot at an offset. -/
def State.manifestAt (s : State) (off : Nat) : List Byte := readBytes s.mem (flashBase + off) 1024

/-- R365 on the bundle at a flash offset; GOLDEN is exempt from the security version. -/
def State.bundleCheck (s : State) (off : Nat) (golden : Bool) : Option Nat :=
  let m := s.manifestAt off
  if !manifestOk m s.slotLen then some 0x0C16
  else if !s.signedOk ((m.drop 32).take 32) m then some 0x0C12
  else if s.stepCode < numAt m 20 2 then some 0x0C13
  else if !golden ∧ numAt m 8 4 < bits (s.chestAt 1).toNat 0 32 then some 0x0C17
  else (manifestEntries m).findSome? fun e => s.entryCheck m e (readBytes s.mem (flashBase + off + e.off) e.len)

/-! ### Boot record (R369, Table 15.4) -/

/-- BOOTREC's STATE. -/
def State.bootRec (s : State) : Nat := bits (s.chestAt 0).toNat 0 3

/-- Writes STATE and TRIALS. -/
def State.setRec (s : State) (st trials : Nat) : State :=
  let v := (s.chestAt 0).toNat
  (s.chestSet 0 (BitVec.ofNat 64 (st + 8 * trials + v / 32 * 32))).bootSync

/-- Sets or clears a bit of BOOTREC. -/
def State.setRecBit (s : State) (n : Nat) (b : Bool) : State := (s.chestSet 0 (BitVec.ofNat 64 (setBit (s.chestAt 0).toNat n b))).bootSync

/-- FALLBACKS advances. -/
def State.countFallback (s : State) : State :=
  let v := (s.chestAt 2).toNat
  s.chestSet 2 (BitVec.ofNat 64 (v % 2 ^ 32 + (v / 2 ^ 32 + 1) % 2 ^ 16 * 2 ^ 32))

/-- STARTS advances. -/
def State.countStart (s : State) : State :=
  let v := (s.chestAt 2).toNat
  s.chestSet 2 (BitVec.ofNat 64 ((v + 1) % 2 ^ 32 + v / 2 ^ 32 * 2 ^ 32))

/-! ### The start sequence (R366, R367, Table 15.3) -/

/-- Loads the sections of an image of a hub core into memory (03 Table 3.15). -/
def State.loadHub (s : State) (b : List Byte) : State :=
  (imageSections b).foldl (fun s x =>
    if x.kind = 3 then s.writeRaw (x.load * 256) (List.replicate x.len 0) else s.writeRaw (x.load * 256) ((b.drop x.off).take x.len)) s

/-- A kernel is entered at an address, at level K (R367, step 10): core words at their after-start values. -/
def State.enterKernel (s : State) (pc : Nat) : State :=
  { s with kernel := { pc := pcFit (BitVec.ofNat 64 pc), run := .running }, boot := { s.boot with entryUs := s.us }
           kettle := { s.kettle with inReset := false, device := .none } }

/-- The boot ROM goes to recovery (R371). -/
def State.enterRecovery (s : State) : State := { s with boot := { s.boot with recovery := true } }

/-- Steps 8 to 10 on a slot: the manifest is kept, the kernel image loaded and entered. -/
def State.startSlot (s : State) (slot off : Nat) : State :=
  let m := s.manifestAt off
  match (manifestEntries m).find? fun e => e.profile = 1 && e.target = 1 with
  | none => s
  | some e =>
    let b := readBytes s.mem (flashBase + off + e.off) e.len
    let s := s.loadHub b
    let s := ((s.set Fld.bootStateSlot slot).set Fld.bootSecverValue (numAt m 8 4)).set Fld.bootBundleValue (numAt m 12 4)
    ({ s with boot := { s.boot with manifest := m, kernelVer := numAt b 24 4 } } : State).enterKernel (numAt b 12 4 * 4)

/-- GOLDEN is to be started. -/
def State.startGolden (s : State) : State :=
  match s.bundleCheck goldenOff true with
  | some c => (s.raise c).enterRecovery
  | none => s.startSlot 0 goldenOff

/-- ACTIVE is to be started; when it fails R365 the record becomes FALLBACK (Table 15.5). -/
def State.startActive (s : State) : State :=
  match s.bundleCheck s.activeOff false with
  | some _ => ((s.setRec 4 0).countFallback.raise 0x0C19).startGolden
  | none => s.startSlot 1 s.activeOff

/-- The SHA-384 kept of the STAGE manifest. -/
def State.stageHash (s : State) : List Word := (List.range 6).map fun i => s.chestAt (0x0008 + i)

/-- COPYING (Table 15.5, R370): ACTIVE is made from STAGE and read back. -/
def State.copyStage (s : State) (copyOk : Bool) : State :=
  let s := s.flashErase s.activeOff s.slotLen
  let s := s.flashWrite s.activeOff (readBytes s.mem (flashBase + s.stageOff) s.slotLen)
  if copyOk ∧ recordHash (s.manifestAt s.activeOff) = s.stageHash ∧ s.bundleCheck s.activeOff false = none then (s.setRec 3 1).startActive
  else ((s.setRec 4 0).raise 0x0C1B).startGolden

/-- Step 7 and on, for every STATE but PENDING (Table 15.5). -/
def State.actRec (s : State) (copyOk : Bool) : State :=
  let t := bits (s.chestAt 0).toNat 3 2
  match s.bootRec with
  | 0 => s.startActive
  | 2 => s.copyStage copyOk
  | 3 => if t < 3 then (s.setRec 3 (t + 1)).startActive else ((s.setRec 4 0).countFallback.raise 0x0C1C).startGolden
  | _ => s.startGolden

/-- Step 7 (Table 15.5): PENDING is checked first. -/
def State.bootAct (s : State) (copyOk : Bool) : State :=
  if s.bootRec = 1 then
    if recordHash (s.manifestAt s.stageOff) = s.stageHash ∧ s.bundleCheck s.stageOff false = none then (s.setRec 2 0).actRec copyOk
    else ((s.setRec (if bitOf (s.chestAt 0).toNat 6 then 4 else 0) 0).raise 0x0C1A).actRec copyOk
  else s.actRec copyOk

/-- The wipe of the generation table (14 R345): every entry but the root's becomes unused (log 60). -/
def State.wipeTable (s : State) : State :=
  { s with chest := s.chest.map fun p =>
      if gixLoc 0 < p.1 ∧ p.1 < 0x1000 then (p.1, BitVec.ofNat 64 (setBit p.2.toNat 61 false)) else p }

/-- The targets that a journal slot lists, with their values (14 Table 14.7). -/
def jslotTargets (ws : List Nat) : List (Nat × Word) :=
  (List.range (bits (ws.getD 0 0) 32 4)).map fun k =>
    (bits (ws.getD (1 + k / 4) 0) (16 * (k % 4)) 16, BitVec.ofNat 64 (ws.getD (4 + k) 0))

/-- CHEST_JOURNAL_RESOLVE (14 R355, Table 14.8): a committed update that was not done is rolled forward, with its fuse and wipe; one that
was not committed is rolled back. -/
def State.journalResolve (s : State) : State :=
  let lost := fun (s : State) (i seq : Nat) =>
    if (s.jslotSeq i).isNone ∧ bits ((s.jslot i).getD 0 0) 0 31 = seq ∧ (s.jslot i).getD 0 0 ≠ 0 then s.raise 0x3487 else s
  match s.jnewest with
  | none => lost (lost s 0 1) 1 1
  | some (i, seq) =>
    let ws := s.jslot i
    let h := ws.getD 0 0
    let c := ws.getD 16 0
    let s :=
      if bitOf c 63 then s
      else
        let s := (jslotTargets ws).foldl (fun s t => s.chestSet t.1 t.2) s
        let s := if bitOf h 42 then s.kwStep (.burn (bits h 40 2 + 1)) else s
        let s := if bitOf h 43 then s.wipeTable else s
        (s.chestSet (jslotBase i + 16) (BitVec.ofNat 64 (c + 2 ^ 63))).raise 0x3486
    lost s (1 - i) ((seq + 1) % 2 ^ 31)

/-- Step 3 (14 R345): a fuse row that reads partial without a committed LCSTEP record is tampering, and the DEAD row is burned. -/
def State.fuseCheck (s : State) (partialFuse : Bool) : State :=
  let lcstep := match s.jnewest with
    | some (i, _) => bits ((s.jslot i).getD 0 0) 36 4 = 3 && bitOf ((s.jslot i).getD 0 0) 42
    | none => false
  if partialFuse && !lcstep then s.kwStep (.burn 4) else s

/-- What the start sequence sets up before a kernel is entered (R367, 13 R329, 14 Table 14.15). -/
def State.startWords (s : State) : State :=
  let s := s.set Fld.keywellStateLc s.keywell.fuseState
  let s := (s.setB Fld.keywellStateOwned (s.lc = 2 && s.recordInForce.isSome)).setB Fld.debugStateOpen (s.lc = 0)
  let s := (s.set Fld.claimHeldClaim (s.chestAt 0x0100).toNat).set Fld.claimSeenClaim (s.chestAt 0x0101).toNat
  let s := s.bootSync
  s.set Fld.claimStateUnit (s.get Fld.bootStateUnit)

/-- The start sequence (Table 15.3) from step 3 on: a failure of the tests of step 4 (14 R359) holds the device in reset. -/
def State.startSequence (s : State) (ok partialFuse copyOk : Bool) : State :=
  if !ok then ((s.fuseCheck partialFuse).journalResolve).startWords.kwSelftest false
  else
    let s := ((s.fuseCheck partialFuse).journalResolve).startWords
    let s : State := { s with boot := { s.boot with flashProt := s.directoryOk && bitOf (s.chestAt 0).toNat 5 } }
    if !s.directoryOk then (s.raise 0x0C25).enterRecovery
    else
      let s : State := { s with dramBytes := s.readLE (flashBase + 16) 4 * 0x40000000 }
      s.countStart.bootAct copyOk

/-! ### Slot operations (R374, Table 15.7) -/

/-- A slot operation's range in flash lies in an area, and its offset and length keep a unit. -/
def rangeOk (off len unit area : Nat) : Bool := decide (off % unit = 0 ∧ len % unit = 0 ∧ off + len ≤ area)

/-- COMMIT (Table 15.7), also of the recovery stream (R371). -/
def State.commitStage (s : State) : Nat × State :=
  if s.bootRec ≠ 0 ∧ s.bootRec ≠ 4 then (0x0C1F, s)
  else match s.bundleCheck s.stageOff false with
    | some c => (c, s)
    | none =>
      let fb := s.bootRec = 4
      let s := (locsFrom 0x0008 (recordHash (s.manifestAt s.stageOff))).foldl (fun s t => s.chestSet t.1 t.2) s
      (0, (s.setRecBit 6 fb).setRec 1 0)

/-- The pages of 256 bytes in a range of STAGE. -/
def pagesOf (off len : Nat) : List Nat := (List.range (len / 256)).map (off / 256 + ·)

/-- Erases a range of STAGE. -/
def State.eraseStage (s : State) (off len : Nat) : State :=
  let s := s.flashErase (s.stageOff + off) len
  { s with boot := { s.boot with erased := (pagesOf off len).foldl insertLine s.boot.erased } }

/-- Programs a range of STAGE. -/
def State.writeStage (s : State) (off : Nat) (bs : List Byte) : State :=
  let s := s.flashWrite (s.stageOff + off) bs
  let gone := pagesOf off bs.length
  { s with boot := { s.boot with erased := s.boot.erased.filter fun p => !gone.contains p } }

/-- Runs a slot operation: its result, 0 or the code it is refused with. -/
def State.slotOp (s : State) (d : List Byte) : Nat × State :=
  let off := numAt d 4 4
  let a := numAt d 8 8
  let len := numAt d 16 4
  let n := if numAt d 0 1 = 8 then 16 else len
  let needsSrc := [2, 5, 7, 8].contains (numAt d 0 1)
  if needsSrc && !(n = 0 || s.inRam a n) then
    let (v, s) := s.draw
    (v % 65536, s)
  else
  let (src, s) := if needsSrc then s.bootRead a n else ([], s)
  match numAt d 0 1 with
    | 1 =>
      if s.bootRec = 1 then (0x0C1F, s)
      else if !rangeOk off len 65536 s.slotLen then (0x0C1E, s)
      else (0, s.eraseStage off len)
    | 2 =>
      if s.bootRec = 1 then (0x0C1F, s)
      else if !rangeOk off len 256 s.slotLen then (0x0C1E, s)
      else if !(pagesOf off len).all s.boot.erased.contains then (0x0C20, s)
      else (0, s.writeStage off src)
    | 3 => s.commitStage
    | 4 => if s.bootRec = 1 then (0, s.setRec (if bitOf (s.chestAt 0).toNat 6 then 4 else 0) 0) else (0x0C1F, s)
    | 5 =>
      if bitOf (s.chestAt 0).toNat 5 then (0x0C21, s)
      else if 0x10000 + s.slotLen < off + len then (0x0C1E, s)
      else if s.boot.flashProt then
        let (v, s) := s.draw
        (v % 65536, s)
      else (0, s.flashWrite off src)
    | 6 =>
      if bitOf (s.chestAt 0).toNat 5 then (0x0C21, s)
      else if !s.directoryOk then (0x0C25, s)
      else match s.bundleCheck goldenOff true with
        | some c => (c, s)
        | none => (0, { s.setRecBit 5 true with boot := { s.boot with flashProt := true } })
    | 7 => if s.flashLen < s.dataOff + off + len then (0x0C1E, s) else (0, s.flashWrite (s.dataOff + off) src)
    | 8 =>
      if bitOf (s.chestAt 0x0011).toNat 49 then (0x0C22, s)
      else
        let s := s.chestSet 0x0010 (BitVec.ofNat 64 (numAt src 0 8))
        (0, (s.chestSet 0x0011 (BitVec.ofNat 64 (setBit (numAt src 8 8 % 2 ^ 49) 49 true))).bootSync)
    | _ =>
      let (v, s) := s.draw
      (v % 65536, s)

/-! ### IMGLOAD (R373, 03 R91, R92) -/

/-- The targets of a manifest entry that run: hub cores by bits 1 and 2, the Mill, GNSS and radio sequencers, transceiver ports. -/
def State.targetRuns (s : State) (profile target : Nat) : Bool :=
  let seqBusy := fun (q : Nat) => (s.seq q).run = .running || (s.seq q).run = .waiting
  let coreBusy := fun (c : Core) => (s.core c).run = .running || (s.core c).run = .waiting
  match profile with
  | 1 => (bitOf target 1 && coreBusy .core2) || (bitOf target 2 && coreBusy .core3)
  | 2 => s.get Fld.millStateState ≠ 0
  | 3 => (List.range 4).any fun a => bitOf target a && seqBusy a
  | 4 => (List.range 4).any fun n => bitOf target n && seqBusy (4 + n)
  | _ => (List.range 4).any fun n => bitOf target n && !s.portStopped n

/-- The bytes that the sections of one kind of memory give a sequencer. -/
def seqMem (b : List Byte) (space : Nat) : List Host.Cell :=
  (imageSections b).foldl (fun m x =>
    if sectionSpace 3 x.kind = space && x.kind ≠ 3 then memPutAll m x.load ((b.drop x.off).take x.len) else m) []

/-- An image enters a sequencer (R92): all of IMEM and DMEM is replaced, and the sequencer waits in reset. -/
def State.loadSeq (s : State) (q : Nat) (b : List Byte) : State :=
  let s := s.setSeq q { imem := seqMem b 2, dmem := seqMem b 3, image := some (numAt b 12 4) }
  if q < 4 then s.set Fld.gseqStateSeq 1 q else s

/-- A radio sequencer starts as its image has loaded (log 66): BOOTARG goes to DMEM bytes 0 to 3, and the image reads its control block
(09 R246). -/
def State.startRadioSeq (s : State) (n : Nat) : State :=
  let x := s.seq (4 + n)
  let s := s.setSeq (4 + n) { x with
    pc := numAt (leBytes (match x.image with
      | some e => e
      | none => 0) 4) 0 4
    dmem := memPutAll x.dmem 0 (leBytes (s.get Fld.radioBootargAddr n) 4), run := .running }
  let s := s.setRimg n {}
  s.rcbCheck n

/-- An image enters the node library (R92): the region is replaced, and the operation table and entry are the image's. -/
def State.loadLibrary (s : State) (b : List Byte) : State :=
  let s := s.zeroFill s.libBase 0x400000
  let s := (imageSections b).foldl (fun s x =>
    if x.kind = 3 then s else s.store (s.libBase + x.load) ((b.drop x.off).take x.len)) s
  let tab := ((imageSections b).find? fun x => x.kind = 4).map fun x => x.load
  { s with mill := { s.mill with libEntry := numAt b 12 4, opTable := tab } }

/-- An accepted image replaces everything its targets held (R92, R373). -/
def State.loadTargets (s : State) (b : List Byte) (profile target entry : Nat) : State :=
  match profile with
  | 1 => (imageSections b).foldl (fun s x =>
      if x.kind = 3 then s.zeroFill (x.load * 256) x.len else s.store (x.load * 256) ((b.drop x.off).take x.len)) s
  | 2 => s.loadLibrary b
  | 3 => (List.range 4).foldl (fun s a => if bitOf target a then s.loadSeq a b else s) s
  | 4 => (List.range 4).foldl (fun s n => if bitOf target n then (s.loadSeq (4 + n) b).startRadioSeq n else s) s
  | _ => (List.range 4).foldl (fun s n =>
      if bitOf target n then { s with boot := { s.boot with fwload := Map.put s.boot.fwload n (entry, s.us) } } else s) s

/-- Runs a load request: its result. -/
def State.imgLoad (s : State) (d : List Byte) : Nat × State :=
  let i := numAt d 0 1
  let m := s.boot.manifest
  let e := manifestEntry m i
  let want := if numAt d 2 1 = 0 then e.target else numAt d 2 1
  let fail := fun (c : Nat) => (c, s)
  if numAt m 6 1 ≤ i ∨ (e.profile = 1 ∧ bitOf want 0) ∨ (want &&& e.target) ≠ want then fail 0x0C11
  else
    let off := if s.get Fld.bootStateSlot = 1 then s.activeOff else goldenOff
    let a := if numAt d 1 1 = 1 then numAt d 8 8 else flashBase + off + e.off
    if numAt d 1 1 = 1 ∧ !s.inRam a e.len then
      let (v, s) := s.draw
      (v % 65536, s)
    else
      let (b, s) := s.bootRead a e.len
      match s.entryCheck m e b with
      | some c => (c, s)
      | none => if s.targetRuns e.profile want then fail 0x0C15 else (0, s.loadTargets b e.profile want i)

/-! ### Requests (R372) -/

/-- The request at the front runs, when it has not yet (one at a time, in submission order). -/
def State.bootRun (s : State) : State :=
  match s.boot.reqs with
  | r :: rest =>
    if r.result.isSome then s
    else
      let (v, s) := if r.op = 0 then s.imgLoad r.desc else s.slotOp r.desc
      let s := if v = 0 then s else s.raise v (numAt r.desc 0 1)
      { s with boot := { s.boot with reqs := { r with result := some v } :: rest } }
  | [] => s

/-- What IMGLOAD and SLOTOP share (R372): the kernel's own; the descriptor's 32 bytes; d is the request's number, or 0 when four are queued.
A descriptor outside the Granary and fitted DRAM is read as zeros. -/
def State.bootInsn (s : State) (c : Core) (d a : Reg) (op : Nat) : State :=
  if !s.hubReady c then s
  else if !s.top c || c ≠ .kernel then s.hubFault c 0x0206
  else
    let ad := (s.rg (.hub c) a).toNat
    match s.rangeFault (.hub c) ad 32 false with
    | some (k, x) => (s.noteEcc k ad 32).hubFault c k x
    | none =>
      let (bs, s) := s.rangeRead (.hub c) ad 32
      if op ≠ 0 ∧ numAt bs 0 1 ≠ op then s
      else if 4 ≤ s.boot.reqs.length then s.done c d 0
      else
        let n := nextNum s.boot.lastNum
        let s : State := { s with boot := { s.boot with reqs := s.boot.reqs ++ [⟨n, op, bs, none⟩], lastNum := n } }
        (s.set Fld.bootStateQueued s.boot.reqs.length).bootRun.done c d n

/-- IMGLOAD (R372, R373). -/
def execImgload (e : Engine) (d a : Reg) (s : State) : Result := .next (s.onHub e fun c => s.bootInsn c d a 0)
/-- SLOTOP ERASE (R374). -/
def execErase (e : Engine) (d a : Reg) (s : State) : Result := .next (s.onHub e fun c => s.bootInsn c d a 1)
/-- SLOTOP WRITE (R374). -/
def execWrite (e : Engine) (d a : Reg) (s : State) : Result := .next (s.onHub e fun c => s.bootInsn c d a 2)
/-- SLOTOP COMMIT (R374). -/
def execCommit (e : Engine) (d a : Reg) (s : State) : Result := .next (s.onHub e fun c => s.bootInsn c d a 3)
/-- SLOTOP UNCOMMIT (R374). -/
def execUncommit (e : Engine) (d a : Reg) (s : State) : Result := .next (s.onHub e fun c => s.bootInsn c d a 4)
/-- SLOTOP WRGOLD (R374). -/
def execWrgold (e : Engine) (d a : Reg) (s : State) : Result := .next (s.onHub e fun c => s.bootInsn c d a 5)
/-- SLOTOP LOCKGOLD (R374, R364). -/
def execLockgold (e : Engine) (d a : Reg) (s : State) : Result := .next (s.onHub e fun c => s.bootInsn c d a 6)
/-- SLOTOP DATA (R374). -/
def execData (e : Engine) (d a : Reg) (s : State) : Result := .next (s.onHub e fun c => s.bootInsn c d a 7)
/-- SLOTOP IDENT (R374). -/
def execIdent (e : Engine) (d a : Reg) (s : State) : Result := .next (s.onHub e fun c => s.bootInsn c d a 8)

/-- BOOT_REQ_DONE (R372): the oldest request completes: REQ, source 59; the next one runs. -/
def execBootReqDone (s : State) : Result :=
  let s := s.bootRun
  match s.boot.reqs with
  | r :: rest =>
    let v := match r.result with
      | some v => v
      | none => 0
    let s := ((s.set Fld.bootReqNumber r.num).set Fld.bootReqResult v).pend .kernel 59
    let s : State := { s with boot := { s.boot with reqs := rest } }
    .next (s.set Fld.bootStateQueued rest.length).bootRun
  | [] => .next s

/-- XCVR_LOAD_FAIL (R373): no answer within 500 ms of the firmware. -/
def execXcvrLoadFail (n : Fin 4) (s : State) : Result :=
  match Map.find s.boot.fwload n.val with
  | some (e, t) => match s.reachUs (500000 + t) with
    | none => .next s
    | some s => .next ({ s with boot := { s.boot with fwload := Map.del s.boot.fwload n.val } }.raise 0x0C1D e)
  | none => .next s

/-- RECOVERY_MESSAGE (R371): the boot ROM writes a host message into STAGE, or commits STAGE and resets the device. -/
def execRecoveryMessage (msg : List Byte) (s : State) : Result :=
  let off := numAt msg 0 4
  let len := numAt msg 4 4
  if !s.boot.recovery then .next s
  else if len = 0 then
    let (c, s) := s.commitStage
    .next (if c = 0 then s.deviceReset 2 else s.raise c)
  else if 56 < len ∨ s.slotLen < off + len then .next s
  else
    let first := off / 65536
    let last := (off + len - 1) / 65536
    let s := ((List.range (last + 1 - first)).map (first + ·)).foldl (fun s k =>
      if s.boot.recBlocks.contains k then s
      else
        let s := s.eraseStage (k * 65536) 65536
        { s with boot := { s.boot with recBlocks := k :: s.boot.recBlocks } }) s
    .next (s.flashWrite (s.stageOff + off) ((msg.drop 8).take len))

/-! ### Cycles, trial, restarts (R376-R381) -/

/-- Whether CYCSTART is refused (R376): in UNSET, or with pairing enabled and no identity. -/
def State.cycRefused (s : State) : Bool := s.servoState = 0 || (s.getB Fld.plinkCfgPairEn && !s.getB Fld.bootStateIdset)

/-- CYCSTART (R376). -/
def State.cycStart (s : State) : State :=
  if s.sysRunning then s
  else if s.cycRefused then s.raise 0x0C23
  else { s with boot := { s.boot with cycStart := some ((s.site.ps / 1000000000000 + 1) * 1000000000000) } }

/-- CYCSTART (R376). -/
def execCycstart (s : State) : Result := .next s.cycStart

/-- CYCLE_START (R376): with the cycle that begins at the whole second, or after it, SYS leaves PRECYCLE for RUNNING. -/
def State.cyclesBegin (s : State) : State :=
  match s.boot.cycStart with
  | some t =>
    if t ≤ s.cyclePs ∧ s.onSecond then ({ s with boot := { s.boot with cycStart := none } } : State).setB Fld.bootStateSysrun true else s
  | none => s

/-- CYCLE_START (R376). -/
def execCycleStart (s : State) : Result := .next s.cyclesBegin

/-- A planned restart (R380, R381) with its reset cause: at once, after the next acknowledgement, or after the yield. -/
def State.planRestart (s : State) (cause : Nat) : State :=
  let p := s.pair
  if p ≤ 2 ∨ ((p = 4 ∨ p = 5) ∧ !s.linkUp) then s.deviceReset cause
  else if s.boot.restart.isSome then s
  else
    let s : State := { s with boot := { s.boot with restart := some cause } }
    if p = 3 ∧ s.gateOpen ∧ 8000 ≤ s.get Fld.sysPhaseOffsetUs then s.yieldPair else s

/-- BOOT_RESET (R380, R381). -/
def execBootReset (s : State) : Result := .next (s.planRestart 2)

/-- An active unit with a restart planned yields at 8.000 ms, once the gate of the cycle is open (R381); one that has come to be alone resets
(R380). -/
def State.restartYield (s : State) : State :=
  match s.boot.restart with
  | none => s
  | some c =>
    if s.pair ≤ 2 ∧ s.pairing.yielding = none then s.deviceReset c
    else if s.pair = 3 ∧ s.gateOpen ∧ 8000 ≤ s.get Fld.sysPhaseOffsetUs then s.yieldPair
    else s

/-- JOURNAL_RECEIVED (13 R328; R380): a standby with a restart planned sends its acknowledgement, then LEAVE, and resets. -/
def execJournalReceived (raw : List Byte) (part : Bool) (s : State) : Result :=
  let t := s.journalReceived raw part
  match t.boot.restart with
  | some c => if t.decant.rx = some raw then .next ((t.sendLeave 0x0C81).deviceReset c) else .next t
  | none => .next t

/-- JOURNAL_ACK_RECEIVED (13 R34 ff., 01 R34; R381). -/
def execJournalAckReceived (m : CtlMsg) (s : State) : Result := .next (s.journalAck m).restartYield

/-- When the hold of a yield ends (13 R340): at the partner's rise, or after 20 ms. -/
def State.yieldOver (s : State) (t : Nat) : Option State :=
  match s.pairing.partRise with
  | some r => if t * 6000 ≤ r then some s else s.reachUs (20000 + t)
  | none => s.reachUs (20000 + t)

/-- YIELD_END (13 R340): the partner's wire has risen or 20 ms have passed; a unit that yielded for a restart resets (R381). -/
def execYieldEnd (s : State) : Result :=
  match s.pairing.yielding with
  | none => .next s
  | some t => match s.yieldOver t with
    | none => .next s
    | some s =>
      let t : State := { s with pairing := { s.pairing with yielding := none } }
      match s.boot.restart with
      | some c => .next (t.deviceReset c)
      | none => .next t

/-- The trial's settings in the running manifest: TRIAL_S, GRACE_S, LIMIT_M. -/
def State.trialS (s : State) : Nat := numAt s.boot.manifest 0x16 2

/-- Seconds since kernel entry. -/
def State.uptime (s : State) : Nat := (s.us - s.boot.entryUs) / 1000000

/-- TRIAL_EXPIRED (R379): an unconfirmed trial start ends, when SERVICE or the uptime has reached its limit. -/
def execTrialExpired (s : State) : Result :=
  let m := s.boot.manifest
  if s.bootRec ≠ 3 ∨ s.get Fld.bootStateSlot ≠ 1 then .next s
  else
    let due := if s.trialS + numAt m 0x18 2 ≤ s.get Fld.bootServiceSeconds then some s
      else s.reachUs (60000000 * numAt m 0x1A 2 + s.boot.entryUs)
    match due with
    | none => .next s
    | some s => .next ((s.raise 0x0C24).planRestart 3)

/-- HEALTH.CONFIRM (R378). -/
def execHealthConfirm (e : Engine) (d : Reg) (s : State) : Result :=
  .next (s.onHub e fun c => s.kernelInsn c (.healthConfirm (.hub c) d) fun s =>
    let m := s.boot.manifest
    let sync := s.getB Fld.bootStateSyncmet || numAt m 0x1C 1 = 0 || s.pair = 0
    let fail := fun (code : Nat) => (s.raise code).done c d code
    if s.bootRec = 0 then fail 0x0C80
    else if s.get Fld.bootStateSlot = 0 then fail 0x0C31
    else if s.bootRec ≠ 3 ∨ s.get Fld.bootServiceSeconds < s.trialS ∨ !sync then fail 0x0C30
    else
      let old := bits (s.chestAt 1).toNat 0 32
      let s := if old < numAt m 8 4 then s.chestSet 1 (BitVec.ofNat 64 (numAt m 8 4)) else s
      (s.setRec 0 0).done c d 0)

/-- A whole second of site time ends (R377): it counts when SYS ran and the unit held its claim or was INSYNC throughout. -/
def State.serviceSecond (s : State) : State :=
  let now := s.sysRunning && (s.holding || s.pair = 5)
  let s := if s.boot.secGood && now then s.bump Fld.bootServiceSeconds else s
  { s with boot := { s.boot with secGood := now } }

/-- A cycle begins: the present second keeps counting only while its condition holds (R377). -/
def State.serviceCycle (s : State) : State :=
  if s.sysRunning && (s.holding || s.pair = 5) then s else { s with boot := { s.boot with secGood := false } }

/-- BOOT's words as they stand, for a read (Table 15.9). -/
def State.bootReadSync (s : State) : State := s.bootSync.set Fld.bootUptimeSeconds s.uptime

end Sys2Proof.Machine
end

