-- ==== Sys2Proof/Machine/Net.lean ====
section
/-! DEFINITION. The network switch (spec/12_site_time_network.md R292-R299, R314): ports, forwarding, timestamps, the transparent clock. -/

namespace Sys2Proof.Machine

/-! ### Ports (R292, R314) -/

/-- The state of a port: 0 stopped, 1 link down, 2 link up, 3 failed. -/
def State.netPort (s : State) (k : Nat) : Nat := s.get Fld.netStatePort k

/-- PORTk (R314): AN only with MODE 1 or 2. -/
def netPortOk (g : Fld → Nat → Nat) (k : Nat) : Bool :=
  let m := g Fld.netPortMode k
  g Fld.netPortAn k = 0 || m = 1 || m = 2

/-- HUB (R294, R314): three distinct general units with the live configuration of R294. -/
def netHubOk (s : State) (g : Fld → Nat → Nat) : Bool :=
  let i := g Fld.netHubIn 0
  let a := g Fld.netHubOutg 0
  let b := g Fld.netHubOutu 0
  let gen := fun (q : Nat) => decide (32 ≤ q ∧ q < 40)
  gen i && gen a && gen b && decide (i ≠ a ∧ i ≠ b ∧ a ≠ b) && s.get Fld.queueCfgWriters i = 0x2000 &&
  decide (1 ≤ s.get Fld.queueCfgReader i ∧ s.get Fld.queueCfgReader i ≤ 3) && s.getB Fld.queueCfgGated a &&
  s.get Fld.queueCfgReader a = 13 && !s.getB Fld.queueCfgGated b && s.get Fld.queueCfgReader b = 13

/-- Whether NET's staged set passes (R314). -/
def netApplyOk (s : State) : Bool :=
  let g := fun (f : Fld) (i : Nat) => s.getStaged f i
  ((List.range 4).all fun k => !s.changed Blk.net .gPort (some k) ||
    (netPortOk g k && (s.netPort k = 0 || g Fld.netPortMode k = s.get Fld.netPortMode k))) &&
  (!s.changed Blk.net .gHub none || netHubOk s g) &&
  (!s.changed Blk.net .gPtp none || (g Fld.netPtpProfile 0 ≠ 3 && decide (g Fld.netPtpDomain 0 ≤ 239)))

/-- The SerDes island of a lane. -/
def laneIsland (k : Nat) : Island := .serdes (Fin.ofNat 5 k)

/-- RUN of a port (R292, R487): the lane is powered and trained; a live PORTk that fails keeps it stopped. -/
def State.netRun (s : State) (k : Nat) : State :=
  if s.netPort k = 1 ∨ s.netPort k = 2 then s
  else if !netPortOk (fun f i => s.get f i) k then s.raise 0x3001
  else if s.get Fld.netPortMode k = 0 then s
  else
    let s := ((s.set Fld.netStatePort 1 k).setB Fld.netPstatLock false k).unitStart (28 + k)
    { s with net := { s.net with trainUs := Map.put s.net.trainUs k s.us } }.askIsland (laneIsland k)

/-- NET_RUN (R292). -/
def execNetRun (k : Fin 4) (s : State) : Result := .next (s.netRun k.val)

/-- SERDES_NO_LOCK (R292): no lock within 10 ms of RUN. -/
def execSerdesNoLock (k : Fin 4) (s : State) : Result :=
  if s.netPort k.val ≠ 1 ∨ s.getB Fld.netPstatLock k.val then .next s
  else match s.reachUs (10000 + Map.getD s.net.trainUs k.val 0) with
    | none => .next s
    | some s => .next ((s.set Fld.netStatePort 3 k.val).raise 0x3002 k.val)

/-- LINK_UP (R292): the lane has lock and the link is up at a speed of PSTAT. -/
def execLinkUp (k : Fin 4) (speed : Fin 4) (s : State) : Result :=
  if s.netPort k.val = 1 then
    let s := (s.set Fld.netStatePort 2 k.val).set Fld.netPstatSpeed speed.val k.val
    let s := (s.setB Fld.netPstatLock true k.val).setB Fld.netPstatLinkchg true k.val
    .next { s with net := { s.net with tsWarned := s.net.tsWarned.filter (· ≠ k.val) } }
  else .next s

/-- LINK_DOWN (R292). -/
def execLinkDown (k : Fin 4) (s : State) : Result :=
  if s.netPort k.val = 2 then
    let s := ((s.set Fld.netStatePort 1 k.val).set Fld.netPstatSpeed 0 k.val).setB Fld.netPstatLinkchg true k.val
    .next (s.raise 0x3081 k.val)
  else .next s

/-- STOP of a port (R292): the lane goes off. -/
def State.netStop (s : State) (k : Nat) : State :=
  if s.netPort k = 0 then s
  else (((s.set Fld.netStatePort 0 k).set Fld.netPstatSpeed 0 k).setB Fld.netPstatLock false k).unitStop (28 + k)

/-- NET_STOP (R292). -/
def execNetStop (k : Fin 4) (s : State) : Result := .next (s.netStop k.val)

/-! ### Frames (R293, R296, R299; the layout of PTP, UDP and IP is that of their standards) -/

/-- A big-endian number in a frame. -/
def beAt (f : List Byte) (k n : Nat) : Nat := leNat ((f.drop k).take n).reverse

/-- A number as `n` big-endian bytes. -/
def beBytes (v n : Nat) : List Byte := (leBytes v n).reverse

/-- Replaces bytes of a frame. -/
def framePatch (b : List Byte) (k : Nat) (v : List Byte) : List Byte :=
  if k + v.length ≤ b.length then b.take k ++ v ++ b.drop (k + v.length) else b

/-- Where the payload after the EtherType starts: behind one 802.1Q tag. -/
def payloadAt (f : List Byte) : Nat := if beAt f 12 2 = 0x8100 then 18 else 14

/-- The EtherType. -/
def etherType (f : List Byte) : Nat := beAt f (payloadAt f - 2) 2

/-- Where a PTP message starts in a frame, with the place of its UDP checksum and whether it is over IPv4. -/
def ptpAt (udp : Bool) (f : List Byte) : Option (Nat × Option (Nat × Bool)) :=
  let p := payloadAt f
  let port := fun (u : Nat) => decide (beAt f (u + 2) 2 = 319 ∨ beAt f (u + 2) 2 = 320)
  if etherType f = 0x88F7 then some (p, none)
  else if !udp then none
  else if etherType f = 0x0800 ∧ beAt f (p + 9) 1 = 17 then
    let u := p + 4 * (beAt f p 1 % 16)
    if port u then some (u + 8, some (u + 6, true)) else none
  else if etherType f = 0x86DD ∧ beAt f (p + 6) 1 = 17 then
    let u := p + 40
    if port u then some (u + 8, some (u + 6, false)) else none
  else none

/-- Ones' complement sum of the 16-bit words of bytes, complemented or not, folded. -/
def wordsSum (comp : Bool) (l : List Byte) : Nat :=
  (List.range ((l.length + 1) / 2)).foldl (fun n k => n + if comp then 65535 - beAt l (2 * k) 2 else beAt l (2 * k) 2) 0

/-- Folds a sum to 16 bits with end-around carry. -/
def fold16 (n : Nat) : Nat := let m := n % 65536 + n / 65536; m % 65536 + m / 65536

/-- Replaces an even-aligned field of a PTP message and updates a UDP checksum incrementally; a zero IPv4 checksum stays zero (R299). -/
def ptpPatch (f : List Byte) (k : Nat) (v : List Byte) (udp : Option (Nat × Bool)) : List Byte :=
  let g := framePatch f k v
  match udp with
  | none => g
  | some (c, v4) =>
    let old := beAt f c 2
    if v4 ∧ old = 0 then g
    else
      let n := 65535 - fold16 (65535 - old + wordsSum true ((f.drop k).take v.length) + wordsSum false v)
      framePatch g c (beBytes (if n = 0 then 65535 else n) 2)

/-- Adds to correctionField, in units of 2^-16 ns, saturating (R299). -/
def addCorrection (f : List Byte) (p : Nat) (udp : Option (Nat × Bool)) (r : Int) : List Byte :=
  let top : Int := 0x7FFFFFFFFFFFFFFF
  let old := signed 64 (beAt f (p + 8) 8)
  let new := if old = top ∨ top < old + r then top else old + r
  ptpPatch f (p + 8) (beBytes (unsigned 64 new) 8) udp

/-- INT_RX and INT_TX of a speed in 1/16 ns (Table 12.4). -/
def laneLat (speed : Nat) : Nat × Nat := if speed = 3 then (307, 230) else (614, 410)

/-- Whether a port stamps event messages (R296, R297). -/
def State.stamps (s : State) (k : Nat) : Bool := s.getB Fld.netPortPtpEn k && decide (2 ≤ s.get Fld.netPstatSpeed k)

/-- Ingress latency of a port in 1/16 ns. -/
def State.rxLat (s : State) (k : Nat) : Nat := (laneLat (s.get Fld.netPstatSpeed k)).1 + s.get Fld.netLatRxPhy k
/-- Egress latency of a port in 1/16 ns. -/
def State.txLat (s : State) (k : Nat) : Nat := (laneLat (s.get Fld.netPstatSpeed k)).2 + s.get Fld.netLatTxPhy k

/-- Site time in units of 2^-16 ns at a sample `sub` half nanoseconds from now, moved by a latency in 1/16 ns. -/
def State.stampAt (s : State) (sub : Nat) (lat : Int) : Nat :=
  ((s.site.total : Int) * 65536 + (s.site.frac / 2 ^ 32 : Nat) + sub * 32768 + lat * 4096).toNat

/-- A timestamp in the 12-byte form. -/
def tsBytes (t : Nat) : List Byte := leBytes (t % 65536) 2 ++ leBytes (t / 65536 % 1000000000) 4 ++ leBytes (t / 65536 / 1000000000) 6

/-- A hub-in prefix (Table 12.3). -/
def State.hubIn (s : State) (kind port : Nat) (ts : Option Nat) (tag : Nat) : List Byte :=
  let (v, b) := match ts with
    | some t => (1, tsBytes t)
    | none => (0, leBytes 0 12)
  leBytes kind 1 ++ leBytes port 1 ++ leBytes v 1 ++ leBytes (s.get Fld.timeStateStepseq) 1 ++ b ++ leBytes tag 2 ++ leBytes 0 6

/-- Pushes an item on the IN unit that NET.HUB names. -/
def State.pushIn (s : State) (body : List Byte) : State :=
  let q := s.get Fld.netHubIn
  if 32 ≤ q ∧ q < 40 then (s.qPush q body).2 else s

/-- The hub's address. -/
def State.hubMac (s : State) : Nat := leNat ((leBytes (s.get Fld.netMacloAddr) 4 ++ leBytes (s.get Fld.netMachiAddr) 2).reverse)

/-- Learns a source address: 2,048 entries, aged out after 300 s. -/
def State.learn (s : State) (mac port : Nat) : State :=
  let live := s.net.macs.filter fun e => s.us ≤ e.2.2 + 300000000
  let known := (Map.find live mac).isSome
  { s with net := { s.net with macs := if known ∨ live.length < 2048 then Map.put live mac (port, s.us) else live } }

/-- The other external ports whose link is up. -/
def State.othersUp (s : State) (k : Nat) : List Nat := (List.range 4).filter fun j => j ≠ k && s.netPort j = 2

/-- A frame leaves a port. -/
def State.netSend (s : State) (j : Nat) (f : List Byte) : State :=
  let s := s.bump Fld.netCntTx j
  { s with net := { s.net with sent := Map.put s.net.sent j f } }

/-- What the switch knows of a received frame. -/
structure RxFrame where
  port : Nat
  bytes : List Byte
  sub : Nat
  res : List Nat
  deriving DecidableEq, Repr

/-- A frame forwarded to port j: an event message of another domain is corrected, and dropped at a port too slow to stamp it (R297, R299). -/
def State.forward (s : State) (r : RxFrame) (j : Nat) : State :=
  match ptpAt (s.getB Fld.netPtpUdp) r.bytes with
  | none => s.netSend j r.bytes
  | some (p, udp) =>
    let type := beAt r.bytes p 1 % 16
    let other := decide (beAt r.bytes (p + 4) 1 ≠ s.get Fld.netPtpDomain)
    let profile := s.get Fld.netPtpProfile
    let slow := s.get Fld.netPstatSpeed r.port = 1 || s.get Fld.netPstatSpeed j = 1
    if !other ∨ 4 ≤ type then s.netSend j r.bytes
    else if s.getB Fld.netPtpTcEn ∧ slow then (s.bump Fld.netCntbTcdrop).raise 0x3084 j
    else
      let s := if s.stamps j then s.bump Fld.netCntpStamped j else s
      if !s.getB Fld.netPtpTcEn ∨ !s.stamps r.port ∨ !s.stamps j ∨ !(type = 0 ∨ (profile = 0 ∧ type = 1)) then s.netSend j r.bytes
      else
        let pd := if profile = 1 then s.get Fld.netPdelayDelay r.port else 0
        let add : Int := (r.res.getD j 0 * 32768 + (s.rxLat r.port + s.txLat j + pd) * 4096 : Nat)
        (s.bump Fld.netCntpTcfix j).netSend j (addCorrection r.bytes p udp add)

/-- A frame goes to the hub (R294, R296, R297). -/
def State.toHub (s : State) (r : RxFrame) : State :=
  let k := r.port
  let event := match ptpAt (s.getB Fld.netPtpUdp) r.bytes with
    | some (p, _) => decide (beAt r.bytes p 1 % 16 < 4)
    | none => false
  let ts := if event && s.stamps k then some (s.stampAt r.sub (-(s.rxLat k : Int))) else none
  let slow := event && s.get Fld.netPstatSpeed k = 1 && s.getB Fld.netPortPtpEn k && !s.net.tsWarned.contains k
  let s : State := if slow then
      { s.raise 0x3083 k with net := { s.net with tsWarned := insertLine s.net.tsWarned k } }
    else s
  s.pushIn (s.hubIn 1 k ts 0 ++ r.bytes)

/-- A stop command frame goes to unit 40 only; while the switch's write to it is held, it is dropped (R285, R293). -/
def State.bellFrameRx (s : State) (r : RxFrame) : State :=
  if (s.queue 40).held ≠ [] then
    let s := s.bump Fld.netCntbBelldrop
    if s.net.bellStall then s else { s.raise 0x3082 r.port with net := { s.net with bellStall := true } }
  else
    let s : State := { s with net := { s.net with bellStall := false } }
    s.qPushHw 40 ((r.bytes.drop (payloadAt r.bytes)).take 32)

/-- A received frame is directed by its class, the first row of Table 12.1 that matches. -/
def State.ethFrame (s : State) (r : RxFrame) : State :=
  let k := r.port
  let dst := beAt r.bytes 0 6
  let ptp := ptpAt (s.getB Fld.netPtpUdp) r.bytes
  let en := s.getB Fld.netPortPtpEn k
  let event := match ptp with
    | some (p, _) => decide (beAt r.bytes p 1 % 16 < 4)
    | none => false
  let own := match ptp with
    | some (p, _) => en && decide (beAt r.bytes (p + 4) 1 = s.get Fld.netPtpDomain)
    | none => false
  let other := match ptp with
    | some (p, _) => decide (beAt r.bytes (p + 4) 1 ≠ s.get Fld.netPtpDomain)
    | none => false
  let s := (s.bump Fld.netCntRx k).learn (beAt r.bytes 6 6) k
  let s := if event && s.stamps k then s.bump Fld.netCntpStamped k else s
  if etherType r.bytes = 0x88B5 then s.bellFrameRx r
  else if dst / 16 = 0x0180C200000 then s.toHub r
  else if own then s.toHub r
  else if other && s.get Fld.netPtpProfile = 2 then s
  else if other && event && s.getB Fld.netPtpTcEn && s.get Fld.netPstatSpeed k = 1 then (s.bump Fld.netCntbTcdrop).raise 0x3084 k
  else if dst = s.hubMac then s.toHub r
  else if beAt r.bytes 0 1 % 2 = 0 then
    match Map.find s.net.macs dst with
    | some (j, _) => if j = k ∨ s.netPort j ≠ 2 then s else s.forward r j
    | none => (s.othersUp k).foldl (fun s j => s.forward r j) s
  else ((s.othersUp k).foldl (fun s j => s.forward r j) s).toHub r

/-- ETH_FRAME_RX (R293): a frame of destination address to payload end crosses its receive unit (R24); `sub` is the MAC sample from now, in half
nanoseconds, and `res` the difference of MAC samples to each egress port in the same unit. -/
def execEthFrameRx (k : Fin 4) (frame : List Byte) (fcs : Bool) (sub : Nat) (res : List Nat) (s : State) : Result :=
  if s.netPort k.val ≠ 2 ∨ !fcs ∨ 1518 < frame.length ∨ frame.length < 14 then .next s
  else match s.qCross (28 + k.val) frame with
    | (true, s) => .next (s.ethFrame ⟨k.val, frame, sub, res⟩)
    | (false, s) => .next s

/-! ### The Announce of a grandmaster (R301, Table 12.6; the layout of the message is that of IEEE 1588-2019, log 194) -/

/-- What an Announce says of the clock. -/
structure Announce where
  clockClass : Nat
  accuracy : Nat
  source : Nat
  traceable : Bool
  deriving DecidableEq, Repr

/-- clockAccuracy: the smallest enumeration that is at least a number of ps; 1, 2.5, 10, 25, ... ps from 0x17 on. -/
def accuracyOf (ps : Nat) : Nat :=
  match (List.range 25).find? fun i => decide (1000 * ps ≤ 10 ^ (i / 2) * if i % 2 = 0 then 1000 else 2500) with
  | some i => 0x17 + i
  | none => if ps ≤ 10000000000000 then 0x30 else 0x31

/-- UNC_PS as the solution record gives it. -/
def State.uncPs (s : State) : Nat := min 0xFFFFFFFF s.clock.unc

/-- The content of the Announce (Table 12.6). -/
def State.announce (s : State) : Announce :=
  let good := fun (c : Nat) => ({ clockClass := c, accuracy := accuracyOf (3 * s.uncPs), source := 0x20, traceable := true } : Announce)
  let bad := fun (c : Nat) => ({ clockClass := c, accuracy := 0xFE, source := 0xA0, traceable := false } : Announce)
  match s.clock.state with
  | 0 => bad 248
  | 1 => good 6
  | _ => if s.uncPs ≤ s.tsbAt 28 4 * 1000 then good 7 else bad 52

/-- flagField of the Announce: leap61, leap59, currentUtcOffsetValid, ptpTimescale, timeTraceable and frequencyTraceable. -/
def State.announceFlags (s : State) : Nat :=
  let t := s.announce.traceable.toNat
  s.get Fld.timeUtcLeap61 + 2 * s.get Fld.timeUtcLeap59 + 4 * s.get Fld.timeUtcValid + 8 + 16 * t + 32 * t

/-- The Announce of a port, from its destination address on. -/
def State.announceFrame (s : State) (k : Nat) : List Byte :=
  let a := s.announce
  let gptp := s.get Fld.netPtpProfile = 2
  let mac := beBytes s.hubMac 6
  let id := mac.take 3 ++ [0xFF, 0xFE] ++ mac.drop 3
  (if gptp then beBytes 0x0180C200000E 6 else beBytes 0x011B19000000 6) ++ mac ++ beBytes 0x88F7 2 ++
  beBytes (if gptp then 0x1B else 0x0B) 1 ++ beBytes 0x12 1 ++ beBytes 64 2 ++ beBytes (s.get Fld.netPtpDomain) 1 ++ beBytes 0 1 ++
  beBytes s.announceFlags 2 ++ beBytes 0 12 ++ id ++ beBytes (k + 1) 2 ++ beBytes (s.clock.annSeq % 65536) 2 ++ beBytes 5 1 ++
  beBytes (if gptp then 0 else 1) 1 ++ beBytes 0 10 ++ beBytes (s.get Fld.timeUtcOffsetS) 2 ++ beBytes 0 1 ++ beBytes 128 1 ++
  beBytes a.clockClass 1 ++ beBytes a.accuracy 1 ++ beBytes (Config.ptpVariance s.uncPs).toNat 2 ++ beBytes 128 1 ++ id ++ beBytes 0 2 ++
  beBytes a.source 1

/-- STEP_ANNOUNCE (R301): after a step of x ps a grandmaster sends an Announce at once on every master port, through OUTU; under 802.1AS
timeBaseIndicator advances and lastGmPhaseChange is the step. -/
def State.stepAnnounce (s : State) (x : Int) : State :=
  if s.get Fld.timeServoSrc ≠ 0 then s
  else
    let gptp := s.get Fld.netPtpProfile = 2
    let c := s.clock
    let s : State := if gptp then { s with clock := { c with timeBase := (c.timeBase + 1) % 65536, gmPhase := x } } else s
    let q := s.get Fld.netHubOutu
    let s := ((List.range 4).filter fun k => s.netPort k = 2 && s.getB Fld.netPortPtpEn k).foldl (fun s k =>
      if 32 ≤ q ∧ q < 40 then (s.qPush q (leBytes (2 ^ k) 1 ++ leBytes 0 7 ++ s.announceFrame k)).2 else s) s
    { s with clock := { s.clock with annSeq := (s.clock.annSeq + 1) % 65536 } }

/-! ### Frames from the hub (R294-R296; 13 R332) -/

/-- A hub-out frame leaves port j: padded, stamped, with a one-step origin timestamp and its return item where they are asked for. -/
def State.hubSend (s : State) (opts tag : Nat) (f : List Byte) (subs : List Nat) (j : Nat) : State :=
  let ptp := ptpAt (s.getB Fld.netPtpUdp) f
  let event := match ptp with
    | some (p, _) => decide (beAt f p 1 % 16 < 4)
    | none => false
  let t := s.stampAt (subs.getD j 0) (s.txLat j)
  let stamped := event && s.stamps j
  let s := if stamped then s.bump Fld.netCntpStamped j else s
  let f := match ptp with
    | some (p, udp) =>
      if stamped ∧ bitOf opts 4 then
        let ns := t / 65536
        let g := ptpPatch f (p + 34) (beBytes (ns / 1000000000) 6 ++ beBytes (ns % 1000000000) 4) udp
        addCorrection g p udp (t % 65536 : Nat)
      else f
    | none => f
  let f := f ++ List.replicate (60 - f.length) 0
  let s := s.netSend j f
  if bitOf opts 5 then
    let item := s.hubIn 2 j (if stamped then some t else none) tag
    { s with net := { s.net with returns := s.net.returns ++ [⟨item⟩] } }
  else s

/-- HUB_FRAME_TX (R294): the switch pops the oldest item it sees on OUTG or OUTU; a marker is discarded, and so is a frame the claim stage
withholds (13 Table 13.5); stop commands are dropped and counted. -/
def execHubFrameTx (gated : Bool) (subs : List Nat) (s : State) : Result :=
  let q := s.get (if gated then Fld.netHubOutg else Fld.netHubOutu)
  if q < 32 ∨ 40 ≤ q then .next s
  else match s.qPop q with
    | (none, s) => .next s
    | (some it, s) =>
      let opts := descAt it.body 0 1
      let f := it.body.drop 8
      if it.gap then .next s
      else if !s.holding ∧ (gated ∨ s.getB Fld.claimCfgOutu) then .next s
      else if etherType f = 0x88B5 then .next (s.bump Fld.netCntbBelldrop)
      else .next (((List.range 4).filter fun j => bitOf opts j && s.netPort j = 2).foldl
        (fun s j => s.hubSend opts (descAt it.body 2 2) f subs j) s)

/-- TX_TIMESTAMP_RETURN (R295). -/
def execTxTimestampReturn (s : State) : Result :=
  match s.net.returns with
  | [] => .next s
  | r :: rest => .next ({ s with net := { s.net with returns := rest } }.pushIn r.item)

end Sys2Proof.Machine
end

