-- ==== Sys2Proof/Machine/Kettle.lean ====
section
/-! DEFINITION. The Kettle (spec/19_kettle_clocks_health.md): rails, voltage scaling, clocks, islands, sleep, monitors, power fail; and the
scrub of the Granary (01 R39). -/

namespace Sys2Proof.Machine

/-! ### Rails (R441-R443, Table 19.1) -/

/-- The rail of a step. -/
def stepRail (n : Nat) : Nat := n + 1

/-- Turns a rail on or off. -/
def State.railSet (s : State) (j : Nat) (on : Bool) : State :=
  { s with kettle := { s.kettle with railsOn := BitVec.ofNat 9 (setBit s.kettle.railsOn.toNat j on) } }

/-- Begins the power-up sequence with the given steps; the device is held in reset while it is incomplete. -/
def State.railsBegin (s : State) (steps : List Nat) : State :=
  if steps = [] then s
  else ({ s with kettle := { s.kettle with seq := steps, retry := false, offList := [] } } : State).holdReset .rails

/-- The steps that the rails now off need. -/
def State.stepsDue (s : State) : List Nat := ((List.range 7).map (· + 1)).filter fun n => !s.kettle.railsOn.getLsbD (stepRail n)

/-- Turns off the first rail of a list; the rest wait (R442). -/
def State.railsOff (s : State) (l : List Nat) : State :=
  match l with
  | [] => { s with kettle := { s.kettle with offList := [] } }
  | j :: rest => ({ s with kettle := { s.kettle with offList := rest } } : State).railSet j false

/-- POWER_SEQUENCE_START (R441): the always-on rails have been good for 1 ms. -/
def execPowerSequenceStart (s : State) : Result :=
  if .rails ∈ s.kettle.holds ∧ s.kettle.seq = [] ∧ !s.kettle.retry ∧ s.kettle.device = .none then .next (s.railsBegin s.stepsDue) else .next s

/-- RAIL_POWER_GOOD (R441): the present step's rail is good, and the next step follows. -/
def execRailPowerGood (s : State) : Result :=
  match s.kettle.seq with
  | n :: rest =>
    let s := ({ s with kettle := { s.kettle with seq := rest } } : State).railSet (stepRail n) true
    .next (if rest = [] then s.freeReset .rails else s)
  | [] => .next s

/-- RAIL_STEP_TIMEOUT (R441): a step has not reached power-good within 10 ms; every rail is turned off in reverse order. -/
def execRailStepTimeout (s : State) : Result :=
  match s.kettle.seq with
  | n :: _ =>
    let s := s.raise 0x3C06 (stepRail n)
    let s := s.railSet (stepRail n) true
    let on := ((List.range 7).reverse.map (· + 2)).filter fun j => s.kettle.railsOn.getLsbD j
    .next (({ s with kettle := { s.kettle with seq := [], retry := true } } : State).railsOff on)
  | [] => .next s

/-- SEQUENCE_RETRY (R441): 100 ms after a failed sequence. -/
def execSequenceRetry (s : State) : Result :=
  if s.kettle.retry then .next (s.railsBegin s.stepsDue) else .next s

/-- RAIL_OFF_STEP (R442): the rail turned off last has fallen, or 5 ms have passed. -/
def execRailOffStep (s : State) : Result :=
  match s.kettle.offList with
  | [] => .next s
  | l => .next (s.railsOff l)

/-- One poll of every sequenced regulator, rails 2 to 8 in order (R443). -/
def State.pmbusPoll (s : State) (polls : List RailPoll) : State :=
  (polls.zipIdx.map fun p => (p.2 + 2, p.1)).foldl (fun s x =>
    let j := x.1
    if !s.kettle.railsOn.getLsbD j ∨ 8 < j then s
    else
      let m := if x.2.ack then 0 else Map.getD s.kettle.missed j 0 + 1
      let s : State := { s with kettle := { s.kettle with missed := Map.put s.kettle.missed j m } }
      let s := if m = 3 then s.raise 0x3C87 j else s
      if x.2.ack ∧ x.2.faulty then s.raise 0x3C83 j else s) s

/-- PMBUS_POLL (R443). -/
def execPmbusPoll (polls : List RailPoll) (s : State) : Result := .next (s.pmbusPoll polls)
/-- PMALERT (R443): PMALERT_N low prompts an immediate poll. -/
def execPmalert (polls : List RailPoll) (s : State) : Result := .next (s.pmbusPoll polls)

/-! ### THROTTLE and voltage scaling (R444, R445, R457) -/

/-- STATE.THROTTLE follows its causes. -/
def State.throttleFollow (s : State) : State :=
  s.setB Fld.kettleStateThrottle (s.kettle.thermThrottle || s.getB Fld.kettleStateAvslim)

/-- The lowest counted code and its monitor. -/
def lowestCode (codes : List (Option Nat)) : Option (Nat × Nat) :=
  codes.zipIdx.foldl (fun best p =>
    match p.1, best with
    | some c, some (b, i) => if c < b then some (c, p.2) else some (b, i)
    | some c, none => some (c, p.2)
    | none, b => b) none

/-- An AVS step is issued, 50 us after the last island grant at the soonest (R445); one that the next cycle would have to issue waits for a
later reading. -/
def State.avsStep (s : State) (mv : Nat) : State :=
  match s.reachUs (match s.kettle.grantUs with
    | some t => t + 50
    | none => 0) with
  | some s => { s.set Fld.kettleVcoreMv mv with kettle := { s.kettle with stepUs := some s.us } }
  | none => s

/-- AVS_READ (R444): a code is given for each monitor that is counted; VDD_CORE rises by 10 mV at once, or falls by 5 mV after ten readings. -/
def execAvsRead (codes : List (Option Nat)) (s : State) : Result :=
  match lowestCode codes with
  | none => .next s
  | some (c, i) =>
    let s := (s.set Fld.kettlePmonMin c).set Fld.kettlePmonIndex i
    let mv := s.get Fld.kettleVcoreMv
    if !s.getB Fld.kettleAvsEn then
      .next (({ s with kettle := { s.kettle with avsHigh := 0 } }.set Fld.kettleVcoreMv 850).setB Fld.kettleStateAvslim false).throttleFollow
    else if c < s.get Fld.kettleAvsPmMin then
      let s : State := { s with kettle := { s.kettle with avsHigh := 0 } }
      if mv < 850 then .next (s.avsStep (min 850 (mv + 10)))
      else if s.getB Fld.kettleStateAvslim then .next s
      else .next ((s.raise 0x3C84).setB Fld.kettleStateAvslim true).throttleFollow
    else
      let s := (s.setB Fld.kettleStateAvslim false).throttleFollow
      let high := if s.get Fld.kettleAvsPmTgt + 16 < c then s.kettle.avsHigh + 1 else 0
      if 10 ≤ high ∧ !s.getB Fld.kettleStatePfw then
        .next (({ s with kettle := { s.kettle with avsHigh := 0 } } : State).avsStep (max 650 (mv - 5)))
      else .next { s with kettle := { s.kettle with avsHigh := high } }

/-! ### Reference clock and root PLL (R446, R447) -/

/-- Chest writes in progress when power goes: how many of the list became durable is a free value; none is mixed (02 R58). -/
def State.chestCut (s : State) (l : List (Nat × Word)) (most : Nat) : State :=
  let (n, s) := s.draw
  (l.take (n % (min most l.length + 1))).foldl (fun s p => s.chestSet p.1 p.2) s

/-- The Chest writes of which one may be in progress, by the order of CHEST_WRITE_DURABLE: the Keywell's, the Bell's reservation, the Tally's
save, and of the cores' queues one, which is open. -/
def State.chestHeads (s : State) : List (Nat × Word) × State :=
  let kw := if s.keywell.stopped then [] else s.keywell.steps.filterMap fun x => match x with
    | .write l v => some (l, v)
    | .burn _ => none
  let bell := if s.bell.resvDue then [(0x0208, BitVec.ofNat 64 (s.get Fld.bellResvValue))] else []
  let cores := (s.kernel.chestQ.take 1 ++ s.core2.chestQ.take 1) ++ s.core3.chestQ.take 1
  let (n, s) := s.draw
  ((kw.take 1 ++ bell ++ s.tally.save.take 1 ++ (cores.drop (n % max 1 cores.length)).take 1).take 1, s)

/-- REFCLK_LOST (R446): a Chest write in progress completes; the device is reset and stays so until REFCLK has been valid for 10 ms. -/
def execRefclkLost (s : State) : Result :=
  let (l, s) := s.chestHeads
  .next (((s.chestCut l 1).kettleReset 0x3C04).holdReset .refclk)
/-- REFCLK_VALID (R446). -/
def execRefclkValid (s : State) : Result := .next (s.freeReset .refclk)
/-- PLL_UNLOCK (R447): the device is reset, and the Kettle relocks from step 1 of the start sequence. -/
def execPllUnlock (s : State) : Result := .next (s.kettleReset 0x3C03)

/-! ### Islands (R448, R449) -/

/-- When the island queue may grant next (R445, R448), in us: 10 us after its last grant, and 50 us after an AVS step. -/
def State.grantDue (s : State) : Nat :=
  let after := fun (t : Option Nat) (d : Nat) => match t with
    | some t => t + d
    | none => 0
  max (after s.kettle.grantUs 10) (after s.kettle.stepUs 50)

/-- ISLAND_GRANT (R448, R450): the first request in the island queue is granted, unless PFW is asserted. -/
def execIslandGrant (s : State) : Result :=
  match s.kettle.islandQ with
  | i :: rest =>
    if s.getB Fld.kettleStatePfw then .next s
    else match s.reachUs s.grantDue with
      | none => .next s
      | some s => .next { s with kettle := { s.kettle with
          islandQ := rest, granted := s.kettle.granted ++ [i], grantUs := some s.us
          grantedUs := Map.put s.kettle.grantedUs (islandKey i) s.us } }
  | [] => .next s

/-- Sets the sleep state of an island and its ISLNAP bit. -/
def State.setSleep (s : State) (i : Island) (v : IslandSleep) : State :=
  let s : State := { s with kettle := { s.kettle with
    sleep := if v = .awake then Map.del s.kettle.sleep (islandKey i) else Map.put s.kettle.sleep (islandKey i) v } }
  s.setMask (islandNapBit i).1 (islandNapBit i).2 (v = .nap)

/-- The sleep state of an island. -/
def State.sleepOf (s : State) (i : Island) : IslandSleep := Map.getD s.kettle.sleep (islandKey i) .awake

/-- ISLAND_READY (R448): a granted island is on; what waited for it goes on. -/
def execIslandReady (i : Island) (s : State) : Result :=
  if i ∈ s.kettle.granted then
    let s : State := { s with kettle := { s.kettle with granted := s.kettle.granted.filter (· ≠ i) } }
    let s := (s.setMask (islandOnBit i).1 (islandOnBit i).2 true).setSleep i .awake
    .next (match i with
      | .engine n => s.engineJoin n.val
      | .quad q => s.quadReady q.val
      | _ => s)
  else .next s

/-- ISLAND_FAILED (R449): no ready within 50 us of the grant, or after a wake from NAP. -/
def execIslandFailed (i : Island) (s : State) : Result :=
  let due := if i ∈ s.kettle.granted then s.reachUs (50 + Map.getD s.kettle.grantedUs (islandKey i) 0)
    else if s.sleepOf i = .nap then some s else none
  match due with
  | none => .next s
  | some s =>
    let s : State := { s with kettle := { s.kettle with granted := s.kettle.granted.filter (· ≠ i) } }
    let s := (s.setMask (islandOnBit i).1 (islandOnBit i).2 false).setSleep i .awake
    let s := (s.setMask (islandFailBit i).1 (islandFailBit i).2 true).raise 0x3C05 (islandKey i)
    .next (match i with
      | .engine n => s.engineFail n.val
      | .quad q => s.correlStop q.val
      | .bank _ => s
      | .serdes l => if l.val < 4 then s.set Fld.netStatePort 3 l.val else s.linkDown)

/-- A 1 written to an ISLFAIL bit (R449): the bit clears, and the island is asked for again. -/
def State.islfailClear (s : State) (i : Island) : State :=
  if bitOf (s.get (islandFailBit i).1) (islandFailBit i).2 then
    (s.setMask (islandFailBit i).1 (islandFailBit i).2 false).askIsland i
  else s

/-- ISLFAIL_CLEAR (R449). -/
def execIslfailClear (i : Island) (s : State) : Result := .next (s.islfailClear i)

/-! ### Sleep of islands (R451-R454, R457, R458) -/

/-- The calendar's group and bit of an island: 1 engines, 2 banks. -/
def calBit : Island → Option (Nat × Nat)
  | .engine n => some (1, n.val)
  | .bank b => some (2, b.val)
  | _ => none

/-- The windows that name an island, by start and end. -/
def State.windowsOf (s : State) (i : Island) : List (Nat × Nat) :=
  match calBit i with
  | none => []
  | some (g, b) =>
    ((List.range 8).filter fun k => s.get Fld.kettleCalbGroup k = g && bitOf (s.get Fld.kettleCalbMask k) b).map fun k =>
      (s.get Fld.kettleCalaStartUs k, s.get Fld.kettleCalaEndUs k)

/-- Whether the present offset lies in a window that names the island. -/
def State.inWindow (s : State) (i : Island) : Bool :=
  let o := s.get Fld.sysPhaseOffsetUs
  (s.windowsOf i).any fun w => decide (w.1 ≤ o ∧ o < w.2)

/-- The gap to the island's next event in us; none where no window names it. -/
def State.calGap (s : State) (i : Island) : Option Nat :=
  let o := s.get Fld.sysPhaseOffsetUs
  ((s.windowsOf i).map fun w => if o < w.1 then w.1 - o else w.1 + 10000 - o).min?

/-- Whether an island is idle (R451): an engine in TAKE with nothing dispatchable; a bank's idle clocks are what the event says. -/
def State.islandIdle (s : State) (i : Island) : Bool :=
  match i with
  | .engine n => (s.node n.val).run = .taking && s.nextItem.isNone
  | .bank _ => true
  | _ => false

/-- Whether THROTTLE puts an engine in NAP (R457, R458). -/
def State.throttled (s : State) (i : Island) : Bool :=
  match i with
  | .engine n => s.getB Fld.kettleStateThrottle && decide (s.get Fld.kettleThermKeep ≤ n.val) && bitOf (s.get Fld.millEnableEnable) n.val &&
      (s.node n.val).run = .taking
  | _ => false

/-- The state that R451 chooses for an idle island. -/
def State.sleepChoice (s : State) (i : Island) : IslandSleep :=
  let lead := s.get Fld.kettleNapLeadUs
  let eng := match i with
    | .engine _ => true
    | _ => false
  let be := s.get (if eng then Fld.kettleBeBeMillUs else Fld.kettleBeBeBankUs)
  let nap := s.getB (if eng then Fld.kettleNapNapMill else Fld.kettleNapNapBank) && s.sysRunning
  let big := fun (n : Nat) => match s.calGap i with
    | some g => decide (n ≤ g)
    | none => true
  if nap && big be && big (60 + lead) then .nap
  else if big 10 && big (2 + lead) then .doze
  else .awake

/-- When a sleeping island is due to wake (R451): before its next window by the wake time of its state and LEAD_US; never, where no window
names it. -/
def State.setWake (s : State) (i : Island) (v : IslandSleep) : State :=
  let wake := if v = .nap then 60 else 2
  let m := match s.calGap i with
    | some g => Map.put s.kettle.wakeUs (islandKey i) (s.us + g - wake - s.get Fld.kettleNapLeadUs)
    | none => Map.del s.kettle.wakeUs (islandKey i)
  { s with kettle := { s.kettle with wakeUs := m } }

/-- ISLAND_SLEEP (R451-R454, R457, R460): an idle island outside its windows goes to DOZE or NAP. -/
def execIslandSleep (i : Island) (s : State) : Result :=
  let kept : Bool := match Map.find s.kettle.keepUntil (islandKey i) with
    | some t => decide (s.us < t)
    | none => false
  let held : Bool := match i with
    | .bank b => s.kettle.scrubHold.contains b.val
    | _ => false
  if !s.islandAwake i ∨ s.getB Fld.kettleStatePfw ∨ kept ∨ held then .next s
  else if s.throttled i then .next (((s.setSleep i .nap).bump Fld.kettleCntNaps).setWake i .nap)
  else if !s.islandIdle i ∨ s.inWindow i then .next s
  else
    let v := s.sleepChoice i
    let s := if v = .awake then s else (s.setSleep i v).setWake i v
    .next (if v = .nap then s.bump Fld.kettleCntNaps else s)

/-- ISLAND_WAKE (R451, R453): a sleeping island is awake again before its next window; while a step of site time is pending, 1 ms earlier. -/
def execIslandWake (i : Island) (s : State) : Result :=
  if s.sleepOf i = .awake then .next s
  else match (Map.find s.kettle.wakeUs (islandKey i)).bind fun t =>
      s.reachUs (t - if s.getB Fld.timeStateStepPending then 1000 else 0) with
    | none => .next s
    | some s => .next (s.setSleep i .awake)

/-- Whether an engine is the one that demand wakes (R452): an item above background is dispatchable, no awake engine waits in TAKE, and it
is the lowest-numbered sleeping enabled engine. -/
def State.engineWanted (s : State) (n : Nat) : Bool :=
  let wanted := match s.nextItem with
    | some k => decide (((s.item k).getD {}).cls < 3)
    | none => false
  let free := allEngines.any fun k => (s.node k.val).run = .taking && s.islandAwake (.engine k)
  let asleep := fun (k : Fin 24) => s.sleepOf (.engine k) ≠ .awake && bitOf (s.get Fld.millEnableEnable) k.val &&
    !(s.getB Fld.kettleStateThrottle && decide (s.get Fld.kettleThermKeep ≤ k.val))
  wanted && !free && ((allEngines.find? asleep).map fun k => k.val) = some n

/-- DEMAND_WAKE (R452): a demand-woken island is kept awake for its break-even time. -/
def execDemandWake (i : Island) (s : State) : Result :=
  let (ok, be) : Bool × Nat := match i with
    | .engine n => (s.engineWanted n.val, if s.sleepOf i = .nap then s.get Fld.kettleBeBeMillUs else 10)
    | .bank _ => (true, if s.sleepOf i = .nap then s.get Fld.kettleBeBeBankUs else 10)
    | _ => (false, 0)
  if ok ∧ s.sleepOf i ≠ .awake then
    let s := (s.setSleep i .awake).bump Fld.kettleCntDemand
    let s := s.warnOnce 0x3C85 0 (islandKey i)
    .next { s with kettle := { s.kettle with keepUntil := Map.put s.kettle.keepUntil (islandKey i) (s.us + be) } }
  else .next s

/-! ### Scrub (01 R39; R454) -/

/-- SCRUB_PASS_COMPLETE (01 R38, R39): a pass over all banks that are on ends; it has read every word of theirs. -/
def execScrubPassComplete (us : Nat) (s : State) : Result :=
  let read := fun w => !s.bankOff (w * 8) 8 && s.sleepOf (.bank (Fin.ofNat 16 (w / 0x80000))) = .awake
  let s := match (s.poisoned.filter fun w => decide (w * 8 < 0x4000000) && read w).getLast? with
    | some w => s.eccBad (w * 8) 8
    | none => s
  let s := s.eccFix read
  let s := (s.set Fld.granaryScrubLastPassUs (min 0xFFFFFF us)).bump Fld.granaryScrubPasses
  .next { s with kettle := { s.kettle with scrubHold := [] } }

/-- SCRUB_LATE (01 R39): a pass exceeds 100 ms. -/
def execScrubLate (bank : Fin 16) (s : State) : Result := .next ((s.setB Fld.granaryEccLate true).raise 0x0802 bank.val)

/-- SCRUB_BANK_WAKE (R454): a bank has gone 50 ms without a scrub; it is woken, or kept awake, until the scrub has covered it. -/
def execScrubBankWake (bank : Fin 16) (s : State) : Result :=
  let s := if s.sleepOf (.bank bank) = .awake then s else s.setSleep (.bank bank) .awake
  .next { s with kettle := { s.kettle with scrubHold := insertLine s.kettle.scrubHold bank.val } }

/-! ### Sleep of the device (R455, R456) -/

/-- The live WAKE time, TAI seconds. -/
def State.wakeTime (s : State) : Nat := s.get Fld.kettleWakeloSeconds + s.get Fld.kettleWakehiSeconds * 2 ^ 32

/-- The live RESUME address. -/
def State.resumeAddr (s : State) : Nat := s.get Fld.kettleResumeloAddrLo * 4 + s.get Fld.kettleResumehiAddrHi * 2 ^ 32

/-- Whether WAKE lies at least some seconds ahead. -/
def State.wakeIn (s : State) (sec : Nat) : Bool := decide (s.site.total + sec * 1000000000 ≤ s.wakeTime * 1000000000)

/-- The state that SLEEP chooses, if any (R455). -/
def State.sleepDepth (s : State) : DeviceSleep :=
  match s.get Fld.kettleSleepcfgDepth with
  | 0 => if s.wakeIn 120 then .anchor else if s.wakeIn 2 then .rest else .none
  | 1 => if s.wakeIn 2 then .rest else .none
  | 2 => if s.wakeIn 120 then .anchor else .none
  | _ => .none

/-- Whether SLEEP is refused (R455). -/
def State.sleepRefused (s : State) (d : DeviceSleep) : Bool :=
  d = .none || s.get Fld.claimStateStage ≠ 0 || s.getB Fld.tallyStateRunning || s.keywell.steps ≠ [] || s.boot.reqs ≠ [] ||
  s.getB Fld.kettleStatePfw || (d = .rest && !(s.getB Fld.kettleResumehiValid && inGranary s.resumeAddr 4))

/-- The rails that a sleep turns off, in reverse step order (Tables 19.1 and 19.2). -/
def sleepRails (d : DeviceSleep) : List Nat := if d = .rest then [6, 5, 3, 2] else [8, 7, 6, 5, 4, 3, 2]

/-- SLEEP at depth `d` (R455, R456): everything halts, CSTOP0 to CSTOP3 fall, and the rails not kept are turned off; what the wake will find
is the state of 15 R367 with the memories, the running bundle and the site time that are kept (log 67). -/
def State.sleepEnter (s : State) (d : DeviceSleep) : State :=
  let t := s.deviceReset 4 0x3C88
  let t : State := { t with site := s.site, mem := if d = .rest then s.mem else s.mem.filter (fun c => regionOf c.1 = .flash) }
  let t : State := { t with boot := { t.boot with manifest := if d = .rest then s.boot.manifest else [] } }
  let t := ((t.set Fld.bootStateSlot (s.get Fld.bootStateSlot)).set Fld.bootSecverValue (s.get Fld.bootSecverValue)).set
    Fld.bootBundleValue (s.get Fld.bootBundleValue)
  let t : State := { t with kettle := { t.kettle with
    device := d, wakeAt := s.wakeTime, wakePins := s.get Fld.kettleSleepcfgWakegpio, resume := s.resumeAddr } }
  let t := (t.set Fld.kettleStateDevice 1).holdReset .sleep
  t.railsOff (sleepRails d)

/-- SLEEP at the depth that SLEEPCFG asks for (R455), unless it is refused. -/
def State.sleepDevice (s : State) : State :=
  if s.sleepRefused s.sleepDepth then s.raise 0x3C02 else s.sleepEnter s.sleepDepth

/-- SLEEP (R455). -/
def execSleep (s : State) : Result := .next s.sleepDevice

/-- The device wakes (R456): rails that are off are brought up again, site time resumes with ANCHORED set. -/
def State.wakeDevice (s : State) : State :=
  let s := (s.set Fld.kettleStateDevice 0).freeReset .sleep
  let s := (s.setB Fld.timeStateAnchored true).railsBegin s.stepsDue
  { s with kettle := { s.kettle with offList := [] } }

/-- DEVICE_WAKE (R456): at WAKE − 5 ms for REST, or WAKE − 200 ms for ANCHOR. -/
def execDeviceWake (s : State) : Result :=
  let d := s.kettle.device
  if d = .none ∨ .sleep ∉ s.kettle.holds then .next s
  else
    let ns := s.kettle.wakeAt * 1000000000 - (if d = .rest then 5000000 else 200000000)
    let s : State := { s with site := { sec := ns / 1000000000, ns := ns % 1000000000 } }
    .next s.wakeDevice

/-- WAKE_GPIO (R456): a level change of GPIO8 + pin; how long the device has slept is what the site time counter kept, a free value. -/
def execWakeGpio (pin : Fin 8) (s : State) : Result :=
  if s.kettle.device = .none ∨ .sleep ∉ s.kettle.holds ∨ !bitOf s.kettle.wakePins pin.val then .next s
  else
    let (n, s) := s.draw
    .next { s with site := s.site.addPs n }.wakeDevice

/-- RESET_ASSERT (15 R366; R456): RESET_N falls; a sleeping device wakes on it. -/
def execResetAssert (s : State) : Result :=
  let asleep := decide (.sleep ∈ s.kettle.holds)
  let t := (s.deviceReset 1).holdReset .pin
  .next (if asleep then (t.freeReset .sleep).railsBegin t.stepsDue else t)

/-- RESET_RELEASE (15 R366; R456): RESET_N is high and nothing holds the device in reset: the start sequence runs, or, after a REST, the
self-tests and the entry at RESUME.  `lockstep` is what the ROM's lockstep self-test finds (02 R45), `ok` what the tests of step 4 find. -/
def execResetRelease (lockstep ok partialFuse copyOk : Bool) (s : State) : Result :=
  let s := s.freeReset .pin
  .next (if !s.kettle.inReset ∨ s.kettle.holds ≠ [] ∨ s.boot.recovery ∨ s.lockstepStopped then s
    else if !lockstep then s.lstepSelftest false
    else if s.kettle.device = .rest then (if ok then s.startWords.enterKernel s.kettle.resume else s.startWords.kwSelftest false)
    else s.startSequence ok partialFuse copyOk)

/-! ### Thermal monitor (R457) -/

/-- Whether a threshold in °C is in force, with 5 °C of hysteresis on the way down. -/
def threshold (was : Bool) (temp : Int) (c : Nat) : Bool := if was then decide ((c : Int) * 16 - 80 ≤ temp) else decide ((c : Int) * 16 ≤ temp)

/-- The highest of the sensors, and which it is. -/
def hottest (temps : List (BitVec 16)) : Int × Nat :=
  temps.zipIdx.foldl (fun best p => if best.1 < p.1.toInt then (p.1.toInt, p.2) else best) (-32769, 0)

/-- The sensors' words. -/
def State.tempWords (s : State) (temps : List (BitVec 16)) : State :=
  let (m, i) := hottest temps
  let s := (List.range 8).foldl (fun s k =>
    (s.set Fld.kettleTempTempLo (temps.getD (2 * k) 0).toNat k).set Fld.kettleTempTempHi (temps.getD (2 * k + 1) 0).toNat k) s
  (s.set Fld.kettleTmaxTemp (unsigned 16 m)).set Fld.kettleTmaxSensor i

/-- The fixed shutdown temperature by grade (Table 19.3). -/
def State.shutdownC (s : State) : Nat := if s.getB Fld.sysIdentGrade then 135 else 120

/-- THERMAL_SAMPLE (R457): 16 sensors against the thresholds of Table 19.3. -/
def execThermalSample (temps : List (BitVec 16)) (s : State) : Result :=
  let s := s.tempWords temps
  let m := (hottest temps).1
  let s := if .temperature ∈ s.kettle.holds ∧ m < (s.get Fld.kettleThermWarnC : Int) * 16 then s.freeReset .temperature else s
  if (s.shutdownC : Int) * 16 ≤ m then
    if s.kettle.inReset then .next (s.holdReset .temperature)
    else .next (((s.kettleReset 0x3C08).tempWords temps).holdReset .temperature)
  else
    let k := s.kettle
    let w := threshold k.thermWarn m (s.get Fld.kettleThermWarnC)
    let t := threshold k.thermThrottle m (s.get Fld.kettleThermThrC)
    let c := threshold k.critHold m (s.get Fld.kettleThermCritC)
    let s : State := { s with kettle := { k with thermWarn := w, thermThrottle := t, critHold := c, critUs := if k.critHold then k.critUs else s.us } }
    let s := if w && !k.thermWarn then s.raise 0x3C81 (hottest temps).2 else s
    let s := if t && !k.thermThrottle then s.raise 0x3C82 (hottest temps).2 else s
    let s := if c && !k.critHold then s.raise 0x3C07 (hottest temps).2 else s
    .next s.throttleFollow

/-- CRIT_HOLD_EXPIRE (R457): CRITHOLD_MS have passed and TMAX is still at or above CRIT_C. -/
def execCritHoldExpire (s : State) : Result :=
  if !s.kettle.critHold then .next s
  else match s.reachUs (1000 * s.get Fld.kettleCritholdMs + s.kettle.critUs) with
    | none => .next s
    | some s => .next (s.kettleReset 0x3C07)

/-! ### Rail monitor (R459) -/

/-- The nominal value of a rail in mV (Table 19.1). -/
def State.nominal (s : State) (j : Nat) : Nat :=
  if j = 5 then s.get Fld.kettleVcoreMv else [800, 3300, 1800, 1800, 800, 850, 850, 1050, 500].getD j 0

/-- Whether a voltage lies outside a band of `pm` per mille around its nominal. -/
def outside (mv nom pm : Nat) : Bool := decide (mv * 1000 < nom * (1000 - pm) ∨ nom * (1000 + pm) < mv * 1000)

/-- One rail's sample: its words, and the warning after ten samples outside 3 %. -/
def State.railSample (s : State) (j mv : Nat) : State :=
  let out := outside mv (s.nominal j) 30
  let n := if out then Map.getD s.kettle.railOut j 0 + 1 else 0
  let s := s.set Fld.kettleVmonMv mv j
  let s : State := { s with kettle := { s.kettle with railOut := Map.put s.kettle.railOut j n } }
  if n = 10 then (s.setB Fld.kettleVmonWarn true j).raise 0x3C83 j
  else if n = 0 then s.setB Fld.kettleVmonWarn false j
  else s

/-- RAIL_SAMPLE (R459): each rail that is on; outside 6 % the device is reset and held until the rail is back, or until R441 has run again. -/
def execRailSample (mv : List Nat) (s : State) : Result :=
  let on := (mv.zipIdx.map fun p => (p.2, p.1)).filter fun p => decide (p.1 < 9) && s.kettle.railsOn.getLsbD p.1
  let s := on.foldl (fun s p => s.railSample p.1 p.2) s
  let back := on.all fun p => decide (2 ≤ p.1) || !outside p.2 (s.nominal p.1) 30
  let s := if back then s.freeReset .band else s
  match on.find? fun p => outside p.2 (s.nominal p.1) 60 with
  | none => .next s
  | some (j, _) =>
    if s.kettle.inReset then .next s
    else
      let s := s.kettleReset 0x3C06
      .next (if j < 2 then s.holdReset .band else s.railsBegin ((List.range 7).map (· + 1)))

/-! ### Power fail (R460, R461; 02 R58) -/

/-- PFW_ASSERT (R460): the Tally flushes, the Keywell stops, queued program Chest writes are discarded; grants, lowering steps and island
sleep stop while STATE.PFW is 1. -/
def execPfwAssert (s : State) : Result :=
  if s.getB Fld.kettleStatePfw ∨ (!s.getB Fld.kettlePfwPinEn ∧ !s.getB Fld.kettlePfwSenseEn) then .next s
  else
    let s := (s.setB Fld.kettleStatePfw true).tallyFlush
    let drop := fun (h : HubCore) => { h with chestQ := [], chestLost := h.chestLost || !h.chestQ.isEmpty }
    let s : State := { s with kernel := drop s.kernel, core2 := drop s.core2, core3 := drop s.core3 }
    .next ({ s with keywell := { s.keywell with stopped := true }, kettle := { s.kettle with pfwUs := s.us } }.raise 0x3C86)

/-- PFW_RELEASE (R461, 18 R434). -/
def execPfwRelease (s : State) : Result :=
  .next (if s.getB Fld.kettleStatePfw then (s.setB Fld.kettleStatePfw false).tallyResume else s)

/-- PFW_RESET (R461): PFW has stayed asserted for PFW_RESET_US. -/
def execPfwReset (s : State) : Result :=
  if !s.getB Fld.kettleStatePfw then .next s
  else match s.reachUs (s.kettle.pfwUs + s.get Fld.kettlePfwPfwResetUs) with
    | none => .next s
    | some s => .next (((s.kettleReset 0x3C09).setB Fld.kettleStatePfw true).holdReset .pfw)

/-- PFW_RESET_HOLD_END (R461): PFW has been released for 10 ms. -/
def execPfwResetHoldEnd (s : State) : Result := .next (if s.getB Fld.kettleStatePfw then s else s.freeReset .pfw)

/-- POWER_LOSS (02 R58, 18 R435; R462): the supply is lost; what was written durably stays, CAUSE is cleared by the loss of VDD_AON, and the
memories keep only the flash. -/
def execPowerLoss (s : State) : Result :=
  let (l, s) := s.chestHeads
  let s := s.chestCut l 1
  let s := s.chestCut s.tally.flush s.tally.flush.length
  let t := s.deviceReset 0
  let t : State := { t with mem := t.mem.filter (fun c => regionOf c.1 = .flash) }
  let t : State := { t with kettle := { t.kettle with railsOn := 0, seq := [], retry := false, offList := [], holds := [] } }
  .next ((t.set Fld.kettleCauseCode 0).holdReset .rails)

/-! ### Applies (R463) -/

/-- Whether KETTLE's staged set passes. -/
def kettleApplyOk (s : State) : Bool :=
  let g := fun (f : Fld) (i : Nat) => s.getStaged f i
  let within := fun (f : Fld) (lo hi : Nat) => decide (lo ≤ g f 0 ∧ g f 0 ≤ hi)
  ((List.range 8).all fun k => !s.changed Blk.kettle .gCal (some k) ||
    (decide (g Fld.kettleCalaStartUs k < g Fld.kettleCalaEndUs k ∧ g Fld.kettleCalaEndUs k ≤ 10000) &&
      decide (g Fld.kettleCalbGroup k ≤ 2) && (g Fld.kettleCalbGroup k ≠ 0 || g Fld.kettleCalbMask k = 0) &&
      (g Fld.kettleCalbGroup k ≠ 2 || decide (g Fld.kettleCalbMask k < 65536)))) &&
  (!s.changed Blk.kettle .gNap none ||
    (within Fld.kettleNapLeadUs 1 200 && within Fld.kettleBeBeMillUs 60 60000 && within Fld.kettleBeBeBankUs 60 60000)) &&
  (!s.changed Blk.kettle .gAvs none ||
    decide (g Fld.kettleAvsPmMin 0 < g Fld.kettleAvsPmTgt 0 ∧ g Fld.kettleAvsPmTgt 0 ≤ 1000)) &&
  (!s.changed Blk.kettle .gTherm none ||
    (decide (g Fld.kettleThermWarnC 0 < g Fld.kettleThermThrC 0 ∧ g Fld.kettleThermThrC 0 < g Fld.kettleThermCritC 0) &&
      decide (g Fld.kettleThermCritC 0 ≤ if s.getB Fld.sysIdentGrade then 125 else 110) && within Fld.kettleThermKeep 1 24 &&
      decide (1 ≤ g Fld.kettleCritholdMs 0))) &&
  (!s.changed Blk.kettle .gPfw none || (within Fld.kettlePfwPfwThMv 400 790 && decide (20 ≤ g Fld.kettlePfwPfwResetUs 0))) &&
  (!s.changed Blk.kettle .gSleep none || g Fld.kettleSleepcfgDepth 0 ≠ 3)

end Sys2Proof.Machine
end

