-- ==== Sys2Proof/Machine/Cycle.lean ====
section
/-! DEFINITION. The fleet cycle (00 R19, 01 R28-R35): the boundary, the phases, the gate deadline and the site time step. -/

namespace Sys2Proof.Machine

/-! ### Time at a boundary (R19, R33) -/

/-- The rest of the present cycle passes: its boundary is the first NET clock at which the counter stands at it or beyond (R19, R303); in a
stepped cycle (R33) that is where the step has brought it, or the instant at which the counter reaches it again. -/
def State.toBoundary (s : State) : State := s.pass (s.clocksTo (rawOfPs s.boundaryPs))

/-- The phase of an offset (Table 1.5). -/
def phaseOf (us : Nat) : Nat := if us < 2000 then 0 else if us < 6000 then 1 else if us < 8000 then 2 else 3

/-- A step of x ps while the cycle timer runs (R33, R308): it is taken at the end of a cycle that ends at a whole second S.  A positive step
takes the counter from S - x to S; a negative one takes it from S back, and the boundary comes when it reaches S again. -/
def State.stepRunning (s : State) (x : Int) : State :=
  let s := s.passInCycle (s.clocksTo (rawOfPs (s.boundaryPs - x.toNat)))
  let s := ({ s with stepping := true } : State).takeStep x
  { s with corr := { s.corr with stepSec := some (s.boundaryPs / 1000000000000) } }

/-- A step of x ps in PRECYCLE (R308, 15 R376): the whole remainder at one whole second, in the same way; the cycle number and the phase
follow R19 from what the counter then reads. -/
def State.stepPrecycle (s : State) (x : Int) : State :=
  let at' := (s.site.ps + x.toNat + 999999999999) / 1000000000000 * 1000000000000
  let s := (s.pass (s.clocksTo (rawOfPs (at' - x.toNat)))).takeStep x
  let from' := if 0 < x then at' - 10000000000 else s.site.ps / 10000000000 * 10000000000
  let s : State := { s with stepping := true, cyclePs := from', cycleStep := 0
                            corr := { s.corr with stepSec := some (at' / 1000000000000) } }
  let off := min 10999 ((s.site.ps - from') / 1000000)
  let n := if 0 < x then unsigned 32 ((s.siteCycle : Int) - 1) else s.siteCycle
  ((s.set Fld.sysCycleNumber n).set Fld.sysPhaseOffsetUs off).set Fld.sysPhasePhase (phaseOf off)

/-- SITE_TIME_STEP (R33, R308, 12 R301). -/
def execSiteTimeStep (s : State) : Result :=
  let x := s.stepPart
  .next (if x = 0 ∨ s.stepping then s
    else if !s.sysRunning then (s.stepPrecycle x).stepAnnounce x
    else if s.endsSecond then (s.stepRunning x).stepAnnounce x
    else s)

/-! ### Sequencers at the boundary (03 R83, Table 3.9) -/

/-- Resolves the relative actions of a sequencer, in arming order: each takes its absolute time, unless it lands on the target, kind group
and clock of one already armed; then it is dropped with DROPPED (R83).  Of an absolute action armed later than the relative one, too, it
is the relative one that is dropped (DESIGN CHOICE, log 267). -/
def Sequencer.resolve (x : Sequencer) (base : Nat) : Sequencer :=
  let rel := (x.slots.filter fun p => p.2.rel).mergeSort fun a b => decide (a.2.order ≤ b.2.order)
  rel.foldl (fun x p =>
    let a : Action := { p.2 with rel := false, time := (base + p.2.time) % 2 ^ 32 }
    if x.slots.any fun q => !q.2.rel && q.2.conflicts a then
      { x with slots := Map.del x.slots p.1, evpend := setBit x.evpend 17 true }
    else { x with slots := Map.put x.slots p.1 a }) x

/-- The sequencers at a boundary: relative actions resolve, and the boundary event is pending. -/
def State.seqBoundary (s : State) : State :=
  (List.range 8).foldl (fun s q =>
    let x := (s.seq q).resolve (s.cycbase q)
    s.setSeq q (if x.active then { x with evpend := setBit x.evpend 14 true } else x)) s

/-! ### The boundary and the phases (R19, R28-R35) -/

/-- SYS's words at a boundary, and what is counted once per cycle. -/
def State.newCycle (s : State) : State :=
  let n := if s.sysRunning then nextCycle s.cycle else s.siteCycle
  let s := ((s.set Fld.sysCycleNumber n).set Fld.sysPhasePhase 0).set Fld.sysPhaseOffsetUs 0
  let s := (s.setB Fld.sysReleaseGate false).set Fld.sysReleaseAckUs 0xFFFF
  let s : State := { s with cyclePs := s.site.ps / 10000000000 * 10000000000, cycleRoots := s.roots }
  { s with
    stepping := false, overrunRaised := false
    cycleStep := if s.sysRunning ∧ s.endsSecond then clampInt 1000000000 s.servo.step else 0
    decant := { s.decant with lockRaised := false } }.unpendAll 4 |>.unpendAll 3 |>.pendAll 0

/-- The pair at a boundary; a unit that takes the station over restores and aligns its corrections (07 R188) and starts a new stop episode (10, second
voice). -/
def State.stationBoundary (s : State) : State :=
  let was := s.pair
  let s := s.pairBoundary
  if was = 5 ∧ (s.pair = 2 ∨ s.pair = 3) then
    let s := s.corrRestore
    if s.get Fld.bellStateState = 1 ∨ s.get Fld.bellStateState = 2 then s.newEpisode else s
  else s

/-- What only a whole second does: the age of the last calibration, the residuals of the second, BOOT.SERVICE and a CYCSTART. -/
def State.secondBoundary (s : State) : State :=
  if s.onSecond then s.calSecond.corrSecond.serviceSecond.cyclesBegin else s.serviceCycle

/-- A fleet-cycle boundary; `late` marks the antennas whose block will be late, `discards` what STATUS answers on each port. -/
def State.cycleBoundary (s : State) (late : BitVec 4) (discards : List Nat) : State :=
  let opened := s.gateOpen
  let stepped := s.stepping
  let s := (s.toBoundary.corrReleased opened).newCycle
  let s := (s.mboxRelease opened).gatedRelease opened
  let s := s.seqBoundary.epochLatch.stationBoundary
  let s : State := { s with radio := { s.radio with gatePrev := opened } }
  ((s.radioBoundary discards).trackBoundary late stepped).corrSlips.reeveBoundary.secondBoundary

/-- CYCLE_BOUNDARY (R19). -/
def execCycleBoundary (late : BitVec 4) (discards : List Nat) (s : State) : Result := .next (s.cycleBoundary late discards)

/-- A phase starts at its offset (Table 1.5), with its interrupt source; that of the phase before is no longer pending (log 22). -/
def State.phaseStart (s : State) (phase off : Nat) : State :=
  (((s.moveTo off).set Fld.sysPhasePhase phase).unpendAll (phase - 1)).pendAll phase

/-- INGEST_CLOSE (R28, R29): the compute phase begins. -/
def execIngestClose (s : State) : Result :=
  let s := (s.phaseStart 1 2000).radioIngest
  .next (s.reeveComputeStart s.onSecond)

/-- Whether a positioning or planning item (Table 1.7) enqueued for the present cycle is unfinished: in its list or in service. -/
def State.workLeft (s : State) : Bool :=
  s.mill.items.any fun p => (p.2.cls = 1 || p.2.cls = 2) && (p.2.run = .ready || p.2.run = .service) && p.2.cycle = s.cycle

/-- COMPUTE_OVERRUN (R31), once per cycle. -/
def State.computeOverrun (s : State) : State :=
  if s.workLeft ∧ !s.overrunRaised then
    let s := (s.bump Fld.sysCountOverrun).raise 0x0181
    { s with overrunRaised := true }
  else s

/-- FREEZE (R30-R32). -/
def execFreeze (s : State) : Result :=
  .next (s.phaseStart 2 6000).computeOverrun.millFreeze.decantFreeze.reeveClose

/-- RELEASE_PHASE_START (R34): Decant has copied the frozen lines; in solo the gate opens (R6); the outputs of the cycle are armed. -/
def execReleasePhaseStart (s : State) : Result :=
  let s := (s.phaseStart 3 8000).decantCopied
  let s := if s.solo ∧ s.sysRunning then s.openGate else s
  .next s.restartYield.offerFrags.radioRelease

/-- RELEASE_WITHHELD (R35): the gate is shut at the deadline; in PAIRED the cycle counts as withheld. -/
def State.withhold (s : State) : State :=
  let s := ((s.raise 0x0101).set Fld.sysReleaseWithheld 1).bump Fld.sysCountWithheld
  let s : State := if s.pair = 3 then { s with pairing := { s.pairing with withheld := s.pairing.withheld + 1 } } else s
  s.pendAll 5

/-- GATE_DEADLINE (R35, 15 R376, 13 R322): a unit in SEEKING, SYNCING or INSYNC and one in PRECYCLE raises nothing. -/
def execGateDeadline (s : State) : Result :=
  let s := s.moveTo s.deadline
  .next (if s.sysRunning ∧ (s.pair = 0 ∨ s.pair = 2 ∨ s.pair = 3) ∧ !s.gateOpen then s.withhold else s)

end Sys2Proof.Machine
end

