-- ==== Sys2Proof/Machine/ControlWords.lean ====
section
/-! DEFINITION. The control word space as programs reach it (00 R7-R14, 02 R43, R54-R57, Table 2.11): reads, writes with their
triggers and clears, ownership, apply requests and the applies at their boundaries. -/

namespace Sys2Proof.Machine

/-! ### What a write does beside the staged copy (Table 0.3) -/

/-- Repeats an action for every set bit below `n`. -/
def State.eachBit (s : State) (v n : Nat) (g : State → Nat → State) : State :=
  (List.range n).foldl (fun s k => if bitOf v k then g s k else s) s

/-- Triggers of SYS, HUB, BOOT and the blocks of the Mill's domain. -/
def State.triggerHub (s : State) (f : Fld) : State :=
  if f = Fld.hubLstepSelftest then
    let (o, s) := s.draw
    s.lstepSelftest (o % 2 = 1)
  else if f = Fld.hubStartStart2 then s.coreStart .core2
  else if f = Fld.hubStartStart3 then s.coreStart .core3
  else if f = Fld.hubStartHalt2 then s.coreHalt .core2
  else if f = Fld.hubStartHalt3 then s.coreHalt .core3
  else if f = Fld.bootCtrlCycstart then s.cycStart
  else if f = Fld.bootCtrlReset then s.planRestart 2
  else if f = Fld.millCtrlRun then s.millRun
  else if f = Fld.millCtrlStop then s.millStop
  else if f = Fld.millCtrlRestore then s.millRestore
  else if f = Fld.millCtrlHwreset then s.millHwreset
  else if f = Fld.millInjectDoorbell then s.injectDoorbell
  else if f = Fld.reeveCtrlRun then s.reeveRun
  else if f = Fld.reeveCtrlStop then s.reeveStop
  else if f = Fld.reeveCtrlLoad then s.reeveLoad
  else if f = Fld.reeveCtrlRestore then s.reeveRestore
  else if f = Fld.reeveCtrlClear then s.reeveClear
  else s

/-- Triggers of the GNSS blocks. -/
def State.triggerGnss (s : State) (f : Fld) (i v : Nat) : State :=
  if f = Fld.gnssinCtrlRun then s.eachBit v 4 fun s a => s.antRun a
  else if f = Fld.gnssinCtrlStop then s.eachBit v 4 fun s a => s.antStop a
  else if f = Fld.gnssinCtrlAlign then s.eachBit v 4 fun s a => s.antAlign a
  else if f = Fld.gnssinAgcrefLearn then s.agcLearn i
  else if f = Fld.grinderCtrlRun then s.grRun
  else if f = Fld.grinderCtrlStop then s.grStop
  else if f = Fld.grinderCtrlDoorbell then s.grDoorbell
  else if f = Fld.correlCtrlRun then s.eachBit v 4 fun s a => s.correlRun a
  else if f = Fld.correlCtrlStop then s.eachBit v 4 fun s a => s.correlStop a
  else if f = Fld.correlCtrlCalnow then s.calNow
  else if f = Fld.gseqCtrlStart then s.eachBit v 4 fun s a => s.gseqStart a
  else if f = Fld.gseqCtrlHalt then s.eachBit v 4 fun s a => s.gseqHalt a
  else s

/-- Triggers of the radio, the Bell, the queue units and the network; `w` is the word written. What a transceiver answers to RUN is open. -/
def State.triggerNet (s : State) (f : Fld) (i v w : Nat) : State :=
  if f = Fld.radioCtrlRun then s.eachBit v 4 fun s n =>
    let (d, s) := s.draw
    s.radioRun n (d % 256)
  else if f = Fld.radioCtrlStop then s.eachBit v 4 fun s n => s.radioStop n
  else if f = Fld.radioNbrsetGo then s.nbrSet (bits w 0 10) (bits w 10 3)
  else if f = Fld.bellCtrlRun then s.bellRun
  else if f = Fld.queueCtrlEnable then s.queueEnable i
  else if f = Fld.queueCtrlDisable then s.queueDisable i
  else if f = Fld.queueCtrlFlush then s.queueFlush i
  else if f = Fld.netCtrlRun then s.eachBit v 4 fun s k => s.netRun k
  else if f = Fld.netCtrlStop then s.eachBit v 4 fun s k => s.netStop k
  else if f = Fld.timeCtrlFeed then s.timeFeed
  else if f = Fld.timeCtrlSnap then s.timeSnap
  else s

/-- Triggers of the pair's blocks, the Keywell, DEBUG and the CTRL and AON domains. What a self-test finds is open. -/
def State.triggerCtrl (s : State) (f : Fld) (v : Nat) : State :=
  if f = Fld.claimCtrlHold then s.claimHold
  else if f = Fld.claimCtrlRelease then s.releaseStage 0
  else if f = Fld.plinkCtrlRun then s.plinkRun
  else if f = Fld.plinkCtrlStop then s.linkDown
  else if f = Fld.plinkCtrlAlive then s.plinkAlive
  else if f = Fld.plinkCtrlYield then s.yieldPair
  else if f = Fld.keywellCtrlSelftest then
    let (o, s) := s.draw
    s.kwSelftest (o % 2 = 1)
  else if f = Fld.debugCtrlClose then s.debugClose
  else if f = Fld.loopCtrlRun then s.loopRun
  else if f = Fld.loopCtrlStop then s.loopStop
  else if f = Fld.loopCtrlRestore then s.loopRestore
  else if f = Fld.axisCtrlRun then s.axisRun
  else if f = Fld.axisCtrlStop then s.axisBlockStop
  else if f = Fld.axisCtrlRestore then s.axisRestore
  else if f = Fld.axisCtrlQstop then s.eachBit v 8 fun s a => s.qstop a
  else if f = Fld.tallyCtrlRun then s.tallyRun
  else if f = Fld.tallyCtrlStop then s.tallyStop
  else if f = Fld.tallyCtrlClear then s.tallyClear
  else if f = Fld.tallyCtrlSnap then s.tallySnap
  else if f = Fld.kettleCtrlSleep then s.sleepDevice
  else s

/-- A 1 written to a trigger (X): the action of its block. -/
def State.trigger (s : State) (f : Fld) (i v w : Nat) : State :=
  if v = 0 then s
  else if f.block ≤ Blk.reeve then s.triggerHub f
  else if f.block ≤ Blk.gseq then s.triggerGnss f i v
  else if f.block ≤ Blk.queue ∨ f.block = Blk.net ∨ f.block = Blk.time then s.triggerNet f i v w
  else s.triggerCtrl f v

/-- The islands of an ISLFAIL field's bits (Table 19.5). -/
def islandsOf (f : Fld) : List Island :=
  ((List.range 24).map fun k => Island.engine (Fin.ofNat 24 k)) ++ ((List.range 4).map fun k => Island.quad (Fin.ofNat 4 k)) ++
    ((List.range 16).map fun k => Island.bank (Fin.ofNat 16 k)) ++ ((List.range 5).map fun k => Island.serdes (Fin.ofNat 5 k))
  |>.filter fun i => (islandFailBit i).1 = f

/-- Ones written to a write-one-to-clear field (C). -/
def State.clearBits (s : State) (f : Fld) (i v : Nat) : State :=
  if v = 0 then s
  else if f = Fld.millEngfailFail then allEngines.foldl (fun s n => if bitOf v n.val then s.engfailClear n else s) s
  else if f = Fld.bellEststatTestfail then s.eststatClear v 0
  else if f = Fld.bellEststatDiscrep then s.eststatClear 0 v
  else if f = Fld.sysReleaseWithheld then (s.set f 0).unpendAll 5
  else if f.block = Blk.kettle then
    (islandsOf f).foldl (fun s x => if bitOf v (islandFailBit x).2 then s.islfailClear x else s) s
  else s.set f ((List.range f.width).foldl (fun t k => if bitOf v k then setBit t k false else t) (s.get f i)) i

/-- A write to an S field is noted where an apply acts on it: MODEs of a loop slot (16 R391) and CMDa of an axis (17 R416). -/
def State.noteWrite (s : State) (f : Fld) (i : Nat) : State :=
  if f = Fld.loopModeMode then { s with loop := { s.loop with modew := insertLine s.loop.modew i } }
  else if f = Fld.axisCmdCmd then s.setAxis i { s.axis i with cmdWritten := true }
  else s

/-- A field of a word that is written: its value, and the word. -/
def State.writeField (s : State) (f : Fld) (i j v w : Nat) : State :=
  match f.acc with
  | .S => (s.setStaged f v i j).noteWrite f i
  | .C => s.clearBits f i v
  | .X => s.trigger f i v w
  | _ => s

/-- A word is written (R7, R11): staged copies and clears, then triggers; K bits and reserved bits are ignored (R56). -/
def State.writeWord (s : State) (b index w : Nat) : State :=
  let fs := fieldsAt b index
  let put := fun (s : State) (p : Fld × Nat × Nat) => s.writeField p.1 p.2.1 p.2.2 (bits w (p.1.bit p.2.1) p.1.width) w
  (fs.filter fun p => p.1.acc = .X).foldl put ((fs.filter fun p => p.1.acc ≠ .X).foldl put s)

/-! ### Who may access (R43, R55, R56) -/

/-- The kernel-only blocks (R43). -/
def kernelOnly (b : Nat) : Bool :=
  [Blk.sys, Blk.hub, Blk.chest, Blk.boot, Blk.bell, Blk.claim, Blk.decant, Blk.plink, Blk.keywell, Blk.kettle, Blk.debug].contains b

/-- Whether a block ID stands in Table 1.1 (R22). -/
def blockKnown (b : Nat) : Bool := Blk.all.contains b

/-- Why a core may not write or apply a block, if it may not: block ID, then R43, then R55. -/
def State.mayWrite (s : State) (c : Core) (b : Nat) : Option Nat :=
  if !blockKnown b then some 0x0201
  else if kernelOnly b && decide (c ≠ .kernel) then some 0x0202
  else if s.ownerOf b ≠ some c then some 0x0203
  else none

/-- Whether a value has a 1 in an L or N field of a word (R56). -/
def writesFixed (b index w : Nat) : Bool :=
  (fieldsAt b index).any fun p => (p.1.acc = .L || p.1.acc = .N) && bits w (p.1.bit p.2.1) p.1.width ≠ 0

/-- Why a write faults, if it does (R56). -/
def State.writeFault (s : State) (c : Core) (b index w : Nat) : Option Nat :=
  match s.mayWrite c b with
  | some k => some k
  | none => if !wordExists b index || writesFixed b index w then some 0x0201 else none

/-- The words that follow the machine's state are brought up to date before a read. -/
def State.readSync (s : State) (b index : Nat) : State :=
  if b = Blk.hub then s.hubSync
  else if b = Blk.keywell then s.keywellSync index
  else if b = Blk.boot then s.bootReadSync
  else s

/-! ### Instructions (Table 2.11) -/

/-- A completing fault (R56): d is 0 and EPC is the next instruction. -/
def State.cwFault (s : State) (c : Core) (d : Reg) (code : Nat) : State := (s.wg (.hub c) d 0).hubFaultDone c code

/-- An instruction without a result retires, where its core still runs. -/
def State.coreRetire (s : State) (c : Core) : State := if s.hubReady c then (s.unblock (.hub c)).adv (.hub c) else s

/-- The words of a block that give the cause of its interrupt source: its FAULT words, and BOOT's REQ; of a block that has none, every word. -/
def causeWord (b index : Nat) : Bool :=
  if b = Blk.mill then index = Fld.millLastfaultCode.index
  else if b = Blk.gseq then decide (Fld.gseqFaultCode.index ≤ index ∧ index < Fld.gseqFaultCode.index + 4)
  else if b = Blk.boot then index = Fld.bootFaultCode.index || index = Fld.bootReqNumber.index
  else match faultFields b with
    | some (f, _) => index = f.index || (b = Blk.radio && decide (Fld.radioFaultnCode.index ≤ index ∧ index < Fld.radioFaultnCode.index + 4))
    | none => true

/-- A core reads a control word: when the kernel reads what a block raised, the block's interrupt source is no longer pending (R64; DESIGN
CHOICE, log 22). -/
def State.causeRead (s : State) (c : Core) (b index : Nat) : State :=
  match blockSource b with
  | some src => if c = .kernel ∧ causeWord b index then s.unpend .kernel src else s
  | none => s

/-- Reads a control word into d (R9, R11, R55, R56). -/
def State.cwRead (s : State) (c : Core) (d : Reg) (b index : Nat) (live : Bool) : State :=
  if !blockKnown b || !wordExists b index then s.cwFault c d 0x0201
  else
    let s := (s.readSync b index).causeRead c b index
    s.done c d (s.readWord b index live)

/-- Writes a control word (R54-R56). -/
def State.cwWrite (s : State) (c : Core) (b index w : Nat) : State :=
  match s.writeFault c b index w with
  | some k => s.hubFaultDone c k
  | none => (s.writeWord b index w).coreRetire c

/-- CWR (Table 2.11). -/
def execCwr (e : Engine) (d : Reg) (block : BitVec 8) (index : BitVec 12) (s : State) : Result :=
  .next (s.onHub e fun c => s.topInsn c (.cwr (.hub c) d block index) fun s => s.cwRead c d block.toNat index.toNat false)

/-- CWRL (Table 2.11). -/
def execCwrl (e : Engine) (d : Reg) (block : BitVec 8) (index : BitVec 12) (s : State) : Result :=
  .next (s.onHub e fun c => s.topInsn c (.cwrl (.hub c) d block index) fun s => s.cwRead c d block.toNat index.toNat true)

/-- CWS (Table 2.11): s[31:0]. -/
def execCws (e : Engine) (r : Reg) (block : BitVec 8) (index : BitVec 12) (s : State) : Result :=
  .next (s.onHub e fun c => s.topInsn c (.cws (.hub c) r block index) fun s =>
    s.cwWrite c block.toNat index.toNat ((s.rg (.hub c) r).toNat % 2 ^ 32))

/-- CWRX (Table 2.11): block in a[19:12], index in a[11:0]. -/
def execCwrx (e : Engine) (d a : Reg) (s : State) : Result :=
  .next (s.onHub e fun c => s.topInsn c (.cwrx (.hub c) d a) fun s =>
    let x := (s.rg (.hub c) a).toNat
    s.cwRead c d (bits x 12 8) (bits x 0 12) false)

/-- CWRLX (Table 2.11). -/
def execCwrlx (e : Engine) (d a : Reg) (s : State) : Result :=
  .next (s.onHub e fun c => s.topInsn c (.cwrlx (.hub c) d a) fun s =>
    let x := (s.rg (.hub c) a).toNat
    s.cwRead c d (bits x 12 8) (bits x 0 12) true)

/-- CWSX (Table 2.11). -/
def execCwsx (e : Engine) (a b : Reg) (s : State) : Result :=
  .next (s.onHub e fun c => s.topInsn c (.cwsx (.hub c) a b) fun s =>
    let x := (s.rg (.hub c) a).toNat
    s.cwWrite c (bits x 12 8) (bits x 0 12) ((s.rg (.hub c) b).toNat % 2 ^ 32))

/-- CW_WRITE (R11): the write itself, where the core may make it; a write that faults changes nothing (R56). -/
def execCwWrite (c : Core) (block : BitVec 8) (index : BitVec 12) (value : Word32) (s : State) : Result :=
  .next (match s.writeFault c block.toNat index.toNat value.toNat with
    | some _ => s
    | none => s.writeWord block.toNat index.toNat value.toNat)

/-- The cycle an apply request counts as requested in: for LOOP and AXIS the next one after 5.990 ms (16 R395, 17 R417). -/
def State.requestCycle (s : State) (b : Nat) : Nat :=
  if (b = Blk.loop ∨ b = Blk.axis) ∧ 5990 < s.get Fld.sysPhaseOffsetUs then nextCycle s.cycle else s.cycle

/-- A request to apply a block (R12, R57): several requests before a boundary are one. -/
def State.requestApply (s : State) (b : Nat) : State :=
  let a := s.appliesOf b
  match a.pending with
  | some _ => s
  | none => s.setApplies b { a with pending := some (s.requestCycle b) }

/-- The number of the apply that carries a request made now (R57). -/
def Applies.nextNum (a : Applies) : Nat := (a.done + 1) % 65536

/-- CWAPPLY (R54, R57). -/
def execCwapply (e : Engine) (d a : Reg) (s : State) : Result :=
  .next (s.onHub e fun c => s.topInsn c (.cwapply (.hub c) d a) fun s =>
    let b := (s.rg (.hub c) a).toNat % 256
    match s.mayWrite c b with
    | some k => s.cwFault c d k
    | none => (s.requestApply b).done c d (s.appliesOf b).nextNum)

/-- What CWWAIT answers at once: the result of a kept apply, CW_NO_APPLY for a number later than the next one, CW_STATUS_LOST for one
older than the four kept; none for the next one, which it waits for (R57). -/
def Applies.answer (a : Applies) (num : Nat) : Option Nat :=
  if num = a.nextNum then none
  else match a.results.find? fun p => p.1 = num with
    | some p => some p.2
    | none => if 0 < signed 16 (unsigned 16 ((num : Int) - a.nextNum)) then some 0x0212 else some 0x0281

/-- CWWAIT (R57, R66); the status of an apply that is read clears the core's source 63 (R64; DESIGN CHOICE, log 22). -/
def execCwwait (e : Engine) (d a b : Reg) (s : State) : Result :=
  .next (s.onHub e fun c => s.topInsn c (.cwwait (.hub c) d a b) fun s =>
    let blk := (s.rg (.hub c) a).toNat % 256
    let num := (s.rg (.hub c) b).toNat % 65536
    if !blockKnown blk then s.cwFault c d 0x0201
    else match (s.appliesOf blk).answer num with
      | some r => (s.unpend c 63).done c d (num * 65536 + r)
      | none => s.block (.hub c) (.cwwait (.hub c) d a b))

/-- CWSTAT (Table 2.11). -/
def execCwstat (e : Engine) (d a : Reg) (s : State) : Result :=
  .next (s.onHub e fun c => s.topInsn c (.cwstat (.hub c) d a) fun s =>
    let b := (s.rg (.hub c) a).toNat % 256
    if !blockKnown b then s.cwFault c d 0x0201
    else
      let x := s.appliesOf b
      let r := match x.results with
        | p :: _ => p.2
        | [] => 0
      (s.unpend c 63).done c d (x.done * 65536 + r + x.pending.isSome.toNat * 2 ^ 32))

/-- The block's owner changes (R55): HUB.OWN takes the new owner, and the staged set is overwritten with the live set. -/
def State.setOwner (s : State) (b code : Nat) : State :=
  (s.set Fld.hubOwnOwner code b).liveToStaged (blockLo b) (blockHi b)

/-- CWOWN (R43, R55). -/
def execCwown (e : Engine) (a : Reg) (s : State) : Result :=
  .next (s.onHub e fun c => s.topInsn c (.cwown (.hub c) a) fun s =>
    let b := (s.rg (.hub c) a).toNat % 256
    if !blockKnown b then s.hubFaultDone c 0x0201
    else if kernelOnly b ∧ c ≠ .kernel then s.hubFaultDone c 0x0202
    else if s.ownerOf b = some c then s.coreRetire c
    else if (s.ownerOf b).isSome ∧ c ≠ .kernel then s.hubFaultDone c 0x0204
    else (s.setOwner b (coreId c)).coreRetire c)

/-- CWDISOWN (R55): HUB stays the kernel's, and a core that does not own the block changes nothing. -/
def execCwdisown (e : Engine) (a : Reg) (s : State) : Result :=
  .next (s.onHub e fun c => s.topInsn c (.cwdisown (.hub c) a) fun s =>
    let b := (s.rg (.hub c) a).toNat % 256
    if !blockKnown b then s.hubFaultDone c 0x0201
    else if kernelOnly b ∧ c ≠ .kernel then s.hubFaultDone c 0x0202
    else if b = Blk.hub ∨ s.ownerOf b ≠ some c then s.coreRetire c
    else (s.setOwner b 1).coreRetire c)

/-! ### Apply boundaries (R12, R14) -/

/-- Whether a block has staged fields; one that has none has no apply boundary (01). -/
def hasStaged (b : Nat) : Bool := (Fld.ofBlock b).any fun f => f.acc = .S

/-- Whether a request counted in cycle `c` is due on a block: at once while the block is stopped, and otherwise at the boundary its chapter
names. -/
def State.applyDue (s : State) (b c : Nat) : Bool :=
  let off := s.get Fld.sysPhaseOffsetUs
  let fleet := decide (off = 0 ∧ c ≠ s.cycle)
  if b = Blk.hub ∨ b = Blk.grinder ∨ b = Blk.gseq then true
  else if b = Blk.mill then s.millState = 0 || fleet
  else if b = Blk.reeve then s.get Fld.reeveStateState = 0 || fleet
  else if b = Blk.gnssin then ((List.range 4).all fun a => s.antState a = 0) || off % 1000 = 0
  else if b = Blk.correl then s.get Fld.correlStateRun = 0 || fleet
  else if b = Blk.radio then s.portsStopped || fleet
  else if b = Blk.bell then
    !s.bell.running || (fleet && (s.get Fld.bellStateState = 0 || s.get Fld.bellStateState = 4))
  else if b = Blk.claim then s.get Fld.claimStateStage = 0 || fleet
  else if b = Blk.decant then s.pair ≤ 1 || fleet
  else if b = Blk.plink then s.get Fld.plinkStateLink = 0 || fleet
  else if b = Blk.net then ((List.range 4).all fun k => s.netPort k = 0 || s.netPort k = 3) || fleet
  else if b = Blk.time then s.servoState = 0 || (fleet && s.onSecond)
  else if b = Blk.keywell then s.keywell.jobs = []
  else if b = Blk.loop then !s.getB Fld.loopStateRunning || fleet
  else if b = Blk.axis then !s.getB Fld.axisStateRunning || fleet
  else if b = Blk.tally then !s.getB Fld.tallyStateRunning || (fleet && s.cycle % 10 = 0)
  else if b = Blk.kettle then !s.sysRunning || fleet
  else fleet

/-- The apply-rejected code of a block, and whether its staged set passes the groups that are checked (R14, R487). -/
def State.applyCheck (s : State) (b : Nat) : Nat × Bool :=
  if b = Blk.hub then (0x0210, hubApplyOk s)
  else if b = Blk.mill then (0x1010, millApplyOk s)
  else if b = Blk.reeve then (0x1401, reeveApplyOk s)
  else if b = Blk.gnssin then (0x1801, gnssinApplyOk s)
  else if b = Blk.grinder then (0x1901, grinderApplyOk s)
  else if b = Blk.correl then (0x1A01, correlApplyOk s)
  else if b = Blk.gseq then (0x1B01, gseqApplyOk s)
  else if b = Blk.radio then (0x2001, radioApplyOk s)
  else if b = Blk.bell then (0x2401, bellApplyOk s)
  else if b = Blk.queue then (0x2801, queueApplyOk s)
  else if b = Blk.decant then (0x2D01, decantApplyOk s)
  else if b = Blk.plink then (0x2E01, plinkApplyOk s)
  else if b = Blk.net then (0x3001, netApplyOk s)
  else if b = Blk.time then (0x3101, timeApplyOk s)
  else if b = Blk.keywell then (0x3401, keywellApplyOk s)
  else if b = Blk.loop then (0x3801, loopApplyOk s)
  else if b = Blk.axis then (0x3901, axisApplyOk s)
  else if b = Blk.tally then (0x3A01, tallyApplyOk s)
  else if b = Blk.kettle then (0x3C01, kettleApplyOk s)
  else (0, true)

/-- What an apply that is made moves in its block; `old` is the state before it. -/
def State.applyMade (s old : State) (b : Nat) : State :=
  if b = Blk.mill then s.millApplied
  else if b = Blk.gnssin then s.gnssinApplied
  else if b = Blk.radio then ((s.radioApplied old).bellFit true).orphanSettle false
  else if b = Blk.bell then (s.bellApplied old).orphanSettle false
  else if b = Blk.decant then s.orphanSettle false
  else if b = Blk.plink then s.plinkApplied
  else if b = Blk.time then s.timeApplied old
  else if b = Blk.loop then s.loopApplied old
  else if b = Blk.axis then s.axisApplied
  else s

/-- An apply that is not made because its cycle's gate stayed shut (16 R395, 17 R417). -/
def State.applyWithheld (s : State) (b code : Nat) : State :=
  let s := (s.raise code).setApplies b ((s.appliesOf b).complete code)
  match s.ownerOf b with
  | some c => s.pend c 63
  | none => s

/-- A pending apply of a block that is due; that of the Tally follows the end of the interval (18 R440), that of AXIS
the PWM periods before it (17 R417). -/
def State.applyBlock (s : State) (b : Nat) : State :=
  let s := if b = Blk.tally then s.intervalEnd else if b = Blk.axis then s.axesSync else s
  let k := s.applyCheck b
  let t := s.makeApply b k.1 k.2
  if k.2 then t.applyMade s b else t

/-- The keys of a queue unit's words. -/
def unitLo (q : Nat) : Nat := blockLo Blk.queue + 512 * q

/-- Whether the staged set changes a word of a queue unit. -/
def State.unitChanged (s : State) (q : Nat) : Bool :=
  (Fld.ofBlock Blk.queue).any fun f => f.acc = .S && q < f.n1 && s.getStaged f q ≠ s.get f q

/-- A QUEUE apply before the next fleet-cycle boundary (11 R290): the words of disabled units are taken at once; the request stays pending
while an enabled unit's words wait. -/
def State.applyDisabled (s : State) : State :=
  if !queueApplyOk s then s.applyBlock Blk.queue
  else
    let off := fun q => s.get Fld.queueStatState q = 0
    if (List.range 48).all fun q => off q || !s.unitChanged q then s.applyBlock Blk.queue
    else (List.range 48).foldl (fun t q => if off q then t.stagedToLive (unitLo q) (unitLo (q + 1)) else t) s

/-- APPLY_AT_BOUNDARY (R12-R14, R57). -/
def execApplyAtBoundary (block : BitVec 8) (s : State) : Result :=
  let b := block.toNat
  match (s.appliesOf b).pending with
  | none => .next s
  | some c =>
    if !hasStaged b then .next s
    else if s.applyDue b c then
      if b = Blk.loop ∧ s.getB Fld.loopStateRunning ∧ s.get Fld.sysLastrelCycle ≠ c then .next (s.applyWithheld b 0x3803)
      else if b = Blk.axis ∧ s.getB Fld.axisStateRunning ∧ s.get Fld.sysLastrelCycle ≠ c then .next (s.applyWithheld b 0x3903)
      else .next (s.applyBlock b)
    else if b = Blk.queue then .next s.applyDisabled
    else .next s

end Sys2Proof.Machine
end

