-- ==== Sys2Proof/Machine/HubBranch.lean ====
section
/-! DEFINITION. Branches and jumps of the three profiles (02 R46, Table 2.9; 03 R80). -/

namespace Sys2Proof.Machine

/-- Goes to a target; a sequencer's target outside IMEM raises QSEQ_REGION (R80). -/
def State.jumpTo (s : State) (e : Engine) (v : Word) : State :=
  match e with
  | .seq q =>
    let t := v.toNat % 2 ^ 32
    if t ≤ 0x7FFC then
      s.setSeq q.val { s.seq q.val with pc := t, count := (s.seq q.val).count + 1 }
    else s.engFault e 0x0401
  | _ => s.setPc e v

/-- Whether a target lies where the engine can go: a link is not written by a jump that faults. -/
def targetOk (e : Engine) (v : Word) : Bool :=
  match e with
  | .seq _ => decide (v.toNat % 2 ^ 32 ≤ 0x7FFC)
  | _ => true

/-- A branch: to pc + 4 × the sign-extended offset when the comparison holds, on 64 bits, or on 32 bits on a sequencer. -/
def State.branch (s : State) (e : Engine) (a b : Reg) (off : BitVec 16) (h : Word → Word → Bool) (q : Word32 → Word32 → Bool) :
    State :=
  if !s.runs e then s.cannot e
  else if !regsOk e [a, b] then s.engFault e 0x0205
  else
    let take := match e with
      | .seq i => q (regRead (s.seq i.val).g a) (regRead (s.seq i.val).g b)
      | _ => h (s.rg e a) (s.rg e b)
    if take then s.jumpTo e (s.pcOf e + sx off * 4) else s.adv e

/-- BEQ (Table 2.6). -/
def execBeq (e : Engine) (a b : Reg) (off : BitVec 16) (s : State) : Result :=
  .next (s.branch e a b off (fun x y => x == y) fun x y => x == y)
/-- BNE (Table 2.6). -/
def execBne (e : Engine) (a b : Reg) (off : BitVec 16) (s : State) : Result :=
  .next (s.branch e a b off (fun x y => x != y) fun x y => x != y)
/-- BLT (Table 2.6). -/
def execBlt (e : Engine) (a b : Reg) (off : BitVec 16) (s : State) : Result :=
  .next (s.branch e a b off (fun x y => x.slt y) fun x y => x.slt y)
/-- BGE (Table 2.6). -/
def execBge (e : Engine) (a b : Reg) (off : BitVec 16) (s : State) : Result :=
  .next (s.branch e a b off (fun x y => !x.slt y) fun x y => !x.slt y)
/-- BLTU (Table 2.6). -/
def execBltu (e : Engine) (a b : Reg) (off : BitVec 16) (s : State) : Result :=
  .next (s.branch e a b off (fun x y => x.ult y) fun x y => x.ult y)
/-- BGEU (Table 2.6). -/
def execBgeu (e : Engine) (a b : Reg) (off : BitVec 16) (s : State) : Result :=
  .next (s.branch e a b off (fun x y => !x.ult y) fun x y => !x.ult y)

/-- The link register of JAL: g31, or g15 on a sequencer (Table 2.2, R80). -/
def linkReg (e : Engine) : Reg :=
  match e with
  | .seq _ => 15
  | _ => 31

/-- A jump that writes its link, unless its target faults. -/
def State.jumpLink (s : State) (e : Engine) (d : Reg) (t : Word) : State :=
  if targetOk e t then (s.wg e d (s.pcOf e + 4)).jumpTo e t else s.engFault e 0x0401

/-- J (Table 2.9). -/
def execJ (e : Engine) (off : BitVec 26) (s : State) : Result :=
  .next (if s.runs e then s.jumpTo e (s.pcOf e + off.signExtend 64 * 4) else s.cannot e)

/-- JAL (Table 2.9). -/
def execJal (e : Engine) (off : BitVec 26) (s : State) : Result :=
  .next (if s.runs e then s.jumpLink e (linkReg e) (s.pcOf e + off.signExtend 64 * 4) else s.cannot e)

/-- JALR (Table 2.9): d = pc + 4 and pc = (a + imm16) & ~3. -/
def execJalr (e : Engine) (d a : Reg) (imm : BitVec 16) (s : State) : Result :=
  .next (if !s.runs e then s.cannot e
    else if !regsOk e [d, a] then s.engFault e 0x0205
    else s.jumpLink e d ((s.rg e a + sx imm) &&& ~~~3#64))

end Sys2Proof.Machine
end

