-- ==== Sys2Proof/Machine/HubFloat.lean ====
section
/-! DEFINITION. Floating point instructions of hub cores and node engines (02 Table 2.8, R49; 03 Table 3.1). -/

namespace Sys2Proof.Machine

open Float64

/-! ### Shapes: sequencers keep no floating point (Table 3.1) -/

/-- An f result from f operands, with its flags. -/
def State.fop (s : State) (e : Engine) (d a b c : Reg) (f : RMode → Word → Word → Word → Word × FFlags) : State :=
  if !s.runs e then s.cannot e
  else match e with
    | .seq _ => s.engFault e 0x0205
    | _ =>
      let r := f (s.rmode e) (s.rf e a) (s.rf e b) (s.rf e c)
      ((s.accrue e r.2).wf e d r.1).adv e

/-- A g result from f operands. -/
def State.fopG (s : State) (e : Engine) (d a b : Reg) (f : RMode → Word → Word → Word × FFlags) : State :=
  if !s.runs e then s.cannot e
  else match e with
    | .seq _ => s.engFault e 0x0205
    | _ =>
      let r := f (s.rmode e) (s.rf e a) (s.rf e b)
      ((s.accrue e r.2).wg e d r.1).adv e

/-- An f result from a g operand. -/
def State.fopI (s : State) (e : Engine) (d a : Reg) (f : RMode → Word → Word × FFlags) : State :=
  if !s.runs e then s.cannot e
  else match e with
    | .seq _ => s.engFault e 0x0205
    | _ =>
      let r := f (s.rmode e) (s.rg e a)
      ((s.accrue e r.2).wf e d r.1).adv e

/-- A comparison's result. -/
def cmpRes (r : Bool × FFlags) : Word × FFlags := (if r.1 then 1 else 0, r.2)

/-- FMSUB's and FNMADD's sign: the negation of a result that is a number (R49: a NaN result is the canonical NaN). -/
def negNum (a : Word) : Word := if isNan a then a else neg a

/-- −(a × b + c) with one rounding: the fused operation rounded in the mode mirrored about 0. -/
def fnmadd (rm : RMode) (a b c : Word) : Word × FFlags :=
  let m := match rm with
    | .down => RMode.up
    | .up => RMode.down
    | r => r
  let r := fma m a b c
  (negNum r.1, r.2)

/-- FCLASS: one-hot class in d[9:0] (log 10). -/
def fclass (a : Word) : Word := 1#64 <<< (Config.fclassBit (cls a)).val

/-! ### Meanings -/

/-- FADD (Table 2.8). -/
def execFadd (e : Engine) (d a b : Reg) (s : State) : Result :=
  .next (s.fop e d a b 0 fun m x y _ => add m x y)

/-- FSUB (Table 2.8). -/
def execFsub (e : Engine) (d a b : Reg) (s : State) : Result :=
  .next (s.fop e d a b 0 fun m x y _ => sub m x y)

/-- FMUL (Table 2.8). -/
def execFmul (e : Engine) (d a b : Reg) (s : State) : Result :=
  .next (s.fop e d a b 0 fun m x y _ => mul m x y)

/-- FDIV (Table 2.8). -/
def execFdiv (e : Engine) (d a b : Reg) (s : State) : Result :=
  .next (s.fop e d a b 0 fun m x y _ => div m x y)

/-- FSQRT (Table 2.8). -/
def execFsqrt (e : Engine) (d a : Reg) (s : State) : Result :=
  .next (s.fop e d a 0 0 fun m x _ _ => sqrt m x)

/-- FMADD (Table 2.8). -/
def execFmadd (e : Engine) (d a b c : Reg) (s : State) : Result :=
  .next (s.fop e d a b c fun m x y z => fma m x y z)

/-- FMSUB (Table 2.8). -/
def execFmsub (e : Engine) (d a b c : Reg) (s : State) : Result :=
  .next (s.fop e d a b c fun m x y z => fma m x y (neg z))

/-- FNMADD (Table 2.8). -/
def execFnmadd (e : Engine) (d a b c : Reg) (s : State) : Result :=
  .next (s.fop e d a b c fun m x y z => fnmadd m x y z)

/-- FMIN (Table 2.8). -/
def execFmin (e : Engine) (d a b : Reg) (s : State) : Result :=
  .next (s.fop e d a b 0 fun _ x y _ => minMax false x y)

/-- FMAX (Table 2.8). -/
def execFmax (e : Engine) (d a b : Reg) (s : State) : Result :=
  .next (s.fop e d a b 0 fun _ x y _ => minMax true x y)

/-- FEQ (Table 2.8). -/
def execFeq (e : Engine) (d a b : Reg) (s : State) : Result :=
  .next (s.fopG e d a b fun _ x y => cmpRes (feq x y))

/-- FLT (Table 2.8). -/
def execFlt (e : Engine) (d a b : Reg) (s : State) : Result :=
  .next (s.fopG e d a b fun _ x y => cmpRes (flt x y))

/-- FLE (Table 2.8). -/
def execFle (e : Engine) (d a b : Reg) (s : State) : Result :=
  .next (s.fopG e d a b fun _ x y => cmpRes (fle x y))

/-- FCLASS (Table 2.8). -/
def execFclass (e : Engine) (d a : Reg) (s : State) : Result :=
  .next (s.fopG e d a 0 fun _ x _ => (fclass x, {}))

/-- FITOD (Table 2.8). -/
def execFitod (e : Engine) (d a : Reg) (s : State) : Result :=
  .next (s.fopI e d a fun m x => ofInt m x.toInt)

/-- FUTOD (Table 2.8). -/
def execFutod (e : Engine) (d a : Reg) (s : State) : Result :=
  .next (s.fopI e d a fun m x => ofInt m x.toNat)

/-- FDTOI (R49): saturating, 0 for NaN. -/
def execFdtoi (e : Engine) (d a : Reg) (s : State) : Result :=
  .next (s.fopG e d a 0 fun m x _ =>
    let r := toInt m (-(2 ^ 63)) (2 ^ 63 - 1) x
    (BitVec.ofInt 64 r.1, r.2))

/-- FDTOU (R49): saturating, 0 for NaN. -/
def execFdtou (e : Engine) (d a : Reg) (s : State) : Result :=
  .next (s.fopG e d a 0 fun m x _ =>
    let r := toInt m 0 (2 ^ 64 - 1) x
    (BitVec.ofInt 64 r.1, r.2))

/-- FMVGF (Table 2.8). -/
def execFmvgf (e : Engine) (d a : Reg) (s : State) : Result :=
  .next (s.fopG e d a 0 fun _ x _ => (x, {}))

/-- FMVFG (Table 2.8). -/
def execFmvfg (e : Engine) (d a : Reg) (s : State) : Result :=
  .next (s.fopI e d a fun _ x => (x, {}))

/-- FNEG (Table 2.8). -/
def execFneg (e : Engine) (d a : Reg) (s : State) : Result :=
  .next (s.fop e d a 0 0 fun _ x _ _ => (neg x, {}))

/-- FABS (Table 2.8). -/
def execFabs (e : Engine) (d a : Reg) (s : State) : Result :=
  .next (s.fop e d a 0 0 fun _ x _ _ => (Float64.abs x, {}))

end Sys2Proof.Machine
end

