-- ==== Sys2Proof/Machine/HubInt.lean ====
section
/-! DEFINITION. Integer instructions of the three profiles (02 Tables 2.6 and 2.7, R46, R48; 03 R71, R80). -/

namespace Sys2Proof.Machine

/-! ### Shapes -/

/-- An instruction of register operands: on a hub core or node engine `d = h a b c`; on a sequencer `d = q a b c` on 32 bits, where the
profile keeps it (Table 3.1), and a register field above 15 is illegal (R80).  Operands it does not use are register 0. -/
def State.alu (s : State) (e : Engine) (d a b c : Reg) (h : Word → Word → Word → Word)
    (q : Option (Word32 → Word32 → Word32 → Word32)) : State :=
  if !s.runs e then s.cannot e
  else match e with
    | .seq i =>
      match q with
      | none => s.engFault e 0x0205
      | some f =>
        if regsOk e [d, a, b, c] then
          let g := (s.seq i.val).g
          (s.wg e d ((f (regRead g a) (regRead g b) (regRead g c)).zeroExtend 64)).adv e
        else s.engFault e 0x0205
    | _ => (s.wg e d (h (s.rg e a) (s.rg e b) (s.rg e c))).adv e

/-- A register and immediate instruction that every profile keeps: the immediate stands in place of the second operand. -/
def State.aluImm (s : State) (e : Engine) (d a : Reg) (ok : Bool) (h : Word → Word) (q : Word32 → Word32) : State :=
  if !s.runs e then s.cannot e
  else if !ok then s.engFault e 0x0205
  else match e with
    | .seq i =>
      if regsOk e [d, a] then (s.wg e d ((q (regRead (s.seq i.val).g a)).zeroExtend 64)).adv e else s.engFault e 0x0205
    | _ => (s.wg e d (h (s.rg e a))).adv e

/-! ### Operations -/

/-- 1 or 0. -/
def flag {w : Nat} (b : Bool) : BitVec w := if b then 1 else 0

/-- The shift amount of a register: b[5:0], or b[4:0] on 32 bits (Table 2.7, R80). -/
def shamt (w : Nat) (b : BitVec w) : Nat := b.toNat % w

/-- Leading zeros. -/
def clz (w : Nat) (a : BitVec w) : Nat := ((List.range w).reverse.takeWhile fun i => !bitOf a.toNat i).length
/-- Trailing zeros. -/
def ctz (w : Nat) (a : BitVec w) : Nat := ((List.range w).takeWhile fun i => !bitOf a.toNat i).length
/-- Set bits. -/
def popc (w : Nat) (a : BitVec w) : Nat := (List.range w).countP fun i => bitOf a.toNat i
/-- Byte order reversed. -/
def bswap (w : Nat) (a : BitVec w) : BitVec w := BitVec.ofNat w (leNat (leBytes a.toNat (w / 8)).reverse)

/-- The high half of a product of integers. -/
def mulHigh (w : Nat) (x y : Int) : BitVec w := BitVec.ofInt w (x * y / (2 ^ w : Nat))

/-- A 32-bit result, sign-extended (ADDW, SUBW, MULW). -/
def word32 (x : Word) : Word := (x.truncate 32).signExtend 64

/-- The signed quotient of R48: by 0 all ones, -2^63 by -1 gives -2^63. -/
def divS (a b : Word) : Word := if b = 0 then BitVec.allOnes 64 else BitVec.ofInt 64 (a.toInt.tdiv b.toInt)
/-- The unsigned quotient of R48. -/
def divU (a b : Word) : Word := if b = 0 then BitVec.allOnes 64 else a.udiv b
/-- The signed remainder of R48: by 0 it is a. -/
def remS (a b : Word) : Word := if b = 0 then a else BitVec.ofInt 64 (a.toInt.tmod b.toInt)
/-- The unsigned remainder of R48. -/
def remU (a b : Word) : Word := if b = 0 then a else a.umod b

/-! ### Meanings -/

/-- ADD (Table 2.7). -/
def execAdd (e : Engine) (d a b : Reg) (s : State) : Result :=
  .next (s.alu e d a b 0 (fun x y _ => x + y) (some fun x y _ => x + y))

/-- SUB (Table 2.7). -/
def execSub (e : Engine) (d a b : Reg) (s : State) : Result :=
  .next (s.alu e d a b 0 (fun x y _ => x - y) (some fun x y _ => x - y))

/-- AND (Table 2.7). -/
def execAnd (e : Engine) (d a b : Reg) (s : State) : Result :=
  .next (s.alu e d a b 0 (fun x y _ => x &&& y) (some fun x y _ => x &&& y))

/-- OR (Table 2.7). -/
def execOr (e : Engine) (d a b : Reg) (s : State) : Result :=
  .next (s.alu e d a b 0 (fun x y _ => x ||| y) (some fun x y _ => x ||| y))

/-- XOR (Table 2.7). -/
def execXor (e : Engine) (d a b : Reg) (s : State) : Result :=
  .next (s.alu e d a b 0 (fun x y _ => x ^^^ y) (some fun x y _ => x ^^^ y))

/-- SLL (Table 2.7). -/
def execSll (e : Engine) (d a b : Reg) (s : State) : Result :=
  .next (s.alu e d a b 0 (fun x y _ => x <<< shamt 64 y) (some fun x y _ => x <<< shamt 32 y))

/-- SRL (Table 2.7). -/
def execSrl (e : Engine) (d a b : Reg) (s : State) : Result :=
  .next (s.alu e d a b 0 (fun x y _ => x >>> shamt 64 y) (some fun x y _ => x >>> shamt 32 y))

/-- SRA (Table 2.7). -/
def execSra (e : Engine) (d a b : Reg) (s : State) : Result :=
  .next (s.alu e d a b 0 (fun x y _ => x.sshiftRight (shamt 64 y)) (some fun x y _ => x.sshiftRight (shamt 32 y)))

/-- SLT (Table 2.7). -/
def execSlt (e : Engine) (d a b : Reg) (s : State) : Result :=
  .next (s.alu e d a b 0 (fun x y _ => flag (x.slt y)) (some fun x y _ => flag (x.slt y)))

/-- SLTU (Table 2.7). -/
def execSltu (e : Engine) (d a b : Reg) (s : State) : Result :=
  .next (s.alu e d a b 0 (fun x y _ => flag (x.ult y)) (some fun x y _ => flag (x.ult y)))

/-- MIN (Table 2.7). -/
def execMin (e : Engine) (d a b : Reg) (s : State) : Result :=
  .next (s.alu e d a b 0 (fun x y _ => if x.slt y then x else y) (some fun x y _ => if x.slt y then x else y))

/-- MAX (Table 2.7). -/
def execMax (e : Engine) (d a b : Reg) (s : State) : Result :=
  .next (s.alu e d a b 0 (fun x y _ => if x.slt y then y else x) (some fun x y _ => if x.slt y then y else x))

/-- MINU (Table 2.7). -/
def execMinu (e : Engine) (d a b : Reg) (s : State) : Result :=
  .next (s.alu e d a b 0 (fun x y _ => if x.ult y then x else y) (some fun x y _ => if x.ult y then x else y))

/-- MAXU (Table 2.7). -/
def execMaxu (e : Engine) (d a b : Reg) (s : State) : Result :=
  .next (s.alu e d a b 0 (fun x y _ => if x.ult y then y else x) (some fun x y _ => if x.ult y then y else x))

/-- ADDW (Table 2.7). -/
def execAddw (e : Engine) (d a b : Reg) (s : State) : Result :=
  .next (s.alu e d a b 0 (fun x y _ => word32 (x + y)) (some fun x y _ => x + y))

/-- SUBW (Table 2.7). -/
def execSubw (e : Engine) (d a b : Reg) (s : State) : Result :=
  .next (s.alu e d a b 0 (fun x y _ => word32 (x - y)) (some fun x y _ => x - y))

/-- CLZ (Table 2.7). -/
def execClz (e : Engine) (d a : Reg) (s : State) : Result :=
  .next (s.alu e d a 0 0 (fun x _ _ => BitVec.ofNat 64 (clz 64 x)) (some fun x _ _ => BitVec.ofNat 32 (clz 32 x)))

/-- CTZ (Table 2.7). -/
def execCtz (e : Engine) (d a : Reg) (s : State) : Result :=
  .next (s.alu e d a 0 0 (fun x _ _ => BitVec.ofNat 64 (ctz 64 x)) (some fun x _ _ => BitVec.ofNat 32 (ctz 32 x)))

/-- POPC (Table 2.7). -/
def execPopc (e : Engine) (d a : Reg) (s : State) : Result :=
  .next (s.alu e d a 0 0 (fun x _ _ => BitVec.ofNat 64 (popc 64 x)) (some fun x _ _ => BitVec.ofNat 32 (popc 32 x)))

/-- BSWAP (Table 2.7). -/
def execBswap (e : Engine) (d a : Reg) (s : State) : Result :=
  .next (s.alu e d a 0 0 (fun x _ _ => bswap 64 x) (some fun x _ _ => bswap 32 x))

/-- SEL (Table 2.7): d = (c ≠ 0) ? a : b. -/
def execSel (e : Engine) (d a b c : Reg) (s : State) : Result :=
  .next (s.alu e d a b c (fun x y z => if z ≠ 0 then x else y) (some fun x y z => if z ≠ 0 then x else y))

/-- MUL (Table 2.7). -/
def execMul (e : Engine) (d a b : Reg) (s : State) : Result :=
  .next (s.alu e d a b 0 (fun x y _ => x * y) (some fun x y _ => x * y))

/-- MULH (Table 2.7). -/
def execMulh (e : Engine) (d a b : Reg) (s : State) : Result :=
  .next (s.alu e d a b 0 (fun x y _ => mulHigh 64 x.toInt y.toInt) (some fun x y _ => mulHigh 32 x.toInt y.toInt))

/-- MULHU (Table 2.7). -/
def execMulhu (e : Engine) (d a b : Reg) (s : State) : Result :=
  .next (s.alu e d a b 0 (fun x y _ => mulHigh 64 x.toNat y.toNat) (some fun x y _ => mulHigh 32 x.toNat y.toNat))

/-- MULW (Table 2.7). -/
def execMulw (e : Engine) (d a b : Reg) (s : State) : Result :=
  .next (s.alu e d a b 0 (fun x y _ => word32 (x * y)) none)

/-- DIV (Table 2.7). -/
def execDiv (e : Engine) (d a b : Reg) (s : State) : Result :=
  .next (s.alu e d a b 0 (fun x y _ => divS x y) none)

/-- DIVU (Table 2.7). -/
def execDivu (e : Engine) (d a b : Reg) (s : State) : Result :=
  .next (s.alu e d a b 0 (fun x y _ => divU x y) none)

/-- REM (Table 2.7). -/
def execRem (e : Engine) (d a b : Reg) (s : State) : Result :=
  .next (s.alu e d a b 0 (fun x y _ => remS x y) none)

/-- REMU (Table 2.7). -/
def execRemu (e : Engine) (d a b : Reg) (s : State) : Result :=
  .next (s.alu e d a b 0 (fun x y _ => remU x y) none)

/-- MADD (Table 2.7): d = a × b + c, low bits. -/
def execMadd (e : Engine) (d a b c : Reg) (s : State) : Result :=
  .next (s.alu e d a b c (fun x y z => x * y + z) (some fun x y z => x * y + z))

/-- ADDI (Table 2.6, R46). -/
def execAddi (e : Engine) (d a : Reg) (imm : BitVec 16) (s : State) : Result :=
  .next (s.aluImm e d a true (fun x => x + sx imm) (fun x => x + sx32 imm))

/-- ANDI (Table 2.6, R46). -/
def execAndi (e : Engine) (d a : Reg) (imm : BitVec 16) (s : State) : Result :=
  .next (s.aluImm e d a true (fun x => x &&& zx imm) (fun x => x &&& zx32 imm))

/-- ORI (Table 2.6, R46). -/
def execOri (e : Engine) (d a : Reg) (imm : BitVec 16) (s : State) : Result :=
  .next (s.aluImm e d a true (fun x => x ||| zx imm) (fun x => x ||| zx32 imm))

/-- XORI (Table 2.6, R46). -/
def execXori (e : Engine) (d a : Reg) (imm : BitVec 16) (s : State) : Result :=
  .next (s.aluImm e d a true (fun x => x ^^^ zx imm) (fun x => x ^^^ zx32 imm))

/-- SLTI (Table 2.6, R46). -/
def execSlti (e : Engine) (d a : Reg) (imm : BitVec 16) (s : State) : Result :=
  .next (s.aluImm e d a true (fun x => flag (x.slt (sx imm))) (fun x => flag (x.slt (sx32 imm))))

/-- SLTUI (Table 2.6, R46). -/
def execSltui (e : Engine) (d a : Reg) (imm : BitVec 16) (s : State) : Result :=
  .next (s.aluImm e d a true (fun x => flag (x.ult (sx imm))) (fun x => flag (x.ult (sx32 imm))))

/-- LUI (R46, R80): d = sext(imm16) << 16; a sequencer's d = imm16 << 16. -/
def execLui (e : Engine) (d : Reg) (imm : BitVec 16) (s : State) : Result :=
  .next (s.aluImm e d 0 true (fun _ => sx imm <<< 16) (fun _ => zx32 imm <<< 16))

/-- Whether a shift immediate has its zero bits 0: imm16[15:6], and imm16[15:5] on a sequencer (R46, R80). -/
def shiftOk (e : Engine) (imm : BitVec 16) : Bool :=
  match e with
  | .seq _ => decide (imm.toNat < 32)
  | _ => decide (imm.toNat < 64)

/-- SLLI (Table 2.6, R46). -/
def execSlli (e : Engine) (d a : Reg) (imm : BitVec 16) (s : State) : Result :=
  .next (s.aluImm e d a (shiftOk e imm) (fun x => x <<< imm.toNat) (fun x => x <<< imm.toNat))

/-- SRLI (Table 2.6, R46). -/
def execSrli (e : Engine) (d a : Reg) (imm : BitVec 16) (s : State) : Result :=
  .next (s.aluImm e d a (shiftOk e imm) (fun x => x >>> imm.toNat) (fun x => x >>> imm.toNat))

/-- SRAI (Table 2.6, R46). -/
def execSrai (e : Engine) (d a : Reg) (imm : BitVec 16) (s : State) : Result :=
  .next (s.aluImm e d a (shiftOk e imm) (fun x => x.sshiftRight imm.toNat) (fun x => x.sshiftRight imm.toNat))

end Sys2Proof.Machine
end

