-- ==== Sys2Proof/Machine/Dispatch.lean ====
section
/-! DEFINITION. The dispatch of every command to its meaning, one arm per constructor of `Instr`. -/

namespace Sys2Proof.Machine

def exec (i : Instr) (s : State) : Host.Outcome State Fault Refusal :=
  match i with
  | .cwWrite c block index value => Sys2Proof.Machine.execCwWrite c block index value s
  | .cwr c d block index => Sys2Proof.Machine.execCwr c d block index s
  | .cwrl c d block index => Sys2Proof.Machine.execCwrl c d block index s
  | .cws c r block index => Sys2Proof.Machine.execCws c r block index s
  | .cwrx c d a => Sys2Proof.Machine.execCwrx c d a s
  | .cwrlx c d a => Sys2Proof.Machine.execCwrlx c d a s
  | .cwsx c a b => Sys2Proof.Machine.execCwsx c a b s
  | .cwapply c d a => Sys2Proof.Machine.execCwapply c d a s
  | .cwwait c d a b => Sys2Proof.Machine.execCwwait c d a b s
  | .cwown c a => Sys2Proof.Machine.execCwown c a s
  | .cwdisown c a => Sys2Proof.Machine.execCwdisown c a s
  | .cwstat c d a => Sys2Proof.Machine.execCwstat c d a s
  | .applyAtBoundary block => Sys2Proof.Machine.execApplyAtBoundary block s
  | .cycleBoundary late discards => Sys2Proof.Machine.execCycleBoundary late discards s
  | .ingestClose => Sys2Proof.Machine.execIngestClose s
  | .freeze => Sys2Proof.Machine.execFreeze s
  | .stalledWriteResume => Sys2Proof.Machine.execStalledWriteResume s
  | .releasePhaseStart => Sys2Proof.Machine.execReleasePhaseStart s
  | .gateDeadline => Sys2Proof.Machine.execGateDeadline s
  | .siteTimeStep => Sys2Proof.Machine.execSiteTimeStep s
  | .scrubPassComplete us => Sys2Proof.Machine.execScrubPassComplete us s
  | .scrubLate bank => Sys2Proof.Machine.execScrubLate bank s
  | .scrubBankWake bank => Sys2Proof.Machine.execScrubBankWake bank s
  | .lockstepMismatch => Sys2Proof.Machine.execLockstepMismatch s
  | .lstepSelftest ok => Sys2Proof.Machine.execLstepSelftest ok s
  | .coreStart c => Sys2Proof.Machine.execCoreStart c s
  | .coreHalt c => Sys2Proof.Machine.execCoreHalt c s
  | .interruptEntry c => Sys2Proof.Machine.execInterruptEntry c s
  | .timerCompare c => Sys2Proof.Machine.execTimerCompare c s
  | .chestWriteDurable c => Sys2Proof.Machine.execChestWriteDurable c s
  | .hostMailboxPut m bytes => Sys2Proof.Machine.execHostMailboxPut m bytes s
  | .hostMailboxGet m => Sys2Proof.Machine.execHostMailboxGet m s
  | .add e d a b => Sys2Proof.Machine.execAdd e d a b s
  | .sub e d a b => Sys2Proof.Machine.execSub e d a b s
  | .and e d a b => Sys2Proof.Machine.execAnd e d a b s
  | .or e d a b => Sys2Proof.Machine.execOr e d a b s
  | .xor e d a b => Sys2Proof.Machine.execXor e d a b s
  | .sll e d a b => Sys2Proof.Machine.execSll e d a b s
  | .srl e d a b => Sys2Proof.Machine.execSrl e d a b s
  | .sra e d a b => Sys2Proof.Machine.execSra e d a b s
  | .slt e d a b => Sys2Proof.Machine.execSlt e d a b s
  | .sltu e d a b => Sys2Proof.Machine.execSltu e d a b s
  | .min e d a b => Sys2Proof.Machine.execMin e d a b s
  | .max e d a b => Sys2Proof.Machine.execMax e d a b s
  | .minu e d a b => Sys2Proof.Machine.execMinu e d a b s
  | .maxu e d a b => Sys2Proof.Machine.execMaxu e d a b s
  | .addw e d a b => Sys2Proof.Machine.execAddw e d a b s
  | .subw e d a b => Sys2Proof.Machine.execSubw e d a b s
  | .clz e d a => Sys2Proof.Machine.execClz e d a s
  | .ctz e d a => Sys2Proof.Machine.execCtz e d a s
  | .popc e d a => Sys2Proof.Machine.execPopc e d a s
  | .bswap e d a => Sys2Proof.Machine.execBswap e d a s
  | .sel e d a b c => Sys2Proof.Machine.execSel e d a b c s
  | .mul e d a b => Sys2Proof.Machine.execMul e d a b s
  | .mulh e d a b => Sys2Proof.Machine.execMulh e d a b s
  | .mulhu e d a b => Sys2Proof.Machine.execMulhu e d a b s
  | .mulw e d a b => Sys2Proof.Machine.execMulw e d a b s
  | .div e d a b => Sys2Proof.Machine.execDiv e d a b s
  | .divu e d a b => Sys2Proof.Machine.execDivu e d a b s
  | .rem e d a b => Sys2Proof.Machine.execRem e d a b s
  | .remu e d a b => Sys2Proof.Machine.execRemu e d a b s
  | .madd e d a b c => Sys2Proof.Machine.execMadd e d a b c s
  | .fadd e d a b => Sys2Proof.Machine.execFadd e d a b s
  | .fsub e d a b => Sys2Proof.Machine.execFsub e d a b s
  | .fmul e d a b => Sys2Proof.Machine.execFmul e d a b s
  | .fdiv e d a b => Sys2Proof.Machine.execFdiv e d a b s
  | .fsqrt e d a => Sys2Proof.Machine.execFsqrt e d a s
  | .fmadd e d a b c => Sys2Proof.Machine.execFmadd e d a b c s
  | .fmsub e d a b c => Sys2Proof.Machine.execFmsub e d a b c s
  | .fnmadd e d a b c => Sys2Proof.Machine.execFnmadd e d a b c s
  | .fmin e d a b => Sys2Proof.Machine.execFmin e d a b s
  | .fmax e d a b => Sys2Proof.Machine.execFmax e d a b s
  | .feq e d a b => Sys2Proof.Machine.execFeq e d a b s
  | .flt e d a b => Sys2Proof.Machine.execFlt e d a b s
  | .fle e d a b => Sys2Proof.Machine.execFle e d a b s
  | .fclass e d a => Sys2Proof.Machine.execFclass e d a s
  | .fitod e d a => Sys2Proof.Machine.execFitod e d a s
  | .futod e d a => Sys2Proof.Machine.execFutod e d a s
  | .fdtoi e d a => Sys2Proof.Machine.execFdtoi e d a s
  | .fdtou e d a => Sys2Proof.Machine.execFdtou e d a s
  | .fmvgf e d a => Sys2Proof.Machine.execFmvgf e d a s
  | .fmvfg e d a => Sys2Proof.Machine.execFmvfg e d a s
  | .fneg e d a => Sys2Proof.Machine.execFneg e d a s
  | .fabs e d a => Sys2Proof.Machine.execFabs e d a s
  | .addi e d a imm => Sys2Proof.Machine.execAddi e d a imm s
  | .andi e d a imm => Sys2Proof.Machine.execAndi e d a imm s
  | .ori e d a imm => Sys2Proof.Machine.execOri e d a imm s
  | .xori e d a imm => Sys2Proof.Machine.execXori e d a imm s
  | .slti e d a imm => Sys2Proof.Machine.execSlti e d a imm s
  | .sltui e d a imm => Sys2Proof.Machine.execSltui e d a imm s
  | .lui e d imm => Sys2Proof.Machine.execLui e d imm s
  | .slli e d a imm => Sys2Proof.Machine.execSlli e d a imm s
  | .srli e d a imm => Sys2Proof.Machine.execSrli e d a imm s
  | .srai e d a imm => Sys2Proof.Machine.execSrai e d a imm s
  | .lb e d a imm => Sys2Proof.Machine.execLb e d a imm s
  | .lh e d a imm => Sys2Proof.Machine.execLh e d a imm s
  | .lw e d a imm => Sys2Proof.Machine.execLw e d a imm s
  | .ld e d a imm => Sys2Proof.Machine.execLd e d a imm s
  | .lbu e d a imm => Sys2Proof.Machine.execLbu e d a imm s
  | .lhu e d a imm => Sys2Proof.Machine.execLhu e d a imm s
  | .lwu e d a imm => Sys2Proof.Machine.execLwu e d a imm s
  | .fld e d a imm => Sys2Proof.Machine.execFld e d a imm s
  | .sb e d a imm => Sys2Proof.Machine.execSb e d a imm s
  | .sh e d a imm => Sys2Proof.Machine.execSh e d a imm s
  | .sw e d a imm => Sys2Proof.Machine.execSw e d a imm s
  | .sd e d a imm => Sys2Proof.Machine.execSd e d a imm s
  | .fsd e d a imm => Sys2Proof.Machine.execFsd e d a imm s
  | .beq e a b off => Sys2Proof.Machine.execBeq e a b off s
  | .bne e a b off => Sys2Proof.Machine.execBne e a b off s
  | .blt e a b off => Sys2Proof.Machine.execBlt e a b off s
  | .bge e a b off => Sys2Proof.Machine.execBge e a b off s
  | .bltu e a b off => Sys2Proof.Machine.execBltu e a b off s
  | .bgeu e a b off => Sys2Proof.Machine.execBgeu e a b off s
  | .j e off => Sys2Proof.Machine.execJ e off s
  | .jal e off => Sys2Proof.Machine.execJal e off s
  | .jalr e d a imm => Sys2Proof.Machine.execJalr e d a imm s
  | .lld e d a => Sys2Proof.Machine.execLld e d a s
  | .scd e d a b => Sys2Proof.Machine.execScd e d a b s
  | .amoadd e d a b => Sys2Proof.Machine.execAmoadd e d a b s
  | .amoswp e d a b => Sys2Proof.Machine.execAmoswp e d a b s
  | .amocas e d a b c => Sys2Proof.Machine.execAmocas e d a b c s
  | .mbsend c d a b => Sys2Proof.Machine.execMbsend c d a b s
  | .mbrecv c d a b => Sys2Proof.Machine.execMbrecv c d a b s
  | .mbwait c a => Sys2Proof.Machine.execMbwait c a s
  | .mbstat c d a => Sys2Proof.Machine.execMbstat c d a s
  | .qpush e d a b c => Sys2Proof.Machine.execQpush e d a b c s
  | .qpop e d a b => Sys2Proof.Machine.execQpop e d a b s
  | .qwait c a => Sys2Proof.Machine.execQwait c a s
  | .qstat e d a => Sys2Proof.Machine.execQstat e d a s
  | .chrd c d a => Sys2Proof.Machine.execChrd c d a s
  | .chwr c a b => Sys2Proof.Machine.execChwr c a b s
  | .chsync c => Sys2Proof.Machine.execChsync c s
  | .kload c d a b => Sys2Proof.Machine.execKload c d a b s
  | .kop c d a => Sys2Proof.Machine.execKop c d a s
  | .kwait c d a => Sys2Proof.Machine.execKwait c d a s
  | .krand c d => Sys2Proof.Machine.execKrand c d s
  | .kfree c a => Sys2Proof.Machine.execKfree c a s
  | .kgen c d a => Sys2Proof.Machine.execKgen c d a s
  | .bring c d a => Sys2Proof.Machine.execBring c d a s
  | .bstat c d => Sys2Proof.Machine.execBstat c d s
  | .clmrd c d => Sys2Proof.Machine.execClmrd c d s
  | .clmseen c d => Sys2Proof.Machine.execClmseen c d s
  | .clmnext c d => Sys2Proof.Machine.execClmnext c d s
  | .healthConfirm c d => Sys2Proof.Machine.execHealthConfirm c d s
  | .fence e => Sys2Proof.Machine.execFence e s
  | .fenceio c => Sys2Proof.Machine.execFenceio c s
  | .dcflush c a => Sys2Proof.Machine.execDcflush c a s
  | .dcinv c a => Sys2Proof.Machine.execDcinv c a s
  | .icinv c => Sys2Proof.Machine.execIcinv c s
  | .mfc e d idx => Sys2Proof.Machine.execMfc e d idx s
  | .mtc e a idx => Sys2Proof.Machine.execMtc e a idx s
  | .trap c code => Sys2Proof.Machine.execTrap c code s
  | .eret c => Sys2Proof.Machine.execEret c s
  | .wfi c => Sys2Proof.Machine.execWfi c s
  | .brk e => Sys2Proof.Machine.execBrk e s
  | .take n d => Sys2Proof.Machine.execTake n d s
  | .emit n a b => Sys2Proof.Machine.execEmit n a b s
  | .cancel n a => Sys2Proof.Machine.execCancel n a s
  | .rclaim n d a b c => Sys2Proof.Machine.execRclaim n d a b c s
  | .abandon n => Sys2Proof.Machine.execAbandon n s
  | .nodeOvertime e => Sys2Proof.Machine.execNodeOvertime e s
  | .arm q d a b => Sys2Proof.Machine.execArm q d a b s
  | .disarm q d a => Sys2Proof.Machine.execDisarm q d a s
  | .waitt q a => Sys2Proof.Machine.execWaitt q a s
  | .waite q d a b => Sys2Proof.Machine.execWaite q d a b s
  | .xget q d a b c => Sys2Proof.Machine.execXget q d a b c s
  | .xput q d a b c => Sys2Proof.Machine.execXput q d a b c s
  | .xwait q a => Sys2Proof.Machine.execXwait q a s
  | .adds q d a b => Sys2Proof.Machine.execAdds q d a b s
  | .subs q d a b => Sys2Proof.Machine.execSubs q d a b s
  | .shrr q d a b => Sys2Proof.Machine.execShrr q d a b s
  | .mulq q d a b c => Sys2Proof.Machine.execMulq q d a b c s
  | .phase q d a b => Sys2Proof.Machine.execPhase q d a b s
  | .mag q d a b => Sys2Proof.Machine.execMag q d a b s
  | .ncow q a b c => Sys2Proof.Machine.execNcow q a b c s
  | .chcfg q d a b => Sys2Proof.Machine.execChcfg q d a b s
  | .dump q d a => Sys2Proof.Machine.execDump q d a s
  | .txload q d a b c => Sys2Proof.Machine.execTxload q d a b c s
  | .rxget q d a => Sys2Proof.Machine.execRxget q d a s
  | .qseqRunaway q => Sys2Proof.Machine.execQseqRunaway q s
  | .actionFire q slot rssi => Sys2Proof.Machine.execActionFire q slot rssi s
  | .xferComplete q => Sys2Proof.Machine.execXferComplete q s
  | .channelDump a slot preamble sync => Sys2Proof.Machine.execChannelDump a slot preamble sync s
  | .retireAccepted e same => Sys2Proof.Machine.execRetireAccepted e same s
  | .parkedRelease flow => Sys2Proof.Machine.execParkedRelease flow s
  | .holeRelease flow => Sys2Proof.Machine.execHoleRelease flow s
  | .engfailClear e => Sys2Proof.Machine.execEngfailClear e s
  | .dispatch e => Sys2Proof.Machine.execDispatch e s
  | .injectDoorbell => Sys2Proof.Machine.execInjectDoorbell s
  | .injectResume => Sys2Proof.Machine.execInjectResume s
  | .millCutStart => Sys2Proof.Machine.execMillCutStart s
  | .millCutDone => Sys2Proof.Machine.execMillCutDone s
  | .millRestore => Sys2Proof.Machine.execMillRestore s
  | .millRestoreDone => Sys2Proof.Machine.execMillRestoreDone s
  | .millRun => Sys2Proof.Machine.execMillRun s
  | .millStop => Sys2Proof.Machine.execMillStop s
  | .millHwreset => Sys2Proof.Machine.execMillHwreset s
  | .antennaAlign a => Sys2Proof.Machine.execAntennaAlign a s
  | .alignDone a pattern eye => Sys2Proof.Machine.execAlignDone a pattern eye s
  | .antennaRun a => Sys2Proof.Machine.execAntennaRun a s
  | .antennaStop a => Sys2Proof.Machine.execAntennaStop a s
  | .laneLost a => Sys2Proof.Machine.execLaneLost a s
  | .laneSlip st codes => Sys2Proof.Machine.execLaneSlip st codes s
  | .pulseBlank st codes => Sys2Proof.Machine.execPulseBlank st codes s
  | .msBoundary codes => Sys2Proof.Machine.execMsBoundary codes s
  | .agcPeriodEnd st codes => Sys2Proof.Machine.execAgcPeriodEnd st codes s
  | .spectrumPublish st => Sys2Proof.Machine.execSpectrumPublish st s
  | .agcLearn st => Sys2Proof.Machine.execAgcLearn st s
  | .learnDone st => Sys2Proof.Machine.execLearnDone st s
  | .grinderRun => Sys2Proof.Machine.execGrinderRun s
  | .grinderStop => Sys2Proof.Machine.execGrinderStop s
  | .grinderDoorbell => Sys2Proof.Machine.execGrinderDoorbell s
  | .searchTake e => Sys2Proof.Machine.execSearchTake e s
  | .captureStart e => Sys2Proof.Machine.execCaptureStart e s
  | .captureEnd e => Sys2Proof.Machine.execCaptureEnd e s
  | .searchDone e peak => Sys2Proof.Machine.execSearchDone e peak s
  | .resultResume e => Sys2Proof.Machine.execResultResume e s
  | .correlRun a => Sys2Proof.Machine.execCorrelRun a s
  | .correlStop a => Sys2Proof.Machine.execCorrelStop a s
  | .calnow => Sys2Proof.Machine.execCalnow s
  | .calPassStart a => Sys2Proof.Machine.execCalPassStart a s
  | .calPassDone a d0 d1 spread => Sys2Proof.Machine.execCalPassDone a d0 d1 spread s
  | .calPassDiscard a => Sys2Proof.Machine.execCalPassDiscard a s
  | .calStale a => Sys2Proof.Machine.execCalStale a s
  | .gseqStart a => Sys2Proof.Machine.execGseqStart a s
  | .gseqHalt a => Sys2Proof.Machine.execGseqHalt a s
  | .trackStart a => Sys2Proof.Machine.execTrackStart a s
  | .trackAssist a => Sys2Proof.Machine.execTrackAssist a s
  | .trackStop a => Sys2Proof.Machine.execTrackStop a s
  | .channelPllLock a slot => Sys2Proof.Machine.execChannelPllLock a slot s
  | .pullinExpired a slot strong => Sys2Proof.Machine.execPullinExpired a slot strong s
  | .channelLoss a slot => Sys2Proof.Machine.execChannelLoss a slot s
  | .pllToCoast a slot => Sys2Proof.Machine.execPllToCoast a slot s
  | .pllToFll a slot => Sys2Proof.Machine.execPllToFll a slot s
  | .coastToPullin a slot => Sys2Proof.Machine.execCoastToPullin a slot s
  | .coastExpired a slot => Sys2Proof.Machine.execCoastExpired a slot s
  | .measLate a => Sys2Proof.Machine.execMeasLate a s
  | .clockSolution tsb sol => Sys2Proof.Machine.execClockSolution tsb sol s
  | .holdoverEnter => Sys2Proof.Machine.execHoldoverEnter s
  | .holdoverOutOfLimit => Sys2Proof.Machine.execHoldoverOutOfLimit s
  | .reacquireDecision => Sys2Proof.Machine.execReacquireDecision s
  | .firstDecision => Sys2Proof.Machine.execFirstDecision s
  | .trackingEnter => Sys2Proof.Machine.execTrackingEnter s
  | .corrOkSet => Sys2Proof.Machine.execCorrOkSet s
  | .correctionEpoch sats fix => Sys2Proof.Machine.execCorrectionEpoch sats fix s
  | .surveyDone sigma => Sys2Proof.Machine.execSurveyDone sigma s
  | .corrStale => Sys2Proof.Machine.execCorrStale s
  | .corrStopped => Sys2Proof.Machine.execCorrStopped s
  | .corrResumed => Sys2Proof.Machine.execCorrResumed s
  | .residualReport payload => Sys2Proof.Machine.execResidualReport payload s
  | .mapBatch => Sys2Proof.Machine.execMapBatch s
  | .claim same => Sys2Proof.Machine.execClaim same s
  | .release same => Sys2Proof.Machine.execRelease same s
  | .confirm same => Sys2Proof.Machine.execConfirm same s
  | .closeGroup same => Sys2Proof.Machine.execCloseGroup same s
  | .openGroup same => Sys2Proof.Machine.execOpenGroup same s
  | .taskPost same => Sys2Proof.Machine.execTaskPost same s
  | .award same => Sys2Proof.Machine.execAward same s
  | .taskDone same => Sys2Proof.Machine.execTaskDone same s
  | .taskCancel same => Sys2Proof.Machine.execTaskCancel same s
  | .reeveLoad => Sys2Proof.Machine.execReeveLoad s
  | .graphLoadDone => Sys2Proof.Machine.execGraphLoadDone s
  | .reeveRestore => Sys2Proof.Machine.execReeveRestore s
  | .reeveRestoreDone => Sys2Proof.Machine.execReeveRestoreDone s
  | .reeveRun => Sys2Proof.Machine.execReeveRun s
  | .reeveStop => Sys2Proof.Machine.execReeveStop s
  | .reeveClear => Sys2Proof.Machine.execReeveClear s
  | .radioRun n discards => Sys2Proof.Machine.execRadioRun n discards s
  | .xcvrNoResponse n => Sys2Proof.Machine.execXcvrNoResponse n s
  | .radioStop n => Sys2Proof.Machine.execRadioStop n s
  | .portTxload n buf => Sys2Proof.Machine.execPortTxload n buf s
  | .portSetch n dest next => Sys2Proof.Machine.execPortSetch n dest next s
  | .lbtRetry n rssi => Sys2Proof.Machine.execLbtRetry n rssi s
  | .txComplete n => Sys2Proof.Machine.execTxComplete n s
  | .rxtsRise n off => Sys2Proof.Machine.execRxtsRise n off s
  | .rxtsFall n frame rssi fcs => Sys2Proof.Machine.execRxtsFall n frame rssi fcs s
  | .frameReceive n => Sys2Proof.Machine.execFrameReceive n s
  | .nbrset index line => Sys2Proof.Machine.execNbrset index line s
  | .nbrsetApply => Sys2Proof.Machine.execNbrsetApply s
  | .supervisionLost n => Sys2Proof.Machine.execSupervisionLost n s
  | .heldFrameExpire n j => Sys2Proof.Machine.execHeldFrameExpire n j s
  | .bellRun => Sys2Proof.Machine.execBellRun s
  | .estopChannelOpen n chanB => Sys2Proof.Machine.execEstopChannelOpen n chanB s
  | .estopTestPulse n chanB readHigh => Sys2Proof.Machine.execEstopTestPulse n chanB readHigh s
  | .estopDiscrepancy n => Sys2Proof.Machine.execEstopDiscrepancy n s
  | .eststatClear testfail discrep => Sys2Proof.Machine.execEststatClear testfail discrep s
  | .stopCommand => Sys2Proof.Machine.execStopCommand s
  | .releaseCountDurable => Sys2Proof.Machine.execReleaseCountDurable s
  | .partnerReleaseMsg => Sys2Proof.Machine.execPartnerReleaseMsg s
  | .partnerReportSend => Sys2Proof.Machine.execPartnerReportSend s
  | .partnerReport cls => Sys2Proof.Machine.execPartnerReport cls s
  | .partnerReportLost => Sys2Proof.Machine.execPartnerReportLost s
  | .bellWindow k rssi => Sys2Proof.Machine.execBellWindow k rssi s
  | .bellCcaRetry port rssi => Sys2Proof.Machine.execBellCcaRetry port rssi s
  | .secondVoice port rssi heard => Sys2Proof.Machine.execSecondVoice port rssi heard s
  | .bellAck port frame off => Sys2Proof.Machine.execBellAck port frame off s
  | .ackOverdue => Sys2Proof.Machine.execAckOverdue s
  | .queueEnable q => Sys2Proof.Machine.execQueueEnable q s
  | .queueDisable q => Sys2Proof.Machine.execQueueDisable q s
  | .queueFlush q => Sys2Proof.Machine.execQueueFlush q s
  | .markerClose q => Sys2Proof.Machine.execMarkerClose q s
  | .queueItemVisible q => Sys2Proof.Machine.execQueueItemVisible q s
  | .privStall q => Sys2Proof.Machine.execPrivStall q s
  | .privWriteResume q => Sys2Proof.Machine.execPrivWriteResume q s
  | .millRingPoll q => Sys2Proof.Machine.execMillRingPoll q s
  | .netRun k => Sys2Proof.Machine.execNetRun k s
  | .serdesNoLock k => Sys2Proof.Machine.execSerdesNoLock k s
  | .linkUp k speed => Sys2Proof.Machine.execLinkUp k speed s
  | .linkDown k => Sys2Proof.Machine.execLinkDown k s
  | .netStop k => Sys2Proof.Machine.execNetStop k s
  | .ethFrameRx k frame fcs sub res => Sys2Proof.Machine.execEthFrameRx k frame fcs sub res s
  | .hubFrameTx gated subs => Sys2Proof.Machine.execHubFrameTx gated subs s
  | .txTimestampReturn => Sys2Proof.Machine.execTxTimestampReturn s
  | .timeFeed => Sys2Proof.Machine.execTimeFeed s
  | .feedMeas => Sys2Proof.Machine.execFeedMeas s
  | .feedSlew => Sys2Proof.Machine.execFeedSlew s
  | .feedStep => Sys2Proof.Machine.execFeedStep s
  | .feedHold => Sys2Proof.Machine.execFeedHold s
  | .feedSet => Sys2Proof.Machine.execFeedSet s
  | .setLoad => Sys2Proof.Machine.execSetLoad s
  | .feedTimeout => Sys2Proof.Machine.execFeedTimeout s
  | .slewComplete => Sys2Proof.Machine.execSlewComplete s
  | .timeSnap => Sys2Proof.Machine.execTimeSnap s
  | .plinkRun => Sys2Proof.Machine.execPlinkRun s
  | .plinkStop => Sys2Proof.Machine.execPlinkStop s
  | .linkTrainDone => Sys2Proof.Machine.execLinkTrainDone s
  | .laneDegraded => Sys2Proof.Machine.execLaneDegraded s
  | .plinkLinkDown => Sys2Proof.Machine.execPlinkLinkDown s
  | .creditReturn unit blocks => Sys2Proof.Machine.execCreditReturn unit blocks s
  | .alive => Sys2Proof.Machine.execAlive s
  | .heartbeatSend => Sys2Proof.Machine.execHeartbeatSend s
  | .heartbeatReceive m t1 t4 => Sys2Proof.Machine.execHeartbeatReceive m t1 t4 s
  | .heartbeatTimeout part => Sys2Proof.Machine.execHeartbeatTimeout part s
  | .partnerWireFall part => Sys2Proof.Machine.execPartnerWireFall part s
  | .partnerWireRise tie => Sys2Proof.Machine.execPartnerWireRise tie s
  | .helloSend => Sys2Proof.Machine.execHelloSend s
  | .helloReceive m => Sys2Proof.Machine.execHelloReceive m s
  | .seekingTimeout => Sys2Proof.Machine.execSeekingTimeout s
  | .leave m => Sys2Proof.Machine.execLeave m s
  | .handbackReq m => Sys2Proof.Machine.execHandbackReq m s
  | .handback m => Sys2Proof.Machine.execHandback m s
  | .yield => Sys2Proof.Machine.execYield s
  | .yieldEnd => Sys2Proof.Machine.execYieldEnd s
  | .hold => Sys2Proof.Machine.execHold s
  | .claimStageRelease => Sys2Proof.Machine.execClaimStageRelease s
  | .journalReceived raw part => Sys2Proof.Machine.execJournalReceived raw part s
  | .journalCommitDone => Sys2Proof.Machine.execJournalCommitDone s
  | .journalAckReceived m => Sys2Proof.Machine.execJournalAckReceived m s
  | .takeoverDecision => Sys2Proof.Machine.execTakeoverDecision s
  | .pairDropped => Sys2Proof.Machine.execPairDropped s
  | .insyncStale => Sys2Proof.Machine.execInsyncStale s
  | .encrypt => Sys2Proof.Machine.execEncrypt s
  | .decrypt => Sys2Proof.Machine.execDecrypt s
  | .mac => Sys2Proof.Machine.execMac s
  | .macverify => Sys2Proof.Machine.execMacverify s
  | .hash => Sys2Proof.Machine.execHash s
  | .sign => Sys2Proof.Machine.execSign s
  | .verify => Sys2Proof.Machine.execVerify s
  | .ecdh => Sys2Proof.Machine.execEcdh s
  | .generate pairwiseOk => Sys2Proof.Machine.execGenerate pairwiseOk s
  | .wrap => Sys2Proof.Machine.execWrap s
  | .importKey => Sys2Proof.Machine.execImport s
  | .pubkey => Sys2Proof.Machine.execPubkey s
  | .rand => Sys2Proof.Machine.execRand s
  | .lcnonce => Sys2Proof.Machine.execLcnonce s
  | .lcstep => Sys2Proof.Machine.execLcstep s
  | .owner => Sys2Proof.Machine.execOwner s
  | .kwJobDone => Sys2Proof.Machine.execKwJobDone s
  | .kwPartnerUpdate msg mic targets => Sys2Proof.Machine.execKwPartnerUpdate msg mic targets s
  | .kwPartnerTimeout => Sys2Proof.Machine.execKwPartnerTimeout s
  | .kwMerge theirs => Sys2Proof.Machine.execKwMerge theirs s
  | .kwEntropy => Sys2Proof.Machine.execKwEntropy s
  | .entropyRetest ok => Sys2Proof.Machine.execEntropyRetest ok s
  | .drbgReseed => Sys2Proof.Machine.execDrbgReseed s
  | .kwSelftest ok => Sys2Proof.Machine.execKwSelftest ok s
  | .debugUnlock token => Sys2Proof.Machine.execDebugUnlock token s
  | .debugClose => Sys2Proof.Machine.execDebugClose s
  | .resetAssert => Sys2Proof.Machine.execResetAssert s
  | .resetRelease lockstep ok partialFuse copyOk => Sys2Proof.Machine.execResetRelease lockstep ok partialFuse copyOk s
  | .recoveryMessage msg => Sys2Proof.Machine.execRecoveryMessage msg s
  | .imgload c d a => Sys2Proof.Machine.execImgload c d a s
  | .erase c d a => Sys2Proof.Machine.execErase c d a s
  | .write c d a => Sys2Proof.Machine.execWrite c d a s
  | .commit c d a => Sys2Proof.Machine.execCommit c d a s
  | .uncommit c d a => Sys2Proof.Machine.execUncommit c d a s
  | .wrgold c d a => Sys2Proof.Machine.execWrgold c d a s
  | .lockgold c d a => Sys2Proof.Machine.execLockgold c d a s
  | .data c d a => Sys2Proof.Machine.execData c d a s
  | .ident c d a => Sys2Proof.Machine.execIdent c d a s
  | .bootReqDone => Sys2Proof.Machine.execBootReqDone s
  | .xcvrLoadFail n => Sys2Proof.Machine.execXcvrLoadFail n s
  | .cycstart => Sys2Proof.Machine.execCycstart s
  | .cycleStart => Sys2Proof.Machine.execCycleStart s
  | .bootReset => Sys2Proof.Machine.execBootReset s
  | .trialExpired => Sys2Proof.Machine.execTrialExpired s
  | .loopRun => Sys2Proof.Machine.execLoopRun s
  | .loopStop => Sys2Proof.Machine.execLoopStop s
  | .loopRestore => Sys2Proof.Machine.execLoopRestore s
  | .loopSample slot => Sys2Proof.Machine.execLoopSample slot s
  | .loopCut => Sys2Proof.Machine.execLoopCut s
  | .sampleFrame port item => Sys2Proof.Machine.execSampleFrame port item s
  | .startGrant => Sys2Proof.Machine.execStartGrant s
  | .axisRun => Sys2Proof.Machine.execAxisRun s
  | .axisBlockStop => Sys2Proof.Machine.execAxisBlockStop s
  | .axisRestore => Sys2Proof.Machine.execAxisRestore s
  | .axisOn a => Sys2Proof.Machine.execAxisOn a s
  | .axisOff a => Sys2Proof.Machine.execAxisOff a s
  | .move a => Sys2Proof.Machine.execMove a s
  | .vel a => Sys2Proof.Machine.execVel a s
  | .home a => Sys2Proof.Machine.execHome a s
  | .axisStop a => Sys2Proof.Machine.execAxisStop a s
  | .setpos a => Sys2Proof.Machine.execSetpos a s
  | .qstop a => Sys2Proof.Machine.execQstop a s
  | .coarseStep a => Sys2Proof.Machine.execCoarseStep a s
  | .microstepIssue a => Sys2Proof.Machine.execMicrostepIssue a s
  | .stepEdge a dirHigh wait => Sys2Proof.Machine.execStepEdge a dirHigh wait s
  | .limitStop a => Sys2Proof.Machine.execLimitStop a s
  | .homeEdge a => Sys2Proof.Machine.execHomeEdge a s
  | .axisStandstill a => Sys2Proof.Machine.execAxisStandstill a s
  | .axisCut => Sys2Proof.Machine.execAxisCut s
  | .tallyRun => Sys2Proof.Machine.execTallyRun s
  | .tallyStop => Sys2Proof.Machine.execTallyStop s
  | .tallyClear => Sys2Proof.Machine.execTallyClear s
  | .tallySnap => Sys2Proof.Machine.execTallySnap s
  | .intervalEnd => Sys2Proof.Machine.execIntervalEnd s
  | .tallySaveDone => Sys2Proof.Machine.execTallySaveDone s
  | .flushDone => Sys2Proof.Machine.execFlushDone s
  | .powerSequenceStart => Sys2Proof.Machine.execPowerSequenceStart s
  | .railPowerGood => Sys2Proof.Machine.execRailPowerGood s
  | .railStepTimeout => Sys2Proof.Machine.execRailStepTimeout s
  | .sequenceRetry => Sys2Proof.Machine.execSequenceRetry s
  | .railOffStep => Sys2Proof.Machine.execRailOffStep s
  | .pmbusPoll polls => Sys2Proof.Machine.execPmbusPoll polls s
  | .pmalert polls => Sys2Proof.Machine.execPmalert polls s
  | .avsRead codes => Sys2Proof.Machine.execAvsRead codes s
  | .refclkLost => Sys2Proof.Machine.execRefclkLost s
  | .refclkValid => Sys2Proof.Machine.execRefclkValid s
  | .pllUnlock => Sys2Proof.Machine.execPllUnlock s
  | .islandGrant => Sys2Proof.Machine.execIslandGrant s
  | .islandReady j => Sys2Proof.Machine.execIslandReady j s
  | .islandFailed j => Sys2Proof.Machine.execIslandFailed j s
  | .islfailClear j => Sys2Proof.Machine.execIslfailClear j s
  | .islandSleep j => Sys2Proof.Machine.execIslandSleep j s
  | .islandWake j => Sys2Proof.Machine.execIslandWake j s
  | .demandWake j => Sys2Proof.Machine.execDemandWake j s
  | .sleep => Sys2Proof.Machine.execSleep s
  | .deviceWake => Sys2Proof.Machine.execDeviceWake s
  | .wakeGpio pin => Sys2Proof.Machine.execWakeGpio pin s
  | .thermalSample temps => Sys2Proof.Machine.execThermalSample temps s
  | .critHoldExpire => Sys2Proof.Machine.execCritHoldExpire s
  | .railSample mv => Sys2Proof.Machine.execRailSample mv s
  | .pfwAssert => Sys2Proof.Machine.execPfwAssert s
  | .pfwRelease => Sys2Proof.Machine.execPfwRelease s
  | .pfwReset => Sys2Proof.Machine.execPfwReset s
  | .kwPartnerAck => Sys2Proof.Machine.execKwPartnerAck s
  | .estopChannelClose n chanB => Sys2Proof.Machine.execEstopChannelClose n chanB s
  | .axisInputChange a pin level => Sys2Proof.Machine.execAxisInputChange a pin level s
  | .powerLoss => Sys2Proof.Machine.execPowerLoss s
  | .pfwResetHoldEnd => Sys2Proof.Machine.execPfwResetHoldEnd s
  | .soloRequestWindowClose => Sys2Proof.Machine.execSoloRequestWindowClose s

end Sys2Proof.Machine
end

