-- ==== Sys2Proof/Safety.lean ====
section
/-! DEFINITION. What a safe state is: the form in which memory is held, and what 02 says every hub core's words look like. -/

namespace Sys2Proof.Machine

/-- What the spec says of a hub core at every time: bits [63:40] and [1:0] of the program counter are 0 (02 Table 2.2), and so are those of the
return address that reloads it; STATUS [63:5] is reserved (Table 2.4); EVEC [11:0] is 0 (Table 2.3); register 0 holds nothing
(Table 2.2); the Chest write queue has 16 entries (R58). -/
structure CoreOk (h : HubCore) : Prop where
  pc : pcFit h.pc = h.pc
  epc : pcFit h.epc = h.epc
  status : h.status.toNat < 32
  evec : h.evec.toNat % 4096 = 0
  g0 : Map.find h.g 0 = none
  chest : h.chestQ.length ≤ 16

/-- The invariant of the machine: memory in its canonical form, and the three cores as `CoreOk` says. -/
structure Inv (s : State) : Prop where
  mem : Memory.wf s.mem = true
  kernel : CoreOk s.kernel
  core2 : CoreOk s.core2
  core3 : CoreOk s.core3

/-- The command, at the state, answers a next state, and of that state `P` holds. -/
def Gives (c : Instr) (s : State) (P : State → Prop) : Prop := ∃ t, exec c s = .next t ∧ P t

/-- A value on 64 bits for a hub core or node engine, on 32 bits for a sequencer (02 R46, 03 R80). -/
def onEngine (e : Engine) (v : Word) (w : Word32) : Word :=
  match e with
  | .seq _ => w.setWidth 64
  | _ => v

/-- What an instruction does that writes general register `d` and goes on: `d` reads the value (register 0 reads as before), every
other register reads as before, the program counter has gone on by 4, a sequencer has counted one instruction more (03 R86), and
nothing else of the whole state has changed. -/
def WritesG (s : State) (e : Engine) (d : Reg) (v : Word) (t : State) : Prop :=
  match e with
  | .hub c => ∃ g, t = s.setCore c { s.core c with g := g, pc := pcFit ((s.core c).pc + 4) } ∧
      ∀ r, regRead g r = if r = d ∧ d ≠ 0 then v else regRead (s.core c).g r
  | .node n => ∃ g, t = s.setNode n.val { s.node n.val with g := g, pc := (s.node n.val).pc + 4 } ∧
      ∀ r, regRead g r = if r = d ∧ d ≠ 0 then v else regRead (s.node n.val).g r
  | .seq q => ∃ g, t = s.setSeq q.val { s.seq q.val with g := g, pc := ((s.seq q.val).pc + 4) % 2 ^ 32, count := (s.seq q.val).count + 1 } ∧
      ∀ r, regRead g r = if r = d ∧ d ≠ 0 then v.setWidth 32 else regRead (s.seq q.val).g r

/-- The same for a floating point register of a hub core or node engine, whose sticky flags `flags` are added to FCSR (02 R49). -/
def WritesF (s : State) (e : Engine) (d : Reg) (v : Word) (flags : Nat) (t : State) : Prop :=
  match e with
  | .hub c => ∃ f, t = s.setCore c { s.core c with
        f := f, fcsr := (s.core c).fcsr ||| BitVec.ofNat 64 flags, pc := pcFit ((s.core c).pc + 4) } ∧
      ∀ r : Reg, Map.getD f r.toNat 0 = if r = d then v else Map.getD (s.core c).f r.toNat 0
  | .node n => ∃ f, t = s.setNode n.val { s.node n.val with
        f := f, fcsr := (s.node n.val).fcsr ||| BitVec.ofNat 64 flags, pc := (s.node n.val).pc + 4 } ∧
      ∀ r : Reg, Map.getD f r.toNat 0 = if r = d then v else Map.getD (s.node n.val).f r.toNat 0
  | .seq _ => False

/-- A hub core or node engine writes general register `d` from floating point operands, with sticky flags. -/
def WritesGF (s : State) (e : Engine) (d : Reg) (v : Word) (flags : Nat) (t : State) : Prop :=
  match e with
  | .hub c => ∃ g, t = s.setCore c { s.core c with
        g := g, fcsr := (s.core c).fcsr ||| BitVec.ofNat 64 flags, pc := pcFit ((s.core c).pc + 4) } ∧
      ∀ r, regRead g r = if r = d ∧ d ≠ 0 then v else regRead (s.core c).g r
  | .node n => ∃ g, t = s.setNode n.val { s.node n.val with
        g := g, fcsr := (s.node n.val).fcsr ||| BitVec.ofNat 64 flags, pc := (s.node n.val).pc + 4 } ∧
      ∀ r, regRead g r = if r = d ∧ d ≠ 0 then v else regRead (s.node n.val).g r
  | .seq _ => False

/-- An instruction that changes nothing but goes on to address `v`: a hub core's pc keeps its bits [63:40] and [1:0] at 0. -/
def GoesTo (s : State) (e : Engine) (v : Word) (t : State) : Prop :=
  match e with
  | .hub c => t = s.setCore c { s.core c with pc := pcFit v }
  | .node n => t = s.setNode n.val { s.node n.val with pc := v }
  | .seq q => t = s.setSeq q.val { s.seq q.val with pc := v.toNat % 2 ^ 32, count := (s.seq q.val).count + 1 }

/-- A jump that writes its link: register `d` reads the link, every other reads as before, and the engine goes on at `v`. -/
def JumpsAndLinks (s : State) (e : Engine) (d : Reg) (link v : Word) (t : State) : Prop :=
  match e with
  | .hub c => ∃ g, t = s.setCore c { s.core c with g := g, pc := pcFit v } ∧
      ∀ r, regRead g r = if r = d ∧ d ≠ 0 then link else regRead (s.core c).g r
  | .node n => ∃ g, t = s.setNode n.val { s.node n.val with g := g, pc := v } ∧
      ∀ r, regRead g r = if r = d ∧ d ≠ 0 then link else regRead (s.node n.val).g r
  | .seq q => ∃ g, t = s.setSeq q.val { s.seq q.val with g := g, pc := v.toNat % 2 ^ 32, count := (s.seq q.val).count + 1 } ∧
      ∀ r, regRead g r = if r = d ∧ d ≠ 0 then link.setWidth 32 else regRead (s.seq q.val).g r

/-- An instruction of a hub core or sequencer that may have waited (02 R66) completes: `d` reads the value (register 0 reads as before),
every other register as before, the engine runs on at the next word, and nothing else has changed. -/
def Answers (s : State) (e : Engine) (d : Reg) (v : Word) (t : State) : Prop :=
  match e with
  | .hub c => ∃ g, t = s.setCore c { s.core c with g := g, run := .running, blocked := none, pc := pcFit ((s.core c).pc + 4) } ∧
      ∀ r, regRead g r = if r = d ∧ d ≠ 0 then v else regRead (s.core c).g r
  | .node _ => False
  | .seq q => ∃ g, t = s.setSeq q.val { s.seq q.val with
        g := g, run := .running, blocked := none, pc := ((s.seq q.val).pc + 4) % 2 ^ 32, count := (s.seq q.val).count + 1 } ∧
      ∀ r, regRead g r = if r = d ∧ d ≠ 0 then v.setWidth 32 else regRead (s.seq q.val).g r

/-- The same for an instruction with no result. -/
def GoesOn (s : State) (e : Engine) (t : State) : Prop :=
  match e with
  | .hub c => t = s.setCore c { s.core c with run := .running, blocked := none, pc := pcFit ((s.core c).pc + 4) }
  | .node n => t = s.setNode n.val { s.node n.val with pc := (s.node n.val).pc + 4 }
  | .seq q => t = s.setSeq q.val { s.seq q.val with
        run := .running, blocked := none, pc := ((s.seq q.val).pc + 4) % 2 ^ 32, count := (s.seq q.val).count + 1 }

/-- A hub core or sequencer waits in an instruction, which has no effect yet (02 R66). -/
def Waits (s : State) (e : Engine) (i : Instr) (t : State) : Prop :=
  match e with
  | .hub c => t = s.setCore c { s.core c with run := .waiting, blocked := some i }
  | .node _ => False
  | .seq q => t = s.setSeq q.val { s.seq q.val with run := .waiting, blocked := some i }

/-- A hub core enters its handler (02 R63): PLEVEL and PIE hold LEVEL and IE, LEVEL is 1, IE 0 and EXL 1; EPC, ECAUSE, EVAL and EADDR are
written; the core runs on at EVEC + `off`; its reservation is lost; registers, memory and every other word are as before. -/
def Enters (s : State) (c : Core) (epc : Word) (cause eval eaddr off : Nat) (t : State) : Prop :=
  ∃ w : Word, t = s.setCore c { s.core c with
      status := w, epc := pcFit epc, ecause := BitVec.ofNat 64 cause, eval := BitVec.ofNat 64 eval, eaddr := BitVec.ofNat 64 eaddr,
      pc := pcFit ((s.core c).evec + BitVec.ofNat 64 off), resv := none, run := .running, blocked := none } ∧
    ∀ i, w.getLsbD i = match i with
      | 0 => true
      | 2 => true
      | 3 => (s.core c).status.getLsbD 0
      | 4 => (s.core c).status.getLsbD 1
      | _ => false

/-- Of the state `s`, only the fields listed have changed, each to the value listed with it and its instance. -/
def SetsWords (s : State) (ws : List (Fld × Nat × Nat)) (t : State) : Prop :=
  t = { s with cw := t.cw } ∧ (∀ w ∈ ws, t.get w.1 w.2.1 = w.2.2) ∧
  ∀ f i j, (∀ w ∈ ws, f.key i j ≠ w.1.key w.2.1 0) → t.get f i j = s.get f i j

/-- A sequencer's wait ends with a value in `d`; the instructions since the last wait are counted from 0 again (03 R86). -/
def WaitEnds (s : State) (q : Fin 8) (d : Reg) (v : Word) (t : State) : Prop :=
  ∃ u, Answers s (.seq q) d v u ∧ t = u.setSeq q.val { u.seq q.val with count := 0 }

/-- A sequencer begins to wait, or goes on waiting. -/
def WaitBegins (s : State) (q : Fin 8) (i : Instr) (t : State) : Prop :=
  Waits (s.setSeq q.val { s.seq q.val with count := 0 }) (.seq q) i t

/-- The job at the head of the Keywell's queue can be executed (14 R357, R359, R360): it has the operation, its form is right, nothing of it has
been executed, no update is under way, and neither ERROR nor a debug session bars it. -/
structure JobReady (s : State) (j : KwJob) (op : Nat) : Prop where
  head : s.keywell.jobs.head? = some j
  op : j.op = op
  form : j.form = 0
  fresh : s.keywell.executed = none
  idle : s.keywell.update = none
  error : s.getB Fld.keywellStateError = false
  root : s.keywell.rootBlocked = false
  writes : s.keywell.stopped = true → j.writesEntry = false
  reads : s.jobTouch j = s

/-- The head job has ended with a code and `n` bytes of output; beside that the state is `u` (14 Table 14.11). -/
def JobEnds (u : State) (code n : Nat) (t : State) : Prop :=
  t = { u with keywell := { u.keywell with executed := some (BitVec.ofNat 64 (code + u.approved.toNat * 65536 + n * 2 ^ 32)) } }

/-- A byte as an engine addresses it: a hub core's is the one in the L2 where the L2 holds its line (02 R52); a node engine's local store and a
sequencer's DMEM are its own (03 R73, R80). -/
def State.engByte (s : State) (e : Engine) (x : Nat) : Byte :=
  match e with
  | .hub _ => s.hubByte x
  | .node k => if isLocal x then memByte (s.node k.val).store (x % 0x8000) else memByte s.mem x
  | .seq q => memByte (s.seq q.val).dmem x

/-- Whether what an engine's access of the address reaches is held in canonical form. -/
def State.engWf (s : State) (e : Engine) (a : Nat) : Bool :=
  match e with
  | .hub _ => Memory.wf s.mem
  | .node k => if isLocal a then Memory.wf (s.node k.val).store else Memory.wf s.mem
  | .seq q => Memory.wf (s.seq q.val).dmem

/-- Whether a write to `[a, a + n)` of the Granary or DRAM is made at once: its bank is on (19 R449), no shadow line of it is locked, and
none is frozen and not copied yet (13 R325). -/
def State.writable (s : State) (a n : Nat) : Bool :=
  !s.bankOff a n && (s.shadowLines a n = [] || !s.getB Fld.decantStateLocked) &&
  !(s.shadowLines a n).any fun l => s.decant.frozen.contains l

/-- Whether an engine's store of `n` bytes at `a` is made at once: a hub core's goes to the L2, and through it for a shadow region (02 Table
2.10). -/
def State.storeMade (s : State) (e : Engine) (a n : Nat) : Bool :=
  match e with
  | .hub _ => (!s.shadowLine (a / 64) || s.writable a n) && regionOf a ≠ .host
  | .node _ => isLocal a || s.writable a n
  | .seq _ => true

/-- No 64-bit word that `[a, a + n)` touches holds a single-bit error (01 R38). -/
abbrev State.clean (s : State) (a n : Nat) : Prop := ∀ w ∈ s.oneBit, overlaps a n (w * 8) 8 = false

/-- An access of `[a, a + n)` brings nothing else about (log 73): a hub core's line stands in the L2, or comes into an L2 that is empty, without an
error; a node engine's words of memory hold no single-bit error (01 R38). -/
def State.quiet (s : State) (e : Engine) (a n : Nat) : Prop :=
  match e with
  | .hub _ =>
    if cacheable a then
      (∃ x, Map.find s.l2 (a / 64) = some x ∧ x.bytes.length = 64) ∨
      (s.l2 = [] ∧ s.clean (a / 64 * 64) 64 ∧ s.poisonAt (a / 64 * 64) 64 = false)
    else s.clean a n
  | .node _ => isLocal a = true ∨ s.clean a n
  | .seq _ => True

/-- The `n` bytes from `a` up as an engine addresses them, as a little-endian number. -/
def State.engNum (s : State) (e : Engine) (a n : Nat) : Nat := leNat ((List.range n).map fun i => s.engByte e (a + i))

/-- A read has left everything as before but which lines the L2 holds, and the count of free values drawn. -/
def ReadOnly (s : State) (e : Engine) (t : State) : Prop :=
  t = { s with l2 := t.l2, fresh := t.fresh } ∧ ∀ x, t.engByte e x = s.engByte e x

/-- What a store leaves: every byte of `bs` stands at its address, every other byte reads as before; every register of every engine reads
as before, every core word but the pc of the storing core and the reservations too; and the engine has gone on by 4. -/
structure Stored (s : State) (e : Engine) (a : Nat) (bs : List Byte) (t : State) : Prop where
  bytes : ∀ x, x < 2 ^ 64 → t.engByte e x = if a ≤ x ∧ x < a + bs.length then bs.getD (x - a) 0 else s.engByte e x
  ram : (match e with
    | .hub _ => False
    | .node _ => isLocal a = true
    | .seq _ => True) → t.mem = s.mem
  regs : ∀ k r, t.rg k r = s.rg k r ∧ t.rf k r = s.rf k r
  words : ∀ k, { t.core k with pc := 0, resv := none } = { s.core k with pc := 0, resv := none }
  pc : t.pcOf e = match e with
    | .hub c => pcFit ((s.core c).pc + 4)
    | .node n => (s.node n.val).pc + 4
    | .seq q => BitVec.ofNat 64 (((s.seq q.val).pc + 4) % 2 ^ 32)
  pcs : ∀ k, k ≠ e → t.pcOf k = s.pcOf k
  fields : ∀ f i j, t.get f i j = s.get f i j

end Sys2Proof.Machine
end

