-- ==== Sys2Proof/Certificates/Slice0/Obligations.lean ====
section
/-! DEFINITION. The statements about this model, for the provers. -/

open Sys2Proof Sys2Proof.Machine

/-! ### The queue and the whole machine -/

/-- The command at the front of the queue is run with the queue's rest: a step is exec of it. -/
def Obligations.StepRunsFrontCommand : Prop :=
  ∀ (c : Instr) (l : List Instr) (s : State), step { s with pending := c :: l } = exec c { s with pending := l }

/-- On an empty queue the block idles (the model's choice, log 21). -/
def Obligations.IdleOnEmptyQueue : Prop := ∀ s : State, s.pending = [] → step s = .next s

/-- The state after reset meets the invariant. -/
def Obligations.ResetMeetsInvariant : Prop := Inv State.reset

/-- Every step from a state that meets the invariant, reached by a run or not, gives a state that meets it: memory stays in its canonical
form, the pc and EPC of every hub core keep bits [63:40] and [1:0] at 0, STATUS its reserved bits, EVEC its low 12 bits, register 0 holds
nothing, and a Chest write queue holds at most 16 entries. -/
def Obligations.StepKeepsInvariant : Prop := ∀ s t : State, Inv s → step s = .next t → Inv t

/-- Every command completes: no command of the table stops on any operands in any state, and none adds to, takes from or reorders the
commands that wait behind it. -/
def Obligations.EveryCommandCompletes : Prop := ∀ (c : Instr) (s : State), ∃ t, exec c s = .next t ∧ t.pending = s.pending

/-! ### Integer instructions -/

/-- The three-register arithmetic of Table 2.7 that every profile keeps, and the immediate forms (R46, R80): each instruction, on every engine
that executes it, writes its result and nothing else. ADDI, SLTI and SLTUI sign-extend, the logical forms zero-extend, LUI shifts by
16, and a shift amount in range shifts. -/
def Obligations.IntegerArithmetic : Prop :=
  (∀ (s : State) (e : Engine) (d a b : Reg), s.runs e = true → regsOk e [d, a, b] = true →
     let x := s.rg e a
     let y := s.rg e b
     let x' := x.setWidth 32
     let y' := y.setWidth 32
     Gives (.add e d a b) s (WritesG s e d (onEngine e (x + y) (x' + y'))) ∧
     Gives (.sub e d a b) s (WritesG s e d (onEngine e (x - y) (x' - y'))) ∧
     Gives (.and e d a b) s (WritesG s e d (x &&& y)) ∧
     Gives (.or e d a b) s (WritesG s e d (x ||| y)) ∧
     Gives (.xor e d a b) s (WritesG s e d (x ^^^ y)) ∧
     Gives (.sll e d a b) s (WritesG s e d (onEngine e (x <<< (y.toNat % 64)) (x' <<< (y.toNat % 32)))) ∧
     Gives (.srl e d a b) s (WritesG s e d (onEngine e (x >>> (y.toNat % 64)) (x' >>> (y.toNat % 32)))) ∧
     Gives (.sra e d a b) s (WritesG s e d (onEngine e (x.sshiftRight (y.toNat % 64)) (x'.sshiftRight (y.toNat % 32)))) ∧
     Gives (.slt e d a b) s (WritesG s e d (onEngine e (if x.toInt < y.toInt then 1 else 0) (if x'.toInt < y'.toInt then 1 else 0))) ∧
     Gives (.sltu e d a b) s (WritesG s e d (if x.toNat < y.toNat then 1 else 0)) ∧
     Gives (.min e d a b) s (WritesG s e d (onEngine e (if x.toInt < y.toInt then x else y) (if x'.toInt < y'.toInt then x' else y'))) ∧
     Gives (.max e d a b) s (WritesG s e d (onEngine e (if x.toInt < y.toInt then y else x) (if x'.toInt < y'.toInt then y' else x'))) ∧
     Gives (.minu e d a b) s (WritesG s e d (if x.toNat < y.toNat then x else y)) ∧
     Gives (.maxu e d a b) s (WritesG s e d (if x.toNat < y.toNat then y else x)) ∧
     Gives (.addw e d a b) s (WritesG s e d (onEngine e ((x' + y').signExtend 64) (x' + y'))) ∧
     Gives (.subw e d a b) s (WritesG s e d (onEngine e ((x' - y').signExtend 64) (x' - y')))) ∧
  (∀ (s : State) (e : Engine) (d a : Reg) (imm : BitVec 16), s.runs e = true → regsOk e [d, a] = true →
     let x := s.rg e a
     let x' := x.setWidth 32
     let i := imm.signExtend 64
     let i' := imm.signExtend 32
     Gives (.addi e d a imm) s (WritesG s e d (onEngine e (x + i) (x' + i'))) ∧
     Gives (.andi e d a imm) s (WritesG s e d (x &&& imm.zeroExtend 64)) ∧
     Gives (.ori e d a imm) s (WritesG s e d (x ||| imm.zeroExtend 64)) ∧
     Gives (.xori e d a imm) s (WritesG s e d (x ^^^ imm.zeroExtend 64)) ∧
     Gives (.slti e d a imm) s (WritesG s e d (onEngine e (if x.toInt < i.toInt then 1 else 0) (if x'.toInt < i'.toInt then 1 else 0))) ∧
     Gives (.sltui e d a imm) s (WritesG s e d (onEngine e (if x.toNat < i.toNat then 1 else 0) (if x'.toNat < i'.toNat then 1 else 0))) ∧
     Gives (.lui e d imm) s (WritesG s e d (onEngine e (i <<< 16) (imm.zeroExtend 32 <<< 16))) ∧
     (shiftOk e imm = true →
       Gives (.slli e d a imm) s (WritesG s e d (onEngine e (x <<< imm.toNat) (x' <<< imm.toNat))) ∧
       Gives (.srli e d a imm) s (WritesG s e d (onEngine e (x >>> imm.toNat) (x' >>> imm.toNat))) ∧
       Gives (.srai e d a imm) s (WritesG s e d (onEngine e (x.sshiftRight imm.toNat) (x'.sshiftRight imm.toNat)))))

/-- The bit operations, select, multiplications and multiply-add of Table 2.7 that every profile keeps; and the division instructions and MULW
of hub cores and node engines, with R48's results for a divisor of 0 and for -2^63 by -1: each completes with its result, on any operands and
whatever interrupts are pending (R48). -/
def Obligations.BitsMultiplyAndDivide : Prop :=
  (∀ (s : State) (e : Engine) (d a b c : Reg), s.runs e = true → regsOk e [d, a, b, c] = true →
     let x := s.rg e a
     let y := s.rg e b
     let z := s.rg e c
     let x' := x.setWidth 32
     let y' := y.setWidth 32
     Gives (.clz e d a) s (WritesG s e d (onEngine e (BitVec.ofNat 64 (clz 64 x)) (BitVec.ofNat 32 (clz 32 x')))) ∧
     Gives (.ctz e d a) s (WritesG s e d (onEngine e (BitVec.ofNat 64 (ctz 64 x)) (BitVec.ofNat 32 (ctz 32 x')))) ∧
     Gives (.popc e d a) s (WritesG s e d (onEngine e (BitVec.ofNat 64 (popc 64 x)) (BitVec.ofNat 32 (popc 32 x')))) ∧
     Gives (.bswap e d a) s (WritesG s e d (onEngine e (bswap 64 x) (bswap 32 x'))) ∧
     Gives (.sel e d a b c) s (WritesG s e d (if z ≠ 0 then x else y)) ∧
     Gives (.mul e d a b) s (WritesG s e d (onEngine e (x * y) (x' * y'))) ∧
     Gives (.mulh e d a b) s (WritesG s e d
       (onEngine e (BitVec.ofInt 64 (x.toInt * y.toInt / 2 ^ 64)) (BitVec.ofInt 32 (x'.toInt * y'.toInt / 2 ^ 32)))) ∧
     Gives (.mulhu e d a b) s (WritesG s e d
       (onEngine e (BitVec.ofNat 64 (x.toNat * y.toNat / 2 ^ 64)) (BitVec.ofNat 32 (x'.toNat * y'.toNat / 2 ^ 32)))) ∧
     Gives (.madd e d a b c) s (WritesG s e d (onEngine e (x * y + z) (x' * y' + z.setWidth 32)))) ∧
  (∀ (s : State) (e : Engine) (d a b : Reg), s.runs e = true → notSeq e = true →
     let x := s.rg e a
     let y := s.rg e b
     let low := -(2 : Int) ^ 63
     Gives (.mulw e d a b) s (WritesG s e d ((x.setWidth 32 * y.setWidth 32).signExtend 64)) ∧
     Gives (.div e d a b) s (WritesG s e d (if y = 0 then BitVec.allOnes 64
       else if x.toInt = low ∧ y.toInt = -1 then BitVec.ofInt 64 low else BitVec.ofInt 64 (x.toInt.tdiv y.toInt))) ∧
     Gives (.divu e d a b) s (WritesG s e d (if y = 0 then BitVec.allOnes 64 else BitVec.ofNat 64 (x.toNat / y.toNat))) ∧
     Gives (.rem e d a b) s (WritesG s e d (if y = 0 then x
       else if x.toInt = low ∧ y.toInt = -1 then 0 else BitVec.ofInt 64 (x.toInt.tmod y.toInt))) ∧
     Gives (.remu e d a b) s (WritesG s e d (if y = 0 then x else BitVec.ofNat 64 (x.toNat % y.toNat))))/-! ### Floating point, loads and stores, control flow -/

/-- The floating point instructions: the result, in f or in g, and the sticky flags that the operation of 02 R49 gives in the rounding mode of
FCSR, and nothing else changed; comparisons give 0 or 1, and conversions to integers saturate. -/
def Obligations.FloatingPoint : Prop :=
  (∀ (s : State) (e : Engine) (d a b c : Reg), s.runs e = true → notSeq e = true →
     let m := s.rmode e
     let x := s.rf e a
     let y := s.rf e b
     let z := s.rf e c
     let w := fun (i : Instr) (r : Word × FFlags) => Gives i s (WritesF s e d r.1 r.2.bits)
     w (.fadd e d a b) (Float64.add m x y) ∧ w (.fsub e d a b) (Float64.sub m x y) ∧ w (.fmul e d a b) (Float64.mul m x y) ∧
     w (.fdiv e d a b) (Float64.div m x y) ∧ w (.fsqrt e d a) (Float64.sqrt m x) ∧ w (.fmadd e d a b c) (Float64.fma m x y z) ∧
     w (.fmsub e d a b c) (Float64.fma m x y (Float64.neg z)) ∧ w (.fnmadd e d a b c) (fnmadd m x y z) ∧
     w (.fmin e d a b) (Float64.minMax false x y) ∧ w (.fmax e d a b) (Float64.minMax true x y) ∧
     w (.fneg e d a) (x ^^^ 0x8000000000000000, {}) ∧ w (.fabs e d a) (x &&& 0x7FFFFFFFFFFFFFFF, {}) ∧
     w (.fmvfg e d a) (s.rg e a, {}) ∧ w (.fitod e d a) (Float64.ofInt m (s.rg e a).toInt) ∧
     w (.futod e d a) (Float64.ofInt m (s.rg e a).toNat)) ∧
  (∀ (s : State) (e : Engine) (d a b : Reg), s.runs e = true → notSeq e = true →
     let m := s.rmode e
     let x := s.rf e a
     let y := s.rf e b
     let w := fun (i : Instr) (r : Word × FFlags) => Gives i s (WritesGF s e d r.1 r.2.bits)
     let bit := fun (r : Bool × FFlags) => ((if r.1 then 1 else 0, r.2) : Word × FFlags)
     let int := fun (r : Int × FFlags) => ((BitVec.ofInt 64 r.1, r.2) : Word × FFlags)
     w (.feq e d a b) (bit (Float64.feq x y)) ∧ w (.flt e d a b) (bit (Float64.flt x y)) ∧ w (.fle e d a b) (bit (Float64.fle x y)) ∧
     w (.fclass e d a) (fclass x, {}) ∧ w (.fmvgf e d a) (x, {}) ∧
     w (.fdtoi e d a) (int (Float64.toInt m (-(2 ^ 63)) (2 ^ 63 - 1) x)) ∧
     w (.fdtou e d a) (int (Float64.toInt m 0 (2 ^ 64 - 1) x)) ∧
     (∀ lo hi v, lo ≤ hi → lo ≤ 0 → 0 ≤ hi → lo ≤ (Float64.toInt m lo hi v).1 ∧ (Float64.toInt m lo hi v).1 ≤ hi))

/-- The loads LB, LBU, LH, LHU, LW, LWU, LD and FLD complete where they are aligned and fault on nothing (R46, R50, Table 2.9): each
writes the bytes it reads, little-endian, with its extension, and nothing else changes but which lines the L2 holds. What a hub core reads of
the host window is a free value (log 9). A single-bit error that a read meets is corrected, counted and reported, and an uncorrectable
word faults a hub core's LD with ECC_UNCORRECTABLE (01 R38). -/
def Obligations.LoadsReadLittleEndian : Prop :=
  (∀ (s : State) (e : Engine) (d a : Reg) (imm : BitVec 16), s.runs e = true → regsOk e [d, a] = true →
    let ad := s.effAddr e a imm
    let ok := fun n => s.accessFault e ad n false = none ∧ s.quiet e ad n ∧ (match e with
      | .hub _ => regionOf ad ≠ .host
      | _ => True)
    let b := s.engNum e ad
    let g := fun (i : Instr) (v : Word) => Gives i s fun t => ∃ u, ReadOnly s e u ∧ WritesG u e d v t
    (ok 1 → g (.lb e d a imm) (BitVec.ofInt 64 (signed 8 (b 1))) ∧ g (.lbu e d a imm) (BitVec.ofNat 64 (b 1))) ∧
    (ok 2 → g (.lh e d a imm) (BitVec.ofInt 64 (signed 16 (b 2))) ∧ g (.lhu e d a imm) (BitVec.ofNat 64 (b 2))) ∧
    (ok 4 → g (.lw e d a imm) (BitVec.ofInt 64 (signed 32 (b 4))) ∧
      (notSeq e = true → g (.lwu e d a imm) (BitVec.ofNat 64 (b 4)))) ∧
    (ok 8 → notSeq e = true → g (.ld e d a imm) (BitVec.ofNat 64 (b 8)) ∧
      Gives (.fld e d a imm) s fun t => ∃ u, ReadOnly s e u ∧ WritesF u e d (BitVec.ofNat 64 (b 8)) 0 t)) ∧
  (∀ (s : State) (c : Core) (d a : Reg) (imm : BitVec 16), s.runs (.hub c) = true → regionOf (s.effAddr (.hub c) a imm) = .host →
    let al := fun n => s.accessFault (.hub c) (s.effAddr (.hub c) a imm) n false = none
    let v := s.draw.1
    let g := fun (i : Instr) (w : Word) => Gives i s (WritesG s.draw.2 (.hub c) d w)
    (al 1 → g (.lb (.hub c) d a imm) (BitVec.ofInt 64 (signed 8 v)) ∧ g (.lbu (.hub c) d a imm) (BitVec.ofNat 64 (v % 2 ^ 8))) ∧
    (al 2 → g (.lh (.hub c) d a imm) (BitVec.ofInt 64 (signed 16 v)) ∧ g (.lhu (.hub c) d a imm) (BitVec.ofNat 64 (v % 2 ^ 16))) ∧
    (al 4 → g (.lw (.hub c) d a imm) (BitVec.ofInt 64 (signed 32 v)) ∧ g (.lwu (.hub c) d a imm) (BitVec.ofNat 64 (v % 2 ^ 32))) ∧
    (al 8 → g (.ld (.hub c) d a imm) (BitVec.ofNat 64 (v % 2 ^ 64)) ∧
      Gives (.fld (.hub c) d a imm) s (WritesF s.draw.2 (.hub c) d (BitVec.ofNat 64 (v % 2 ^ 64)) 0))) ∧
  (∀ (s : State) x n, ¬ s.clean x n → let t := s.eccRead x n
    let m := s.oneBit.countP fun w => overlaps x n (w * 8) 8
    t.clean x n ∧ t.mem = s.mem ∧ t.get Fld.granaryEccCorrected = (s.get Fld.granaryEccCorrected + m) % 65536 ∧
    Map.find t.lastCode 8 = some 0x0881) ∧
  (∀ (s : State) (c : Core) (d a : Reg) (imm : BitVec 16), s.runs (.hub c) = true → (s.core c).status.getLsbD 2 = false →
    let ad := s.effAddr (.hub c) a imm
    ad % 8 = 0 → s.addrFault ad false = none → s.hubPoison ad 8 = true →
    Gives (.ld (.hub c) d a imm) s fun t =>
      Enters (s.eccBad ad 8) c (s.core c).pc 5 0x0801 ad 0 t ∧ t.get Fld.granaryEccUncorr = 1 ∧ t.mem = s.mem)

/-- The stores SB, SH, SW, SD and FSD complete where they are aligned, fault on nothing, and the write is made (R46, R50, Table 2.9): they
leave their bytes, little-endian, at the effective address and change no other byte and no register; a hub core's store to the host
window leaves the device: memory and every register read as before, and the core goes on. -/
def Obligations.StoresWriteOnlyTheirBytes : Prop :=
  (∀ (s : State) (e : Engine) (d a : Reg) (imm : BitVec 16), s.runs e = true → regsOk e [d, a] = true →
     let ad := s.effAddr e a imm
     let ok := fun n => s.accessFault e ad n true = none ∧ s.storeMade e ad n = true ∧ s.engWf e ad = true ∧ s.quiet e ad n
     let w := fun (i : Instr) n (v : Word) => Gives i s (Stored s e ad (leBytes v.toNat n))
     (ok 1 → w (.sb e d a imm) 1 (s.rg e d)) ∧ (ok 2 → w (.sh e d a imm) 2 (s.rg e d)) ∧ (ok 4 → w (.sw e d a imm) 4 (s.rg e d)) ∧
     (ok 8 → notSeq e = true → w (.sd e d a imm) 8 (s.rg e d) ∧ w (.fsd e d a imm) 8 (s.rf e d))) ∧
  (∀ (s : State) (c : Core) (d a : Reg) (imm : BitVec 16), s.runs (.hub c) = true → regionOf (s.effAddr (.hub c) a imm) = .host →
     let ad := s.effAddr (.hub c) a imm
     let next := GoesTo s (.hub c) ((s.core c).pc + 4)
     Gives (.sb (.hub c) d a imm) s next ∧ (ad % 2 = 0 → Gives (.sh (.hub c) d a imm) s next) ∧
     (ad % 4 = 0 → Gives (.sw (.hub c) d a imm) s next) ∧
     (ad % 8 = 0 → Gives (.sd (.hub c) d a imm) s next ∧ Gives (.fsd (.hub c) d a imm) s next))

/-- The branches: to pc + 4 × the sign-extended offset when the comparison holds, else to the next instruction; nothing else changes. A
sequencer's target is one inside IMEM. The jumps: J goes to pc + 4 × the offset; JAL and JALR also write pc + 4 into the link register
(g31, g15 on a sequencer) or `d`; JALR's target is (a + imm16) with its two low bits 0. -/
def Obligations.BranchesAndJumps : Prop :=
  (∀ (s : State) (e : Engine) (a b : Reg) (off : BitVec 16), s.runs e = true → regsOk e [a, b] = true →
     let x := s.rg e a
     let y := s.rg e b
     let target := s.pcOf e + off.signExtend 64 * 4
     let lt := match e with
       | .seq _ => (x.setWidth 32).slt (y.setWidth 32)
       | _ => x.slt y
     let go := fun (i : Instr) (take : Bool) =>
       (take = true → targetOk e target = true) → Gives i s (GoesTo s e (if take then target else s.pcOf e + 4))
     go (.beq e a b off) (x == y) ∧ go (.bne e a b off) (x != y) ∧ go (.blt e a b off) lt ∧ go (.bge e a b off) (!lt) ∧
     go (.bltu e a b off) (decide (x.toNat < y.toNat)) ∧ go (.bgeu e a b off) (decide (y.toNat ≤ x.toNat))) ∧
  (∀ (s : State) (e : Engine) (d a : Reg) (imm : BitVec 16) (off : BitVec 26), s.runs e = true → regsOk e [d, a] = true →
     let target := s.pcOf e + off.signExtend 64 * 4
     let reg := (s.rg e a + imm.signExtend 64) &&& ~~~3#64
     (targetOk e target = true → Gives (.j e off) s (GoesTo s e target) ∧
       Gives (.jal e off) s (JumpsAndLinks s e (match e with
         | .seq _ => 15
         | _ => 31) (s.pcOf e + 4) target)) ∧
     (targetOk e reg = true → Gives (.jalr e d a imm) s (JumpsAndLinks s e d (s.pcOf e + 4) reg)))

/-- The atomics LLD, SCD, AMOADD, AMOSWP and AMOCAS complete on an aligned doubleword of the Granary or DRAM (R50, Table 2.9): LLD reserves
its 64-byte line, SCD stores only under the reservation and uses it up, and each AMO answers the old doubleword and leaves the new one;
no other byte changes. -/
def Obligations.AtomicsOnOneDoubleword : Prop :=
  ∀ (s : State) (e : Engine) (d a b c : Reg), s.runs e = true → notSeq e = true → Memory.wf s.mem = true →
    let ad := (s.rg e a).toNat
    let old := s.engNum e ad 8
    s.atomicFault e ad = none → s.storeMade e ad 8 = true → s.quiet e ad 8 →
    let reads := fun (t : State) (v : Nat) => t.engNum e ad 8 = v ∧ ∀ x, x < ad ∨ ad + 8 ≤ x → t.engByte e x = s.engByte e x
    let gets := fun (t : State) (v : Word) => ∀ r, t.rg e r = if r = d ∧ d ≠ 0 then v else s.rg e r
    Gives (.lld e d a) s (fun t => gets t (BitVec.ofNat 64 old) ∧ reads t old ∧ t.resvOf e = some (ad / 64)) ∧
    Gives (.scd e d a b) s (fun t => if s.resvOf e = some (ad / 64)
      then gets t 0 ∧ reads t (s.rg e b).toNat ∧ t.resvOf e = none else gets t 1 ∧ reads t old) ∧
    Gives (.amoadd e d a b) s (fun t => gets t (BitVec.ofNat 64 old) ∧ reads t ((old + (s.rg e b).toNat) % 2 ^ 64)) ∧
    Gives (.amoswp e d a b) s (fun t => gets t (BitVec.ofNat 64 old) ∧ reads t (s.rg e b).toNat) ∧
    Gives (.amocas e d a b c) s (fun t => gets t (BitVec.ofNat 64 old) ∧
      reads t (if old = (s.rg e c).toNat then (s.rg e b).toNat else old))

/-! ### Mailboxes, queues, the Chest and the claim, as instructions -/

/-- The mailbox commands MBSEND, MBRECV, MBWAIT, MBSTAT, HOST_MAILBOX_PUT and HOST_MAILBOX_GET complete (02 Table 2.17, R60-R62): MBSEND
to a mailbox that has room appends the 64 bytes it reads; MBRECV writes the oldest message's bytes to memory and answers 1 (0 from an
empty mailbox); MBWAIT goes on when a message is there and waits when none is; MBSTAT answers occupancy and discards; the host puts a
message into a mailbox that has room (mailbox 3 also copies its first 32 bytes to unit 40) and takes the oldest it sees. Every other
mailbox is as before. -/
def Obligations.MailboxCommands : Prop :=
  ∀ (s : State) (c : Core) (d a b : Reg) (bytes : List Byte),
    let m := (s.rg (.hub c) a).toNat
    let ad := (s.rg (.hub c) b).toNat
    let x := s.mbox m
    let only := fun (k : Nat) (t : State) => ∀ j, j ≠ k → t.mbox j = s.mbox j
    (∀ i, (i = .mbsend (.hub c) d a b ∨ i = .mbrecv (.hub c) d a b ∨ i = .mbwait (.hub c) a ∨ i = .mbstat (.hub c) d a) → s.runsOr (.hub c) i = true) →
    s.top c = true →
    (8 ≤ m → m ≤ 31 → x.msgs.length < 4 → s.rangeFault (.hub c) ad 64 false = none →
      let r := s.rangeRead (.hub c) ad 64
      Gives (.mbsend (.hub c) d a b) s fun t => only m t ∧ (t.mbox m).msgs = x.msgs ++ [⟨r.1, r.2.cycle, decide (m < 15 ∧ 8 ≤ m)⟩] ∧
        (t.mbox m).put = (if m < 15 then x.put else (x.put + 1) % 2 ^ 32) ∧ t.msix = s.msix ++ (if m = 15 then [7] else []) ∧
        Answers { r.2 with mailboxes := t.mailboxes, msix := t.msix } (.hub c) d 0 t) ∧
    (mboxCore m = some c → m ≤ 31 →
      (x.msgs = [] → Gives (.mbrecv (.hub c) d a b) s (Answers s (.hub c) d 0) ∧ Gives (.mbwait (.hub c) a) s (Waits s (.hub c) (.mbwait (.hub c) a))) ∧
      (∀ y l, x.msgs = y :: l → Gives (.mbwait (.hub c) a) s (GoesOn s (.hub c)) ∧
        (s.rangeFault (.hub c) ad 64 true = none → Gives (.mbrecv (.hub c) d a b) s fun t => only m t ∧
          t.mbox m = { x with msgs := l, get := (x.get + 1) % 2 ^ 32 } ∧
          Answers (({ s with mailboxes := t.mailboxes } : State).engWrite (.hub c) ad y.bytes) (.hub c) d 1 t))) ∧
    (m ≤ 31 → Gives (.mbstat (.hub c) d a) s (Answers s (.hub c) d (BitVec.ofNat 64 (x.msgs.length + 65536 * x.discarded)))) ∧
    (∀ k : Fin 32, let y := s.mbox k.val
      (k.val < 8 → y.msgs.length < 4 → bytes.length = 64 → Gives (.hostMailboxPut k bytes) s fun t => only k.val t ∧
        (let u : State := { s with mailboxes := t.mailboxes }
         t = if k.val = 3 then u.qPushHw 40 (bytes.take 32) else u) ∧ t.mbox k.val = { y with msgs := y.msgs ++ [⟨bytes, s.cycle, false⟩], put := (y.put + 1) % 2 ^ 32 }) ∧
      (8 ≤ k.val → k.val < 16 → ∀ o l, y.msgs = o :: l → o.held = false → Gives (.hostMailboxGet k) s fun t => only k.val t ∧
        t = { s with mailboxes := t.mailboxes } ∧ t.mbox k.val = { y with msgs := l, get := (y.get + 1) % 2 ^ 32 }))

/-- The queue instructions QPUSH, QPOP, QWAIT and QSTAT complete (02 Table 2.17): QPUSH of 1 to 4096 bytes answers 0 where the unit writes the item, 1 where it drops it, and
waits where a privileged unit has no room; QPOP writes the oldest visible item's body to memory and answers its length and gap bit
(bit 17 alone from a queue with none); QWAIT goes on when one is visible and waits when none is; QSTAT answers bits [22:0] of STATq. -/
def Obligations.QueueInstructions : Prop :=
  ∀ (s : State) (e : Engine) (c : Core) (d a b r : Reg), (∀ n, e ≠ .node n) → regsOk e [d, a, b, r] = true → s.runs e = true →
    (∀ k, e = .hub k → s.top k = true) →
    let q := (s.rg e a).toNat
    let ad := (s.rg e b).toNat
    let n := (s.rg e r).toNat
    q ≤ 47 →
    (1 ≤ n → n ≤ 4096 → s.qWriter e q = true → s.rangeFault e ad n false = none →
      let p := (s.rangeRead e ad n).2.qPush q (s.rangeRead e ad n).1
      Gives (.qpush e d a b r) s fun t => match p.1 with
        | .written => Answers p.2 e d 0 t
        | .dropped => Answers p.2 e d 1 t
        | .stalled => Waits ((p.2.set Fld.queueStatState 2 q).waitedE e) e (.qpush e d a b r) t) ∧
    (s.qReader e q = true → (s.queue q).ready = false → Gives (.qpop e d a b) s (Answers s e d 0x20000)) ∧
    (s.qReader e q = true → ∀ it l, (s.queue q).items = it :: l → it.visible = true → s.rangeFault e ad it.body.length true = none →
      Gives (.qpop e d a b) s (Answers ((s.setQueue q { s.queue q with items := l }).engWrite e ad it.body) e d
        (BitVec.ofNat 64 (it.body.length + if it.gap then 0x10000 else 0)))) ∧
    (e = .hub c → s.qHubReader c q = true → Gives (.qwait (.hub c) a) s fun t =>
      if (s.queue q).ready then GoesOn s e t else Waits s e (.qwait (.hub c) a) t) ∧
    (s.qReader e q = true ∨ s.qWriter e q = true → Gives (.qstat e d a) s
      (Answers s e d (BitVec.ofNat 64 (s.readWord Blk.queue (16 * q + 5) true % 2 ^ 23))))

/-- What a push does to a unit (11 R278, R283-R285): an enabled unit with room appends the item (after an open marker), a privileged one
without room leaves the write to wait and its items as they are, and a general one without room appends nothing; a disabled unit takes
none. -/
def Obligations.QueueUnitPush : Prop :=
  ∀ (s : State) (q : Nat) (body : List Byte),
    let u := s.queue q
    let p := s.qPush q body
    let on := s.get Fld.queueStatState q ≠ 0
    let n := qStored body.length
    (on → qPrivileged q = true → u.held = [] → u.fill + n ≤ s.qSize q → p.1 = .written ∧
      (p.2.queue q).items.map (·.body) = u.items.map (·.body) ++ [body]) ∧
    (on → qPrivileged q = true → (u.held ≠ [] ∨ s.qSize q < u.fill + n) → p.1 = .stalled ∧ (p.2.queue q).items = u.items ∧
      p.2 = { s with queues := p.2.queues }) ∧
    (on → qPrivileged q = false → u.fill + n + 16 ≤ s.qSize q → u.marker = none → p.1 = .written ∧
      (p.2.queue q).items.map (·.body) = u.items.map (·.body) ++ [body]) ∧
    (on → qPrivileged q = false → s.qSize q < u.fill + n + 16 → p.1 = .dropped ∧ (p.2.queue q).items = u.items) ∧
    (¬ on → p.1 = .dropped ∧ p.2.queues = s.queues)

/-- The Chest instructions CHRD, CHWR and CHSYNC, and CHEST_WRITE_DURABLE, complete (02 R58): CHRD of a location the core may read answers
the newest value it has queued there, else what the location holds; CHWR queues a write to 0x8000-0xFFFF, or waits while 16 are queued;
CHSYNC goes on when every earlier write is durable and waits otherwise; after the Keywell's, the Bell's and the Tally's writes the oldest
queued write becomes durable, and changes no other location. -/
def Obligations.ChestCommands : Prop :=
  ∀ (s : State) (c : Core) (d a b : Reg), s.runs (.hub c) = true → s.top c = true →
    let loc := (s.rg (.hub c) a).toNat
    let q := (s.core c).chestQ
    (chestReadable c loc = true → (∀ p ∈ q, p.1 ≠ loc) → Gives (.chrd (.hub c) d a) s (Answers s (.hub c) d (s.chestAt loc))) ∧
    (chestReadable c loc = true → ∀ l v l', q = l ++ (loc, v) :: l' → (∀ p ∈ l', p.1 ≠ loc) →
      Gives (.chrd (.hub c) d a) s (Answers s (.hub c) d v)) ∧
    (0x8000 ≤ loc → loc < 0x10000 → Gives (.chwr (.hub c) a b) s fun t => if q.length < 16
      then GoesOn (s.setCore c { s.core c with chestQ := q ++ [(loc, s.rg (.hub c) b)] }) (.hub c) t
      else Waits s (.hub c) (.chwr (.hub c) a b) t) ∧
    Gives (.chsync (.hub c)) s (fun t =>
      if q = [] ∧ (s.core c).chestLost = false then GoesOn s (.hub c) t else Waits s (.hub c) (.chsync (.hub c)) t) ∧
    (s.keywell.steps = [] → s.bell.resvDue = true → Gives (.chestWriteDurable c) s fun t =>
      t.chestAt 0x0208 = BitVec.ofNat 64 (s.get Fld.bellResvValue) ∧ (∀ k, k ≠ 0x0208 → t.chestAt k = s.chestAt k) ∧
      t = { s with chest := t.chest, bell := { s.bell with resvDue := false } }) ∧
    (s.keywell.steps = [] → s.bell.resvDue = false → ∀ l v rest, s.tally.save = (l, v) :: rest → Gives (.chestWriteDurable c) s fun t =>
      t.chestAt l = v ∧ (∀ k, k ≠ l → t.chestAt k = s.chestAt k) ∧ t = { s with chest := t.chest, tally := { s.tally with save := rest } }) ∧
    (s.keywell.steps = [] → s.bell.resvDue = false → s.tally.save = [] → ∀ l v q', q = (l, v) :: q' → Gives (.chestWriteDurable c) s fun t => t.chestAt l = v ∧
      (∀ k, k ≠ l → t.chestAt k = s.chestAt k) ∧ t = ({ s with chest := t.chest } : State).setCore c { s.core c with chestQ := q' })

/-- The kernel's instructions on the claim and the Bell, CLMRD, CLMSEEN, BSTAT, CLMNEXT and BRING, complete on a kernel at its top level (02
Table 2.14, R59): CLMRD answers CLAIM.HELD, CLMSEEN CLAIM.SEEN, BSTAT the Bell's state, CLMNEXT a number of the unit's parity above HELD
and SEEN, which it makes durable, or 0 where none remains; BRING with class 0 answers 0x2405, and with class 1 or 2 answers 0 and
latches the class as the Bell does a kernel's (10 R258). -/
def Obligations.KernelInstructions : Prop :=
  ∀ (s : State) (d a : Reg), s.runs (.hub .kernel) = true → s.top .kernel = true →
    let k := Engine.hub .kernel
    Gives (.clmrd (.hub .kernel) d) s (Answers s k d (BitVec.ofNat 64 (s.get Fld.claimHeldClaim))) ∧
    Gives (.clmseen (.hub .kernel) d) s (Answers s k d (BitVec.ofNat 64 (s.get Fld.claimSeenClaim))) ∧
    Gives (.bstat (.hub .kernel) d) s (Answers s k d (BitVec.ofNat 64 (s.get Fld.bellStateState))) ∧
    (let m := max (s.get Fld.claimHeldClaim) (s.get Fld.claimSeenClaim)
     let n := s.clmnext.1
     Gives (.clmnext (.hub .kernel) d) s (Answers s.clmnext.2 k d (BitVec.ofNat 64 n)) ∧
     (m + 2 < 2 ^ 32 → s.unit < 2 → m < n ∧ n ≤ m + 2 ∧ n % 2 = s.unit) ∧
     (n = 0 ∨ s.clmnext.2.chestAt 0x0100 = BitVec.ofNat 64 n)) ∧
    (let cls := (s.rg k a).toNat % 4
     let r := s.bring cls
     Gives (.bring (.hub .kernel) d a) s (Answers r.2 k d (BitVec.ofNat 64 r.1)) ∧
     (cls = 0 → r = (0x2405, s)) ∧ (cls = 1 ∨ cls = 2 → r = (0, s.bellKernel cls)))

/-! ### System instructions, exceptions, interrupts -/

/-- The system instructions FENCE, FENCEIO, ICINV, DCFLUSH, DCINV, MFC, MTC, ERET and WFI complete: FENCE, FENCEIO and ICINV only go on;
DCFLUSH writes a dirty line of the L2 back, and DCINV drops one, so that the hub sees what memory holds (R52); MFC answers a core word
that the level may read; MTC writes what the word keeps of the operand (STATUS five bits, EVEC none of [11:0], FCSR its fields); ERET
returns to EPC with LEVEL and IE from PLEVEL and PIE and EXL 0; WFI goes on when an enabled source is pending and waits while none is. -/
def Obligations.SystemInstructions : Prop :=
  ∀ (s : State) (e : Engine) (c : Core) (d a : Reg) (n : Fin 24) (q : Fin 8), s.runs (.hub c) = true →
    let h := s.core c
    let v := s.rg (.hub c) a
    let puts := fun (x : HubCore) => GoesTo (s.setCore c x) (.hub c) (h.pc + 4)
    (s.runs e = true → notSeq e = true → Gives (.fence e) s (GoesTo s e (s.pcOf e + 4))) ∧
    Gives (.fenceio (.hub c)) s (GoesTo s (.hub c) (h.pc + 4)) ∧ Gives (.icinv (.hub c)) s (GoesTo s (.hub c) (h.pc + 4)) ∧
    (let l := v.toNat / 64
     Gives (.dcflush (.hub c) a) s (fun t => GoesTo (s.l2WriteBack l) (.hub c) (h.pc + 4) t ∧
       ∀ x, Map.find s.l2 l = some x → x.dirty = true → x.bytes.length = 64 → s.writable (l * 64) 64 = true → Memory.wf s.mem = true →
         (∀ i, i < 64 → memByte t.mem (l * 64 + i) = x.bytes.getD i 0) ∧ Map.find t.l2 l = some { x with dirty := false }) ∧
     Gives (.dcinv (.hub c) a) s (fun t => GoesTo { s with l2 := t.l2 } (.hub c) (h.pc + 4) t ∧
       ∀ x, t.hubByte x = if x / 64 = l then memByte s.mem x else s.hubByte x)) ∧
    (∀ i : BitVec 5, i.toNat ≤ 14 → (s.top c = true ∨ i = 0 ∨ i = 9 ∨ i = 11 ∨ i = 14) →
      Gives (.mfc (.hub c) d i) s (WritesG s (.hub c) d (s.coreWord c i.toNat))) ∧
    (∀ i v, s.runs (.node n) = true → s.nodeWord n.val i.toNat = some v → Gives (.mfc (.node n) d i) s (WritesG s (.node n) d v)) ∧
    (∀ i v, s.runs (.seq q) = true → s.seqWord q i.toNat = some v → d.toNat < 16 →
      Gives (.mfc (.seq q) d i) s (WritesG s (.seq q) d (BitVec.ofNat 64 v))) ∧
    (s.top c = true →
      Gives (.mtc (.hub c) a 1) s (puts { h with status := v &&& 0x1F }) ∧
      Gives (.mtc (.hub c) a 2) s (puts { h with epc := v &&& 0xFFFFFFFFFC }) ∧
      Gives (.mtc (.hub c) a 3) s (puts { h with ecause := v }) ∧ Gives (.mtc (.hub c) a 4) s (puts { h with eval := v }) ∧
      Gives (.mtc (.hub c) a 5) s (puts { h with eaddr := v }) ∧
      Gives (.mtc (.hub c) a 6) s (puts { h with evec := v &&& 0xFFFFFFFFFFFFF000 }) ∧
      Gives (.mtc (.hub c) a 7) s (puts { h with imask := v }) ∧ Gives (.mtc (.hub c) a 10) s (puts { h with tcmp := v }) ∧
      Gives (.mtc (.hub c) a 12) s (puts { h with scratch0 := v }) ∧ Gives (.mtc (.hub c) a 13) s (puts { h with scratch1 := v })) ∧
    Gives (.mtc (.hub c) a 11) s (puts { h with fcsr := v &&& 0x1F7 }) ∧
    Gives (.eret (.hub c)) s (fun t => ∃ w : Word, t = s.setCore c { h with status := w, pc := pcFit h.epc } ∧
      ∀ i, w.getLsbD i = match i with
        | 0 => h.status.getLsbD 3
        | 1 => h.status.getLsbD 4
        | 3 => h.status.getLsbD 3
        | 4 => h.status.getLsbD 4
        | _ => false) ∧
    Gives (.wfi (.hub c)) s (fun t => if s.irqs c = 0 then Waits s (.hub c) (.wfi (.hub c)) t else GoesOn s (.hub c) t)

/-- Taking an exception (02 R63, R64; 14 R360): TRAP, BRK, INTERRUPT_ENTRY and TIMER_COMPARE complete. TRAP enters with ECAUSE 0x09, its c
field in EVAL and EPC at the next instruction; BRK with no probe attached with ECAUSE 0x0A and EPC at itself, and under a probe it halts
the core, engine or sequencer; an interrupt enters at EVEC + 0x100 with ECAUSE 0x10 and the lowest source that is pending and enabled in
EVAL, and stays pending; TIMER_COMPARE brings TICK to TCMP, from when source 6 is pending. -/
def Obligations.ExceptionEntries : Prop :=
  ∀ (s : State) (c : Core) (k : BitVec 5) (w : Fin 24) (q : Fin 8),
    let h := s.core c
    (s.runs (.hub c) = true → h.status.getLsbD 2 = false →
      Gives (.trap (.hub c) k) s (Enters s c (h.pc + 4) 9 k.toNat 0 0) ∧
      (s.probe = false → Gives (.brk (.hub c)) s (Enters s c h.pc 10 0 0 0))) ∧
    (s.runs (.hub c) = true → s.probe = true → Gives (.brk (.hub c)) s fun t =>
      (let u := s.setCore c { h with run := .halted, blocked := none }
       t = if c = .kernel then u else u.pend .kernel 60)) ∧
    (s.runs (.node w) = true → s.probe = true → Gives (.brk (.node w)) s fun t => t = s.setNode w.val { s.node w.val with run := .halted }) ∧
    (s.runs (.seq q) = true → s.probe = true → Gives (.brk (.seq q)) s fun t => t = s.setSeq q.val { s.seq q.val with run := .halted }) ∧
    (∀ n : Nat, n < 64 → s.lockstepStopped = false → (h.run = .running ∨ h.run = .waiting) → s.writerStalled (.hub c) = false →
      (c = .kernel → s.keywell.kgen = none) → h.status.getLsbD 1 = true → h.status.getLsbD 2 = false →
      bitOf (s.irqs c) n = true → (∀ j, j < n → bitOf (s.irqs c) j = false) →
      Gives (.interruptEntry c) s fun t => Enters s c h.pc 0x10 n 0 0x100 t ∧ t.ipendOf c = s.ipendOf c) ∧
    (h.run ≠ .inReset → h.tick.toNat < h.tcmp.toNat → Gives (.timerCompare c) s fun t =>
      t = s.setCore c { h with tick := h.tcmp } ∧ bitOf (t.ipendOf c) 6 = true)

/-- Faults of instructions. On a hub core: an instruction of the top level executed at U enters with ECAUSE 0x02 and EVAL 0x0206, the
kernel's own instruction on core 2 or 3 likewise; a misaligned access enters with ECAUSE 0x03, EVAL 0x0207 and its address in EADDR; an
instruction whose word is none of the profile, or lies where nothing may be executed, enters with ECAUSE 0x01 and EVAL 0x0205 (R46,
Table 2.10); each with EPC at the instruction, which has no effect. An instruction of the hub profile abandons a node engine's item with
0x1020 and halts a sequencer with its block's ILLEGAL (03 R71, R72). -/
def Obligations.HubFaultsTaken : Prop :=
  ∀ (s : State) (c : Core) (d a b : Reg) (imm : BitVec 16), s.runs (.hub c) = true → (s.core c).status.getLsbD 2 = false →
    let pc := (s.core c).pc
    let ad := s.effAddr (.hub c) a imm
    let gone := fun (i : Instr) => Gives i s (Enters s c pc 2 0x0206 0 0)
    (s.top c = false → gone (.mbsend (.hub c) d a b) ∧ gone (.mbrecv (.hub c) d a b) ∧ gone (.mbwait (.hub c) a) ∧ gone (.mbstat (.hub c) d a) ∧ gone (.chrd (.hub c) d a) ∧
      gone (.chwr (.hub c) a b) ∧ gone (.chsync (.hub c)) ∧ gone (.clmnext (.hub c) d) ∧ gone (.bring (.hub c) d a) ∧ gone (.qpush (.hub c) d a b d) ∧
      gone (.mtc (.hub c) a 1) ∧ gone (.mfc (.hub c) d 1)) ∧
    (c ≠ .kernel → s.top c = true → gone (.clmrd (.hub c) d) ∧ gone (.clmseen (.hub c) d) ∧ gone (.clmnext (.hub c) d) ∧ gone (.bring (.hub c) d a) ∧ gone (.bstat (.hub c) d)) ∧
    (∀ n, ad % n ≠ 0 → let m := fun (i : Instr) => Gives i s (Enters s c pc 3 0x0207 ad 0)
      (n = 2 → m (.lh (.hub c) d a imm) ∧ m (.lhu (.hub c) d a imm) ∧ m (.sh (.hub c) d a imm)) ∧
      (n = 4 → m (.lw (.hub c) d a imm) ∧ m (.lwu (.hub c) d a imm) ∧ m (.sw (.hub c) d a imm)) ∧
      (n = 8 → m (.ld (.hub c) d a imm) ∧ m (.sd (.hub c) d a imm) ∧ m (.fld (.hub c) d a imm) ∧ m (.fsd (.hub c) d a imm))) ∧
    (∀ u : State, u.hubReady c = true → (u.core c).status.getLsbD 2 = false → u.addrFault (u.core c).pc.toNat false = none →
      u.hubPoison (u.core c).pc.toNat 4 = false →
      (u.shadowLine ((u.core c).pc.toNat / 64) = true ∨ regionOf (u.core c).pc.toNat = .host ∨ decodeInsn (.hub c) (u.fetchWord (.hub c)) = none) →
      ∀ i, (i = .add (.hub c) d a b ∨ i = .ld (.hub c) d a imm ∨ i = .j (.hub c) 0 ∨ i = .fadd (.hub c) d a b ∨ i = .mbwait (.hub c) a) →
        Gives i u (Enters u c (u.core c).pc 1 0x0205 0 0)) ∧
    (∀ n : Fin 24, s.runs (.node n) = true →
      ∀ i, (i = .mbsend (.node n) d a b ∨ i = .chwr (.node n) a b ∨ i = .dcflush (.node n) a ∨ i = .eret (.node n)) →
        exec i s = .next (s.nodeAbandon n.val 0x1020)) ∧
    (∀ q : Fin 8, s.runs (.seq q) = true →
      ∀ i, (i = .mbsend (.seq q) d a b ∨ i = .chwr (.seq q) a b ∨ i = .dcflush (.seq q) a ∨ i = .div (.seq q) d a b ∨ i = .fadd (.seq q) d a b) →
        exec i s = .next (s.seqHalt q.val (seqCode q 0x40)))

/-- Cores started, halted and stopped (02 R44, R45, R67, R70): CORE_START, CORE_HALT, LOCKSTEP_MISMATCH and LSTEP_SELFTEST complete.
CORE_START of core 2 or 3 with a valid live entry address starts a core that is in reset or halted there, at the core words of Table
2.3, and source 60 is no longer pending when neither core is halted; CORE_HALT halts one that runs or waits and raises source 60; a
lockstep mismatch, a failed self-test and a synchronous exception of the kernel while EXL is 1 stop all three cores, whose registers
stay; a passed self-test sets SELFTEST_OK. -/
def Obligations.CoresStartAndStop : Prop :=
  ∀ (s : State) (c : Core) (k : BitVec 5), s.lockstepStopped = false →
    let h := s.core c
    let i := coreInst c
    let stopped := fun (t : State) => t.lockstepStopped = true ∧ (∀ j, (t.core j).run = .halted ∨ (t.core j).run = .inReset) ∧
      (∀ j, (t.core j).g = (s.core j).g ∧ (t.core j).f = (s.core j).f)
    (c ≠ .kernel → s.getB Fld.hubEntryhiValid i = true → (h.run = .inReset ∨ h.run = .halted) →
      let pc := pcFit (BitVec.ofNat 64 (s.get Fld.hubEntryhiAddrHi i * 2 ^ 32 + s.get Fld.hubEntryloAddrLo i * 4))
      let u := s.setCore c { ({} : HubCore) with g := h.g, f := h.f, chestQ := h.chestQ, run := .running, pc := pc }
      Gives (.coreStart c) s fun t => t = if u.core2.run = .halted ∨ u.core3.run = .halted then u else u.unpend .kernel 60) ∧
    (c ≠ .kernel → (h.run = .running ∨ h.run = .waiting) → Gives (.coreHalt c) s fun t =>
      t = (s.setCore c { h with run := .halted, blocked := none }).pend .kernel 60) ∧
    Gives .lockstepMismatch s stopped ∧ Gives (.lstepSelftest false) s stopped ∧
    Gives (.lstepSelftest true) s (SetsWords s [(Fld.hubLstepSelftestOk, 0, 1)]) ∧
    (s.runs (.hub .kernel) = true → (s.core .kernel).status.getLsbD 2 = true → Gives (.trap (.hub .kernel) k) s stopped)

/-! ### The Keywell -/

/-- The Keywell's instructions KLOAD, KOP, KWAIT, KRAND, KFREE and KGEN complete (14 R349-R351, R357, R358): KLOAD loads the slot it names
with the blob it reads, or answers why not; KOP queues a job under the next number, from 1 to 65,535; KWAIT waits for a queued job and
answers the result of a completed one; KRAND answers 64 open bits (log 9), or 0 while the DRBG is stopped; KFREE empties a slot that is not
in use; KGEN starts the rise and waits while it is made, and then answers its result. -/
def Obligations.KeywellInstructions : Prop :=
  ∀ (s : State) (c : Core) (d a b : Reg), s.runs (.hub c) = true → s.top c = true →
    let e := Engine.hub c
    let ad := (s.rg e a).toNat
    let n := (s.rg e b).toNat % 64
    let k := s.keywell
    (let r := s.rangeRead e ad 128
     s.rangeFault e ad 128 false = none → s.slotAwaited n = false → r.2.getB Fld.keywellStateError = false →
      r.2.keywell.rootBlocked = false → Gives (.kload (.hub c) d a b) s fun t => match r.2.kload n r.1 with
        | .inl code => Answers (r.2.raise code n) e d (BitVec.ofNat 64 code) t
        | .inr x => Answers { r.2 with keywell := { r.2.keywell with slots := Map.put r.2.keywell.slots n x } } e d 0 t) ∧
    (let r := s.rangeRead e ad 64
     s.rangeFault e ad 64 false = none → r.2.inRam ad 64 = true → k.jobs.length < 16 → Gives (.kop (.hub c) d a) s fun t =>
      let num := if r.2.keywell.lastNum = 65535 then 1 else r.2.keywell.lastNum + 1
      Answers { r.2 with keywell := { r.2.keywell with
          jobs := r.2.keywell.jobs ++ [jobOf num c r.1 (ad % 8 = 0)], lastNum := num } } e d (BitVec.ofNat 64 num) t) ∧
    (Gives (.kwait (.hub c) d a) s fun t => if (∃ j ∈ k.jobs, j.num = ad) then Waits s e (.kwait (.hub c) d a) t
      else match Map.find k.results ad with
        | some w => Answers s e d w t
        | none => Answers (s.raise 0x3484) e d 0x3484 t) ∧
    (Gives (.krand (.hub c) d) s fun t => if s.getB Fld.keywellStateEntropyOk = true ∧ s.getB Fld.keywellStateError = false
      then Answers { s.drbgUse with fresh := s.fresh + 1 } e d (BitVec.ofNat 64 (Config.freeNat s.fresh)) t else Answers s e d 0 t) ∧
    (let m := ad % 64
     s.slotAwaited m = false → s.slotInUse m = false →
       Gives (.kfree (.hub c) a) s (GoesOn { s with keywell := { k with slots := Map.del k.slots m } } e)) ∧
    (c = .kernel → let m := ad % 256
      (∀ r, k.kgen = some ⟨m, some r⟩ → Gives (.kgen (.hub c) d a) s (Answers { s with keywell := { k with kgen := none } } e d (BitVec.ofNat 64 r))) ∧
      (∀ g, k.kgen = none → s.slotAwaited (m % 64) = false → k.update = none → s.kgenCheck m = .inr g → Gives (.kgen (.hub c) d a) s fun t =>
        Waits { s with keywell := t.keywell } e (.kgen (.hub c) d a) t ∧ t.keywell.kgen = some ⟨m, none⟩ ∧
        t.keywell.update = some (.kgen g (s.doomedSlots g)) ∧ t.keywell.targets = s.kgenTargets g))

/-- The jobs ENCRYPT, DECRYPT, MAC, MACVERIFY, HASH, SIGN, VERIFY, PUBKEY, RAND and LCNONCE complete (14 Table 14.10, R357), on a key of a TYPE
and USAGE that the operation takes and on ranges in RAM: what each writes, the code it ends with and the bytes of output it reports. -/
def Obligations.KeywellCipherJobs : Prop :=
  ∀ (s : State) (j : KwJob) (k : KeySlot),
    let ends := fun (i : Instr) (op : Nat) (P : State → Prop) => JobReady s j op → Gives i s P
    let io := s.ramAll [(j.src, j.len), (j.dst, j.len)] = true
    let bytes := fun (u : State) n t => ∃ out : List Byte, out.length = n ∧ JobEnds (u.store j.dst out) 0 n t
    (s.slot j.slot = some k →
      (k.type = 1 ∨ k.type = 2 → io →
        (bitOf k.usage 1 = true → (j.mode = 0 ∧ s.getB Fld.keywellCfgApproved = false ∨
            (j.mode = 1 ∨ j.mode = 2) ∧ 16 ≤ j.auxlen ∧ s.inRam j.aux 16 = true) → ends .encrypt 1 (bytes s j.len)) ∧
        (bitOf k.usage 2 = true → (j.mode = 0 ∧ s.getB Fld.keywellCfgApproved = false ∨
            (j.mode = 1 ∨ j.mode = 2) ∧ 16 ≤ j.auxlen ∧ s.inRam j.aux 16 = true) → ends .decrypt 2 (bytes s j.len))) ∧
      (k.type = 1 ∨ k.type = 2 → j.mode = 3 → 44 ≤ j.auxlen → s.ramAll [(j.src, j.len), (j.dst, j.len), (j.aux, 44)] = true →
        s.ramAll [(s.readLE (j.aux + 32) 8, s.readLE (j.aux + 40) 4)] = true →
        (bitOf k.usage 1 = true → ends .encrypt 1 fun t => ∃ out tag : List Byte, out.length = j.len ∧ tag.length = 16 ∧
          JobEnds ((s.store j.dst out).store (j.aux + 16) tag) 0 j.len t) ∧
        (bitOf k.usage 2 = true → ends .decrypt 2 fun t => bytes s j.len t ∨
          JobEnds ((s.store j.dst (List.replicate j.len 0)).raise 0x3481 j.slot) 0x3481 j.len t)) ∧
      (bitOf k.usage 3 = true → 1 ≤ k.type → k.type ≤ 4 →
        let tag := s.macTag j k
        (s.ramAll [(j.src, j.len), (j.dst, tag.length)] = true → ends .mac 3 (JobEnds (s.store j.dst tag) 0 tag.length)) ∧
        (s.ramAll [(j.src, j.len), (j.aux, tag.length)] = true → ends .macverify 4 fun t =>
          if s.rd j.aux tag.length = tag then JobEnds s 0 0 t
          else JobEnds (s.raise 0x3481 j.slot) 0x3481 0 t)) ∧
      (bitOf k.usage 4 = true → (k.type = 5 ∨ k.type = 6) → s.ramAll [(j.src, j.len), (j.dst, if k.type = 5 then 64 else 96)] = true →
        ends .sign 6 (bytes { s.drbgUse (bitOf j.flags 1) with fresh := s.fresh + if k.type = 5 then 64 else 96 } (if k.type = 5 then 64 else 96))) ∧
      ((k.type = 5 ∨ k.type = 6) → bits k.usage 6 4 = 0 → j.slot ≠ 0xFF → s.ramAll [(j.dst, if k.type = 5 then 64 else 96)] = true →
        ends .pubkey 12 (bytes s (if k.type = 5 then 64 else 96)))) ∧
    (j.slot = 0xFF → s.lc < 4 → let out := Config.crypto 12 0 s.devid
      s.ramAll [(j.dst, out.length)] = true → ends .pubkey 12 (JobEnds (s.store j.dst out) 0 out.length)) ∧
    (s.ramAll [(j.src, j.len), (j.dst, if j.mode = 0 then 32 else 48)] = true → ends .hash 5 (bytes s (if j.mode = 0 then 32 else 48))) ∧
    (s.ramAll [(j.src, j.len), (j.aux, j.auxlen)] = true → ends .verify 7 fun t =>
      if Config.cryptoOk 10 j.mode (s.rd j.aux j.auxlen ++ s.rd j.src j.len) then JobEnds s 0 0 t
      else JobEnds (s.raise 0x3481 j.slot) 0x3481 0 t) ∧
    (s.getB Fld.keywellStateEntropyOk = true → s.ramAll [(j.dst, j.len)] = true →
      ends .rand 13 (bytes { s.drbgUse (bitOf j.flags 1) with fresh := s.fresh + j.len } j.len)) ∧
    (let u := s.drbgUse (bitOf j.flags 1)
     s.ramAll [(j.dst, 16)] = true → ends .lcnonce 14 fun t => ∃ out : List Byte, out.length = 16 ∧ t.keywell.nonce = some out ∧
      JobEnds (({ u with fresh := s.fresh + 16, keywell := { u.keywell with nonce := some out } } : State).store j.dst out) 0 16 t)

/-- The jobs ECDH, GENERATE, WRAP, IMPORT, LCSTEP and OWNER complete (14 R344-R348, R350): what enters the slot, what the blob or record is, the
generation entry that a WRAP key takes, and the update that a step to DEAD or a new owner starts. Where the outcome hangs on a
signature, which this model leaves open (log 11), both outcomes are stated. -/
def Obligations.KeywellKeyJobs : Prop :=
  ∀ (s : State) (j : KwJob) (k : KeySlot) (pairwiseOk : Bool),
    let ends := fun (i : Instr) (op : Nat) (P : State → Prop) => JobReady s j op → Gives i s P
    let others := fun (t : State) => ∀ n, n ≠ j.slot → t.slot n = s.slot n
    let done := fun (t : State) (n : Nat) => t.keywell.executed = some (BitVec.ofNat 64 (t.approved.toNat * 65536 + n * 2 ^ 32))
    (s.slot j.slot = some k → bitOf k.usage 5 = true → (k.type = 5 ∨ k.type = 6) → s.ramAll [(j.aux, j.auxlen)] = true →
      s.slotInUse j.slot = false → ends .ecdh 8 fun t => others t ∧ done t 0 ∧
        ∃ x, t.slot j.slot = some x ∧ x.type = 2 ∧ x.material.length = 32 ∧ x.level = k.level ∧ x.parentGix = k.parentGix ∧ x.pgen = k.pgen) ∧
    (s.getB Fld.keywellStateEntropyOk = true → s.ramAll [(j.dst, 128)] = true → s.slotInUse j.slot = false →
      (j.type < 5 ∨ pairwiseOk = true) → ∀ pk gix lv, s.jobParent j.parent = .inr (pk, gix, lv) →
      (bitOf j.usage 0 = true → s.gixFree ≠ none) → ends (.generate pairwiseOk) 9 fun t =>
        others t ∧ done t 128 ∧ ∃ x, t.slot j.slot = some x ∧ x.type = j.type ∧ x.level = lv + 1 ∧ x.usage = j.usage ∧ x.parentGix = gix ∧
          x.pgen = entryGen (s.gixEntry gix) ∧ x.keyid = j.keyid ∧ x.material.length = keyBytes j.type ∧ x.carry = bitOf j.flags 0 ∧
          x.imported = (lv != 0) ∧ ∀ g, bitOf j.usage 0 = true → s.gixFree = some g → x.gix = g ∧ t.chestAt (gixLoc g) =
            BitVec.ofNat 64 (entryOf (entryGen (s.gixEntry g) + 1) (entryGen (s.gixEntry gix)) gix (bitOf j.flags 0))) ∧
    (s.slot j.slot = some k → s.ramAll [(j.dst, 128)] = true → ∀ pk, s.parentKey k.level k.parentGix = some pk →
      (bitOf j.flags 0 = false → ends .wrap 10 (JobEnds (s.store j.dst (blobOf pk k)) 0 128)) ∧
      (bitOf j.flags 0 = true → ends .wrap 10 fun t => others t ∧ done t 128 ∧ t.slot j.slot = some { k with carry := true } ∧
        (bitOf k.usage 0 = true → t.gixEntry k.gix = setBit (s.gixEntry k.gix) 60 true))) ∧
    (s.getB Fld.keywellStateEntropyOk = true → s.ramAll [(j.aux, j.auxlen), (j.dst, 128)] = true → s.slotInUse j.slot = false →
      bitOf j.usage 0 = false → s.lc < 4 → ends .importKey 11 fun t =>
        let inp := s.devid ++ s.rd j.aux j.auxlen
        let b := Config.crypto 11 0 inp
        if Config.cryptoOk 11 0 inp = true then headForm b = none → numAt b 6 1 = 1 → numAt b 5 1 = j.type → numAt b 8 2 = j.usage →
          others t ∧ done t 128 ∧ ∃ x, t.slot j.slot = some x ∧ x.type = j.type ∧ x.level = 1 ∧ x.usage = j.usage ∧ x.parentGix = 0 ∧
            x.pgen = entryGen (s.gixEntry 0) ∧ x.keyid = j.keyid ∧ x.imported = true
        else JobEnds (s.raise 0x3481 j.slot) 0x3481 0 t) ∧
    (s.ramAll [(j.aux, j.auxlen), (j.src, j.len)] = true →
      (j.mode = 4 → s.lc < 4 → ends .lcstep 15 fun t => t.keywell.nonce = none ∧ t.keywell.update = some .job ∧ .burn 4 ∈ t.keywell.steps ∧
        (∀ i, i < 4 → ((0x1100 + i, 0) : Nat × Word) ∈ t.keywell.targets)) ∧
      (s.lc = 2 → recordOk (s.rd j.src j.len) = true → ends .owner 16 fun t =>
        if s.tokenOk 14 2 (Config.crypto 8 0 (s.rd j.src j.len)) (s.rd j.aux j.auxlen) = true
        then t.keywell.update = some .job ∧ t.keywell.targets = locsFrom 0x0220 (recordHash (s.rd j.src j.len)) ++ s.bootTargets
        else JobEnds (s.raise 0x340A j.slot) 0x340A 0 t))

/-- The Keywell's own events KW_JOB_DONE, KW_ENTROPY, ENTROPY_RETEST, DRBG_RESEED, KW_SELFTEST, DEBUG_CLOSE, DEBUG_UNLOCK, KW_PARTNER_ACK,
KW_PARTNER_TIMEOUT, KW_PARTNER_UPDATE and KW_MERGE complete (14 R352, R357-R360), those that a time brings at their time: a job's end, an entropy
failure and its retest, a reseed, self-tests, debug access, and what comes from the partner: an update that passes its MIC starts, or waits
for the one under way; an acknowledgement or its lack ends a KGEN, and a merge keeps of each entry the one with the higher GEN. -/
def Obligations.KeywellEvents : Prop :=
  ∀ (s : State) (j : KwJob) (l : List KwJob) (w : Word) (msg mic token : List Byte) (ts : List (Nat × Word)) (n : Nat),
    let k := s.keywell
    (k.jobs = j :: l → k.executed = some w → 1 ≤ j.op → j.op ≤ 16 → w.toNat % 65536 = 0 → Gives .kwJobDone s fun t =>
      SetsWords { s with keywell := { k with jobs := l, executed := none, results := ((j.num, w) :: k.results).take 16 } }
        [(Fld.keywellCntJobs, 0, (s.get Fld.keywellCntJobs + 1) % 65536)] t) ∧
    Gives .kwEntropy s (fun t => t = (({ s with keywell := { k with testUs := s.us } } : State).set Fld.keywellStateEntropyOk 0).raise 0x340D ∧
      t.getB Fld.keywellStateEntropyOk = false) ∧
    (s.getB Fld.keywellStateEntropyOk = false → ∀ u, s.reachUs (100000 + k.testUs) = some u → Gives (.entropyRetest true) s fun t =>
      t.getB Fld.keywellStateEntropyOk = true ∧
      t.keywell = { u.keywell with testUs := u.us, drbgRequests := 0, reseedUs := u.us }) ∧
    (s.getB Fld.keywellStateEntropyOk = true → ∀ u, s.reachUs (1000000 * s.get Fld.keywellCfgReseedS + k.reseedUs) = some u →
      Gives .drbgReseed s fun t => t = { u with keywell := { u.keywell with drbgRequests := 0, reseedUs := u.us } }) ∧
    Gives (.kwSelftest true) s (SetsWords s [(Fld.keywellStateError, 0, 0)]) ∧
    Gives (.kwSelftest false) s (fun t => t.getB Fld.keywellStateError = true ∧ ∀ m, t.slot m = if s.slotInUse m then s.slot m else none) ∧
    Gives .debugClose s (SetsWords { s with keywell := { k with debugClosed := true } } [(Fld.debugStateOpen, 0, 0)]) ∧
    (s.lc = 3 → s.getB Fld.debugStateOpen = false → k.debugClosed = false → Gives (.debugUnlock token) s fun t =>
      t.getB Fld.debugStateAttached = true ∧ t.getB Fld.debugStateOpen =
        Config.cryptoOk 16 0 (s.devid ++ ((List.range 16).map fun i => BitVec.ofNat 8 (Config.freeNat (s.fresh + i))) ++ token)) ∧
    (k.kgen = some ⟨n, none⟩ → k.update = none →
      Gives .kwPartnerAck s (fun t => t = { s with keywell := { k with unacked := none, kgen := some ⟨n, some 0⟩ } }) ∧
      ∀ u, s.reachUs (10000 + k.sentUs) = some u →
        Gives .kwPartnerTimeout s (fun t => t.keywell = { k with kgen := some ⟨n, some 0x3482⟩ })) ∧
    (s.linkUp = true → k.partnerQ = [] → ts ≠ [] → ts.length ≤ 12 → (∀ t ∈ ts, 0x400 ≤ t.1 ∧ t.1 < 0x1000) →
      Gives (.kwPartnerUpdate msg mic ts) s fun t => if mic = micOf s.channelKey msg 8
        then (if k.update = none then t.keywell.update = some .partner ∧ t.keywell.targets = ts else t.keywell = { k with partnerQ := [ts] })
        else t = s) ∧
    (s.linkUp = true → k.stopped = false → (ts.map (·.1)).Nodup → (∀ p ∈ ts, p.1 < 3072) → Gives (.kwMerge ts) s fun t =>
      t.getB Fld.keywellStateMergeDone = true ∧ t.keywell.unacked = none ∧ ∀ p ∈ ts, t.chestAt (0x400 + p.1) =
        if entryGen (s.chestAt (0x400 + p.1)).toNat < entryGen p.2.toNat ∨
          entryGen (s.chestAt (0x400 + p.1)).toNat = entryGen p.2.toNat ∧ s.unit ≠ 0 then p.2 else s.chestAt (0x400 + p.1))

/-! ### Node engines and the Mill -/

/-- The dataflow instructions TAKE, EMIT, CANCEL, RCLAIM and ABANDON of a node engine, and NODE_OVERTIME, complete (03 R75-R79): TAKE retires the item in service or waits for the next; EMIT and CANCEL buffer one
token or cancel of at most 32; RCLAIM submits a request of the local store to the Reeve's queue of 64; ABANDON, and the time limit,
discard the buffers and end the run, whose item is ready again at the head of its list, or dropped after 1 + RETRIES runs. -/
def Obligations.NodeDataflow : Prop :=
  ∀ (s : State) (n : Fin 24) (d a b c : Reg), s.runs (.node n) = true →
    let e := s.node n.val
    let en := Engine.node n
    let v := s.rg en a
    let clean := bits v.toNat 18 2 = 0 ∧ bits v.toNat 50 14 = 0
    let late := fun (i : Instr) (code : Nat) => ∀ k x, e.item = some k → s.item k = some x → e.failRun < 7 → s.millState ≠ 5 →
      Gives i s fun t => t.node n.val = { e with
          tokens := [], cancels := [], lastFault := code, pc := s.nodeEntry, run := .idle, item := none, failRun := e.failRun + 1 } ∧
        (if s.get Fld.millLimitRetries x.cls < x.runs + 1 then t.item k = none ∧
            Map.find t.mill.tombs k = some { hole := x.seq.map fun q => (x.flow, x.cls, q), dropped := true }
          else t.item k = some { x with runs := x.runs + 1, run := .ready } ∧ (t.readyList x.cls).head? = some k) ∧
        t.get Fld.millLastfaultCode = code ∧ t.get Fld.millLastfaultEngine = n.val
    Gives (.take (.node n) d) s (fun t => t = s.setNode n.val { e with
      takeReg := d.toNat, run := if e.run = .service then .retiring else .taking }) ∧
    (clean → e.tokens.length < 32 → Gives (.emit (.node n) a b) s
      (GoesOn (s.setNode n.val { e with tokens := e.tokens ++ [(v, s.rg en b)] }) en)) ∧
    (clean → e.cancels.length < 32 → Gives (.cancel (.node n) a) s (GoesOn (s.setNode n.val { e with cancels := e.cancels ++ [v] }) en)) ∧
    (v.toNat % 8 = 0 → isLocal v.toNat = true → s.reeve.queue.length < 64 → (s.rg en c).toNat ≤ 64 → Gives (.rclaim (.node n) d a b c) s fun t =>
      ∃ r : ClaimReq, r.dest = s.rg en b ∧ r.c = (s.rg en c).toNat ∧ r.src = (if e.run = .service then some n.val else none) ∧ r.base = none ∧
        r.bytes = ((List.range (32 + 4 * r.c)).map fun i => memByte e.store ((v.toNat + i) % 0x8000)) ∧
        ∃ u, SetsWords { s with reeve := { s.reeve with queue := s.reeve.queue ++ [r] } }
          [(Fld.reeveUsePortq, 0, (s.reeve.queue ++ [r]).countP fun y => y.src.isNone)] u ∧ WritesG u en d 0 t) ∧
    late (.abandon (.node n)) 0 ∧ (e.run = .service → late (.nodeOvertime n) 0x1025)

/-- The scheduler: DISPATCH, RETIRE_ACCEPTED, PARKED_RELEASE and HOLE_RELEASE complete while no cut is written (04 R95-R101, R104): DISPATCH gives a waiting engine the first item it may dispatch, its tokens and its operation's address; a
retire that is due, passes its checks and fits, and whose stores are made, frees the engine and counts; one that is not due is parked; a parked retire, and a
hole, that NEXT_REL has reached pass, and NEXT_REL advances. -/
def Obligations.MillScheduling : Prop :=
  ∀ (s : State) (n : Fin 24) (f : Fin 1024) (k : Nat) (x : MillItem), s.millState = 2 ∨ s.millState = 3 → s.mill.cutting = false →
    let e := s.node n.val
    let fl := s.flow f.val
    let freed : State := { s with mill := { s.mill with items := Map.del s.mill.items k } }
    let count := fun (t : State) (g : Fld) => t.get g = (s.get g + 1) % 2 ^ g.width
    let next := (fl.nextRel + 1) % 2 ^ 32
    s.item k = some x →
    (∀ a, e.run = .taking → bitOf (s.get Fld.millEnableEnable) n.val = true → s.islandAwake (.engine n) = true → s.nextItem = some k →
      s.opEntry (s.nodeEntryOf (k % 65536)).1 = some a → Gives (.dispatch n) s fun t =>
        (t.node n.val).run = .service ∧ (t.node n.val).item = some k ∧ (t.node n.val).pc = e.pc + 4 ∧ (t.node n.val).tok = x.tokens ∧
        (e.takeReg ≠ 0 → Map.getD (t.node n.val).g e.takeReg 0 = a) ∧ (t.item k).map (·.run) = some .service ∧ k ∉ t.readyList x.cls ∧
        count t Fld.millCntDispCount) ∧
    (e.run = .retiring → e.item = some k → s.writerStalled (.node n) = false → s.tokensCheck freed.mill.items e.tokens = none →
      ((x.seq = none ∨ x.seq = some (s.flow x.flow).nextRel) → freed.retireFits x.cls e.tokens e.cancels = true → s.mill.results = [] →
        Gives (.retireAccepted n []) s fun t => (t.node n.val).item = none ∧ (t.node n.val).tokens = [] ∧ (t.node n.val).cancels = [] ∧
          (t.node n.val).run = (if bitOf (s.get Fld.millEnableEnable) n.val then .taking else .off) ∧ count t Fld.millCntRetCount ∧
          (x.flow ≠ 0 → (t.flow x.flow).nextRel = ((s.flow x.flow).nextRel + 1) % 2 ^ 32)) ∧
      (∀ q, x.seq = some q → q ≠ (s.flow x.flow).nextRel → s.mill.parked.length < 256 → Gives (.retireAccepted n []) s fun t =>
        t.mill.parked = s.mill.parked ++ [⟨x.flow, q, k, e.tokens, e.cancels⟩] ∧ t.item k = some { x with run := .parked } ∧
          (t.node n.val).item = none)) ∧
    (∀ p : Parked, f.val ≠ 0 → s.mill.parked.find? (fun p => p.flow = f.val && p.seq = fl.nextRel) = some p → p.item = k →
      s.tokensCheck freed.mill.items p.tokens = none → freed.retireFits x.cls p.tokens p.cancels = true → s.mill.results = [] →
      Gives (.parkedRelease f) s fun t => (t.flow f.val).nextRel = next ∧
        ((∀ y ∈ p.tokens, destNode y.1 ≠ 0xFFFF) → t.mill.parked = s.mill.parked.filter (· ≠ p)) ∧
        count t Fld.millCntRetCount) ∧
    (∀ h tb, f.val ≠ 0 → s.holeDue f.val = some (h, tb) → fl.holeDest = 0 → Gives (.holeRelease f) s fun t =>
      (t.flow f.val).nextRel = next ∧ Map.find t.mill.tombs h = (if 2 ^ 28 ≤ h then none else some { tb with hole := none }) ∧
        count t Fld.millCntFlowHoles)

/-- The Mill as a whole: MILL_RUN, MILL_STOP, MILL_HWRESET, MILL_RESTORE, MILL_RESTORE_DONE, MILL_CUT_DONE, ENGFAIL_CLEAR, INJECT_DOORBELL and
INJECT_RESUME complete (04 R96, R106, R108-R110, R112, R113): RUN starts a stopped Mill whose live words pass and brings its engines in or asks for
their islands; STOP of an idle Mill takes every engine out; HWRESET; RESTORE and its end, after which no item is in service; a cut
that ends before the freeze is valid; a cleared ENGFAIL bit brings an engine back; the doorbell reads PUT, and an entry that passes and fits
is accepted. -/
def Obligations.MillRunsAndCuts : Prop :=
  ∀ (s : State) (n : Fin 24),
    let on := fun (t : State) (f : Fld) => bitOf (t.get f) n.val = true
    let base := s.get Fld.millCutbaseAddr * 256
    let entry := s.get Fld.millInjbaseAddr * 256 + 64 + 16 * (s.get Fld.millInjgetGet % max 1 (s.get Fld.millInjlenEntries))
    let d := BitVec.ofNat 64 (s.readLE entry 8)
    let v := BitVec.ofNat 64 (s.readLE (entry + 8) 8)
    let put := s.readLE (s.get Fld.millInjbaseAddr * 256) 4
    let next := (s.get Fld.millInjgetGet + 1) % 2 ^ 32
    let took := fun (t : State) => t.mill.injPut = next ∧ t.get Fld.millInjgetGet = next ∧
      t.mill.items = (s.applyBatch [(d, v)] []).mill.items
    (s.millState = 0 → millLayoutOk s (fun f => s.get f) = true → millReserveOk (fun f => s.get f) = true → Gives .millRun s fun t =>
      (t.millState = 2 ∨ t.millState = 3) ∧ t.mill.ran = true ∧ (on s Fld.millEnableEnable → ¬ on s Fld.millEngfailFail →
        if s.islandOn (.engine n) then on t Fld.millEngupUp else .engine n ∈ t.kettle.islandQ ∨ .engine n ∈ t.kettle.granted)) ∧
    ((s.millState = 2 ∨ s.millState = 3) → (s.mill.items.any fun p => p.2.run = .service) = false → Gives .millStop s fun t =>
      t.millState = 0 ∧ t.get Fld.millEngupUp = 0 ∧ t.get Fld.millStateJoined = 0 ∧ (t.node n.val).run = .off ∧ t.mill = s.mill) ∧
    Gives .millHwreset s (SetsWords s [(Fld.millStoreHigh, 0, s.get Fld.millStoreInuse % 2 ^ 15)]) ∧
    (s.millState = 0 → Gives .millRestore s (SetsWords s [(Fld.millStateState, 0, 1)])) ∧
    (s.millState = 1 → s.mill.cutPending = false → s.mill.results = [] → Gives .millRestoreDone s fun t => t.millState = 0 ∧
      (if s.readLE base 4 = 0x5455434D ∧ s.readLE (base + 20) 1 = 1 then
          t.get Fld.millInjgetGet = s.readLE (base + 16) 4 ∧ ∀ k x, t.item k = some x → x.run ≠ .service
        else t.mill.items = [] ∧ t.mill.tombs = [] ∧ t.mill.parked = [] ∧ t.get Fld.millInjgetGet = s.get Fld.millInjgetGet)) ∧
    (s.mill.cutting = true → s.mill.stopPending = false → s.mill.results = [] → s.millState = 4 → (s.mill.prev = 2 ∨ s.mill.prev = 3) →
      Gives .millCutDone s fun t => t.mill.cutting = false ∧ t.millState = s.mill.prev ∧ t.get Fld.millCutLastvalid =
        if s.get Fld.sysPhaseOffsetUs ≤ 6000 ∧ s.get Fld.sysPhasePhase < 2 then 1 else 0) ∧
    (on s Fld.millEngfailFail → (on s Fld.millEnableEnable → (s.millState = 2 ∨ s.millState = 3) → s.islandOn (.engine n) = true →
        ¬ on s Fld.millEngupUp → Gives (.engfailClear n) s fun t => ¬ on t Fld.millEngfailFail ∧ on t Fld.millEngupUp ∧
          t.node n.val = { pc := s.nodeEntry, store := (s.node n.val).store, run := .idle, startAt := s.roots }) ∧
      (¬ on s Fld.millEnableEnable → Gives (.engfailClear n) s fun t => ¬ on t Fld.millEngfailFail ∧ t = { s with cw := t.cw })) ∧
    (s.millTakes = true → s.tokenCheck s.mill.items d = none → s.retireFits (destClass d) [(d, v)] [] = true →
      (put = next → Gives .injectDoorbell s took) ∧ (s.mill.injPut = next → Gives .injectResume s took))

/-! ### Sequencers -/

/-- Timed actions, waits and transfers of a sequencer: ARM, DISARM, WAITT, WAITE, XGET, XPUT, XWAIT, XFER_COMPLETE and QSEQ_RUNAWAY complete
(03 R82-R88): ARM of a valid action fills the lowest free slot and answers its number;
DISARM empties a slot; WAITT and WAITE end at their time or on a pending event of their mask, which is taken, and otherwise wait; XGET and
XPUT queue a transfer and answer its tag, XWAIT waits for a tag, a transfer moves its bytes when it completes, where no line that it
writes is frozen; 2^20 instructions
without a wait halt the sequencer, its slots disarmed. -/
def Obligations.SequencerActions : Prop :=
  ∀ (s : State) (q : Fin 8) (d a b c : Reg), s.runs (.seq q) = true → regsOk (.seq q) [d, a, b, c] = true →
    let e := Engine.seq q
    let x := s.seq q.val
    let r := fun g => (s.qr q g).toNat
    let now := s.tnow q.val
    let w := r b
    let off := tdiff (r a) (s.cycbase q.val)
    let cyc := cycleClocks q.val
    let with' := fun (y : Sequencer) => s.setSeq q.val y
    let ev := s.seqEvents q &&& r a &&& 0x3FFFF
    let xok := r b % 32 = 0 ∧ r c % 32 = 0 ∧ 32 ≤ r c ∧ r c ≤ 4096 ∧ r b + r c ≤ 0x8000 ∧ s.inRam (32 * r a) (r c) = true ∧ x.xfers.length < 4
    let moved := fun (get : Bool) => Answers (with' { x with
      xfers := x.xfers ++ [{ tag := x.tags, get := get, addr := 32 * r a, dmem := r b, len := r c }], tags := (x.tags + 1) % 2 ^ 32 })
      e d (BitVec.ofNat 64 (x.tags % 2 ^ 32))
    (∀ k, kindOk q.val (bits w 0 4) = true → bitOf w 7 = false → (if q.val < 4 then bits w 8 10 < 384 else bits w 8 10 = 0) →
      (if bitOf w 4 then r a < cyc else 4 ≤ tdiff (r a) now ∧ (bitOf w 5 = true → (cyc : Int) ≤ off ∧ off < 2 * cyc)) →
      x.freeSlot = some k →
      let act : Action := ⟨bits w 0 4, bitOf w 4, bitOf w 5, bitOf w 6, bits w 8 10, bits w 18 14, r a, s.cycle, x.armed, 0, 0⟩
      (x.slots.any fun p => p.2.conflicts act) = false → Gives (.arm (.seq q) d a b) s
        (Answers (with' { x with slots := Map.put x.slots k act, armed := x.armed + 1 }) e d (BitVec.ofNat 64 k))) ∧
    Gives (.disarm (.seq q) d a) s (fun t => if (Map.find x.slots (r a % 8)).isSome
      then Answers (with' { x with slots := Map.del x.slots (r a % 8) }) e d 0 t else Answers s e d 1 t) ∧
    Gives (.waitt (.seq q) a) s (fun t => if 0 ≤ tdiff now (r a) then WaitEnds s q 0 0 t else WaitBegins s q (.waitt (.seq q) a) t) ∧
    Gives (.waite (.seq q) d a b) s (fun t => if ev ≠ 0 then ∃ left, WaitEnds (with' { x with evpend := left }) q d (BitVec.ofNat 64 ev) t ∧
        ∀ i, bitOf left i = (bitOf x.evpend i && !(bitOf ev i && bitOf 0x3DCFF i))
      else if 0 ≤ tdiff now w then WaitEnds s q d 0x80000000 t else WaitBegins s q (.waite (.seq q) d a b) t) ∧
    (xok → (s.poisonAt (32 * r a) (r c) = false → s.clean (32 * r a) (r c) → Gives (.xget (.seq q) d a b c) s (moved true)) ∧ Gives (.xput (.seq q) d a b c) s (moved false)) ∧
    Gives (.xwait (.seq q) a) s (fun t => if ∃ y ∈ x.xfers, y.tag = r a then WaitBegins s q (.xwait (.seq q) a) t else WaitEnds s q 0 0 t) ∧
    (∀ y l, x.xfers = y :: l → s.xferStalled q = false → (y.get = false → s.writable y.addr y.len = true) → Gives (.xferComplete q) s fun t =>
      let z := { x with xfers := l, evpend := setBit x.evpend 12 true }
      if y.get then t = with' { z with dmem := memPutAll x.dmem y.dmem (s.rd y.addr y.len) }
      else t = (s.store y.addr (readBytes x.dmem y.dmem y.len) (some (.seq q)) true).setSeq q.val z) ∧
    (2 ^ 20 ≤ x.count → Gives (.qseqRunaway q) s fun t =>
      (t.seq q.val) = { x with run := .halted, blocked := none, slots := [], lastFault := (if q.val < 4 then 0x1B43 else 0x2043) })

/-- Signal arithmetic of a sequencer: ADDS, SUBS, SHRR, MULQ, PHASE and MAG complete (03 Table 3.11): ADDS and SUBS saturate at the bounds of 32 bits; SHRR and MULQ round a shifted value half up, and
MULQ saturates; PHASE of (0, 0) is 0; MAG is at most 2^-16 of the true magnitude,
rounded to a whole number, away from it. -/
def Obligations.SequencerArithmetic : Prop :=
  ∀ (s : State) (q : Fin 8) (d a b c : Reg), s.runs (.seq q) = true → regsOk (.seq q) [d, a, b, c] = true →
    let x := (s.qr q a).toInt
    let y := (s.qr q b).toInt
    let sat := fun (v : Int) => if 2 ^ 31 ≤ v then 2 ^ 31 - 1 else if v < -(2 ^ 31) then -(2 ^ 31) else v
    let half := fun (v : Int) (n : Nat) => if n = 0 then v else (v + 2 ^ (n - 1)) / 2 ^ n
    let w := fun (i : Instr) (v : Int) => Gives i s (Answers s (.seq q) d (BitVec.ofInt 64 v))
    w (.adds (.seq q) d a b) (sat (x + y)) ∧ w (.subs (.seq q) d a b) (sat (x - y)) ∧
    w (.shrr (.seq q) d a b) (half x ((s.qr q b).toNat % 32)) ∧
    w (.mulq (.seq q) d a b c) (sat (half (x * y) ((s.qr q c).toNat % 64))) ∧
    Gives (.phase (.seq q) d a b) s (fun t => ∃ v, Answers s (.seq q) d v t ∧ (x = 0 → y = 0 → v = 0)) ∧
    Gives (.mag (.seq q) d a b) s (fun t => ∃ m : Nat, Answers s (.seq q) d (BitVec.ofNat 64 m) t ∧
      let f := Nat.sqrt (x.natAbs ^ 2 + y.natAbs ^ 2)
      f - f / 2 ^ 16 ≤ m ∧ m ≤ f + f / 2 ^ 16 + 1)

/-- The instructions CHCFG, NCOW, DUMP, TXLOAD and RXGET, the event CHANNEL_DUMP, and GSEQ_START and GSEQ_HALT complete (03 R89, R90, Table
3.11; 06 R141-R144, R167): CHCFG stages a valid word where its lanes fit, in place of one that was pending (log 103), and answers 1 where
they do not; NCOW stages both rates; DUMP, RXGET and TXLOAD move bytes; a channel that runs delivers its dump, of the taps of its
integration, and takes what was staged; a free channel starts at code and carrier phase 0; START runs a loaded image from its entry, HALT
disarms every slot. -/
def Obligations.SequencerUnits : Prop :=
  ∀ (s : State) (q : Fin 8) (a : Fin 4) (slot : Fin 384) (d ra rb rc : Reg) (pre : Option Bool) (sync : SyncFound),
    let e := Engine.seq q
    let x := s.seq q.val
    let r := fun g => (s.qr q g).toNat
    let ok := s.runs e = true ∧ regsOk e [d, ra, rb, rc] = true
    let with' := fun (y : Sequencer) => s.setSeq q.val y
    (ok → q.val < 4 →
      (r ra < 384 → cfgOk (r rb) = true → let c := s.chan q.val (r ra)
        let fits := s.quadRuns q.val = true ∧ laneCost (r rb) - laneCost (c.next.getD c.live) ≤ 768 - s.lanesUsed q.val
        (fits → Gives (.chcfg (.seq q) d ra rb) s (Answers (s.setChan q.val (r ra) { c with
          next := some (r rb), lanes := max c.lanes (laneCost (r rb)) }) e d (if c.next.isSome then 2 else 0))) ∧
        (¬ fits → Gives (.chcfg (.seq q) d ra rb) s (Answers s e d 1))) ∧
      (r ra < 384 → Gives (.ncow (.seq q) ra rb rc) s (GoesTo
        (s.setChan q.val (r ra) { s.chan q.val (r ra) with nextRates := some (r rb, r rc) }) e (s.pcOf e + 4))) ∧
      (x.dumps = [] → Gives (.dump (.seq q) d ra) s (Answers s e d 0xFFFF)) ∧
      (∀ y l, x.dumps = y :: l → r ra + 80 ≤ 0x8000 → Gives (.dump (.seq q) d ra) s
        (Answers (with' { x with dumps := l, dmem := memPutAll x.dmem (r ra) y.bytes }) e d (BitVec.ofNat 64 (y.chan % 2 ^ 32))))) ∧
    (ok → 4 ≤ q.val →
      (let buf := r rc
       buf < 4 → 1 ≤ r rb → r rb ≤ 2047 → r ra + r rb ≤ 0x8000 → (∀ p ∈ x.slots, p.2.kind = 1 → p.2.param % 4 ≠ buf) → buf ∉ x.onAir →
       (s.port (q.val - 4)).wait.map (·.buf) ≠ some buf → Gives (.txload (.seq q) d ra rb rc) s
        (Answers (with' { x with tx := Map.put x.tx buf (readBytes x.dmem (r ra) (r rb)) }) e d 0)) ∧
      (x.rx = [] → Gives (.rxget (.seq q) d ra) s (Answers s e d 0)) ∧
      (∀ f l, x.rx = f :: l → r ra + f.length ≤ 0x8000 → Gives (.rxget (.seq q) d ra) s
        (Answers (with' { x with rx := l, dmem := memPutAll x.dmem (r ra) f }) e d (BitVec.ofNat 64 (f.length % 2 ^ 32))))) ∧
    (let c := s.chan a.val slot.val
     let y := s.seq a.val
     s.quadRuns a.val = true → Gives (.channelDump a slot pre sync) s fun t =>
       let z := t.chan a.val slot.val
       z.live = c.next.getD c.live ∧ z.next = none ∧ z.rates = c.nextRates.or c.rates ∧ z.lanes = laneCost z.live ∧
       (cfgRate c.live = 3 → z.code = 0 ∧ z.carr = 0 ∧ z.count = 0 ∧ t.seq a.val = y) ∧
       (cfgRate c.live ≠ 3 → z.count = (c.count + 1) % 2 ^ 32 ∧ (y.active = true → y.dumps.length < 512 →
         (t.seq a.val).dumps = y.dumps ++ [⟨slot.val, dumpBytes slot.val ((y.gapDue.contains slot.val).toNat +
           (2 * c.nextRates.isSome.toNat + 4 * c.next.isSome.toNat)) (s.tnow a.val) (c.count + 1) (c.taps a.val s.roots)⟩]))) ∧
    (let y := s.seq a.val
     (∀ entry, y.image = some entry → y.run = .inReset → Gives (.gseqStart a) s (SetsWords (({ s with correl := { s.correl with
          images := Map.del s.correl.images a.val, tracks := s.correl.tracks.filter fun p => p.1 / 384 ≠ a.val } } : State).setSeq a.val
        { ({} : Sequencer) with
          imem := y.imem, dmem := memPutAll y.dmem 0 (leBytes (s.get Fld.gseqBootargAddr a.val) 4), image := y.image, pc := entry,
          run := .running, tags := y.tags }) [(Fld.gseqStateSeq, a.val, 2)])) ∧
     (y.active = true → Gives (.gseqHalt a) s (SetsWords (s.setSeq a.val { y with
        run := .halted, blocked := none, slots := [], lastFault := 0 }) [(Fld.gseqStateSeq, a.val, 1), (Fld.gseqFaultCode, a.val, 0)])))

/-- ACTION_FIRE completes: the next action of a sequencer fires at its clock (03 R82, R84, Table 3.10), its slot free; where the gate and the
claim stage let it pass, and on a radio sequencer the port runs, its slot event is pending; a receive window opens and closes, a
clear-channel assessment sets its event, an event action and the latch of a channel do nothing else to the sequencer. -/
def Obligations.ActionsFire : Prop :=
  ∀ (s : State) (q slot : Fin 8) (rssi : Int) (a : Action), Map.find (s.seq q.val).slots slot.val = some a →
    s.actionDue q.val slot.val a = true →
    let u := s.passInCycle (s.clocksUntil q.val a.time)
    let x := u.seq q.val
    let n := q.val - 4
    let off := (tdiff a.time (u.cycbase q.val)).toNat
    let passes := 4 ≤ q.val → u.actionPass a = true ∧ (a.kind = 15 ∨ u.portStopped n = false)
    let left := Map.del x.slots slot.val
    Gives (.actionFire q slot rssi) s fun t => (t.seq q.val).slots = left ∧
      (passes → (a.kind = 15 ∨ a.kind = 2 ∨ a.kind = 3 ∨ a.kind = 8) → t.seq q.val = { x with
        slots := left, evpend := setBit x.evpend slot.val true }) ∧
      (passes → 4 ≤ q.val → a.kind = 4 → t.seq q.val = { x with
        slots := left, evpend := setBit (setBit x.evpend slot.val true) 11 true }) ∧
      (passes → 4 ≤ q.val → a.kind = 2 → (t.port n).rxOpen = some (off + a.param)) ∧
      (passes → 4 ≤ q.val → a.kind = 3 → (t.port n).rxOpen = none)

/-- The quadrants of the correlator array: CORREL_RUN, CORREL_STOP, CALNOW, CAL_PASS_START, CAL_PASS_DONE, CAL_PASS_DISCARD and CAL_STALE complete
(06 R146, R166): RUN starts a quadrant whose island is on, or asks for it; STOP frees every channel at once; calibration passes start in
running quadrants while CAL.EN is 1, at once or an interval after the last, pause while fewer than 16 lanes are free, end with their words
updated together, and are discarded when they have paused for more than 1 s; a stale calibration is raised once. -/
def Obligations.CorrelatorQuadrants : Prop :=
  ∀ (s : State) (a : Fin 4) (d0 d1 : BitVec 16) (spread : BitVec 8),
    let q := a.val
    let c := s.correl
    (s.quadRuns q = false → Gives (.correlRun a) s fun t =>
      if s.islandOn (.quad a) then t.quadRuns q = true ∧ q ∉ t.correl.runDue
      else t.quadRuns q = false ∧ q ∈ t.correl.runDue ∧ (.quad a ∈ t.kettle.islandQ ∨ .quad a ∈ t.kettle.granted)) ∧
    Gives (.correlStop a) s (fun t => t.quadRuns q = false ∧ t.get Fld.correlUseSlots q = 0 ∧ t.get Fld.correlUseLanes q = 0 ∧
      ∀ k j, k < 384 → j ≠ q → t.chan q k = {} ∧ t.track q k = {} ∧ t.chan j k = s.chan j k ∧ t.track j k = s.track j k) ∧
    (s.getB Fld.correlCalEn = true →
      Gives .calnow s (fun t => ∀ k, k < 4 → s.quadRuns k = true → ∃ p ∈ t.correl.passes, p.quad = k)) ∧
    (∀ u, s.reach (6000 * (Map.getD c.calAt q 0 + 1000000 * s.get Fld.correlCalIntervalS)) = some u →
      u.getB Fld.correlCalEn = true → u.quadRuns q = true → (∀ p ∈ u.correl.passes, p.quad ≠ q) → Gives (.calPassStart a) s fun t =>
        t = { u with correl := { u.correl with
          passes := u.correl.passes ++ [⟨q, if 16 ≤ 768 - u.lanesUsed q then none else some u.us⟩], calAt := Map.put u.correl.calAt q u.us } }) ∧
    ((∃ p ∈ c.passes, p.quad = q ∧ p.paused = none) → Gives (.calPassDone a d0 d1 spread) s (SetsWords
      { s with correl := { c with passes := c.passes.filter (fun p => p.quad ≠ q), stale := c.stale.filter (· ≠ q) } }
      [(Fld.correlCaldlyD0Ps, q, d0.toNat), (Fld.correlCaldlyD1Ps, q, d1.toNat), (Fld.correlCalstatAgeS, q, 0),
       (Fld.correlCalstatSpreadPs, q, spread.toNat)])) ∧
    Gives (.calPassDiscard a) s (fun t => t = { s with correl := { c with passes := t.correl.passes } } ∧
      ∀ p, p ∈ t.correl.passes ↔ p ∈ c.passes ∧ ¬ (p.quad = q ∧ ∃ f, p.paused = some f ∧ f + 1000000 < s.us)) ∧
    (s.quadRuns q = true → q ∉ c.stale → 10 * s.get Fld.correlCalIntervalS < s.get Fld.correlCalstatAgeS q → Gives (.calStale a) s fun t =>
      t = { s.raise 0x1A81 q with correl := { c with stale := insertLine c.stale q } } ∧ q ∈ t.correl.stale)

/-- The tracking image: TRACK_START, TRACK_ASSIST, TRACK_STOP, CHANNEL_PLL_LOCK, PULLIN_EXPIRED, CHANNEL_LOSS, PLL_TO_COAST, PLL_TO_FLL,
COAST_TO_PULLIN, COAST_EXPIRED and MEAS_LATE complete (06 R150, R151, R154, R155): a START or ASSIST it can carry out takes its channel to
PULLIN with its configuration and its rates staged, a STOP frees it; the moves between PULLIN, FLL, PLL and COAST, those of PULLIN_MS and
COAST_MS at their time, of which each that leaves PLL is a cycle slip; a lost channel is free; a late block's header is written. No other
channel is touched. -/
def Obligations.TrackingChannels : Prop :=
  ∀ (s : State) (a : Fin 4) (slot : Fin 384), s.tracks a.val = true →
    let k := slot.val
    let x := s.track a.val k
    let others := fun (j : Nat) (t : State) => ∀ b m, b < 4 → m < 384 → (b ≠ a.val ∨ m ≠ j) → t.track b m = s.track b m
    let moves := fun (i : Instr) (y : TrackChan) => Gives i s fun t => t.track a.val k = y ∧ others k t
    let after := fun (ms : Nat) => s.reach (x.since + 6000000 * ms)
    let left := { x with slips := (x.slips + 1) % 65536, lockms := 0, slip := true, half := false, since := s.roots }
    let ring := s.tcbAt a.val 24 4 * 256
    let get := s.readLE (ring + 4) 4
    let b := s.rd (ring + 64 + 48 * (get % s.tcbAt a.val 28 4)) 48
    let ch := descAt b 2 2
    let h := b.drop 16
    let due := s.readLE ring 4 ≠ get ∧ s.cmdReason a.val b = none
    let starts := fun (i : Instr) (sig prn : Nat) => Gives i s fun t => others ch t ∧
      (∃ al, t.track a.val ch = { ({} : TrackChan) with state := 1, since := s.roots, profile := descAt b 1 1, align := al }) ∧
      (t.chan a.val ch).nextRates.isSome = true ∧
      (t.chan a.val ch).next = some (if descAt b 4 4 = 0 then defaultCfg sig prn else descAt b 4 4)
    (due → descAt b 0 1 = 1 → starts (.trackStart a) (descAt h 4 1) (descAt h 5 1)) ∧
    (due → descAt b 0 1 = 2 → starts (.trackAssist a) (descAt h 0 1) (descAt h 1 1)) ∧
    (due → descAt b 0 1 = 3 → Gives (.trackStop a) s fun t => others ch t ∧ t.track a.val ch = {} ∧
      (cfgRate (s.chan a.val ch).live ≠ 3 → (t.chan a.val ch).next = some 0xC000)) ∧
    ((x.state = 1 ∨ x.state = 2) → moves (.channelPllLock a slot) { x with
      state := 3, since := s.roots, half := x.half || bitOf (s.profileAt a.val x.profile 20 1) 1, carr0 := signed 64 s.draw.1 }) ∧
    (x.state = 1 → ∀ u, after (s.profileAt a.val x.profile 8 2) = some u →
      moves (.pullinExpired a slot true) { x with state := 2, since := u.roots } ∧ moves (.pullinExpired a slot false) {}) ∧
    (x.state = 2 → moves (.channelLoss a slot) {}) ∧
    (x.state = 3 → moves (.pllToCoast a slot) { left with state := 4 } ∧ moves (.pllToFll a slot) { left with state := 2 }) ∧
    (x.state = 4 → moves (.coastToPullin a slot) { x with state := 1, since := s.roots } ∧
      ∀ u, after (s.profileAt a.val x.profile 10 2) = some u → moves (.coastExpired a slot) {}) ∧
    (∀ p, (s.image a.val).late = some p → (s.moveTo 1950).writable p.1 p.2.length = true → Memory.wf s.mem = true →
      Gives (.measLate a) s fun t => (t.image a.val).late = none ∧ readBytes t.mem p.1 p.2.length = p.2 ∧
        ∀ b m, t.track b m = s.track b m)

/-! ### GNSS input and the Grinder -/

/-- ANTENNA_ALIGN, ALIGN_DONE, ANTENNA_RUN, ANTENNA_STOP, LANE_LOST, LANE_SLIP and MS_BOUNDARY complete (05 Table 5.2, R117-R119, R132): ALIGN
from STOPPED, ALIGNED or FAILED, its end by pattern and eye, RUN of an aligned antenna, which takes effect at the next millisecond boundary,
STOP, which empties the units of an antenna that ran, and a lost lane; a slip outside DEPTH ± 16 sets DISCONT and leaves a fill of DEPTH. -/
def Obligations.AntennaStates : Prop :=
  ∀ (s : State) (a : Fin 4) (k : Fin 12) (eye : Nat) (codes : List Byte) (all : List (List Byte)),
    let st := s.antState a.val
    let g := s.gnssin
    let due := g.runDue.filter (· ≠ a.val)
    let goes := fun (i : Instr) (v : Nat) => Gives i s fun t => t.antState a.val = v ∧ ∀ b, b < 4 → b ≠ a.val → t.antState b = s.antState b
    let stops := fun (i : Instr) => Gives i s fun t => t.antState a.val = 0 ∧ ∀ j, j / 3 = a.val → (t.stream j).fifo = []
    ((st = 0 ∨ st = 2 ∨ st = 5) → Gives (.antennaAlign a) s
      (SetsWords { s with gnssin := { g with runDue := due } } [(Fld.gnssinStateAnt, a.val, 1)])) ∧
    (st = 1 → goes (.alignDone a false eye) 5 ∧
      (eye < 64 → s.get Fld.gnssinLaneEyeMin a.val ≤ eye → Gives (.alignDone a true eye) s
        (SetsWords s [(Fld.gnssinLstatEye, a.val, eye), (Fld.gnssinStateAnt, a.val, 2)])) ∧
      (eye < s.get Fld.gnssinLaneEyeMin a.val → goes (.alignDone a true eye) 5)) ∧
    (st = 2 → Gives (.antennaRun a) s fun t => t = { s with gnssin := { g with runDue := insertLine g.runDue a.val } }) ∧
    ((st = 2 ∨ st = 5) → Gives (.antennaStop a) s
      (SetsWords { s with gnssin := { g with runDue := due } } [(Fld.gnssinStateAnt, a.val, 0)])) ∧
    (st = 3 ∨ st = 4 → stops (.antennaStop a)) ∧
    (st = 3 → goes (.antennaStop a) 0 ∧ goes (.laneLost a) 4 ∧ Gives (.laneLost a) s fun t =>
      bitOf (t.get Fld.gnssinEventLane) a.val = true ∧ ∀ j, j / 3 = a.val → t.get Fld.gnssinJamstatWarn j = 0 ∧ t.get Fld.gnssinJamstatAlarm j = 0) ∧
    (let b := k.val / 3
     let depth := s.get Fld.gnssinLaneDepth b
     s.streamRuns k.val = true → (depth + 16 < codes.length ∨ codes.length + 16 < depth) → Gives (.laneSlip k codes) s fun t =>
       t.get Fld.gnssinLstatDiscont b = 1 ∧ bitOf (t.get Fld.gnssinEventLane) b = true ∧ (t.image b).slipped = true ∧
       t.antState b = s.antState b ∧ (t.stream k.val).fifo.length = depth) ∧
    (let ms := if g.lastMs < s.msNow then s.msNow else s.msNow + 1
     ∀ u, s.reachSite (1000000000 * ms) = some u → st = 2 → a.val ∈ g.runDue → Gives (.msBoundary all) s fun t =>
       t.antState a.val = 3 ∧ t.gnssin.runDue = [] ∧ t.gnssin.lastMs = ms)

/-- PULSE_BLANK, AGC_PERIOD_END, SPECTRUM_PUBLISH, AGC_LEARN and LEARN_DONE complete (05 R123, R124, R128-R131): a window of 16 samples with
THRESH hot ones is blanked whole and counted, MAX reached ends the blank and suppresses blanking for 2 × MAX samples; an AGC period moves the
gain one step towards TARGET ± HYS; a published spectrum gives an index of at most 255, and WARN and ALARM after 10 values at or above their
thresholds; LEARN, and its end after 10,000 ms. -/
def Obligations.StreamProcessing : Prop :=
  ∀ (s : State) (k : Fin 12) (codes : List Byte),
    let i := k.val
    let x := s.stream i
    let max' := s.get Fld.gnssinPbMax i
    let tgt := s.get Fld.gnssinAgcTarget i
    let hys := s.get Fld.gnssinAgcHys i
    s.streamRuns i = true →
    (∀ b, s.getB Fld.gnssinCfgPbEn i = true → x.reading = true → x.fifo = [] → x.window.length = 16 → x.suppress = 0 → x.blankLen = 0 →
      x.starts = 0 → x.sats = 0 →
      let w := x.window.drop 1 ++ [sampleOf (some b)]
      s.get Fld.gnssinPbThresh i ≤ w.countP (·.hot) → Gives (.pulseBlank k [b]) s fun t =>
        (t.stream i).window = w.map Sample.blanked ∧ t.get Fld.gnssinPbstatCount i = (s.get Fld.gnssinPbstatCount i + 1) % 65536 ∧
        if max' ≤ 16 then (t.stream i).suppress = 2 * max' ∧ t.get Fld.gnssinPbstatSat i = 1
        else (t.stream i).blankLen = 16 ∧ t.get Fld.gnssinPbstatSat i = s.get Fld.gnssinPbstatSat i) ∧
    (let v := s.feed i codes
     let off := ((v.stream i).periods + 1) * s.get Fld.gnssinAgcPeriod i * 10000000
     let now := s.get Fld.gnssinAgcstatGain i
     let hot := (v.stream i).hot
     let counted := (v.stream i).counted
     s.drivesGain (i / 3) = true → s.getB Fld.gnssinCfgAgcEn i = true → 0 < counted → now < 64 → off < 1000000000 →
     ∀ u, v.reachSite (1000000000 * s.gnssin.lastMs + off) = some u → Gives (.agcPeriodEnd k codes) s fun t =>
      t.get Fld.gnssinAgcstatGain i = if (tgt + hys) * counted < hot * 256 then now - 1
        else if hot * 256 < (tgt - hys) * counted then min 63 (now + 1) else now) ∧
    (∀ bins depth u, x.spec = some (bins, depth) → s.reachSite (1000000000 * s.gnssin.lastMs + 50000000) = some u →
      Gives (.spectrumPublish k) s fun t => (t.stream i).bins = bins ∧ (t.stream i).spec = none ∧
        t.get Fld.gnssinJamstatIndex i = min 255 ((s.get Fld.gnssinJamwWd i * depth +
          s.get Fld.gnssinJamwWs i * (s.get Fld.gnssinJamwSref i - t.get Fld.gnssinJamstatFlat i)) / 16) ∧ t.get Fld.gnssinJamstatValid i = 1 ∧
        (s.get Fld.gnssinJamstatWarn i = 0 → (t.get Fld.gnssinJamstatWarn i = 1 ↔
          s.get Fld.gnssinJamtWarn i ≤ t.get Fld.gnssinJamstatIndex i ∧ 9 ≤ x.warnUp)) ∧
        (s.get Fld.gnssinJamstatAlarm i = 0 → (t.get Fld.gnssinJamstatAlarm i = 1 ↔
          s.get Fld.gnssinJamtAlarm i ≤ t.get Fld.gnssinJamstatIndex i ∧ 9 ≤ x.alarmUp))) ∧
    (x.spec = none → Gives (.spectrumPublish k) s (fun t => t = s)) ∧
    (s.get Fld.gnssinAgcrefLearning i = 0 → Gives (.agcLearn k) s
      (SetsWords (s.setStream i { x with learn := {} }) [(Fld.gnssinAgcrefLearning, i, 1)])) ∧
    (let gain := (qround 26 x.learn.gain x.learn.ms).toNat
     s.get Fld.gnssinAgcrefLearning i ≠ 0 → 10000 ≤ x.learn.ms → gain < 64 → Gives (.learnDone k) s
      (SetsWords (s.setStream i { x with refNext := if x.learn.bins = [] then none else some x.learn.bins, learn := {} })
        [(Fld.gnssinAgcrefLearning, i, 0), (Fld.gnssinAgcrefLearnDone, i, 1), (Fld.gnssinAgcrefLearned, i, gain)]))

/-- GRINDER_RUN, GRINDER_STOP, GRINDER_DOORBELL, SEARCH_TAKE, CAPTURE_START, CAPTURE_END, SEARCH_DONE and RESULT_RESUME complete (05
R134-R138): RUN and STOP of the Grinder; the doorbell takes in a valid entry; an engine takes the next entry and makes a capture; the
capture's start at its millisecond, with the site time at which its first sample was at the balls, and its end; a result is written at the
ring's next place, or held until there is room. -/
def Obligations.GrinderSearches : Prop :=
  ∀ (s : State) (e : Fin 2) (peak : SearchPeak),
    let g := s.grinder
    let en := s.grEngine e.val
    let idle := ∀ k, k < 2 → (s.grEngine k).searches = [] ∧ (s.grEngine k).held = []
    let at' := fun (st : SearchStep) (x : Search) => en.searches.find? (fun y => y.step = st) = some x
    let rput := s.get Fld.grinderRputCount
    let wrote := fun (t : State) => t.get Fld.grinderRputCount = (rput + 1) % 2 ^ 32
    (s.grState = 0 → Gives .grinderRun s (SetsWords s [(Fld.grinderStateState, 0, 1)])) ∧
    (s.grState = 1 → idle → g.invalid = [] → Gives .grinderStop s fun t => t.grState = 0 ∧ t.grinder = g) ∧
    (s.grState = 1 → ¬ idle → Gives .grinderStop s fun t => t.grState = 2 ∧ t.grinder = g) ∧
    (s.grState = 1 → let n := (s.get Fld.grinderGetCount + g.untaken.length) % 2 ^ 32
      s.readLE (s.get Fld.grinderRingAddr * 256) 4 = (n + 1) % 2 ^ 32 → 1 ≤ s.get Fld.grinderRinglenEntries →
      descOk (s.searchEntry n) = true → Gives .grinderDoorbell s fun t => t.grinder = { g with untaken := g.untaken ++ [n] } ∧
        t.get Fld.grinderStatePending = min 0xFFFF (g.untaken.length + 1)) ∧
    (∀ n, s.grState = 1 → en.held = [] → s.nextEntry = some n →
      let d := s.searchEntry n
      bitOf (descAt d 5 1) 2 = false → en.searches.length < 2 → Gives (.searchTake e) s fun t => n ∉ t.grinder.untaken ∧
        (t.grEngine e.val).searches = en.searches ++ [{ desc := d, cap := g.nextCap, step := .waiting }] ∧
        (t.grEngine e.val).caps.head? = some
          { num := g.nextCap, stream := (descStream d).1, high := (descStream d).2, ms := descMs d
            from' := (s.site.ps + 1000999999) / 1000000000 } ∧
        (t.grEngine e.val).caps.length ≤ 1 + max 1 (en.caps.filter fun c => en.searches.any fun y => y.cap = c.num).length) ∧
    (∀ x c u, at' .waiting x → en.capOf x = some c → s.reachSite (1000000000 * c.from') = some u → s.streamRuns c.stream = true →
      Gives (.captureStart e) s fun t =>
        (t.grEngine e.val).searches.length = en.searches.length ∧ { x with step := .capturing } ∈ (t.grEngine e.val).searches ∧
        ∀ d ∈ (t.grEngine e.val).caps, d.num = c.num → d.tcap = (s.atBalls c.stream c.from').bytes10) ∧
    (∀ x c, at' .capturing x → en.capOf x = some c → x.failed = false → c.from' + c.ms ≤ s.gnssin.lastMs →
      Gives (.captureEnd e) s fun t =>
        { x with step := .ready, readyAt := s.roots } ∈ (t.grEngine e.val).searches ∧ (t.grEngine e.val).caps = en.caps) ∧
    (∀ x u, at' .ready x → s.reach (max x.readyAt en.freeAt + searchNs x.desc * 6) = some u → Gives (.searchDone e peak) s fun t =>
      x ∉ (t.grEngine e.val).searches ∧
      if en.held = [] ∧ u.resultRoom = true then wrote t ∧ (t.grEngine e.val).held = []
      else (t.grEngine e.val).held.length = en.held.length + 1 ∧ t.get Fld.grinderRputCount = rput) ∧
    (∀ r l, g.invalid = [] → en.held = r :: l → s.resultRoom = true → Gives (.resultResume e) s fun t =>
      wrote t ∧ (t.grEngine e.val).held = l)

/-! ### Site time and the reference clock -/

/-- TIME_FEED, FEED_MEAS, FEED_SLEW, FEED_STEP, FEED_HOLD and FEED_SET complete (12 R305-R309): FEED reads PUT and leaves an entry that is valid,
of the live source and within its limits for the servo; that entry, when it is the last due, is acted on and FEEDGET and ACCEPTED advance: MEAS leads to TRACK with FINT held within FMAX, SLEW and STEP
add to their remainders, HOLD leads from TRACK to HOLD, SET waits for the next whole second. -/
def Obligations.FeedEntries : Prop :=
  ∀ s : State,
    let get := s.get Fld.timeFeedgetCount
    let base := s.get Fld.timeFeedbaseAddr * 256
    let u : State := { s.touch base 4 with servo := { s.servo with put := s.readLE base 4 } }
    let fits := fun (w : State) (b : List Byte) => feedFormOk b = true ∧ (feedOf b).src = s.get Fld.timeServoSrc ∧ w.feedOk (feedOf b) = true
    (u.feedHead = none → Gives .timeFeed s fun t => t = u) ∧
    (∀ b, u.feedHead = some b → fits u b → Gives .timeFeed s fun t => t = u.touch u.feedAddr 32) ∧
    (∀ b, s.feedHead = some b → fits s b → s.servo.put = (get + 1) % 2 ^ 32 →
      let e := feedOf b
      let acts := fun (i : Instr) (k : Nat) (P : State → Prop) => e.kind = k → Gives i s fun t => P t ∧
        t.get Fld.timeFeedgetCount = (get + 1) % 2 ^ 32 ∧ t.get Fld.timeCntAccepted = (s.get Fld.timeCntAccepted + 1) % 65536
      (s.servoState ≠ 0 → (s.servoState = 2 → (e.value + s.servo.slew + s.servo.step).natAbs ≤ s.get Fld.timeOutlierOutlierNs * 1000) →
        acts .feedMeas 1 fun t => t.servoState = 2 ∧ t.servo.lastMeas = some e.t ∧ t.get Fld.timeStateAnchored = 0 ∧
          (t.servo.fint.natAbs : Int) ≤ s.fmax) ∧
      acts .feedSlew 2 (fun t => t.servo.slew = s.servo.slew + e.value ∧ t.servo.step = s.servo.step ∧ t.servo.fint = s.servo.fint) ∧
      acts .feedStep 3 (fun t => t.servo.step = s.servo.step + e.value ∧ t.servo.slew = 0 ∧ t.servo.fint = s.servo.fint) ∧
      acts .feedHold 4 (fun t => t.servoState = if s.servoState = 2 then 3 else s.servoState) ∧
      ((s.servoState = 0 ∨ s.sysRunning = false) → acts .feedSet 5 fun t => t.servo.setDue = some (e.t / 1000000000) ∧ t.site = s.site))

/-- SET_LOAD, FEED_TIMEOUT, SLEW_COMPLETE and TIME_SNAP complete (12 R304, R307, R309; 15 R376): SET_LOAD loads the seconds at the counter's next
whole second, with the cycle number that follows from them, and a fleet cycle begins there; a servo without MEAS for FEED_TO_MS goes to HOLD
with FEED_TIMEOUT; a slew ends when its remainder is used up; SNAP copies the counter into its four words. -/
def Obligations.SiteTimeCounter : Prop :=
  ∀ s : State,
    (∀ n u, s.servo.setDue = some n → s.clock.afterSet = none →
      s.reachSite (1000000000000 * (s.site.ps / 1000000000000 + 1)) = some u → Gives .setLoad s fun t =>
      t.site = { sec := n % 2 ^ 48, ns := 0, frac := 0 } ∧ t.roots = u.roots ∧ t.cycleRoots = u.roots ∧ t.cyclePs = t.site.ps ∧ t.cycle = State.siteCycle { s with site := t.site } ∧
      t.get Fld.sysPhasePhase = 0 ∧ t.get Fld.sysPhaseOffsetUs = 0 ∧ t.servo.fint = 0 ∧ t.servo.slew = 0 ∧ t.servo.step = 0 ∧
      t.servo.setDue = none ∧ t.servoState = (if s.servoState = 0 then 1 else s.servoState) ∧
      t.get Fld.timeStateStepseq = (s.get Fld.timeStateStepseq + 1) % 256) ∧
    (∀ u, s.servoState = 2 → s.reachUs (1000 * s.get Fld.timeServoFeedToMs + s.servo.measUs) = some u → Gives .feedTimeout s fun t => t.servoState = 3 ∧ t.get Fld.timeFaultCode = 0x3181 ∧ t.servo.fint = s.servo.fint) ∧
    (∀ u, s.get Fld.timeStateSlewing ≠ 0 → s.reach s.slewEnd = some u → Gives .slewComplete s fun t =>
      t.servo.slew = 0 ∧ t.roots = u.roots ∧ t.clock = { s.clock with slewing := false } ∧
      t.get Fld.timeStateSlewing = 0) ∧
    Gives .timeSnap s (SetsWords s [(Fld.timeSnapnsNs, 0, s.site.ns % 2 ^ 32), (Fld.timeSnapsloSecLo, 0, s.site.sec % 2 ^ 32),
      (Fld.timeSnapshiSecHi, 0, s.site.sec / 2 ^ 32 % 2 ^ 16), (Fld.timeSnapshiFrac, 0, s.site.frac / 2 ^ 32 % 2 ^ 16)])

/-- CLOCK_SOLUTION, HOLDOVER_ENTER, HOLDOVER_OUT_OF_LIMIT, REACQUIRE_DECISION, FIRST_DECISION, TRACKING_ENTER and CORR_OK_SET complete (06
R159-R164): an epoch counts as qualified or not, and a qualified one ends HOLDOVER; HOLDOVER after 100 unqualified
epochs; the decisions after 100 offsets; TRACKING after 1,000 qualified epochs with no slew, and CORR_OK. -/
def Obligations.ReferenceStates : Prop :=
  ∀ (s : State) (tsb : List Byte) (sol : ClockSol),
    let c := s.clock
    let sets := fun (i : Instr) (d : Clock) => Gives i s fun t => t = { s with clock := d }
    let e := c.mean
    Gives (.clockSolution tsb sol) s (fun t =>
      let live := if tsbOk tsb && (c.tsb = [] || descAt tsb 4 4 ≠ descAt c.tsb 4 4) then tsb else c.tsb
      t.clock.tsb = live ∧ t.clock.record.length = 64 ∧ t.clock.stepped = false ∧
      if State.qualified { s with clock := { c with tsb := live } } sol = true then t.clock.unqual = 0 ∧
        t.clock.state = (if c.state = 2 then 3 else c.state) ∧ t.clock.qual = (if c.state = 2 then 1 else c.qual + 1)
      else t.clock.unqual = c.unqual + 1 ∧ t.clock.state = c.state ∧ t.clock.qual = 0 ∧ t.clock.corrOk = false) ∧
    ((c.state = 1 ∨ c.state = 3) → 100 ≤ c.unqual → Gives .holdoverEnter s fun t => t.clock.state = 2 ∧ t.clock.decided = false ∧
      t.clock.holdUs = s.us ∧ (s.get Fld.timeServoSrc = 0 → s.servoState = 2 → t.servoState = 3)) ∧
    ((c.state = 2 ∨ c.state = 3 ∧ c.decided = false) → s.tsbAt 28 4 * 1000 < c.unc →
      sets .holdoverOutOfLimit { c with outOfLimit := true }) ∧
    (c.state = 3 → c.decided = false → 100 ≤ c.sums → Gives .reacquireDecision s fun t =>
      t.clock = { c with decided := true, slewing := decide (e.natAbs < 10000000 ∧ e ≠ 0), stepDue := decide (10000000 ≤ e.natAbs),
                         unc := c.sigma + e.natAbs, outOfLimit := false } ∧
      (s.get Fld.timeServoSrc = 0 → s.servoState ≠ 0 → e.natAbs < 10000000 → (s.servo.slew - e).natAbs < 1000000000 →
        t.servo.slew = s.servo.slew - e)) ∧
    (c.state = 0 → 100 ≤ c.sums → s.servoState ≠ 0 → Gives .firstDecision s fun t => t.clock = { c with
        state := 3, decided := true, qualRe := 0, stepDue := decide (20000 ≤ e.natAbs), unc := c.sigma + e.natAbs } ∧
      (e.natAbs < 20000 → t = { s with clock := t.clock })) ∧
    (c.state = 0 → 100 ≤ c.sums → s.servoState = 0 → s.get Fld.timeServoSrc = 0 → Gives .firstDecision s fun t =>
      t.clock.state = 3 ∧ t.clock.decided = true ∧ t.servo.setDue.isSome = true ∧ t.site = s.site) ∧
    (c.state = 3 → c.decided = true → 1000 ≤ c.qual → c.slewing = false → sets .trackingEnter { c with state := 1 }) ∧
    ((c.state = 3 ∨ c.state = 1) → 1000 ≤ c.qualRe → sets .corrOkSet { c with corrOk := true })

/-! ### The corrections and the Reeve -/

/-- CORRECTION_EPOCH, SURVEY_DONE, CORR_STALE, CORR_STOPPED, CORR_RESUMED, RESIDUAL_REPORT and MAP_BATCH complete (07 R170, R171, R174, R181,
R184, R185): an epoch at a tenth-second boundary counts its satellites one way or the other, and a late one changes no cell; the survey fixes the
mean position; STALE, STOPPED and NORMAL; a report is kept up to 8,192 residuals or discarded and counted; a batch updates the cells that its
residuals name and no other. -/
def Obligations.CorrectionStates : Prop :=
  ∀ (s : State) (sats : List CorrSat) (fix : Option Ecef) (sigma : Nat) (b : List Byte), s.corrRuns = true →
    let c := s.corr
    let puts := fun (i : Instr) (d : Corr) => Gives i s fun t => t.corr = d
    (s.onTenth = true → c.lastEpoch ≠ some s.cyclePs → c.csb ≠ [] → descAt (s.rd Config.corrBase 256) 4 4 = s.csbAt 4 4 →
      (s.get Fld.sysPhasePhase < 2 → Gives (.correctionEpoch sats fix) s fun t => t.corr.align = false ∧ t.corr.lastEpoch = some s.cyclePs ∧
        (t.corr.short = 0 ∧ t.corr.good = c.good + 1 ∨ t.corr.short = c.short + 1 ∧ t.corr.good = 0) ∧
        (s.clock.posFixed = false → s.csbAt 95 1 ≠ 0 → t.corr.short = c.short + 1 ∧ ∀ x ∈ t.corr.cells, x.on = false)) ∧
      (2 ≤ s.get Fld.sysPhasePhase → puts (.correctionEpoch sats fix) { c with lastEpoch := some s.cyclePs })) ∧
    (let mean := fun (v : Int) => qround 57 v c.used
     c.state = 0 → s.csbAt 88 4 * 10 ≤ c.used → sigma ≤ s.csbAt 92 2 → Gives (.surveyDone sigma) s fun t =>
      t.corr = { c with state := 3, surveyed := true, base := ⟨mean c.sum.x, mean c.sum.y, mean c.sum.z⟩, good := 0 } ∧
      t.clock = { s.clock with posFixed := true }) ∧
    (c.state = 1 → (s.clock.corrOk = false ∨ 10 ≤ c.short) → puts .corrStale { c with state := 2, staleUs := s.us }) ∧
    (c.state = 2 → c.staleUs + s.csbAt 96 2 * 1000000 ≤ s.us → puts .corrStopped { c with state := 3 }) ∧
    ((c.state = 2 ∨ c.state = 3) → s.clock.corrOk = true → 10 ≤ c.good → puts .corrResumed { c with state := 1, resume := true }) ∧
    (c.csb ≠ [] → s.csbMode 3 = true →
      let good := bitOf (descAt b 2 1) 3 = true ∧ 5 ≤ descAt b 8 1 ∧ descAt b 8 1 ≤ 48 ∧
        (descAt b 3 1 = c.gen ∨ (descAt b 3 1 + 1) % 256 = c.gen)
      (¬ good → puts (.residualReport b) { c with rejected := c.rejected + 1 }) ∧
      (good → Gives (.residualReport b) s fun t => ∃ l : List Residual, (∀ x ∈ l, x.cell < 31104) ∧
        t.corr = { c with resid := c.resid ++ l.take (8192 - c.resid.length), dropped := c.dropped + (l.length - (8192 - c.resid.length)) })) ∧
    (∀ l rest, c.batches = l :: rest → Gives .mapBatch s fun t => t.corr.batches = rest ∧
      (t.corr.gen = c.gen ∨ t.corr.gen = (c.gen + 1) % 256) ∧
      ∀ k, Map.getD t.corr.map k {} =
        if ∃ x ∈ l, x.cell = k then s.mapUpdate (Map.getD c.map k {}) (l.filter fun x => x.cell = k) else Map.getD c.map k {})

/-- CLAIM, RELEASE, CONFIRM, CLOSE, OPEN, TASK_POST, AWARD, TASK_DONE and TASK_CANCEL complete (08 R197-R209), each well formed and not stale at the head of the queue while the Reeve takes requests, on the path where it
succeeds: what it writes to the tables, and the answer that goes to its destination with the cancels of the same clock. -/
def Obligations.ReeveRequests : Prop :=
  ∀ (s : State) (same : List (Fin 24)) (r : ClaimReq), s.reeveTakes = true → s.reqStale r = false → r.ok = true →
    let v := s.reeve
    let h := r.at 4 2
    let takes := fun (i : Instr) (op n data resid : Nat) (P : State → Prop) => s.headReq op = some r → Gives i s fun t => ∃ u,
      t = u.reeveFollow.reeveResult r.dest (ReeveAnswer.value ⟨0, n, data, resid⟩) same ∧ u.reeve.queue = v.queue.tail ∧ P u
    let gone := fun (es : List (Nat × Resv)) (u : State) (k : Nat) => k ∈ es.map Prod.fst → Map.find u.reeve.table k = none
    let round := s.get Fld.reeveBucketRound
    let f := r.word 0 / 65536
    let held := fun (e : Resv) => e.holder = h && e.state = .held && decide (0 ≤ bucketDiff e.bucket f) && (r.at 12 4 = 0 || e.resid = r.at 12 4)
    (∀ g k, r.c = 1 → bitOf (r.at 1 1) 0 = false → v.segs[r.word 0 % 32768]? = some g → s.groupClosed g = false →
      0 ≤ bucketDiff f s.pNext → bucketDiff f s.pNext < s.get Fld.reeveHorizonBuckets →
      (∀ p ∈ v.table, ¬ (p.2.group = g ∧ p.2.bucket = f)) → freeWay v.table (resvSet g f) = some k →
      let id := s.get Fld.reeveResidnextResid
      let pri := if h = 0xFFFF then 7 else r.at 2 1
      takes (.claim same) 1 0 1 id fun u => u.reeve.table = Map.put v.table k ⟨g, f, h, r.word 0 % 32768, id, pri, .held, r.at 6 2⟩ ∧
        u.get Fld.reeveResidnextResid = if id = 0xFFFFFFFF then 1 else id + 1) ∧
    (let es := s.resvWhere held
     es ≠ [] → takes (.release same) 2 0 es.length 0 fun u => ∀ k, gone es u k ∧
       (k ∉ es.map Prod.fst → Map.find u.reeve.table k = Map.find v.table k)) ∧
    (∀ w, v.revokes.find? (fun w => w.holder = h && w.from' = f) = some w → let es := s.revoked w
      takes (.confirm same) 3 0 es.length 0 fun u => w ∉ u.reeve.revokes ∧ ∀ k, gone es u k) ∧
    (∀ g, v.segs[r.word 0]? = some g → let n := (s.resvWhere fun e => e.group = g).length
      takes (.closeGroup same) 4 0 n 0 (fun u => u.reeve.closed = insertLine v.closed g) ∧
      takes (.openGroup same) 5 0 n 0 (fun u => u.reeve.closed = v.closed.filter (· ≠ g))) ∧
    (∀ n, r.at 35 1 ≤ 15 → (r.at 35 1 = 0 ∨ r.at 34 1 < s.get Fld.reeveLightBays) → r.at 36 2 < s.get Fld.reeveGraphsizeNodes → n < 4096 →
      Map.find v.tasks n = none → (∀ m, m < n → (Map.find v.tasks m).isSome = true) → takes (.taskPost same) 6 0 n 0 fun u =>
        u.reeve.tasks = Map.put v.tasks n ⟨1, r.at 32 1, r.at 33 1, r.at 34 1, r.at 36 2, 0xFFFF, r.at 35 1, 0xFF, round, r.at 44 4,
          r.at 40 4, s.second, r.at 48 8⟩) ∧
    (∀ k, Map.find v.tasks (r.at 6 2) = some k →
      let a := secDiff (r.word 1) s.second
      let used := s.get Fld.reeveUsedUsedS k.bay
      let due := secDiff k.deadline s.second
      (r.word 0 = round → k.state = 1 → (∀ p ∈ v.tasks, ¬ (p.2.state = 2 ∧ p.2.robot = h)) → 0 < due →
        (k.recipe = 0 → takes (.award same) 7 0 0xFFFF 0 fun u =>
          u.reeve.tasks = Map.put v.tasks (r.at 6 2) { k with state := 2, robot := h, window := 0xFF, round := round }) ∧
        (∀ w, k.recipe ≠ 0 → a + k.duration ≤ due → s.get Fld.reeveLightLeadS ≤ a → (∀ p ∈ v.windows, p.2.bay ≠ k.bay) →
          s.fitWindow k.bay k.recipe a (a + k.duration) = .book w → used + k.duration ≤ s.get Fld.reeveBudgetBudgetS k.bay →
          0 < s.get Fld.reeveBudgetBudgetS k.bay → s.get Fld.reeveBudgetBudgetS k.bay < 2 ^ 17 → s.dayStart ≤ a →
          a + k.duration ≤ s.dayStart + 86400 → takes (.award same) 7 0 w 0 fun u =>
            u.reeve.tasks = Map.put v.tasks (r.at 6 2) { k with state := 2, robot := h, window := w, round := round } ∧
            u.reeve.windows = Map.put v.windows w ⟨k.bay, k.recipe, 1, 1, unsigned 32 (s.second + a), unsigned 32 (s.second + (a + k.duration)), k.duration⟩ ∧
            u.get Fld.reeveUsedUsedS k.bay = used + k.duration)) ∧
      (k.state = 2 → takes (.taskDone same) 8 0 k.robot 0 fun u =>
        u.reeve.tasks = Map.put v.tasks (r.at 6 2) { k with state := 3, round := round }) ∧
      (k.state = 1 ∨ k.state = 2 → takes (.taskCancel same) 9 0 k.robot 0 fun u =>
        u.reeve.tasks = Map.put v.tasks (r.at 6 2) { k with state := 4, round := round }))

/-- REEVE_LOAD, GRAPH_LOAD_DONE, REEVE_CLEAR, REEVE_RESTORE, REEVE_RESTORE_DONE, REEVE_RUN, REEVE_STOP, SOLO_REQUEST_WINDOW_CLOSE and
MILL_CUT_START complete (04 R109; 08 R191, R211-R215): a stopped Reeve loads and checks its graph, restores or clears its tables, and runs when its live
words pass and it is not a standby; STOP closes the request window; the Mill cut closes the window and starts, and without a cut the
window closes alone. -/
def Obligations.ReeveRunsAndLoads : Prop :=
  ∀ s : State,
    let st := s.get Fld.reeveStateState
    let v := s.reeve
    let nodes := s.get Fld.reeveGraphsizeNodes
    let segs := s.get Fld.reeveGraphsizeSegs
    let g := s.get Fld.reeveGraphAddr * 256
    let sa := g + 16 * nodes
    let froms := (List.range segs).map fun k => s.readLE (sa + 16 * k) 2
    let fine := 0 < nodes ∧ 0 < segs ∧ (∀ k, k < nodes → s.graphNodeOk g k froms = true) ∧ (∀ k, k < segs → s.graphSegOk sa nodes k = true)
    let live := fun f => s.get f
    let empty := fun (t : State) => t.reeve.table = [] ∧ t.reeve.tasks = [] ∧ t.reeve.windows = [] ∧ t.reeve.closed = [] ∧
      t.reeve.preempts = [] ∧ t.reeve.revokes = [] ∧ t.get Fld.reeveResidnextResid = 1 ∧ t.get Fld.reeveBucketRound = 0
    let blk := s.mirror 0x121800
    (st = 0 → Gives .reeveLoad s (SetsWords s [(Fld.reeveStateState, 0, 1)]) ∧
      Gives .reeveRestore s (SetsWords s [(Fld.reeveStateState, 0, 2)]) ∧ Gives .reeveClear s empty) ∧
    (st = 1 → Gives .graphLoadDone s fun t => t.get Fld.reeveStateState = 0 ∧
      (fine → t.get Fld.reeveStateGraphOk = 1 ∧ t.get Fld.reeveGraphcrcCrc = crc32c (s.rd g (16 * (nodes + segs))) % 2 ^ 32 ∧
        t.reeve.segs = (List.range segs).map fun k => s.readLE (sa + 16 * k + 4) 2 % 32768) ∧
      (¬ fine → t.get Fld.reeveStateGraphOk = 0 ∧ t.get Fld.reeveFaultCode = 0x1402 ∧ t.reeve = v)) ∧
    (st = 2 → Gives .reeveRestoreDone s fun t => t.get Fld.reeveStateState = 0 ∧
      if s.readLE blk 4 = 0x54535652 ∧ s.readLE (blk + 8) 4 = s.get Fld.reeveGraphcrcCrc then t.get Fld.reeveStateRestoreOk = 1 ∧
        t.reeve.table = s.readTable ∧ t.reeve.tasks = s.readTasks ∧ t.reeve.queue = s.readSnapshot ++ v.queue ∧
        t.get Fld.reeveBucketRound = s.readLE (blk + 14) 2
      else t.get Fld.reeveStateRestoreOk = 0 ∧ empty t) ∧
    (st = 0 → (s.reeveHeld = false ∨ s.pairing.takeT ≠ none ∨ s.get Fld.plinkHCycle ≠ 0) → s.getB Fld.reeveStateGraphOk = true →
      reeveLayoutOk s live = true → reeveHorizonOk live = true → reeveLightOk (fun f i => s.get f i) = true → reeveAuctionOk live = true →
      Gives .reeveRun s fun t => t.get Fld.reeveStateState = 3 ∧ t.reeve.ran = true ∧
        if v.ran then t.reeve = v else empty t) ∧
    ((st = 3 ∨ st = 4) → Gives .reeveStop s (SetsWords { s with reeve := { v with window := false } } [(Fld.reeveStateState, 0, 0)])) ∧
    ((s.solo = true ∨ s.get Fld.millCutbaseAddr = 0) →
      Gives .soloRequestWindowClose s fun t => t = { s.moveTo 5999 with reeve := { v with window := false } }) ∧
    (s.millCutDue = true → s.mill.cutting = false → s.millState ≠ 1 → Gives .millCutStart s fun t =>
      t.roots = (s.moveTo (6000 - s.cutLead)).roots ∧ t.reeve = { v with window := false } ∧
        t.mill = { s.mill with cutting := true, cutPending := false, cutLate := false, cutCycle := some s.cycle, prev := s.millState } ∧
        t.millState = if s.millState = 0 then 0 else 4)

/-! ### The fleet radio -/

/-- RADIO_RUN, XCVR_NO_RESPONSE, RADIO_STOP, PORT_TXLOAD, PORT_SETCH, LBT_RETRY and TX_COMPLETE complete (09 R217, R218, R231, R243, R245, R249,
R251): RUN starts a stopped port whose live words and plan pass and raises 0x2001 otherwise; a
transceiver that does not answer fails it; STOP waits for the boundary; a frame, with the cycle in a native downlink header, and a MIC, crosses
the port's transmit unit to the transceiver; a hop
goes to a channel of the map; an LBT attempt sends on a clear channel and backs off or gives up on a busy one; TX_COMPLETE writes the
outcome to DMEM and sets event 10. -/
def Obligations.RadioPorts : Prop :=
  ∀ (s : State) (n buf : Fin 4) (i : Fin 1024) (d : BitVec 8) (next : Bool) (rssi : Int),
    let p := s.port n
    let q := 4 + n.val
    let g := s.liveRead
    let puts := fun (c : Instr) (p' : RadioPort) => Gives c s fun t => t = s.setPort n p'
    (s.portStopped n = true → Gives (.radioRun n d) s fun t =>
      if s.radioLayoutOk g = true ∧ s.radioPortOk g n = true ∧ radioRegOk g n = true ∧ s.radioKeyOk g = true then
        t.get Fld.radioStatState n = 1 ∧ t.get Fld.queueStatState (12 + n.val) = 1 ∧ t.get Fld.queueStatState (16 + n.val) = 1 ∧
        t.port n = { p with stopping := false, planLive := s.planOf g n, xdrop := d.toNat, stamps := [], stamp := none,
                              parked := [] }
      else t.get Fld.radioFaultCode = 0x2001 ∧ t.get Fld.radioStatState n = s.get Fld.radioStatState n ∧ t.port n = p) ∧
    (s.portStopped n = false → Gives (.radioRun n d) s fun t => t = s) ∧
    (s.get Fld.radioStatState n = 1 → Gives (.xcvrNoResponse n) s fun t => t.get Fld.radioStatState n = 3 ∧ t.get Fld.radioFaultCode = 0x2002) ∧
    (s.portStopped n = false → puts (.radioStop n) { p with stopping := true }) ∧
    Gives (.portTxload n buf) s (fun t => ∃ b : List Byte, let b0 := Map.getD (s.seq q).tx buf.val []
      let f := b ++ micOf (s.frameKey b) b 4
      (t.port n).loaded = (if (s.qCross (16 + n.val) f).1 = true then f else p.loaded) ∧ b.length = b0.length ∧
      (12 ≤ b0.length → descAt b0 0 1 / 16 = 2 → descAt b 8 4 = s.cycle) ∧
      ∀ k, (descAt b0 0 1 / 16 = 2 → k < 8 ∨ 12 ≤ k) → b[k]? = b0[k]?) ∧
    (let cyc := if next then nextCycle s.cycle else s.cycle
     let hop := fun (dst : Option (Fin 1024)) (m k : Nat) => Gives (.portSetch n dst next) s fun t => ∃ c, bitOf m c = true ∧
       (setBits m)[k % (setBits m).length]? = some c ∧ t = s.setPort n { p with channel := c }
     (s.get Fld.radioRegMode n < 2 → puts (.portSetch n none next) { p with channel := s.get Fld.radioBchBch n }) ∧
     (2 ≤ s.get Fld.radioRegMode n → setBits (beaconMap g n) ≠ [] → hop none (beaconMap g n) (cyc * s.get Fld.radioBchBhop n)) ∧
     (setBits (s.nbrAt i 8 8) ≠ [] → hop (some i) (s.nbrAt i 8 8) (s.nbrEvt i cyc * s.nbrAt i 1 1))) ∧
    (∀ w, p.wait = some w →
      let b := Map.getD (s.seq q).tx w.buf []
      let off := w.off + 200 * w.deferral
      let ends := fun (flags : Nat) (t : State) => (t.port n).wait = none ∧
        (t.port n).outcomes = p.outcomes ++ [⟨w.buf, flags + 256 * ((w.attempts + 1) % 256) + 65536 * (w.deferral % 65536), w.gated⟩]
      b ≠ [] → s.bellSlot0 n w.off = false → s.bellOverlap n off (b.length + 4) = false → s.fitsRest n w.off off (b.length + 4) = true →
      s.dutyOk n (b.length + 4) false = true → s.dwellOk n (b.length + 4) false = true → s.get Fld.radioRegMode n % 2 = 1 →
      Gives (.lbtRetry n rssi) s fun t =>
        if rssi < signed 8 (s.get Fld.radioRegCcaDbm n) then t.get Fld.radioCnt2Lbt n = s.get Fld.radioCnt2Lbt n ∧
          if (s.qCross (16 + n.val) (s.portFrame n w.buf)).1 = true then ends 1 t ∧ (t.seq q).onAir = insertLine (s.seq q).onAir w.buf
          else ends 0 t
        else (t.seq q).onAir = (s.seq q).onAir ∧ (ends 2 t ∧ t.get Fld.radioCnt2Lbt n = (s.get Fld.radioCnt2Lbt n + 1) % 65536 ∨
          w.attempts + 1 < s.get Fld.radioRegTries n ∧ ∃ k, 1 ≤ k ∧ k ≤ max 1 (s.get Fld.radioRegCw n) ∧
            (t.port n).wait = some { w with attempts := w.attempts + 1, deferral := w.deferral + k * s.get Fld.radioLbtBoUs n })) ∧
    (∀ o rest, p.outcomes = o :: rest → Gives (.txComplete n) s fun t => (t.port n).outcomes = rest ∧
      (s.imgActive n = false → Memory.wf (s.seq q).dmem = true →
        leNat (readBytes (t.seq q).dmem (0x7FF0 + 4 * o.buf) 4) = o.word % 2 ^ 32 ∧ bitOf (t.seq q).evpend 10 = true ∧
        (t.seq q).onAir = (s.seq q).onAir.filter (· ≠ o.buf) ∧
        t.get Fld.radioCnt0Tx n = if bitOf o.word 0 then (s.get Fld.radioCnt0Tx n + 1) % 65536 else s.get Fld.radioCnt0Tx n) ∧
      (s.imgActive n = true → o.gated = true → o.buf = 0 → bitOf o.word 0 = false → bitOf o.word 5 = true →
        (t.rimg n).list = [] ∧ (t.rimg n).chain = false))

/-- RXTS_RISE, RXTS_FALL, FRAME_RECEIVE, NBRSET, NBRSET_APPLY, SUPERVISION_LOST and HELD_FRAME_EXPIRE complete (09 R218, R219, R230, R233, R235,
R239): RXTS is stamped at its offset; the frame goes to the port's unit, while HOLD is high it stays in the transceiver, which keeps four; a frame is dropped at the first check it fails, and one that passes counts in CNT0.RX; an image
of NBRSET waits, is checked and its result written; a lost connection enters state 4; a held frame expires. -/
def Obligations.FramesAndNeighbours : Prop :=
  ∀ (s : State) (n : Fin 4) (i : Fin 1024) (line : Fin 8) (off : Nat) (frame : List Byte) (rssi : Byte) (fcs : Bool),
    let p := s.port n
    let at' := (s.cycbase (4 + n.val) + off) % 2 ^ 32
    let rose := s.passInCycle (min (s.clocksUntil (4 + n.val) at') (s.clocksTo (rawOfPs s.boundaryPs)))
    let last : Byte := if fcs then 1 else 0
    Gives (.rxtsRise n off) s (fun t => t = rose.setPort n { p with stamp := some ⟨at', off, s.cycle⟩ }) ∧
    (∀ st, p.stamp = some st →
      (s.portStopped n = true → Gives (.rxtsFall n frame rssi fcs) s fun t => t = s) ∧
      (s.portStopped n = false → s.getB Fld.queueStatWm (12 + n.val) = true → Gives (.rxtsFall n frame rssi fcs) s fun t =>
        t = s.setPort n { p with stamp := none, parked := if p.parked.length < 4 then p.parked ++ [(st, frame ++ [rssi, last])] else p.parked }) ∧
      (s.portStopped n = false → s.getB Fld.queueStatWm (12 + n.val) = false → s.get Fld.queueStatState (12 + n.val) ≠ 0 →
        (s.queue (12 + n.val)).marker = none → p.parked = [] →
        Gives (.rxtsFall n frame rssi fcs) s fun t =>
          let u := s.queue (12 + n.val)
          if u.fill + qStored (frame.length + 2) + 16 ≤ s.qSize (12 + n.val) then
            (t.queue (12 + n.val)).items.map (·.body) = u.items.map (·.body) ++ [frame ++ [rssi, last]] ∧
            t.port n = { p with stamp := none, stamps := p.stamps ++ [st] }
          else (t.queue (12 + n.val)).items = u.items ∧ t.port n = { p with stamp := none })) ∧
    (∀ it rest st, (s.queue (12 + n.val)).items = it :: rest → it.visible = true → it.gap = false → p.stamps.head? = some st →
      p.parked = [] → (s.imgRuns n = true → s.imgActive n = true) →
      let f := it.body.take (it.body.length - 2)
      let v := descAt f 0 1 / 16
      let k := descAt f 0 1 % 16
      let src := descAt f 2 2
      let sp := s.rxSpan n st.off
      let valid := rxTypeOk v k sp.type = true ∧ s.rxAdmits n src v k sp st.cycle = true ∧ s.rxWindow n src st.off sp st.cycle = true
      let mic := f.drop (f.length - 4) = micOf (s.frameKey f) (f.take (f.length - 4)) 4
      let good := it.body.getD (it.body.length - 1) 0 = 1
      let m : Nat := if v = 1 then 2 ^ 16 else 2 ^ 32
      let dist := (((if v = 1 then descAt f 4 2 else descAt f 4 4) : Int) - (if v = 1 then s.nbrAt src 16 2 else s.nbrAt src 16 4)) % m
      let counts := fun (t : State) (c : Fld) => ∀ x ∈ [Fld.radioCnt0Rx, Fld.radioCnt1Mic, Fld.radioCnt1Replay, Fld.radioCnt3Fcs],
        t.get x n = if x = c then (s.get x n + 1) % 65536 else s.get x n
      Gives (.frameReceive n) s fun t => (t.port n).stamps = p.stamps.tail ∧
        (¬ good → counts t Fld.radioCnt3Fcs ∧ t.mem = s.mem) ∧
        (good → ¬ valid → counts t Fld.radioCnt2Lbt ∧ t.mem = s.mem) ∧
        (good → valid → ¬ mic → counts t Fld.radioCnt1Mic ∧ t.mem = s.mem) ∧
        (good → valid → mic → dist = 0 → s.imgRuns n = false → counts t Fld.radioCnt2Lbt ∧ t.mem = s.mem) ∧
        (good → valid → mic → 0 < dist → dist < m / 2 → s.imgRuns n = false → counts t Fld.radioCnt0Rx) ∧
        (good → valid → mic → (m : Int) / 2 ≤ dist → counts t Fld.radioCnt1Replay ∧ t.mem = s.mem)) ∧
    (s.radio.nbrset = none → s.portsStopped = false → Gives (.nbrset i line) s fun t => t.radio = { s.radio with nbrset := some (i.val, line.val) } ∧
      SetsWords { s with radio := t.radio } [(Fld.radioNbrresDone, 0, 0), (Fld.radioNbrresIndex, 0, i.val)] t) ∧
    (s.radio.nbrset.isSome = true → s.portsStopped = false → Gives (.nbrset i line) s fun t => t = s) ∧
    (∀ j l, s.radio.nbrset = some (j, l) → j < 1024 → Gives .nbrsetApply s fun t =>
      let code := s.nbrCheck j (s.rd (s.get Fld.radioNbrbaseAddr * 256 + 0x10000 + 64 * l) 64)
      t.radio.nbrset = none ∧ t.get Fld.radioNbrresResult = code ∧ t.get Fld.radioNbrresDone = 1 ∧ t.get Fld.radioNbrresIndex = j ∧
      (code ≠ 0 → t.mem = s.mem) ∧
      (code = 0 → ∀ k, (k = 1 → t.get Fld.radioCountConn = t.kindCount k % 2 ^ 8) ∧ (k = 2 → t.get Fld.radioCountSleepy = t.kindCount k % 2 ^ 10))) ∧
    (let st := s.nbrState i
     let tmo := s.nbrAt i 2 2
     let lost := (s.nbrKind i = 1 ∨ s.nbrKind i = 2) ∧ 1 ≤ st ∧ st ≤ 3 ∧ tmo ≠ 0 ∧ tmo < unsigned 32 ((s.cycle : Int) - s.nbrAt i 20 4)
     (¬ lost → Gives (.supervisionLost i) s fun t => t = s) ∧
     (lost → Memory.wf s.mem = true → s.decant.stalled = [] → s.writable (s.nbrAddr i) 1 = true → Gives (.supervisionLost i) s fun t =>
       t.nbrState i = 4 ∧ t.nbrKind i = s.nbrKind i ∧ ∀ a, a ≠ s.nbrAddr i → memByte t.mem a = memByte s.mem a)) ∧
    (∀ (j : Nat) h, (s.rimg n).held[j]? = some h →
      (h.since + s.rcbAt n 26 2 * 1000000 < s.us → Gives (.heldFrameExpire n j) s fun t =>
        (t.rimg n).held = (s.rimg n).held.eraseIdx j ∧ (t.rimg n).events = (s.rimg n).events + 1) ∧
      (s.us ≤ h.since + s.rcbAt n 26 2 * 1000000 → Gives (.heldFrameExpire n j) s fun t => t = s))

/-! ### The Bell -/

/-- ESTOP_CHANNEL_OPEN, ESTOP_CHANNEL_CLOSE, ESTOP_TEST_PULSE, ESTOP_DISCREPANCY, ESTSTAT_CLEAR, BELL_RUN, STOP_COMMAND,
RELEASE_COUNT_DURABLE, PARTNER_RELEASE_MSG, PARTNER_REPORT_SEND, PARTNER_REPORT and PARTNER_REPORT_LOST complete (10 R253-R259, R276): an enabled input that opens or fails its test latches, and the state
follows the strongest class; a latch outlives its condition; a stop command is checked in order and latches its class or waits for its
count; a RELEASE is refused while a condition is present and clears every latch otherwise; the partner's class counts, and freezes. -/
def Obligations.BellStates : Prop :=
  ∀ (s : State) (n : Fin 4) (chB high : Bool) (tf dc : BitVec 4) (cls : Fin 3),
    let st := s.get Fld.bellStateState
    let open' := if chB then Fld.bellEststatBopen else Fld.bellEststatAopen
    let bit := fun (t : State) (f : Fld) (k : Nat) => bitOf (t.get f) k
    let follows := fun (t : State) => t.get Fld.bellStateState = if s.bell.running = true then bellNext st t.bellMerged else st
    let condIs := fun (t : State) => ∀ k, k < 4 → bit t Fld.bellSrcEstcond k = t.estCond k
    let latched := fun (t : State) => bit t Fld.bellSrcEst n = true ∧ s.get Fld.bellEstClass n ≤ t.bellMerged ∧ follows t ∧ condIs t
    let present := (List.range 4).any s.estCond = true
    let released := fun (fwd : Nat) (t : State) => if present then t.get Fld.bellFaultCode = 0x2404 ∧ t.bell.relSent = s.bell.relSent ∧
          t.get Fld.bellSrcEst = s.get Fld.bellSrcEst ∧ t.get Fld.bellStateState = st
        else (∀ f ∈ [Fld.bellSrcEst, Fld.bellSrcCmd, Fld.bellSrcKernel, Fld.bellSrcStart], t.get f = 0) ∧
          t.bell.relSent = s.bell.relSent + fwd ∧ t.bellMerged = (if s.bell.frozen then 0 else s.get Fld.bellStatePartner) ∧
          t.get Fld.bellStateState =
            if s.bell.running = true then bellNext (if st = 4 ∧ t.bellMerged = 0 then 0 else st) t.bellMerged else st
    (s.getB Fld.bellEstEn n = true → Gives (.estopChannelOpen n chB) s fun t => bit t open' n = true ∧ latched t) ∧
    (s.getB Fld.bellEstEn n = false → Gives (.estopChannelOpen n chB) s fun t => bit t open' n = true ∧ condIs t ∧
      t.get Fld.bellSrcEst = s.get Fld.bellSrcEst ∧ t.get Fld.bellStateState = st) ∧
    Gives (.estopChannelClose n chB) s (fun t => (∀ k, k < 4 → bit t open' k = (bit s open' k && decide (k ≠ n.val))) ∧ condIs t ∧
      t.get Fld.bellSrcEst = s.get Fld.bellSrcEst ∧ t.get Fld.bellStateState = st) ∧
    (let runs := s.bell.running = true ∧ s.getB Fld.bellEstEn n = true ∧ s.getB Fld.bellEstTestEn n = true
     (∀ u, runs → s.reachUs (s.testEnds n chB) = some u → Gives (.estopTestPulse n chB false) s fun t =>
       t = { u with bell := t.bell } ∧ t.testEnds n chB = s.testEnds n chB + 1000 * s.get Fld.bellTestTperMs) ∧
     (∀ u, runs → s.reachUs (s.testEnds n chB) = some u → Gives (.estopTestPulse n chB true) s fun t => bit t Fld.bellEststatTestfail n = true ∧ latched t ∧
       t.get Fld.bellFaultCode = 0x2402 ∧ t.get Fld.bellFaultIndex = n) ∧
     (¬ runs → Gives (.estopTestPulse n chB high) s fun t => t = s)) ∧
    (∀ t0 u, Map.find s.bell.discFrom n = some t0 → s.reachUs (1000 * s.get Fld.bellDiscDiscMs + t0) = some u → Gives (.estopDiscrepancy n) s fun t =>
      bit t Fld.bellEststatDiscrep n = true ∧ t.get Fld.bellFaultCode = 0x2403 ∧ t.get Fld.bellFaultIndex = n ∧ condIs t ∧
      t.get Fld.bellSrcEst = s.get Fld.bellSrcEst) ∧
    Gives (.eststatClear tf dc) s (fun t => condIs t ∧ t.get Fld.bellSrcEst = s.get Fld.bellSrcEst ∧ ∀ k, k < 4 →
      bit t Fld.bellEststatTestfail k = (bit s Fld.bellEststatTestfail k && !tf.getLsbD k) ∧
      bit t Fld.bellEststatDiscrep k = (bit s Fld.bellEststatDiscrep k && !dc.getLsbD k)) ∧
    (let stays := s.bell.running = true ∨ s.getB Fld.keywellStateError = true
     let v := (s.chestAt 0x0208).toNat
     (stays → Gives .bellRun s fun t => t = s) ∧
     let keys := s.slotUsage (s.get Fld.bellKeyRoot) 7 = true ∧ s.slotUsage (s.get Fld.bellKeyCmdroot) 8 = true
     (¬ stays → ¬ keys → Gives .bellRun s fun t => t.get Fld.bellFaultCode = 0x2401 ∧ t.bell = s.bell ∧ t.get Fld.bellStateState = st) ∧
     (¬ stays → keys → Gives .bellRun s fun t => t.bell.running = true ∧ t.get Fld.bellSrcStart = 1 ∧ t.get Fld.bellCountValue = v % 2 ^ 32 ∧
       t.get Fld.bellResvValue = (v + 65536) % 2 ^ 32 ∧ t.bell.resvDue = true ∧ t.get Fld.bellStateState = bellNext 4 t.bellMerged)) ∧
    (∀ it rest, s.bell.running = true → (s.queue 40).items = it :: rest → it.visible = true →
      let b := it.body
      let mac := micOf s.bellCmdKey (b.take 24) 8 = (b.drop 24).take 8
      let origin := descAt b 2 2
      let count := descAt b 8 4
      let last := match Map.find s.bell.counts origin with
        | some c => c
        | none => (s.chestAt (0x210 + origin)).toNat % 2 ^ 32
      let fails := fun (code : Nat) (t : State) => t.get Fld.bellFaultCode = code ∧ t.bell = s.bell ∧ t.get Fld.bellStateState = st
      Gives .stopCommand s fun t => (t.queue 40).items = rest ∧
        (s.cmdFormOk b = false → fails 0x2405 t) ∧
        (s.cmdFormOk b = true → ¬ mac → fails 0x2406 t) ∧
        (s.cmdFormOk b = true → mac → cycleAfter count last = false → fails 0x2407 t) ∧
        (s.cmdFormOk b = true → mac → cycleAfter count last = true → Map.find t.bell.counts origin = some count ∧
          (descAt b 1 1 = 3 → t.bell.relPending = some (origin, count) ∧ t.get Fld.bellStateState = st) ∧
          (descAt b 1 1 ≠ 3 → t.get Fld.bellSrcCmd = 1 ∧ t.bell.cmdClass = max s.bell.cmdClass (descAt b 1 1) ∧ follows t))) ∧
    (∀ o c, s.bell.relPending = some (o, c) → Gives .releaseCountDurable s fun t => t.chestAt (0x210 + o) = BitVec.ofNat 64 c ∧
      t.bell.relPending = none ∧ released 1 t) ∧
    Gives .partnerReleaseMsg s (released 0) ∧
    (2 ≤ s.get Fld.plinkStateLink → Gives .partnerReportSend s fun t => t = { s with bell := { s.bell with reported := s.bellLocal } }) ∧
    (s.get Fld.plinkStateLink < 2 → Gives .partnerReportSend s fun t => t = s) ∧
    Gives (.partnerReport cls) s (fun t => t.get Fld.bellStatePartner = cls ∧ t.get Fld.bellStatePlive = 1 ∧ t.bell.frozen = false ∧ t.bell.reportUs = s.us ∧
      t.bellMerged = max s.bellLocal cls ∧ follows t) ∧
    (∀ u, s.getB Fld.bellStatePlive = true → s.reachUs (3000 + s.bell.reportUs) = some u → Gives .partnerReportLost s fun t => t.get Fld.bellStatePlive = 0 ∧ t.bell.frozen = true ∧
      t.get Fld.bellFaultCode = 0x2484 ∧ t.bellMerged = s.bellMerged ∧ t.get Fld.bellStateState = st)

/-- BELL_WINDOW, BELL_CCA_RETRY, SECOND_VOICE, BELL_ACK and ACK_OVERDUE complete (10 R260-R263, R266, R267, R269-R271, R273): a window of the first voice sends, defers or tries each carrying port again, and
COUNT advances once if any frame goes; a retry and the second voice alike; an acknowledgement of this episode clears one robot's owed bit;
robots owed 35 ms are reported once. -/
def Obligations.BellOnAir : Prop :=
  ∀ (s : State) (k : Fin 5) (n : Fin 4) (rssi : Int) (rs : List Int) (heard frame : List Byte) (off : Nat),
    let b := s.bell
    let st := s.get Fld.bellStateState
    let bo := s.get Fld.radioLbtBoUs n
    let lim := s.get Fld.bellWinBretryUs n
    let clear := s.get Fld.radioRegMode n % 2 = 0 ∨ rssi < signed 8 (s.get Fld.radioRegCcaDbm n)
    let sent := fun (m : Fin 4) (t : State) => t.get Fld.bellCntSent m = (s.get Fld.bellCntSent m + 1) % 65536 ∧
      t.get Fld.bellCntSkipped m = s.get Fld.bellCntSkipped m
    let skipped := fun (m : Fin 4) (t : State) => t.get Fld.bellCntSkipped m = (s.get Fld.bellCntSkipped m + 1) % 65536 ∧
      t.get Fld.bellCntSent m = s.get Fld.bellCntSent m
    let quiet := fun (m : Fin 4) (t : State) => t.get Fld.bellCntSkipped m = s.get Fld.bellCntSkipped m ∧
      t.get Fld.bellCntSent m = s.get Fld.bellCntSent m
    (let u := s.moveTo (max (s.get Fld.sysPhaseOffsetUs) (2000 * k.val))
     ((u.bellRings = false ∨ s.firstVoice = false) → Gives (.bellWindow k rs) s fun t =>
       t = { u with bell := { b with window := 2000 * k.val, winSent := false, built := [], retry := [] } }) ∧
     (u.bellRings = true → s.firstVoice = true → Gives (.bellWindow k rs) s fun t =>
       (∀ m : Fin 4, if s.bellPort m = true then sent m t ∨ skipped m t ∨
           quiet m t ∧ Map.find t.bell.retry m = some (s.get Fld.radioLbtBoUs m) ∧ s.get Fld.radioRegMode m % 2 = 1 ∧
             signed 8 (s.get Fld.radioRegCcaDbm m) ≤ rs.getD m 0
         else quiet m t ∧ t.port m = s.port m) ∧
       t.get Fld.bellCountValue = if ∃ m : Fin 4, sent m t then (s.get Fld.bellCountValue + 1) % 2 ^ 32 else s.get Fld.bellCountValue)) ∧
    (∀ off f, Map.find b.retry n = some off → Map.find b.built n = some f → Gives (.bellCcaRetry n rssi) s fun t =>
      (clear → Map.find t.bell.retry n = none ∧ (sent n t ∨ skipped n t ∧ t.get Fld.bellFaultCode = 0x2482)) ∧
      (¬ clear → off + bo ≤ lim → quiet n t ∧ Map.find t.bell.retry n = some (off + bo)) ∧
      (¬ clear → lim < off + bo → skipped n t ∧ t.get Fld.bellFaultCode = 0x2481 ∧ Map.find t.bell.retry n = none)) ∧
    (let speaks := s.firstVoice = false ∧ s.bellPort n = true ∧ 1 ≤ st ∧ st ≤ 3 ∧ s.get Fld.bellWin2SecondUs n ≠ 0 ∧
       bitOf (s.get Fld.bellStateFit) n = true ∧ s.bellHeard heard = false ∧ b.since + 120 ≤ s.us
     (¬ speaks → Gives (.secondVoice n rssi heard) s fun t => t = s) ∧
     (speaks → Gives (.secondVoice n rssi heard) s fun t =>
       (¬ clear → skipped n t ∧ t.get Fld.bellFaultCode = 0x2481) ∧
       (clear → skipped n t ∧ t.get Fld.bellFaultCode = 0x2482 ∨
         sent n t ∧ ∃ f, Map.find t.bell.frames n = some f ∧ f.names = [] ∧ f.cls = st))) ∧
    (∀ f, Map.find b.frames n = some f →
      let src := descAt frame 2 2
      let key := s.derivedKey (s.get Fld.radioKeyRoot) src (s.get Fld.radioKeyEpoch) 0x52
      let good := s.ackNear n f (f.names.idxOf src) off = true ∧ frame.length = 16 ∧ descAt frame 0 1 = 0x29 ∧ src ∈ f.names ∧ descAt frame 4 4 = f.count ∧
        f.cls ≤ descAt frame 1 1 % 4 ∧ frame.drop 8 = micOf key (frame.take 8) 8 ∧ f.episode = b.episode
      (¬ good → Gives (.bellAck n frame off) s fun t => t = s) ∧
      (good → src < 1024 → Gives (.bellAck n frame off) s fun t => t = { s with cw := t.cw } ∧
        ∀ i : Fin 1024, t.owed i = (s.owed i && decide (i.val ≠ src)))) ∧
    (∀ i rest u, s.reachUs (35000 + b.episodeUs) = some u → (List.range 1024).filter (fun i => s.owed i && !b.overdue.contains i) = i :: rest → (st = 1 ∨ st = 2) →
      Gives .ackOverdue s fun t =>
        t.get Fld.bellFaultCode = 0x2483 ∧ t.get Fld.bellFaultIndex = i ∧ t.bell = { b with overdue := b.overdue ++ i :: rest })

/-! ### Queue units and the network -/

/-- QUEUE_ENABLE, QUEUE_DISABLE, QUEUE_FLUSH, MARKER_CLOSE, QUEUE_ITEM_VISIBLE, PRIV_STALL, PRIV_WRITE_RESUME and MILL_RING_POLL complete (11 R279, R283, R285, R288-R290): ENABLE starts a disabled general unit whose layout passes; DISABLE
and FLUSH; a marker closes as an item; the first item not yet visible appears; a held write completes when it fits; the Mill ring is taken in
order, up to 256 entries, each with VALID cleared, and GET follows. -/
def Obligations.QueueUnitControl : Prop :=
  ∀ (s : State) (q : Fin 48),
    let u := s.queue q
    let general := 32 ≤ q.val ∧ q.val < 40
    let st := s.get Fld.queueStatState q
    let same := fun (i : Instr) => Gives i s fun t => t = s
    let code := fun (t : State) (c : Nat) => Map.find t.lastCode 0x28 = some c
    let puts := fun (t : State) (u' : QUnit) => t.queue q = u' ∧ ∀ p, p ≠ q.val → t.queue p = s.queue p
    (general → st = 0 → Gives (.queueEnable q) s fun t =>
      if qLayoutOk s (fun f i => s.get f i) q = true then t.get Fld.queueStatState q = (if u.stallUs = none then 1 else 2) ∧ puts t u
      else code t 0x2801 ∧ t.queues = s.queues ∧ t.get Fld.queueStatState q = 0) ∧
    (¬ general ∨ st ≠ 0 → same (.queueEnable q)) ∧
    (general → Gives (.queueDisable q) s (SetsWords s [(Fld.queueStatState, q.val, 0)])) ∧
    (¬ general → same (.queueDisable q) ∧ same (.queueFlush q)) ∧
    (general → Gives (.queueFlush q) s fun t =>
      if st = 0 then puts t {} ∧ t.get Fld.queueStatFill q = 0 ∧ t.get Fld.queueStatEmpty q = 1 ∧ t.get Fld.queueStatState q = 0
      else code t 0x2803 ∧ t.queues = s.queues) ∧
    Gives (.markerClose q) s (fun t => puts t (match u.marker with
      | some (m, c) => { u with
          marker := none, items := u.items ++ [markerItem m c s.ingestWindow (decide general && s.getB Fld.queueCfgGated q)] }
      | none => u) ∧ t.mem = s.mem) ∧
    (∀ (pre post : List QItem) (it : QItem), u.items = pre ++ it :: post → (∀ x ∈ pre, x.visible = true) → it.visible = false →
      Gives (.queueItemVisible q) s fun t =>
        puts t { u with items := if it.gated then u.items else pre ++ { it with visible := true } :: post }) ∧
    (u.stallUs = none → same (.privStall q)) ∧
    (∀ t0 v, u.stallUs = some t0 → s.reachUs (100 + t0) = some v → if u.stallRaised = true then Gives (.privStall q) s (fun t => t = v)
      else Gives (.privStall q) s fun t => code t 0x2882 ∧ puts t { u with stallRaised := true }) ∧
    (∀ b rest, u.held = b :: rest → if u.fill + qStored b.length ≤ s.qSize q then Gives (.privWriteResume q) s fun t =>
        puts t { u with held := rest, items := u.items ++ [{ body := b, cycle := s.cycle, window := s.ingestWindow }],
                        stallUs := if rest = [] then none else some s.us, stallRaised := false }
      else same (.privWriteResume q)) ∧
    (let on := general ∧ st ≠ 0 ∧ bitOf (s.get Fld.queueCfgWriters q) 11 = true
     let ring := s.get Fld.queueRingAddr q * 256
     let get := s.readLE (ring + 4) 4
     let valid := fun (i : Nat) => ring + 64 + 16 * ((get + i) % 256) + 2
     (¬ on → same (.millRingPoll q)) ∧
     (on → Memory.wf s.mem = true → s.decant.stalled = [] → s.poisonAt ring 4160 = false → s.writable ring 4160 = true → Gives (.millRingPoll q) s fun t => ∃ m, m ≤ 256 ∧
       t.readLE (ring + 4) 4 = (get + m) % 2 ^ 32 ∧ (∀ i, i < m → memByte s.mem (valid i) = 1 ∧ memByte t.mem (valid i) = 0) ∧
       (m = 256 ∨ memByte s.mem (valid m) ≠ 1) ∧
       ∀ a, ¬ (ring + 4 ≤ a ∧ a < ring + 8) → (∀ i, i < m → a ≠ valid i) → memByte t.mem a = memByte s.mem a))

/-- NET_RUN, SERDES_NO_LOCK, LINK_UP, LINK_DOWN, NET_STOP, ETH_FRAME_RX, HUB_FRAME_TX and TX_TIMESTAMP_RETURN complete (12 R292-R297, R299, R314;
Table 12.1): a port starts, gets lock or fails, goes down and stops; a frame that is received whole is
counted, if its receive unit takes it, and goes where the first matching class sends it, an event message of another domain with its correction; a frame of the hub leaves
its ports padded, unless it is a marker, withheld or a stop command; a timestamp returns. -/
def Obligations.NetPorts : Prop :=
  ∀ (s : State) (k j : Fin 4) (speed : Fin 4) (f : List Byte) (fcs gated : Bool) (sub : Nat) (res subs : List Nat) (it : QItem) (rest : List QItem),
    let st := s.get Fld.netStatePort k
    let same := fun (i : Instr) => Gives i s fun t => t = s
    let sent := fun (t : State) (m : Nat) => Map.find t.net.sent m
    let isl := laneIsland k
    ((st = 1 ∨ st = 2) → same (.netRun k)) ∧
    (¬ (st = 1 ∨ st = 2) → Gives (.netRun k) s fun t =>
      if s.get Fld.netPortAn k ≠ 0 ∧ (s.get Fld.netPortMode k = 0 ∨ 3 ≤ s.get Fld.netPortMode k) then
        t.get Fld.netFaultCode = 0x3001 ∧ t.get Fld.netStatePort k = st
      else if s.get Fld.netPortMode k = 0 then t = s
      else t.get Fld.netStatePort k = 1 ∧ t.get Fld.netPstatLock k = 0 ∧ (s.islandOn isl = true ∨ isl ∈ t.kettle.islandQ ∨ isl ∈ t.kettle.granted)) ∧
    (¬ (st = 1 ∧ s.getB Fld.netPstatLock k = false) → same (.serdesNoLock k)) ∧
    (∀ u, st = 1 → s.getB Fld.netPstatLock k = false → s.reachUs (10000 + Map.getD s.net.trainUs k 0) = some u →
      Gives (.serdesNoLock k) s fun t => t.get Fld.netStatePort k = 3 ∧ t.get Fld.netFaultCode = 0x3002 ∧ t.get Fld.netFaultPort = k) ∧
    (st = 1 → Gives (.linkUp k speed) s fun t => t.get Fld.netStatePort k = 2 ∧ t.get Fld.netPstatSpeed k = speed ∧
      t.get Fld.netPstatLock k = 1 ∧ t.get Fld.netPstatLinkchg k = 1) ∧
    (st = 2 → Gives (.linkDown k) s fun t => t.get Fld.netStatePort k = 1 ∧ t.get Fld.netPstatSpeed k = 0 ∧
      t.get Fld.netPstatLinkchg k = 1 ∧ t.get Fld.netFaultCode = 0x3081 ∧ t.get Fld.netFaultPort = k) ∧
    (st ≠ 0 → Gives (.netStop k) s fun t => t.get Fld.netStatePort k = 0 ∧ t.get Fld.netPstatSpeed k = 0 ∧
      t.get Fld.netPstatLock k = 0 ∧ t.queue (28 + k.val) = {} ∧ t.get Fld.queueStatState (28 + k.val) = 0) ∧
    (let rx : Instr := .ethFrameRx k f fcs sub res
     let bad := st ≠ 2 ∨ fcs = false ∨ f.length < 14 ∨ 1518 < f.length
     let dst := beAt f 0 6
     let unicast := beAt f 0 1 % 2 = 0
     let ptp := ptpAt (s.getB Fld.netPtpUdp) f
     let out := (s.learn (beAt f 6 6) k).net.macs
     let goes := fun (P : Nat → Prop) => Gives rx s fun t => t.get Fld.netCntRx k = (s.get Fld.netCntRx k + 1) % 65536 ∧ t.net.macs = out ∧
       ∀ m : Fin 4, (P m → sent t m = some f ∧ t.get Fld.netCntTx m = (s.get Fld.netCntTx m + 1) % 65536) ∧
         (¬ P m → sent t m = sent s m ∧ t.get Fld.netCntTx m = s.get Fld.netCntTx m)
     let up := fun (m : Nat) => m ≠ k.val ∧ s.netPort m = 2
     let crosses := (s.qCross (28 + k.val) f).1 = true
     (bad → same rx) ∧ (¬ bad → ¬ crosses → Gives rx s fun t => t = (s.qCross (28 + k.val) f).2) ∧
     (¬ bad → crosses → etherType f = 0x88B5 → goes fun _ => False) ∧
     (¬ bad → crosses → etherType f ≠ 0x88B5 → (dst / 16 = 0x0180C200000 ∨ ptp = none ∧ dst = s.hubMac) → goes fun _ => False) ∧
     (¬ bad → crosses → etherType f ≠ 0x88B5 → dst / 16 ≠ 0x0180C200000 → dst ≠ s.hubMac → ptp = none →
       (unicast → ∀ x, Map.find out dst = some x → goes fun m => m = x.1 ∧ up m) ∧
       (unicast → Map.find out dst = none → goes up) ∧ (¬ unicast → goes up)) ∧
     (∀ p, ¬ bad → crosses → etherType f ≠ 0x88B5 → dst / 16 ≠ 0x0180C200000 → dst ≠ s.hubMac → ¬ unicast → ptp = some (p, none) →
       beAt f p 1 % 16 = 0 → beAt f (p + 4) 1 ≠ s.get Fld.netPtpDomain → s.get Fld.netPtpProfile = 0 → s.getB Fld.netPtpTcEn = true →
       s.stamps k = true → s.stamps j = true → up j → Gives rx s fun t =>
         sent t j = some (addCorrection f p none (res.getD j 0 * 32768 + (s.rxLat k + s.txLat j) * 4096 : Nat)))) ∧
    (let q := s.get (if gated then Fld.netHubOutg else Fld.netHubOutu)
     let opts := descAt it.body 0 1
     let b := it.body.drop 8
     let out := fun (m : Nat) => bitOf opts m = true ∧ s.netPort m = 2
     32 ≤ q → q < 40 → (s.queue q).items = it :: rest → it.visible = true → Gives (.hubFrameTx gated subs) s fun t =>
       ((it.gap = true ∨ s.holding = false ∧ (gated = true ∨ s.getB Fld.claimCfgOutu = true)) →
         t.net = s.net ∧ (t.queue q).items = rest ∧ t.get Fld.netCntbBelldrop = s.get Fld.netCntbBelldrop) ∧
       (it.gap = false → (s.holding = true ∨ gated = false ∧ s.getB Fld.claimCfgOutu = false) →
         (etherType b = 0x88B5 → t.net = s.net ∧ (t.queue q).items = rest ∧
           t.get Fld.netCntbBelldrop = (s.get Fld.netCntbBelldrop + 1) % 65536) ∧
         (etherType b ≠ 0x88B5 → ptpAt (s.getB Fld.netPtpUdp) b = none → (t.queue q).items = rest ∧
           (∀ m : Fin 4, (out m → sent t m = some (b ++ List.replicate (60 - b.length) 0)) ∧ (¬ out m → sent t m = sent s m)) ∧
           t.net.returns.length = s.net.returns.length + if bitOf opts 5 then (List.range 4).countP (fun m => bitOf opts m && s.netPort m = 2) else 0))) ∧
    (∀ r l, s.net.returns = r :: l → let i := s.get Fld.netHubIn
      let v : State := { s with net := { s.net with returns := l } }
      Gives .txTimestampReturn s fun t => t.net.returns = l ∧ (¬ (32 ≤ i ∧ i < 40) → t = v) ∧
        (32 ≤ i → i < 40 → t = (v.qPush i r.item).2))

/-! ### The pair -/

/-- PLINK_RUN, PLINK_STOP, PLINK_LINK_DOWN, LINK_TRAIN_DONE, LANE_DEGRADED, CREDIT_RETURN, ALIVE, HEARTBEAT_SEND, HELLO_SEND, HEARTBEAT_RECEIVE,
HEARTBEAT_TIMEOUT, PARTNER_WIRE_FALL, PARTNER_WIRE_RISE, HELLO_RECEIVE and SEEKING_TIMEOUT complete (13 R316-R323, R331, R333): the lanes; credits let items go in order; heartbeats and HELLOs are sent while ALIVE; a heartbeat
reports the partner's state, wire and clock; partner loss; the partner's wire; a HELLO is refused or moves the pair state; waiting in SEEKING
ends. -/
def Obligations.PairLink : Prop :=
  ∀ (s : State) (m : CtlMsg) (t1 t4 : Word) (part tie : Bool) (unit : Fin 48) (n : Nat),
    let g := s.pairing
    let link := s.get Fld.plinkStateLink
    let stage := s.get Fld.claimStateStage
    let h := s.get Fld.plinkHCycle
    let same := fun (i : Instr) => Gives i s fun t => t = s
    let enters := fun (p : Nat) (t : State) => t.pair = p ∧ t.get Fld.sysReleaseMode = (if p = 0 ∨ p = 2 then 1 else 0) ∧
      t.get Fld.decantStateLocked = (if p = 4 ∨ p = 5 then 1 else 0) ∧ t.pairing.takeT = none ∧
      (p = 1 ∨ p = 4 ∨ p = 5 → t.get Fld.claimStateStage = 0)
    let sends := fun (v : State) (c : CtlMsg) (t : State) =>
      t = { v with pairing := { v.pairing with sent := if v.alive && v.linkUp then Map.put v.pairing.sent c.kind c else v.pairing.sent } }
    let isLost := fun (u t : State) => if (s.pair = 3 ∨ s.pair = 4 ∨ s.pair = 5) ∧ g.lost = none then
        t.get Fld.plinkCntLosses = (s.get Fld.plinkCntLosses + 1) % 65536 ∧ t.get Fld.plinkFaultCode = 0x2E03 ∧ t.get Fld.plinkHCycle = 0 ∧
        t.pairing.giving = false ∧ (part = true → t.get Fld.decantCntDiscarded = (s.get Fld.decantCntDiscarded + 1) % 65536) ∧
        (s.pair = 3 → s.getB Fld.plinkStatePinsync = false → enters 2 t) ∧ (s.pair = 4 → enters 1 t) ∧
        (s.pair = 5 ∨ s.pair = 3 ∧ s.getB Fld.plinkStatePinsync = true → t.pair = s.pair ∧
          t.pairing.lost = some u.takeBoundary)
      else t.pair = s.pair ∧ t.pairing.lost = g.lost ∧ t.get Fld.plinkCntLosses = s.get Fld.plinkCntLosses
    (let ok := 4 ≤ s.get Fld.plinkCfgWhmax ∧ s.get Fld.plinkCfgWhmax ≤ 15 ∧ 1 ≤ s.get Fld.plinkCfgStartWaitS ∧ s.get Fld.plinkCfgStartWaitS ≤ 60
     (ok → link = 0 → Gives .plinkRun s (SetsWords
       { s with pairing := if s.pair = 1 then { g with seekUs := some s.us } else g } [(Fld.plinkStateLink, 0, 1)])) ∧ (ok → link ≠ 0 → same .plinkRun) ∧
     (¬ ok → Gives .plinkRun s fun t => t.get Fld.plinkFaultCode = 0x2E01 ∧ t.get Fld.plinkStateLink = link)) ∧
    Gives .plinkStop s (SetsWords s [(Fld.plinkStateLink, 0, 0)]) ∧ Gives .plinkLinkDown s (SetsWords s [(Fld.plinkStateLink, 0, 0)]) ∧
    (link = 1 → Gives .linkTrainDone s fun t => t.get Fld.plinkStateLink = 2 ∧ t.pairing = { g with helloDue := some s.us } ∧
      t.keywell.sends = s.keywell.sends + if s.keywell.unacked.isSome then 1 else 0) ∧
    (link = 2 → Gives .laneDegraded s fun t => t.get Fld.plinkStateLink = 3 ∧ t.get Fld.plinkFaultCode = 0x2E81) ∧
    (∀ out, outUnitOf unit.val = some out →
      let items := (s.queue out).items
      let need := fun (it : QItem) => (qStored it.body.length + 63) / 64
      let have' := Map.getD g.credits unit 0 + n
      Gives (.creditReturn unit n) s fun t => ∃ k, k ≤ items.length ∧ (t.queue out).items = items.drop k ∧
        (∀ it ∈ items.take k, it.visible = true ∧ 2 ≤ link) ∧ ((items.take k).map need).sum ≤ have' ∧
        Map.find t.pairing.credits unit = some (have' - ((items.take k).map need).sum) ∧
        ∀ it, items[k]? = some it → it.visible = false ∨ link < 2 ∨ have' - ((items.take k).map need).sum < need it) ∧
    Gives .alive s (fun t => t = { s with pairing := { g with aliveUs := some s.us } }) ∧
    (∀ u, s.nextBeat < s.boundaryPs → s.reachSite s.nextBeat = some u → Gives .heartbeatSend s fun t =>
      let v : State := { u with pairing := { g with beatPs := some s.nextBeat } }
      sends v (v.ctlMsg 2 (s.get Fld.decantBaseCycle) false) t) ∧
    (g.helloDue = none → same .helloSend) ∧
    (∀ t0 u, g.helloDue = some t0 → s.reachUs t0 = some u → Gives .helloSend s fun t =>
      let v : State := { u with pairing := { g with helloDue := some (max t0 u.us + 1000) } }
      sends v (v.ctlMsg 1 s.layoutHash false) t) ∧
    (link < 2 → same (.heartbeatReceive m t1 t4) ∧ same (.helloReceive m)) ∧
    (2 ≤ link → Gives (.heartbeatReceive m t1 t4) s fun t =>
      let hs := max m.held m.seen
      let mis := if s.getB Fld.claimStatePartwire ≠ m.holding then g.mismatch + 1 else 0
      t.get Fld.plinkPheldClaim = m.held % 2 ^ 32 ∧ t.get Fld.plinkStatePartner = m.pair % 8 ∧ t.get Fld.plinkHbageUs = 0 ∧
      t.get Fld.claimSeenClaim = (if s.get Fld.claimSeenClaim < hs then hs % 2 ^ 32 else s.get Fld.claimSeenClaim) ∧
      (s.get Fld.claimSeenClaim < hs → s.get Fld.claimHeldClaim < hs → t.get Fld.claimStateStage = 0) ∧
      t.pairing.mismatch = mis ∧ t.pairing.partHolding = m.holding ∧ t.pairing.lastRx = t4 ∧
      t.pairing.lost = (if g.takeT.isSome = true ∨ s.pair = 5 then g.lost else none) ∧
      (mis = 2 → Map.find t.lastCode 0x2C = some 0x2C81) ∧
      (m.tRx = 0 → t.get Fld.plinkToffPs = s.get Fld.plinkToffPs) ∧
      (m.tRx ≠ 0 → let d := (stampDiff m.tRx t1 + stampDiff m.tTx t4) / 2
        t.get Fld.plinkToffPs = unsigned 32 (d * 1000 / 65536) ∧
        ((s.pair = 4 ∨ s.pair = 5) → (s.get Fld.plinkCfgTsplitNs : Int) * 65536 < d.natAbs → t.get Fld.plinkFaultCode = 0x2E84))) ∧
    (∀ u, s.reachUs s.beatLimit = some u → Gives (.heartbeatTimeout part) s (isLost u)) ∧
    Gives (.partnerWireFall part) s (fun t => t.get Fld.claimStatePartwire = 0 ∧ t.pairing.holdBlocked = false ∧
      if g.partHolding = true ∧ h = 0 then isLost s t else t.pair = s.pair ∧ t.get Fld.plinkCntLosses = s.get Fld.plinkCntLosses) ∧
    (let near := tie && match g.ownRise with
      | some r => decide (s.roots ≤ r + 12000)
      | none => false
     Gives (.partnerWireRise tie) s fun t => t.get Fld.claimStatePartwire = 1 ∧ t.pairing.partRise = some s.roots ∧
      (g.giving = true ∧ h ≠ 0 → t.get Fld.claimStateStage = 0 ∧ t.get Fld.plinkHCycle = 0 ∧ t.pairing.giving = false ∧
        t.get Fld.plinkFaultCode = 0x2E83 ∧ t.pair = s.pair) ∧
      (¬ (g.giving = true ∧ h ≠ 0) →
        (s.pair = 3 → ¬ (near = true ∧ stage = 2 ∧ s.unit ≠ 1) → enters 1 t) ∧ (s.pair ≠ 3 → t.pair = s.pair) ∧
        (stage = 2 → near = true → Map.find t.lastCode 0x2C = some 0x2C82 ∧ (s.unit ≠ 1 → t.get Fld.claimStateStage = 2 ∧ t.pair = s.pair) ∧
          (s.unit = 1 → t.get Fld.claimStateStage = 0 ∧ t.get Fld.claimStateReason = 0x2C82 ∧ t.pairing.holdBlocked = true)) ∧
        (stage = 2 → near = false → t.get Fld.claimStateStage = 0 ∧ t.get Fld.claimStateReason = 0x2C02 ∧ t.pairing.holdBlocked = true))) ∧
    (2 ≤ link → Gives (.helloReceive m) s fun t =>
      let own := s.getB Fld.claimStatePref
      let pref := if own = m.pref then decide (s.unit = 0) else own
      let refused := m.step ≠ s.stepCode ∨ m.pairid ≠ s.chestAt 0x0010 ∨ m.unit = s.unit ∨ m.arg ≠ s.layoutHash
      (s.pair = 0 → t.pair = 0 ∧ t.pairing.helloDue = none) ∧
      (s.pair ≠ 0 → refused → enters 0 t ∧ t.get Fld.plinkFaultCode = 0x2E02) ∧
      (s.pair ≠ 0 → ¬ refused → t.get Fld.plinkStatePartner = m.pair % 8 ∧ t.pairing.preferred = pref ∧
        (own = m.pref → t.get Fld.claimStatePrefFault = 1) ∧
        (s.pair = 1 → m.pair = 2 ∨ m.pair = 3 → enters 4 t) ∧
        (s.pair = 1 → m.pair = 1 ∨ m.pair = 4 ∨ m.pair = 5 → stage = 0 → m.holding = false → enters (if pref then 2 else 4) t) ∧
        (s.pair = 2 → m.pair = 1 ∨ m.pair = 4 → enters 3 t ∧ t.decant.walk = some 0 ∧ t.decant.firstDue = true) ∧
        (s.pair = 3 ∨ s.pair = 4 ∨ s.pair = 5 → t.pair = s.pair))) ∧
    (let waits := s.pair = 1 ∧ g.helloSeen = false ∧ s.getB Fld.claimStatePartwire = false
     (¬ waits → same .seekingTimeout) ∧
     (∀ t0 u, waits → s.seekEnd = some t0 → s.reachUs t0 = some u → Gives .seekingTimeout s (enters 2)))

/-- HOLD, CLAIM_STAGE_RELEASE, JOURNAL_RECEIVED, JOURNAL_COMMIT_DONE, JOURNAL_ACK_RECEIVED, STALLED_WRITE_RESUME, LEAVE, HANDBACK_REQ, HANDBACK,
YIELD, YIELD_END, TAKEOVER_DECISION, PAIR_DROPPED and INSYNC_STALE complete (13 R325-R331, R334-R340, R488; 01 R30, R33, R34): the stage is held or released; a journal is checked
in order, acknowledged, and its lines written when it commits; the acknowledgement opens the gate of its cycle; a unit leaves, yields, takes
over, gives the station over, or drops its partner. -/
def Obligations.ClaimsAndHandover : Prop :=
  ∀ (s : State) (m : CtlMsg) (b : List Byte) (part : Bool),
    let g := s.pairing
    let up := 2 ≤ s.get Fld.plinkStateLink
    let stage := s.get Fld.claimStateStage
    let held := s.get Fld.claimHeldClaim
    let h := s.get Fld.plinkHCycle
    let same := fun (i : Instr) => Gives i s fun t => t = s
    let enters := fun (p : Nat) (t : State) => t.pair = p ∧ t.get Fld.sysReleaseMode = (if p = 0 ∨ p = 2 then 1 else 0) ∧
      t.get Fld.decantStateLocked = (if p = 4 ∨ p = 5 then 1 else 0) ∧ t.pairing.lost = none ∧ t.pairing.takeT = none ∧
      (p = 1 ∨ p = 4 ∨ p = 5 → t.get Fld.claimStateStage = 0)
    (let bad := held = 0 ∨ held < s.get Fld.claimSeenClaim ∨ g.holdBlocked = true ∨ s.getB Fld.keywellStateError = true
     (bad → Gives .hold s fun t => Map.find t.lastCode 0x2C = some 0x2C05 ∧ t.cw = s.cw) ∧ (¬ bad → stage = 2 → same .hold) ∧
     (¬ bad → stage ≠ 2 → Gives .hold s (SetsWords s [(Fld.claimStateStage, 0, 1)]))) ∧
    (stage = 0 → same .claimStageRelease) ∧
    (stage ≠ 0 → Gives .claimStageRelease s fun t => t.get Fld.claimStateStage = 0 ∧ t.get Fld.claimStateReason = 0 ∧
      t.get Fld.claimStateOwnwire = 0 ∧ t.get Fld.claimCntReleases = (s.get Fld.claimCntReleases + 1) % 65536) ∧
    (let n := b.length
     let cyc := descAt b 4 4
     let form := descAt b 0 4 = 0x4C4E4A44 ∧ descAt b 20 4 = n ∧ 96 ≤ n ∧ n ≤ 8388608 ∧ descAt b 28 4 = s.layoutHash
     let mac := s.journalTag (b.take (n - 16)) = b.drop (n - 16)
     let sound := descAt b (n - 32) 4 = crc32c (b.take (n - 32)) ∧ mac
     let stale := descAt b 12 4 < s.get Fld.claimSeenClaim
     let follows := bitOf (descAt b 36 1) 0 = true ∨
       cycleAfter cyc (s.get Fld.decantBaseCycle) = true ∧ descAt b 8 4 ∈ s.decant.committed
     let drops := fun (code : Nat) (t : State) => t.get Fld.decantFaultCode = code ∧
       t.get Fld.decantCntDiscarded = (s.get Fld.decantCntDiscarded + 1 + part.toNat) % 65536 ∧ t.decant.rx = none
     let buf := s.get Fld.decantBufAddr * 65536 + cyc % 2 * 8388608
     ((¬ (s.pair = 4 ∨ s.pair = 5) ∨ ¬ up) → same (.journalReceived b part)) ∧
     ((s.pair = 4 ∨ s.pair = 5) → up → s.boot.restart = none → s.decant.rx = none → s.decant.stalled = [] → Gives (.journalReceived b part) s fun t =>
       (Memory.wf s.mem = true → ∀ a, ¬ (buf ≤ a ∧ a < buf + 8388608) → memByte t.mem a = memByte s.mem a) ∧
       (¬ (form ∧ sound) → drops 0x2D02 t) ∧ (form ∧ sound → stale → drops 0x2D03 t) ∧
       (form ∧ sound → ¬ stale → ¬ follows → drops 0x2D07 t ∧ enters 4 t) ∧
       (form ∧ sound → ¬ stale → follows → t.decant.rx = some b ∧ t.decant.committed = s.decant.committed ∧ t.decant.rxStale = false ∧
         Map.find t.pairing.sent 3 = some (s.ctlMsg 3 cyc false)))) ∧
    (∀ j, s.decant.rx = some j → s.decant.rxStale = false → s.decant.stalled = [] →
      let cyc := descAt j 4 4
      let whole := bitOf (descAt j 36 1) 1 = true
      Gives .journalCommitDone s fun t => t.decant.rx = none ∧ t.decant.committed = (cyc :: s.decant.committed).take 8 ∧
        t.get Fld.decantBaseCycle = cyc ∧ (s.pair = 4 → whole → t.pair = 5) ∧ (¬ (s.pair = 4 ∧ whole) → t.pair = s.pair) ∧
        (s.pair = 5 → t.get Fld.plinkStateSyncrun = min 0xFFFF (s.get Fld.plinkStateSyncrun + 1)) ∧
        (∀ r len line cnt, Memory.wf s.mem = true → s.shadowRegions = [(r, len)] → descAt j 24 4 = 1 → descAt j 64 4 = line →
          descAt j 68 2 = cnt → line + cnt ≤ len / 256 → 72 + 256 * cnt ≤ j.length → ∀ a, memByte t.mem a =
            if r + 256 * line ≤ a ∧ a < r + 256 * (line + cnt) then j.getD (72 + (a - (r + 256 * line))) 0 else memByte s.mem a)) ∧
    (∀ j, s.decant.sent = some j → s.pair = 3 → m.arg = j.cycle → up → max m.held m.seen ≤ s.get Fld.claimSeenClaim → s.boot.restart = none →
      Gives (.journalAckReceived m) s fun t => t.decant.unacked = [] ∧ t.decant.sent = none ∧ t.decant.frozen = [] ∧
        t.get Fld.decantBaseCycle = j.cycle % 2 ^ 32 ∧ (j.complete = true → t.get Fld.plinkStatePinsync = 1) ∧
        (j.cycle = s.cycle → s.get Fld.sysPhaseOffsetUs < s.deadline → t.gateOpen = true ∧
          t.get Fld.sysReleaseAckUs = s.get Fld.sysPhaseOffsetUs % 65536 ∧ (s.gateOpen = false → t.get Fld.sysLastrelCycle = s.cycle)) ∧
        ((j.cycle ≠ s.cycle ∨ s.deadline ≤ s.get Fld.sysPhaseOffsetUs) → t.gateOpen = s.gateOpen)) ∧
    (∀ w rest, s.decant.stalled = w :: rest → Gives .stalledWriteResume s fun t => t.decant.stalled = rest ∧
      (Memory.wf s.mem = true → s.bankOff w.addr w.bytes.length = false → s.getB Fld.decantStateLocked = false → ∀ a, memByte t.mem a =
        if w.addr ≤ a ∧ a < w.addr + w.bytes.length then w.bytes.getD (a - w.addr) 0 else memByte s.mem a)) ∧
    (up → Gives (.leave m) s fun t => ((s.pair = 4 ∨ s.pair = 5) → enters 4 t) ∧
      (s.pair = 3 → t.pair = 3 ∧ t.get Fld.plinkStatePinsync = 0 ∧ (m.arg = 0x0C81 → t.pairing.drop = true) ∧
        (m.arg ≠ 0x0C81 → t.decant.walk = some 0))) ∧
    (up → s.pair = 3 → h = 0 → Gives (.handbackReq m) s fun t => let H := (s.cycle + 2) % 2 ^ 32
      t.get Fld.plinkHCycle = H ∧ t.pairing.giving = true ∧ ∃ c, Map.find t.pairing.sent 5 = some c ∧ c.arg = H ∧ c.kind = 5) ∧
    (up → Gives (.handback m) s fun t => t.get Fld.plinkHCycle = if s.pair = 5 then m.arg % 2 ^ 32 else h) ∧
    (¬ up → same (.leave m) ∧ same (.handbackReq m) ∧ same (.handback m)) ∧
    (g.yielding.isSome = true → same .yield) ∧
    (g.yielding = none → Gives .yield s fun t => t.get Fld.claimStateStage = 0 ∧ (stage ≠ 0 → t.get Fld.claimStateReason = 0) ∧
      (s.pair = 0 → t.pair = 0) ∧ (s.pair ≠ 0 → enters 1 t ∧ t.pairing.yielding = some s.us)) ∧
    (g.yielding = none → same .yieldEnd) ∧
    (∀ t0 u, g.yielding = some t0 → s.yieldOver t0 = some u → s.boot.restart = none → Gives .yieldEnd s fun t =>
      t = { u with pairing := { g with yielding := none } }) ∧
    (∀ T, g.lost = some T → s.pair = 5 → s.decant.rx = none → g.takeT = none → Gives .takeoverDecision s fun t =>
      if (s.get Fld.plinkCfgWhmax : Int) ≤ signed 32 (unsigned 32 ((T : Int) - s.get Fld.decantBaseCycle)) ∨
          s.getB Fld.keywellStateMergeDone = false then enters 1 t
      else t.pairing = { g with takeT := some T } ∧ t.get Fld.plinkFaultCode = 0x2E82 ∧ t.pair = 5) ∧
    (s.pair = 3 → s.get Fld.plinkCfgWhmax ≤ g.withheld → s.get Fld.sysPhaseOffsetUs < s.deadline → Gives .pairDropped s fun t => enters 2 t ∧ t.get Fld.plinkFaultCode = 0x2E04 ∧
      (up → ∃ c, Map.find t.pairing.sent 6 = some c ∧ c.arg = 0x2E04)) ∧
    ((s.pair ≠ 3 ∨ g.withheld < s.get Fld.plinkCfgWhmax ∨ s.deadline ≤ s.get Fld.sysPhaseOffsetUs) → same .pairDropped) ∧
    (s.pair = 5 → Gives .insyncStale s fun t =>
      if (s.get Fld.plinkCfgWhmax : Int) ≤ signed 32 (unsigned 32 ((s.cycle : Int) - s.get Fld.decantBaseCycle)) then
        enters (if 2 ≤ s.get Fld.plinkStateLink then 4 else 1) t else t = s)

/-! ### Starting and updating -/

/-- IMGLOAD, ERASE, WRITE, COMMIT, UNCOMMIT, WRGOLD, LOCKGOLD, DATA, IDENT, BOOT_REQ_DONE, XCVR_LOAD_FAIL and RECOVERY_MESSAGE complete (15
R371-R374): the kernel's request is numbered and queued, four at most; one that comes to the front runs, is refused with
its code, or has its effect on the flash, the boot record or its target; BOOT_REQ_DONE publishes the result; recovery messages write STAGE. -/
def Obligations.BootRequests : Prop :=
  ∀ (s : State) (d a : Reg) (n : Fin 4) (msg : List Byte),
    let k := Engine.hub .kernel
    let ad := (s.rg k a).toNat
    let b := (s.rangeRead k ad 32).1
    let w := (s.rangeRead k ad 32).2
    let num := nextNum s.boot.lastNum
    let rec' := w.bootRec
    let off := numAt b 4 4
    let len := numAt b 16 4
    let src := numAt b 8 8
    let ready := s.runs k = true ∧ s.top .kernel = true ∧ s.rangeFault k ad 32 false = none
    let rows : List (Instr × Nat) := [(.imgload (.hub .kernel) d a, 0), (.erase (.hub .kernel) d a, 1), (.write (.hub .kernel) d a, 2), (.commit (.hub .kernel) d a, 3),
      (.uncommit (.hub .kernel) d a, 4), (.wrgold (.hub .kernel) d a, 5), (.lockgold (.hub .kernel) d a, 6), (.data (.hub .kernel) d a, 7), (.ident (.hub .kernel) d a, 8)]
    let runs := fun (i : Instr) (op : Nat) (P : State → Nat → Prop) => Gives i s fun t => ∃ u v, Answers u k d (BitVec.ofNat 64 num) t ∧
      u.boot.reqs = [⟨num, op, b, some v⟩] ∧ u.boot.lastNum = num ∧ (v ≠ 0 → u.get Fld.bootFaultCode = v % 65536) ∧ P u v
    let wrote := fun (u : State) (o : Nat) (bs : List Byte) => Memory.wf w.mem = true → ∀ x, memByte u.mem x =
      if flashBase + o ≤ x ∧ x < flashBase + o + bs.length then bs.getD (x - (flashBase + o)) 0 else memByte w.mem x
    let fails := fun (code : Nat) (u : State) (v : Nat) => v = code ∧ u.mem = w.mem ∧ u.chest = w.chest
    let locked := bitOf (w.chestAt 0).toNat 5 = true
    (∀ p ∈ rows, ready → (p.2 ≠ 0 → numAt b 0 1 = p.2) →
      (4 ≤ s.boot.reqs.length → Gives p.1 s (Answers w k d 0)) ∧
      (∀ r l, s.boot.reqs = r :: l → r.result.isSome = true → l.length < 3 → Gives p.1 s fun t => ∃ u, Answers u k d (BitVec.ofNat 64 num) t ∧
        u.boot = { s.boot with reqs := r :: l ++ [⟨num, p.2, b, none⟩], lastNum := num } ∧ u.mem = w.mem ∧ u.chest = w.chest)) ∧
    (ready → s.boot.reqs = [] →
      (numAt b 0 1 = 1 → runs (.erase (.hub .kernel) d a) 1 fun u v => (rec' = 1 → fails 0x0C1F u v) ∧
        (rec' ≠ 1 → rangeOk off len 65536 w.slotLen = false → fails 0x0C1E u v) ∧
        (rec' ≠ 1 → rangeOk off len 65536 w.slotLen = true → v = 0 ∧ wrote u (w.stageOff + off) (List.replicate len Config.erasedByte))) ∧
      (numAt b 0 1 = 2 → w.inRam src len = true → runs (.write (.hub .kernel) d a) 2 fun u v => (rec' = 1 → fails 0x0C1F u v) ∧
        (rec' ≠ 1 → rangeOk off len 256 w.slotLen = false → fails 0x0C1E u v) ∧
        (rec' ≠ 1 → rangeOk off len 256 w.slotLen = true →
          if ∀ p ∈ pagesOf off len, p ∈ w.boot.erased then v = 0 ∧ wrote u (w.stageOff + off) (w.rd src len) else fails 0x0C20 u v)) ∧
      (numAt b 0 1 = 3 → runs (.commit (.hub .kernel) d a) 3 fun u v => (rec' ≠ 0 ∧ rec' ≠ 4 → fails 0x0C1F u v) ∧
        (rec' = 0 ∨ rec' = 4 → match w.bundleCheck w.stageOff false with
          | some c => fails c u v
          | none => v = 0 ∧ u.bootRec = 1 ∧ bitOf (u.chestAt 0).toNat 6 = decide (rec' = 4) ∧
              ∀ j, j < 6 → u.chestAt (8 + j) = (recordHash (w.manifestAt w.stageOff)).getD j 0)) ∧
      (numAt b 0 1 = 4 → runs (.uncommit (.hub .kernel) d a) 4 fun u v => if rec' = 1 then
          v = 0 ∧ u.bootRec = (if bitOf (w.chestAt 0).toNat 6 then 4 else 0) ∧ u.mem = w.mem else fails 0x0C1F u v) ∧
      (numAt b 0 1 = 5 → w.inRam src len = true → runs (.wrgold (.hub .kernel) d a) 5 fun u v => (locked → fails 0x0C21 u v) ∧
        (¬ locked → 0x10000 + w.slotLen < off + len → fails 0x0C1E u v) ∧
        (¬ locked → off + len ≤ 0x10000 + w.slotLen → w.boot.flashProt = false → v = 0 ∧ wrote u off (w.rd src len))) ∧
      (numAt b 0 1 = 6 → runs (.lockgold (.hub .kernel) d a) 6 fun u v => (locked → fails 0x0C21 u v) ∧
        (¬ locked → w.directoryOk = false → fails 0x0C25 u v) ∧
        (¬ locked → w.directoryOk = true → match w.bundleCheck goldenOff true with
          | some c => fails c u v
          | none => v = 0 ∧ bitOf (u.chestAt 0).toNat 5 = true ∧ u.bootRec = rec' ∧ u.mem = w.mem)) ∧
      (numAt b 0 1 = 7 → w.inRam src len = true → runs (.data (.hub .kernel) d a) 7 fun u v =>
        if w.flashLen < w.dataOff + off + len then fails 0x0C1E u v else v = 0 ∧ wrote u (w.dataOff + off) (w.rd src len)) ∧
      (numAt b 0 1 = 8 → w.inRam src 16 = true → runs (.ident (.hub .kernel) d a) 8 fun u v =>
        if bitOf (w.chestAt 0x0011).toNat 49 then fails 0x0C22 u v
        else v = 0 ∧ u.chestAt 0x0010 = BitVec.ofNat 64 (w.readLE src 8) ∧ bitOf (u.chestAt 0x0011).toNat 49 = true ∧
          (u.chestAt 0x0011).toNat % 2 ^ 49 = w.readLE (src + 8) 8 % 2 ^ 49 ∧ u.get Fld.bootStateIdset = 1) ∧
      (let m := s.boot.manifest
       let e := manifestEntry m (numAt b 0 1)
       let want := if numAt b 2 1 = 0 then e.target else numAt b 2 1
       let img := w.rd (flashBase + (if s.get Fld.bootStateSlot = 1 then w.activeOff else goldenOff) + e.off) e.len
       let known := numAt b 0 1 < numAt m 6 1 ∧ ¬ (e.profile = 1 ∧ bitOf want 0 = true) ∧ (want &&& e.target) = want
       numAt b 1 1 ≠ 1 → runs (.imgload (.hub .kernel) d a) 0 fun u v => (¬ known → fails 0x0C11 u v) ∧
         (known → ∀ c, w.entryCheck m e img = some c → fails c u v) ∧
         (known → w.entryCheck m e img = none → w.targetRuns e.profile want = true → fails 0x0C15 u v) ∧
         (known → w.entryCheck m e img = none → w.targetRuns e.profile want = false → v = 0 ∧
           (e.profile = 3 → ∀ q : Fin 4, bitOf want q = true → u.seq q = { imem := seqMem img 2, dmem := seqMem img 3, image := some (numAt img 12 4) }) ∧
           (e.profile = 5 → ∀ q : Fin 4, bitOf want q = true → Map.find u.boot.fwload q = some (numAt b 0 1, w.us))))) ∧
    (∀ r l v, s.boot.reqs = r :: l → r.result = some v → Gives .bootReqDone s fun t => t.boot.reqs.map (·.num) = l.map (·.num) ∧
      t.get Fld.bootReqNumber = r.num % 65536 ∧ t.get Fld.bootReqResult = v % 65536 ∧ t.get Fld.bootStateQueued = l.length % 8 ∧
      t.kernel.ipend.getLsbD 59 = true ∧ (l = [] → t.mem = s.mem)) ∧
    (s.boot.reqs = [] → Gives .bootReqDone s fun t => t = s) ∧
    (∀ e t0 u, Map.find s.boot.fwload n = some (e, t0) → s.reachUs (500000 + t0) = some u → Gives (.xcvrLoadFail n) s fun t => Map.find t.boot.fwload n = none ∧
      t.get Fld.bootFaultCode = 0x0C1D ∧ t.get Fld.bootFaultEntry = e % 16) ∧
    (s.boot.recovery = false → Gives (.recoveryMessage msg) s fun t => t = s) ∧
    (let o := numAt msg 0 4
     let l := numAt msg 4 4
     s.boot.recovery = true → (∀ c, l = 0 → s.commitStage.1 = c → Gives (.recoveryMessage msg) s fun t =>
       if c = 0 then t.get Fld.bootCauseCause = 2 ∧ t.bootRec = 1 ∧ t.kettle.inReset = true else t.get Fld.bootFaultCode = c % 65536 ∧ t.mem = s.mem) ∧
     (1 ≤ l → l ≤ 56 → o + l ≤ s.slotLen → 8 + l ≤ msg.length → Memory.wf s.mem = true → Gives (.recoveryMessage msg) s fun t =>
       ∀ j, memByte t.mem (flashBase + s.stageOff + j) = if o ≤ j ∧ j < o + l then msg.getD (8 + (j - o)) 0
         else if j / 65536 ∉ s.boot.recBlocks ∧ o / 65536 ≤ j / 65536 ∧ j / 65536 ≤ (o + l - 1) / 65536 then Config.erasedByte
         else memByte s.mem (flashBase + s.stageOff + j)) ∧
     (1 ≤ l → 56 < l ∨ s.slotLen < o + l → Gives (.recoveryMessage msg) s fun t => t = s))

/-- RESET_ASSERT, RESET_RELEASE, CYCSTART, CYCLE_START, BOOT_RESET, TRIAL_EXPIRED and HEALTH.CONFIRM complete (02 R45; 15 R366-R371, R376-R381;
Tables 15.3 and 15.5): a reset stops every core and gives every S field its value
after start, with memory and Chest kept; the start sequence acts on the boot record; cycles start at a whole second; an update is confirmed or its
trial expires. -/
def Obligations.StartsAndRestarts : Prop :=
  ∀ (s : State) (lockstep ok partialFuse copyOk : Bool) (d : Reg),
    let same := fun (i : Instr) => Gives i s fun t => t = s
    let resets := fun (cause : Nat) (t : State) => t.kettle.inReset = true ∧ (∀ c, (t.core c).run = .inReset) ∧
      t.get Fld.bootCauseCause = cause ∧ t.mem = s.mem ∧ t.chest = s.chest ∧ t.pair = 1 ∧ t.get Fld.claimStateStage = 0 ∧
      t.get Fld.claimStatePref = (s.getB Fld.claimStatePref).toNat ∧ ∀ f i j, f.acc = .S → t.get f i j = f.reset i
    let restarts := fun (i : Instr) (cause : Nat) =>
      (s.pair ≤ 2 ∨ (s.pair = 4 ∨ s.pair = 5) ∧ s.get Fld.plinkStateLink < 2 → Gives i s (resets cause)) ∧
      (s.pair = 3 → s.boot.restart = none → s.gateOpen = false → Gives i s fun t =>
        t.boot = { s.boot with restart := some cause } ∧ t.pair = 3)
    let f := s.freeReset .pin
    Gives .resetAssert s (fun t => resets 1 t ∧ HoldCause.pin ∈ t.kettle.holds) ∧
    ((s.kettle.inReset = false ∨ f.kettle.holds ≠ [] ∨ s.boot.recovery = true ∨ s.lockstepStopped = true) → Gives (.resetRelease lockstep ok partialFuse copyOk) s fun t => t = f) ∧
    (s.kettle.inReset = true → f.kettle.holds = [] → s.boot.recovery = false → s.lockstepStopped = false →
      (lockstep = false → Gives (.resetRelease lockstep ok partialFuse copyOk) s fun t =>
        t = f.lstepSelftest false ∧ t.lockstepStopped = true ∧ t.kettle.inReset = true ∧ (s.decant.stalled = [] → t.mem = s.mem)) ∧
      (lockstep = true → ok = false → Gives (.resetRelease lockstep ok partialFuse copyOk) s fun t =>
        t.get Fld.keywellStateError = 1 ∧ t.get Fld.keywellFaultCode = 0x340C ∧ t.kettle.inReset = true ∧ t.kernel.run = s.kernel.run) ∧
      (lockstep = true → ok = true → s.kettle.device = .rest → Gives (.resetRelease lockstep ok partialFuse copyOk) s fun t => t.kernel.run = .running ∧
        t.kernel.pc = pcFit (BitVec.ofNat 64 s.kettle.resume) ∧ t.kettle.inReset = false ∧ t.mem = s.mem) ∧
      (lockstep = true → ok = true → s.kettle.device ≠ .rest →
        let u := ((f.fuseCheck partialFuse).journalResolve).startWords
        let w := ({ u with
          boot := { u.boot with flashProt := u.directoryOk && bitOf (u.chestAt 0).toNat 5 }
          dramBytes := u.readLE (flashBase + 16) 4 * 0x40000000 } : State).countStart
        let trials := bits (w.chestAt 0).toNat 3 2
        let started := fun (slot off : Nat) (t : State) => t.get Fld.bootStateSlot = slot ∧ t.boot.manifest = w.manifestAt off ∧
          t.kernel.run = .running ∧ t.kettle.inReset = false ∧ ∃ e, (manifestEntries (w.manifestAt off)).find? (fun e => e.profile = 1 && e.target = 1) = some e ∧
            t.kernel.pc = pcFit (BitVec.ofNat 64 (numAt (readBytes w.mem (flashBase + off + e.off) e.len) 12 4 * 4))
        let active := w.bundleCheck w.activeOff false = none
        let golden := w.bundleCheck goldenOff true = none
        let recovers := fun (t : State) => t.boot.recovery = true ∧ t.kernel.run = u.kernel.run ∧ t.mem = u.mem
        Gives (.resetRelease lockstep ok partialFuse copyOk) s fun t =>
          (u.directoryOk = false → recovers t ∧ t.get Fld.bootFaultCode = 0x0C25) ∧
          (u.directoryOk = true →
            (w.bootRec = 0 → active → started 1 w.activeOff t ∧ t.bootRec = 0) ∧
            (w.bootRec = 0 → ¬ active → golden → started 0 goldenOff t ∧ t.bootRec = 4 ∧ t.get Fld.bootFaultCode = 0x0C19) ∧
            (w.bootRec = 3 → trials < 3 → active → started 1 w.activeOff t ∧ t.bootRec = 3 ∧ bits (t.chestAt 0).toNat 3 2 = trials + 1) ∧
            (w.bootRec = 3 → trials = 3 → golden → started 0 goldenOff t ∧ t.bootRec = 4 ∧ t.get Fld.bootFaultCode = 0x0C1C) ∧
            (w.bootRec = 4 → golden → started 0 goldenOff t ∧ t.bootRec = 4) ∧
            (w.bootRec = 4 → ¬ golden → recovers t ∧ w.bundleCheck goldenOff true = some (t.get Fld.bootFaultCode))))) ∧
    (let refused := s.get Fld.timeStateServo = 0 ∨ s.getB Fld.plinkCfgPairEn = true ∧ s.getB Fld.bootStateIdset = false
     (s.sysRunning = true → same .cycstart) ∧ (s.sysRunning = false → refused → Gives .cycstart s fun t =>
       t.get Fld.bootFaultCode = 0x0C23 ∧ t.boot = s.boot) ∧
     (s.sysRunning = false → ¬ refused → Gives .cycstart s fun t =>
       t = { s with boot := { s.boot with cycStart := some ((s.site.ps / 1000000000000 + 1) * 1000000000000) } }) ∧
     (let due := ∃ t0, s.boot.cycStart = some t0 ∧ t0 ≤ s.cyclePs ∧ s.onSecond = true
      (due → Gives .cycleStart s fun t => t.boot.cycStart = none ∧ t.sysRunning = true) ∧ (¬ due → same .cycleStart))) ∧
    restarts .bootReset 2 ∧
    (let m := s.boot.manifest
     let trial := s.bootRec = 3 ∧ s.get Fld.bootStateSlot = 1
     let served := s.trialS + numAt m 0x18 2 ≤ s.get Fld.bootServiceSeconds
     (¬ trial → same .trialExpired) ∧
     (∀ u, trial → (if served then u = s else s.reachUs (60000000 * numAt m 0x1A 2 + s.boot.entryUs) = some u) → restarts .trialExpired 3)) ∧
    (s.runs (.hub .kernel) = true → s.top .kernel = true →
      let m := s.boot.manifest
      let slot := s.get Fld.bootStateSlot
      let sync := s.getB Fld.bootStateSyncmet = true ∨ numAt m 0x1C 1 = 0 ∨ s.pair = 0
      let good := s.bootRec = 3 ∧ s.trialS ≤ s.get Fld.bootServiceSeconds ∧ sync
      let fails := fun (code : Nat) => Gives (.healthConfirm (.hub .kernel) d) s (Answers (s.raise code) (.hub .kernel) d (BitVec.ofNat 64 code))
      let old := bits (s.chestAt 1).toNat 0 32
      (s.bootRec = 0 → fails 0x0C80) ∧ (s.bootRec ≠ 0 → slot = 0 → fails 0x0C31) ∧ (s.bootRec ≠ 0 → slot ≠ 0 → ¬ good → fails 0x0C30) ∧
      (slot ≠ 0 → good → Gives (.healthConfirm (.hub .kernel) d) s fun t => ∃ u, Answers u (.hub .kernel) d 0 t ∧ u.bootRec = 0 ∧
        u.get Fld.bootStateRec = 0 ∧ u.get Fld.bootStateTrials = 0 ∧ u.mem = s.mem ∧
        bits (u.chestAt 1).toNat 0 32 = max old (numAt m 8 4)))

/-! ### Loops, axes and the Tally -/

/-- LOOP_RUN, LOOP_STOP, LOOP_RESTORE, LOOP_CUT, SAMPLE_FRAME, LOOP_SAMPLE and START_GRANT complete (16 R385-R401): RUN, STOP, RESTORE and the
cut; a frame that crosses the port's unit; a sample at the next sample clock of a slot that no cascade joins drives MANUAL in OPEN and SAFE in
FAILSAFE, keeps the output in HELD, gives up lost feedback after TMO samples, and follows the law of R388 in CLOSED; a start grant, STAGGER.US
after the last. -/
def Obligations.ControlLoops : Prop :=
  ∀ (s : State) (n : Fin 32) (port : Fin 8) (ws : List Word32) (item : SampleItem),
    let running := s.getB Fld.loopStateRunning = true
    let same := fun (i : Instr) => Gives i s fun t => t = s
    let f32 := fun (v : Word) => Float64.toF32 v % 2 ^ 32
    let base := s.get Fld.loopCutbaseAddr * 256
    let st := s.get Fld.loopStatState n
    let x := s.lslot n
    let counted := fun (fb : Bool × Word) (t : State) => t.get Fld.loopCntSamples n = (s.get Fld.loopCntSamples n + 1) % 65536 ∧
      t.get Fld.loopPv n = f32 fb.2 ∧ t.get Fld.loopCntStale n = if fb.1 then s.get Fld.loopCntStale n else (s.get Fld.loopCntStale n + 1) % 65536
    (running ∨ s.standby = true → same .loopRun) ∧
    (¬ running → s.standby = false → if loopLayoutOk s (fun f i => s.get f i) = true then
        Gives .loopRun s (SetsWords { s with
          loop := { s.loop with
            runAt := (s.roots + 59) / 60 * 60
            slots := s.loop.slots.map fun p => (p.1, { p.2 with sampled := none }) } } [(Fld.loopStateRunning, 0, 1)])
      else Gives .loopRun s fun t => t.get Fld.loopFaultCode = 0x3801 ∧ t.get Fld.loopStateRunning = 0) ∧
    (¬ running → same .loopStop) ∧
    (running → Gives .loopStop s fun t => t.get Fld.loopStateRunning = 0 ∧ t.get Fld.loopStateClosed = 0 ∧
      ∀ m : Fin 32, t.get Fld.loopStatState m = 0 ∧ t.get Fld.loopOut m = f32 (s.f64 Fld.loopManual m)) ∧
    (let bad := base = 0 ∨ s.readLE base 4 ≠ 0x5455434C ∨ s.readLE (base + 8) 1 = 0
     (running → Gives .loopRestore s fun t => t.get Fld.loopFaultCode = 0x3802 ∧ t.loop = s.loop) ∧
     (¬ running → bad → Gives .loopRestore s fun t => t.get Fld.loopFaultCode = 0x3804 ∧ t.loop.slots = [] ∧
       ∀ m : Fin 32, t.get Fld.loopStatState m = 0 ∧ t.get Fld.loopModeMode m = 0 ∧ t.get Fld.loopOut m = 0) ∧
     (¬ running → ¬ bad → Gives .loopRestore s fun t => ∀ m : Fin 32, let w := fun k => s.readLE (base + 128 + 128 * m.val + 4 * k) 4
       t.get Fld.loopOut m = w 0x15 ∧ (w 0x12 % 4 ≠ 1 → t.get Fld.loopStatState m = w 0x12 % 4) ∧
       (w 0x12 % 4 = 1 → t.get Fld.loopStatState m = 1 ∨ t.get Fld.loopStatState m = 2 ∧ t.get Fld.loopStatReason m = 5))) ∧
    (¬ (running ∧ base ≠ 0) → same .loopCut) ∧
    (let u := s.moveTo 5990
     running → base ≠ 0 → Memory.wf s.mem = true → u.writable base u.loopCut.length = true → Gives .loopCut s fun t => ∀ a, memByte t.mem a =
      if base ≤ a ∧ a < base + u.loopCut.length then u.loopCut.getD (a - base) 0 else memByte s.mem a) ∧
    (s.getB Fld.loopSpEn port = false → same (.sampleFrame port item)) ∧
    (s.getB Fld.loopSpEn port = true →
      Gives (.sampleFrame port .gap) s (SetsWords s [(Fld.loopSpstatGaps, port.val, (s.get Fld.loopSpstatGaps port + 1) % 65536)]) ∧
      (let fr := Map.getD s.loop.frames port {}
       let took := (s.qCross (20 + port.val) (frameBytes ws)).1
       (took = false → Gives (.sampleFrame port (.frame ws)) s fun t => t.loop = s.loop ∧ t.tally = s.tally) ∧
       (took = true → ws.length = s.get Fld.loopSpWords port → Gives (.sampleFrame port (.frame ws)) s fun t =>
        t.loop = { s.loop with frames := Map.put s.loop.frames port { num := fr.num + 1, words := ws, done := s.roots, before := fr.words } }) ∧
       (took = true → ws.length ≠ s.get Fld.loopSpWords port → Gives (.sampleFrame port (.frame ws)) s fun t => t.loop = s.loop ∧ t.tally = s.tally ∧
        t.get Fld.loopSpstatBadlen port = (s.get Fld.loopSpstatBadlen port + 1) % 65536 ∧ t.get Fld.loopFaultCode = 0x3884))) ∧
    (¬ running ∨ s.get Fld.loopCfgSnk n = 2 ∨ s.reach (s.sampleDue n) = none → same (.loopSample n)) ∧
    (∀ v, running → s.get Fld.loopCfgSnk n ≠ 2 → s.outerOf n = none → s.reach (s.sampleDue n) = some v →
      let fb := v.feedback n
      let counted := counted fb
      (st = 2 → s.getB Fld.loopCfgAutorec n = false → Gives (.loopSample n) s fun t => counted t ∧ t.get Fld.loopStatState n = 2 ∧
        t.get Fld.loopOut n = s.get Fld.loopOut n ∧ (t.lslot n).sampled = some (s.sampleDue n)) ∧
      (st = 0 → Gives (.loopSample n) s fun t => counted t ∧ t.get Fld.loopStatState n = 0 ∧ t.get Fld.loopOut n = f32 (s.f64 Fld.loopManual n)) ∧
      (st = 3 → Gives (.loopSample n) s fun t => counted t ∧ t.get Fld.loopStatState n = 3 ∧ t.get Fld.loopOut n = f32 (s.f64 Fld.loopSafe n)) ∧
      (st = 1 → s.getB Fld.loopStatWaitstart n = false →
        (fb.1 = false → s.get Fld.loopFbTmo n ≤ x.lost + 1 → Gives (.loopSample n) s fun t => counted t ∧ t.get Fld.loopFaultCode = 0x3881 ∧
          t.get Fld.loopFaultSlot = n ∧ t.get Fld.loopStatReason n = 2 ∧
          (s.getB Fld.loopCfgFbact n = true → t.get Fld.loopStatState n = 3 ∧ t.get Fld.loopOut n = f32 (s.f64 Fld.loopSafe n)) ∧
          (s.getB Fld.loopCfgFbact n = false → t.get Fld.loopStatState n = 2 ∧ t.get Fld.loopOut n = s.get Fld.loopOut n)) ∧
        (fb.1 = true → 1 ≤ s.get Fld.loopFbTmo n → s.get Fld.loopFbFrzK n = 0 → x.closing = false → s.f64 Fld.loopSlew n = 0 →
          let T := s.slotPeriod n
          let lo := s.f64 Fld.loopOmin n
          let hi := s.f64 Fld.loopOmax n
          let r := s.slotSp n
          let e := Float64.subN r fb.2
          let p := Float64.mulN (s.f64 Fld.loopKp n) e
          let tf := s.f64 Fld.loopTf n
          let a := Float64.divN tf (Float64.addN tf T)
          let d := Float64.subN (Float64.mulN a x.d) (Float64.divN (Float64.mulN (Float64.mulN (Float64.subN (Float64.ofIntN 1) a)
            (s.f64 Fld.loopKd n)) (Float64.subN fb.2 x.yPrev)) T)
          let ic := Float64.clampN (Float64.addN x.iAcc (Float64.mulN (Float64.mulN (s.f64 Fld.loopKi n) T) e)) lo hi
          let u := Float64.addN (Float64.addN p ic) d
          let i := if (Float64.ltN hi u && Float64.ltN 0 e) || (Float64.ltN u lo && Float64.ltN e 0) then x.iAcc else ic
          let w := Float64.clampN (Float64.addN (Float64.addN p i) d) lo hi
          Gives (.loopSample n) s fun t => counted t ∧ t.get Fld.loopStatState n = 1 ∧ t.get Fld.loopOut n = f32 w ∧
            t.get Fld.loopInt n = f32 i ∧ t.get Fld.loopRef n = f32 r ∧ (t.lslot n).u = w ∧ (t.lslot n).iAcc = i ∧
            (t.lslot n).d = d ∧ (t.lslot n).yPrev = fb.2 ∧ (t.lslot n).lost = 0))) ∧
    (s.getB Fld.kettleStatePfw = true ∨ s.starts = [] ∨ s.reachUs s.startDue = none → same .startGrant) ∧
    (∀ v rest, s.getB Fld.kettleStatePfw = false → s.starts = .slot n :: rest → s.reachUs s.startDue = some v → st = 1 →
      Gives .startGrant s fun t => t.starts = rest ∧ t.loop.grantUs = some v.us ∧
      t.get Fld.loopStatWaitstart n = 0 ∧ t.get Fld.loopStatState n = 1 ∧
      (s.getB Fld.loopCfgEngEn n = true → s.gpioTaken (s.get Fld.loopCfgEngpio n) = false →
        Map.find t.loop.engGpio (s.get Fld.loopCfgEngpio n) = some true)) ∧
    (∀ v (a : Fin 8) rest, s.getB Fld.kettleStatePfw = false → s.starts = .axis a :: rest → s.reachUs s.startDue = some v → s.axState a = 1 →
      Gives .startGrant s fun t =>
      t.axState a = (s.axis a).afterState % 8 ∧ t.get Fld.axisStatReason a = (s.axis a).afterReason % 8 ∧ t.loop.grantUs = some v.us)

/-- AXIS_RUN, AXIS_BLOCK_STOP, AXIS_RESTORE, AXIS_CUT, AXIS_ON, AXIS_OFF, MOVE, VEL, HOME, AXIS_STOP, SETPOS, QSTOP, COARSE_STEP,
MICROSTEP_ISSUE, STEP_EDGE, LIMIT_STOP, HOME_EDGE, AXIS_STANDSTILL and AXIS_INPUT_CHANGE complete (17 R405-R409, R413-R416, R419, R422, R423):
each first brings its axis up to the present clock; a command acts in its states and is refused with 0x3906 in others; an external step moves
the coarse position by 256 and the microsteps due move POS towards it; a ramp or move that ends in its next PWM period settles the state;
limits, the home edge and the inputs act. -/
def Obligations.StepperAxes : Prop :=
  ∀ (s : State) (a : Fin 8) (positive level : Bool) (wait : Nat) (pin : AxisPin),
    let running := s.getB Fld.axisStateRunning = true
    let same := fun (i : Instr) => Gives i s fun t => t = s
    let base := s.get Fld.axisCutbaseAddr * 256
    let u := s.axSync a
    let st := u.axState a
    let x := u.axis a
    let rests := fun (i : Instr) => Gives i s fun t => t = u
    let tgt := signed 32 (u.get Fld.axisTgtTgt a)
    let refused := fun (i : Instr) => Gives i s fun t => t.get Fld.axisFaultCode = 0x3906 ∧ t.get Fld.axisFaultAxis = a ∧ t.axes = u.axes ∧
      t.axState a = st ∧ t.get Fld.axisPosPos a = u.get Fld.axisPosPos a
    let stands := fun (state reason : Nat) (t : State) => t.axState a = state ∧ t.get Fld.axisStatReason a = reason ∧ t.get Fld.axisVel a = 0 ∧
      (t.axis a).motion = .rest ∧ (t.axis a).vel = 0 ∧ t.get Fld.axisPosPos a = unsigned 32 (t.axis a).coarse
    let ramps := fun (i : Instr) (state reason : Nat) (fast : Bool) => Gives i s fun t =>
      t = u.setAxis a { x with motion := .stopTo state reason, turning := false, fast := fast }
    let moves := fun (i : Instr) (m : AxisMotion) (state : Nat) => Gives i s fun t => t.axState a = state ∧ t.get Fld.axisStatReason a = 0 ∧
      (t.axis a).motion = m ∧ (t.axis a).amax = u.get Fld.axisAmax a ∧ (t.axis a).dmax = u.get Fld.axisDmax a ∧
      (t.axis a).jmax = u.get Fld.axisJmax a ∧ t.get Fld.axisPosPos a = u.get Fld.axisPosPos a
    let halts := fun (t : State) => t.get Fld.axisFaultCode = 0x3981 ∧
      if u.getB Fld.axisCfgLimact a then t.axState a = st ∧ (t.axis a).motion = .stopTo 5 1 else stands 5 1 t
    (running ∨ s.standby = true → same .axisRun) ∧
    (¬ running → s.standby = false → if axisLayoutOk s (s.get Fld.axisCutbaseAddr) = true then
        Gives .axisRun s (SetsWords s [(Fld.axisStateRunning, 0, 1)])
      else Gives .axisRun s fun t => t.get Fld.axisFaultCode = 0x3901 ∧ t.get Fld.axisStateRunning = 0) ∧
    (¬ running → same .axisBlockStop) ∧ (running → Gives .axisBlockStop s fun t => t.get Fld.axisStateRunning = 0 ∧ stands 0 0 t) ∧
    (let bad := base = 0 ∨ s.readLE base 4 ≠ 0x54554341 ∨ s.readLE (base + 8) 1 = 0
     let w := fun k => s.readLE (base + 64 + 256 * a.val + 4 * k) 4
     (running → Gives .axisRestore s fun t => t.get Fld.axisFaultCode = 0x3902 ∧ t.axes = s.axes) ∧
     (¬ running → bad → Gives .axisRestore s fun t => t.get Fld.axisFaultCode = 0x3904 ∧ t.axis a = { levels := (s.axis a).levels } ∧
       t.axState a = 0 ∧ t.get Fld.axisPosPos a = 0 ∧ t.get Fld.axisStateHomed = 0) ∧
     (¬ running → ¬ bad → Gives .axisRestore s fun t => t.get Fld.axisPosPos a = w 0x0E ∧ (t.axis a).motion = .rest ∧
       t.axState a = if w 0x10 % 8 = 0 then 0 else 1)) ∧
    (¬ (running ∧ base ≠ 0) → same .axisCut) ∧
    (let v := (s.moveTo 5990).axesSync
     running → base ≠ 0 → Memory.wf s.mem = true → v.writable base v.axisCut.length = true → Gives .axisCut s fun t => ∀ b, memByte t.mem b =
      if base ≤ b ∧ b < base + v.axisCut.length then v.axisCut.getD (b - base) 0 else memByte s.mem b) ∧
    (st = 0 → Gives (.axisOn a) s fun t => t.axState a = 1 ∧ (t.axis a).afterState = 2 ∧ .axis a ∈ t.starts) ∧
    (st = 5 → Gives (.axisOn a) s fun t => t.axState a = 2 ∧ t.get Fld.axisStatReason a = 0) ∧
    (st ≠ 0 → st ≠ 5 → refused (.axisOn a)) ∧
    (st = 3 ∨ st = 4 → ramps (.axisOff a) 0 0 false ∧ ramps (.axisStop a) 2 0 false ∧ ramps (.qstop a) 5 2 true) ∧
    (st ≠ 3 → st ≠ 4 → Gives (.axisOff a) s (stands 0 0) ∧ refused (.axisStop a) ∧ rests (.qstop a)) ∧
    (let ok := (st = 2 ∨ st = 3 ∨ st = 5) ∧ (u.getB Fld.axisCfgReqhome a = false ∨ u.getB Fld.axisStatHomed a = true) ∧
       u.motionRefused a (decide (u.pos a ≤ tgt)) = false ∧ tgt % 256 = 0
     (ok → moves (.move a) .move 3) ∧ (¬ ok → refused (.move a))) ∧
    (let ok := (st = 2 ∨ st = 3 ∨ st = 5) ∧ u.motionRefused a (decide (u.get Fld.axisVtgt a < 2 ^ 31)) = false
     (ok → moves (.vel a) .vel 3) ∧ (¬ ok → refused (.vel a))) ∧
    (let on := u.homeSource a
     let ok := (st = 2 ∨ st = 5) ∧ u.motionRefused a (if on then !u.hdir a else u.hdir a) = false
     (ok → moves (.home a) (if on then .away else .search) 4) ∧ (¬ ok → refused (.home a))) ∧
    ((st = 2 ∨ st = 5) → Gives (.setpos a) s fun t => t.get Fld.axisPosPos a = u.get Fld.axisTgtTgt a ∧ t.get Fld.axisStatHomed a = 1 ∧
      bitOf (t.get Fld.axisStateHomed) a = true ∧ t.axState a = st) ∧ (st ≠ 2 → st ≠ 5 → refused (.setpos a)) ∧
    (let rests' := x.coarse ≠ (s.axis a).coarse ∨ x.motion = .rest ∨ u.getB Fld.axisCfgSrc a = true
     (rests' → rests (.coarseStep a)) ∧
     (∀ c v, ¬ rests' → u.genFind a Axis.crosses genAhead x = some c → u.reach c = some v →
       Gives (.coarseStep a) s fun t => t = v.axRun a true) ∧
     (¬ rests' → u.genFind a Axis.crosses genAhead x = none → rests (.coarseStep a))) ∧
    (let rests' := u.pos a ≠ s.pos a ∨ u.pos a = x.coarse
     (rests' → rests (.microstepIssue a)) ∧
     (∀ v, ¬ rests' → u.getB Fld.axisCfgSrc a = true → u.reach (u.microDue a) = some v → x.stepAt ≤ v.roots / 60000 * 60000 →
       Gives (.microstepIssue a) s fun t =>
       let M := 2 ^ u.get Fld.axisCfgRes a
       let k := min M ((v.roots / 60000 * 60000 - x.stepAt) * M / max 1 x.stepPeriod)
       let d : Int := ((k * (256 / M) : Nat) : Int)
       t.get Fld.axisPosPos a = unsigned 32 (if x.stepPositive then min x.coarse (x.base + d) else max x.coarse (x.base - d)) ∧
       (t.axis a).coarse = x.coarse)) ∧
    (s.getB Fld.axisCfgSrc a = false ∨ s.reach (s.roots + 60 * wait) = none → same (.stepEdge a positive wait)) ∧
    (∀ v, s.getB Fld.axisCfgSrc a = true → s.reach (s.roots + 60 * wait) = some v →
      let u := v.axSync a
      let x := u.axis a
      let w := u.setAxis a { x with lastEdge := some u.roots }
      let cap := u.get Fld.axisExtpExtpmaxMs a * 6000000
      let gap := match x.lastEdge with
        | some t0 => u.roots - t0
        | none => cap
      (u.limitActive a positive = true →
        Gives (.stepEdge a positive wait) s (SetsWords w [(Fld.axisCntDiscard, a.val, (u.get Fld.axisCntDiscard a + 1) % 65536)])) ∧
      (u.limitActive a positive = false → Gives (.stepEdge a positive wait) s fun t =>
        t.get Fld.axisPosPos a = (if x.stepPositive = positive then u.get Fld.axisPosPos a else unsigned 32 x.coarse) ∧
        (t.axis a).coarse = (if positive then x.coarse + 256 else x.coarse - 256) ∧ (t.axis a).base = x.coarse ∧
        (t.axis a).stepPositive = positive ∧ (t.axis a).stepAt = u.roots ∧ (t.axis a).stepPeriod = min gap cap ∧
        t.get Fld.axisCntSteps a = (u.get Fld.axisCntSteps a + 1) % 65536 ∧ (gap < 240000 → t.get Fld.axisFaultCode = 0x3983))) ∧
    (x.motion = .rest → rests (.limitStop a)) ∧
    (st = 3 → x.motion = .move ∨ x.motion = .vel → Gives (.limitStop a) s fun t => halts t ∧
      t.get (if x.positive then Fld.axisStatLp else Fld.axisStatLn) a = 1) ∧
    (st = 4 → x.motion = .search → x.armed = true → u.getB Fld.axisCfgHsrc a = false → Gives (.homeEdge a) s fun t =>
      t.get Fld.axisLatchLatch a = u.get Fld.axisPosPos a ∧ (t.axis a).motion = .latched ∧ (t.axis a).armed = false ∧ t.axState a = 4) ∧
    (st ≠ 4 → rests (.homeEdge a)) ∧
    (x.motion = .rest ∨ x.motion = .vel → rests (.axisStandstill a)) ∧
    (∀ v, x.motion = (s.axis a).motion → u.getB Fld.axisCfgSrc a = false → u.genStands a (u.genPeriod a x) = true → u.roots ≤ x.genAt →
      u.reach x.genAt = some v →
      let stops := fun (P : State → Prop) => Gives (.axisStandstill a) s P
      (x.motion = .move → (u.genPeriod a x).positive = x.positive → stops (stands 2 0)) ∧
      (∀ s' r, x.motion = .stopTo s' r → stops (stands (s' % 8) (r % 8))) ∧
      (x.motion = .settle → u.limitActive a (u.hdir a) = false → stops fun t => (t.axis a).motion = .search ∧ (t.axis a).positive = u.hdir a ∧
        t.axState a = st) ∧
      (x.motion = .turn → u.limitActive a (!u.hdir a) = false → stops fun t => (t.axis a).motion = .reverse false ∧ (t.axis a).armed = true ∧
        (t.axis a).positive = !u.hdir a ∧ t.axState a = st) ∧
      (x.motion = .latched → stops fun t => stands 2 0 t ∧ t.get Fld.axisStatHomed a = 1 ∧ (x.crosses (u.genPeriod a x) = none →
        t.get Fld.axisPosPos a = unsigned 32 ((u.get Fld.axisHomeposHomepos a : Int) + x.coarse - u.get Fld.axisLatchLatch a)))) ∧
    (let k := match pin with
       | .ln => 0
       | .lp => 1
       | .hm => 2
     let f := match pin with
       | .ln => Fld.axisStatLn
       | .lp => Fld.axisStatLp
       | .hm => Fld.axisStatHm
     let active := level = bitOf (s.get Fld.axisCfgPol a) k
     (x.motion = .rest → Gives (.axisInputChange a pin level) s fun t => t = { u with cw := t.cw, axes := t.axes } ∧
       t.axis a = { x with levels := (t.axis a).levels } ∧ (t.axis a).levels.getLsbD k = level ∧ t.get f a = (decide active).toNat) ∧
     (active → s.inputActive a k = false → st = 3 → x.motion = .move ∨ x.motion = .vel → pin = (if x.positive then .lp else .ln) →
       Gives (.axisInputChange a pin level) s fun t => halts t ∧ t.get f a = 1))

/-- TALLY_RUN, TALLY_STOP, TALLY_CLEAR, TALLY_SNAP, INTERVAL_END, TALLY_SAVE_DONE and FLUSH_DONE complete (18 R425-R437): RUN loads the larger of
each saved total and the row; a frame's pair enters its channel; an interval ends once at a boundary of a tenth cycle with its results and the
save; STOP saves and stops; CLEAR zeroes the channels of the mask; SNAP latches; a save or a flush becomes durable. -/
def Obligations.TallyMeters : Prop :=
  ∀ (s : State) (port : Fin 8) (ws : List Word32) (m : Fin 16) (k : Fin 7),
    let y := s.tally
    let running := s.getB Fld.tallyStateRunning = true
    let same := fun (i : Instr) => Gives i s fun t => t = s
    let f32 := fun (v : Word) => Float64.toF32 v % 2 ^ 32
    let loc := 0x1000 + 8 * m.val + k.val
    let row := 0x1080 + 8 * m.val + k.val
    let valid := (s.chestAt 0x10FF).toNat / 2 ^ 32 % 65536 = 0x464C
    let larger := if valid ∧ (s.chestAt loc).toNat < (s.chestAt row).toNat then s.chestAt row else s.chestAt loc
    let saves := fun (t : State) => t.getB Fld.tallyStateSaving = true ∧ ∀ (j : Fin 16) (i : Fin 7), (0x1000 + 8 * j.val + i.val, t.total j i) ∈ t.tally.save ↔
      s.getB Fld.tallyCfgEn j = true
    let due := s.cycle % 10 = 0 ∧ y.ended ≠ some s.cycleRoots
    let c := (s.tchan m).sums
    let nexp := ((s.cycleRoots - y.began) / 60 + 6250) / 12500
    let mean := fun (v : Word) => if c.n = 0 then 0 else Float64.divN v (Float64.ofIntN c.n)
    (running → Gives .tallyRun s fun t => t.get Fld.tallyFaultCode = 0x3A02 ∧ t.tally = y) ∧
    (¬ running → Gives .tallyRun s fun t => t.get Fld.tallyStateRunning = 1 ∧ t.total m k = larger ∧ t.tally.rems = [] ∧
      t.tally.measuring = false ∧ (valid → t.get Fld.tallyStateRowused = 1) ∧ t.chest = s.chest) ∧
    (¬ running ∨ y.stopping = true → same .tallyStop ∧ same .intervalEnd) ∧
    (running → y.stopping = false → Gives .tallyStop s fun t => t.tally.stopping = true ∧ t.tally.measuring = false ∧
      (s.getB Fld.kettleStatePfw = false → saves t) ∧ (y.measuring = false → ¬ due → t.tally.totals = y.totals)) ∧
    (¬ due → same .intervalEnd) ∧
    (running → y.stopping = false → due → y.measuring = false → Gives .intervalEnd s fun t =>
      t = { s with tally := { y with
        measuring := true, ended := some s.cycleRoots, began := s.cycleRoots, endTotals := y.totals, endCycle := s.cycle
        chans := y.chans.map fun p => (p.1, { p.2 with sums := {} }) } }) ∧
    (running → y.stopping = false → due → y.measuring = true → Gives .intervalEnd s fun t =>
      t.tally.endTotals = t.tally.totals ∧ t.tally.endCycle = s.cycle ∧ t.tally.began = s.cycleRoots ∧ (t.tchan m).sums = {} ∧
      (s.getB Fld.kettleStatePfw = false → saves t) ∧
      (s.getB Fld.tallyStateSaving = true → t.get Fld.tallyFaultCode = 0x3A84) ∧
      (s.getB Fld.tallyCfgEn m = false → t.total m k = s.total m k ∧ t.get Fld.tallyP m = s.get Fld.tallyP m) ∧
      (s.getB Fld.tallyCfgEn m = true → t.get Fld.tallyVrms m = f32 (Float64.sqrtN (mean c.sumVV)) ∧
        t.get Fld.tallyIrms m = f32 (Float64.sqrtN (mean c.sumII)) ∧ t.get Fld.tallyP m = f32 (mean c.sumVI) ∧
        t.get Fld.tallyQ m = f32 (mean c.sumHI) ∧ t.get Fld.tallyStatN m = c.n % 65536 ∧
        t.get Fld.tallyStatFill m = (if c.n = 0 ∨ c.n + 8 < nexp then 1 else 0) ∧
        t.get Fld.tallyStatRate m = (if nexp < 100 * (c.r - nexp) ∨ nexp < 100 * (nexp - c.r) then 1 else 0))) ∧
    (let wv := ws.getD (s.get Fld.tallyCfgVchan m) 0
     let wi := ws.getD (s.get Fld.tallyCfgIchan m) 0
     let ok := wv.toNat < 2 ^ 31 ∧ wi.toNat < 2 ^ 31
     let v := if ok then Float64.mulN (s.f64 Fld.tallyVgain m) (Float64.ofIntN (signed 24 wv.toNat)) else 0
     let i := if ok then Float64.mulN (s.f64 Fld.tallyIgain m) (Float64.ofIntN (signed 24 wi.toNat)) else 0
     let old := s.tchan m
     running → s.getB Fld.tallyCfgEn m = true → s.get Fld.tallyCfgPort m = port → s.getB Fld.tallyCfgHpf m = false → ¬ due →
       s.getB Fld.loopSpEn port = true → ws.length = s.get Fld.loopSpWords port → (s.qCross (20 + port.val) (frameBytes ws)).1 = true →
       Gives (.sampleFrame port (.frame ws)) s fun t => t.tally.totals = y.totals ∧
         (t.tchan m).volts = ((v, decide ok) :: old.volts).take 127 ∧
         (t.tchan m).amps = ((if s.getB Fld.tallyCfgIinv m then Float64.neg i else i) :: old.amps).take 127 ∧
         (t.tchan m).sums.r = old.sums.r + (if y.measuring then 1 else 0) ∧
         (y.measuring = true → old.volts.length < 63 → (t.tchan m).sums.n = old.sums.n)) ∧
    (running → Gives .tallyClear s fun t => t.get Fld.tallyFaultCode = 0x3A02 ∧ t.chest = s.chest) ∧
    (¬ running → Gives .tallyClear s fun t => t = { s with chest := t.chest } ∧
      t.chestAt loc = (if bitOf (s.get Fld.tallyClearmaskMask) m then 0 else larger) ∧ t.chestAt row = s.total m k ∧
      (t.chestAt 0x10FF).toNat / 2 ^ 32 = 0 ∧ ∀ l, l < 0x1000 ∨ 0x1100 ≤ l → t.chestAt l = s.chestAt l) ∧
    Gives .tallySnap s (fun t => t = { s with cw := t.cw } ∧ t.get Fld.tallySnapcycCycle = y.endCycle % 2 ^ 32 ∧
      t.get Fld.tallySnapCount m k = (Map.getD y.endTotals (8 * m + k) 0).toNat / 2 ^ s.get Fld.tallySnapcfgShift % 2 ^ 32) ∧
    (let ready := s.getB Fld.tallyStateSaving = true ∧ (s.keywell.steps = [] ∨ s.keywell.stopped = true)
     (¬ ready → same .tallySaveDone) ∧
     (ready → (y.save.map Prod.fst).Nodup → Gives .tallySaveDone s fun t => (∀ p ∈ y.save, t.chestAt p.1 = p.2) ∧
      t.tally.save = [] ∧ t.get Fld.tallyStateSaving = 0 ∧ t.get Fld.tallyStateSaves = (s.get Fld.tallyStateSaves + 1) % 65536 ∧
      (y.stopping = true → t.get Fld.tallyStateRunning = 0))) ∧
    (y.flush = [] → same .flushDone) ∧
    (y.flush ≠ [] → (y.flush.map Prod.fst).Nodup → Gives .flushDone s fun t => (∀ p ∈ y.flush, t.chestAt p.1 = p.2) ∧ t.tally.flush = [] ∧
      t.get Fld.tallyStateFlushed = 1 ∧ t.get Fld.tallyFaultCode = 0x3A85)

/-! ### The Kettle -/

/-- POWER_SEQUENCE_START, RAIL_POWER_GOOD, RAIL_STEP_TIMEOUT, SEQUENCE_RETRY, RAIL_OFF_STEP, PMBUS_POLL, PMALERT, AVS_READ, REFCLK_LOST,
REFCLK_VALID, PLL_UNLOCK, SLEEP, DEVICE_WAKE, WAKE_GPIO, THERMAL_SAMPLE, CRIT_HOLD_EXPIRE, RAIL_SAMPLE, PFW_ASSERT, PFW_RELEASE, PFW_RESET,
PFW_RESET_HOLD_END and POWER_LOSS complete (19 R441-R447, R455-R462; 02 R58): the power-up sequence and its retry, the polls, VDD_CORE, each
reset that the Kettle makes and what holds it, the thresholds of Table 19.3, sleeping and waking, PFW and the loss of power. -/
def Obligations.PowerHeatAndSleep : Prop :=
  ∀ (s : State) (polls : List RailPoll) (codes : List (Option Nat)) (temps : List (BitVec 16)) (mv : List Nat)
    (pin : Fin 8) (j n c : Nat) (rest : List Nat) (v : BitVec 16),
    let k := s.kettle
    let same := fun (i : Instr) => Gives i s fun t => t = s
    let due := fun (t : State) => t.kettle.seq.Pairwise (· < ·) ∧ ∀ m, m ∈ t.kettle.seq ↔ 1 ≤ m ∧ m ≤ 7 ∧ k.railsOn.getLsbD (m + 1) = false
    let someOff := ∃ m, 1 ≤ m ∧ m ≤ 7 ∧ k.railsOn.getLsbD (m + 1) = false
    let resets' := fun (code : Nat) (t : State) => t.get Fld.kettleCauseCode = code ∧ t.get Fld.bootCauseCause = 4 ∧ t.kettle.inReset = true ∧
      (∀ x, t.runs (.hub x) = false) ∧ t.mem = s.mem ∧ t.kettle.railsOn = k.railsOn
    let resets := fun (code : Nat) (t : State) => resets' code t ∧ t.chest = s.chest
    let chestKept := fun (also : List (Nat × Word)) (t : State) => ∀ l, t.chestAt l = s.chestAt l ∨
      (l, t.chestAt l) ∈ s.tally.save ++ s.kernel.chestQ ++ s.core2.chestQ ++ s.core3.chestQ ++ also ∨
      KwStep.write l (t.chestAt l) ∈ s.keywell.steps ∨ s.bell.resvDue = true ∧ l = 0x0208
    let frees := fun (h : HoldCause) (t : State) => t = { s with kettle := { k with holds := t.kettle.holds } } ∧
      ∀ x, x ∈ t.kettle.holds ↔ x ∈ k.holds ∧ x ≠ h
    let reports := fun (code index : Nat) (t : State) => t.get Fld.kettleFaultCode = code ∧ t.get Fld.kettleFaultIndex = index
    let pfw := s.getB Fld.kettleStatePfw = true
    (HoldCause.rails ∈ k.holds → k.seq = [] → k.retry = false → k.device = .none → Gives .powerSequenceStart s fun t => due t ∧
      t = { s with kettle := { k with seq := t.kettle.seq, offList := t.kettle.offList } }) ∧
    (HoldCause.rails ∉ k.holds → same .powerSequenceStart) ∧
    (k.seq = [] → same .railPowerGood ∧ same .railStepTimeout) ∧
    (k.seq = n :: rest → 1 ≤ n → n ≤ 7 →
      Gives .railPowerGood s (fun t => t.kettle.seq = rest ∧ (HoldCause.rails ∈ t.kettle.holds ↔ HoldCause.rails ∈ k.holds ∧ rest ≠ []) ∧
        (∀ m, m < 9 → t.kettle.railsOn.getLsbD m = (decide (m = n + 1) || k.railsOn.getLsbD m)) ∧
        t = { s with kettle := { k with seq := rest, railsOn := t.kettle.railsOn, holds := t.kettle.holds } }) ∧
      Gives .railStepTimeout s fun t => reports 0x3C06 (n + 1) t ∧ t.kettle.seq = [] ∧ t.kettle.retry = true ∧ t.kettle.holds = k.holds ∧
        t.kettle.offList.Pairwise (· > ·) ∧ ∃ top, 2 ≤ top ∧ top ≤ 8 ∧
          (∀ m, top ≤ m → m ≤ 8 → t.kettle.railsOn.getLsbD m = false) ∧ (∀ m, top < m → m ≤ 8 → k.railsOn.getLsbD m = false) ∧
          ∀ m, m ∈ t.kettle.offList ↔ 2 ≤ m ∧ m < top ∧ (m = n + 1 ∨ k.railsOn.getLsbD m = true)) ∧
    (k.retry = false → same .sequenceRetry) ∧
    (k.retry = true → someOff → Gives .sequenceRetry s fun t => due t ∧ t.kettle.retry = false ∧ HoldCause.rails ∈ t.kettle.holds) ∧
    (k.offList = [] → same .railOffStep) ∧
    (k.offList = n :: rest → n < 9 → Gives .railOffStep s fun t =>
      t = { s with kettle := { k with offList := rest, railsOn := t.kettle.railsOn } } ∧
      ∀ m, m < 9 → t.kettle.railsOn.getLsbD m = (decide (m ≠ n) && k.railsOn.getLsbD m)) ∧
    (∀ i ∈ [Instr.pmbusPoll polls, Instr.pmalert polls], 2 ≤ j → j ≤ 8 → k.railsOn.getLsbD j = true → ∀ p, polls[j - 2]? = some p →
      Gives i s (fun t => Map.getD t.kettle.missed j 0 = if p.ack then 0 else Map.getD k.missed j 0 + 1) ∧
      ((∀ (m : Nat) (q : RailPoll), m ≠ j - 2 → polls[m]? = some q → q = ⟨true, false⟩) →
        (p = ⟨true, false⟩ → Gives i s fun t => t.cw = s.cw) ∧ (p = ⟨true, true⟩ → Gives i s (reports 0x3C83 j)) ∧
        (p.ack = false → Map.getD k.missed j 0 = 2 → Gives i s (reports 0x3C87 j)))) ∧
    ((∀ x ∈ codes, x = none) → same (.avsRead codes)) ∧
    (codes[j]? = some (some c) → c < 1024 → j < 32 → (∀ (m x : Nat), codes[m]? = some (some x) → c < x ∨ c = x ∧ j ≤ m) →
      let mv0 := s.get Fld.kettleVcoreMv
      let lo := s.get Fld.kettleAvsPmMin
      let hi := s.get Fld.kettleAvsPmTgt + 16
      let now := (s.reachUs (match k.grantUs with
        | some t0 => t0 + 50
        | none => 0)).isSome
      let gives := fun (P : State → Prop) => Gives (.avsRead codes) s fun t => t.get Fld.kettlePmonMin = c ∧ t.get Fld.kettlePmonIndex = j ∧ P t
      let vcore := fun (m : Nat) (t : State) => t.get Fld.kettleVcoreMv = m
      let stays := fun (t : State) => t.get Fld.kettleStateAvslim = 0 ∧ t.get Fld.kettleStateThrottle = k.thermThrottle.toNat
      (s.getB Fld.kettleAvsEn = false → gives fun t => vcore 850 t ∧ stays t) ∧
      (s.getB Fld.kettleAvsEn = true → (c < lo → mv0 < 850 → gives fun t => vcore (if now then min 850 (mv0 + 10) else mv0) t ∧ t.kettle.avsHigh = 0) ∧
        (c < lo → 850 ≤ mv0 → s.getB Fld.kettleStateAvslim = false → gives fun t => vcore mv0 t ∧ reports 0x3C84 0 t ∧
          t.get Fld.kettleStateAvslim = 1 ∧ t.get Fld.kettleStateThrottle = 1) ∧
        (lo ≤ c → c ≤ hi → gives fun t => vcore mv0 t ∧ stays t ∧ t.kettle.avsHigh = 0) ∧
        (lo ≤ c → hi < c → k.avsHigh < 9 ∨ pfw → gives fun t => vcore mv0 t ∧ stays t ∧ t.kettle.avsHigh = k.avsHigh + 1) ∧
        (lo ≤ c → hi < c → k.avsHigh = 9 → ¬ pfw → mv0 ≤ 850 → gives fun t => vcore (if now then max 650 (mv0 - 5) else mv0) t ∧ stays t ∧ t.kettle.avsHigh = 0))) ∧
    Gives .refclkLost s (fun t => resets' 0x3C04 t ∧ chestKept [] t ∧ HoldCause.refclk ∈ t.kettle.holds) ∧ Gives .refclkValid s (frees .refclk) ∧
    Gives .pllUnlock s (resets 0x3C03) ∧
    (let far := fun (sec : Nat) => s.site.total + sec * 1000000000 ≤ s.wakeTime * 1000000000
     let calm := s.get Fld.claimStateStage = 0 ∧ s.getB Fld.tallyStateRunning = false ∧ s.keywell.steps = [] ∧ s.boot.reqs = [] ∧ ¬ pfw
     let entry := s.getB Fld.kettleResumehiValid = true ∧ inGranary s.resumeAddr 4 = true
     let depth := s.get Fld.kettleSleepcfgDepth
     let wants := fun (d : DeviceSleep) => match d with
       | .anchor => (depth = 0 ∨ depth = 2) ∧ far 120
       | .rest => (depth = 0 ∧ ¬ far 120 ∨ depth = 1) ∧ far 2
       | .none => False
     (∀ d, calm → wants d → (d = .rest → entry) → Gives .sleep s fun t => t.get Fld.kettleCauseCode = 0x3C88 ∧ t.get Fld.bootCauseCause = 4 ∧
       t.get Fld.kettleStateDevice = 1 ∧ t.kettle.device = d ∧ t.kettle.wakeAt = s.wakeTime ∧ t.kettle.resume = s.resumeAddr ∧ t.site = s.site ∧
       HoldCause.sleep ∈ t.kettle.holds ∧ t.chest = s.chest ∧ (∀ x, t.runs (.hub x) = false) ∧ (d = .rest → t.mem = s.mem) ∧
       (d = .anchor → ∀ x, x ∈ t.mem ↔ x ∈ s.mem ∧ regionOf x.1 = .flash)) ∧
     (¬ calm ∨ (∀ d, ¬ wants d) ∨ wants .rest ∧ ¬ entry → Gives .sleep s fun t => reports 0x3C02 0 t ∧ t.kettle = k ∧ t.mem = s.mem ∧
       t.site = s.site)) ∧
    (let wakes := fun (t : State) => t.get Fld.kettleStateDevice = 0 ∧ t.get Fld.timeStateAnchored = 1 ∧ t.kettle.offList = [] ∧
       (k.seq = [] → due t) ∧ (someOff → HoldCause.rails ∈ t.kettle.holds) ∧ HoldCause.sleep ∉ t.kettle.holds ∧ t.kettle.device = k.device ∧
       t.mem = s.mem ∧ t.chest = s.chest
     (k.device = .none ∨ HoldCause.sleep ∉ k.holds → same .deviceWake ∧ same (.wakeGpio pin)) ∧
     (bitOf k.wakePins pin.val = false → same (.wakeGpio pin)) ∧
     (k.device ≠ .none → HoldCause.sleep ∈ k.holds →
       (1 ≤ k.wakeAt → Gives .deviceWake s fun t => wakes t ∧
         t.site.total + (if k.device = .rest then 5000000 else 200000000) = k.wakeAt * 1000000000) ∧
       (bitOf k.wakePins pin.val = true → Gives (.wakeGpio pin) s fun t => wakes t ∧ ∃ ps : Nat, t.site = s.site.addPs ps))) ∧
    (temps[j]? = some v → j < 16 → (∀ (m : Nat) (x : BitVec 16), temps[m]? = some x → x.toInt < v.toInt ∨ x.toInt = v.toInt ∧ j ≤ m) →
      let m := v.toInt
      let at' := fun (was : Bool) (deg : Nat) => decide ((deg : Int) * 16 - (if was then 80 else 0) ≤ m)
      let w := at' k.thermWarn (s.get Fld.kettleThermWarnC)
      let r := at' k.thermThrottle (s.get Fld.kettleThermThrC)
      let x := at' k.critHold (s.get Fld.kettleThermCritC)
      let limit : Int := if s.getB Fld.sysIdentGrade then 2160 else 1920
      let gives := fun (P : State → Prop) => Gives (.thermalSample temps) s fun t => t.get Fld.kettleTmaxTemp = v.toNat ∧ t.get Fld.kettleTmaxSensor = j ∧
        (∀ i : Fin 8, t.get Fld.kettleTempTempLo i = (temps.getD (2 * i) 0).toNat ∧ t.get Fld.kettleTempTempHi i = (temps.getD (2 * i + 1) 0).toNat) ∧ P t
      (limit ≤ m → gives fun t => HoldCause.temperature ∈ t.kettle.holds ∧ (k.inReset = false → resets 0x3C08 t)) ∧
      (m < limit → gives fun t => t.kettle.thermWarn = w ∧ t.kettle.thermThrottle = r ∧ t.kettle.critHold = x ∧
        t.getB Fld.kettleStateThrottle = (r || s.getB Fld.kettleStateAvslim) ∧
        (m < (s.get Fld.kettleThermWarnC : Int) * 16 → HoldCause.temperature ∉ t.kettle.holds) ∧
        (x = true → k.critHold = false → reports 0x3C07 j t) ∧
        (x = k.critHold → r = true → k.thermThrottle = false → reports 0x3C82 j t) ∧
        (x = k.critHold → r = k.thermThrottle → w = true → k.thermWarn = false → reports 0x3C81 j t))) ∧
    (let due := s.reachUs (1000 * s.get Fld.kettleCritholdMs + k.critUs)
     (k.critHold = false ∨ due = none → same .critHoldExpire) ∧ (∀ u, k.critHold = true → due = some u → Gives .critHoldExpire s (resets 0x3C07))) ∧
    (let nominal := fun (i : Nat) => if i = 5 then s.get Fld.kettleVcoreMv else [800, 3300, 1800, 1800, 800, 850, 850, 1050, 500].getD i 0
     let off := fun (i pm : Nat) => i < 9 ∧ k.railsOn.getLsbD i = true ∧ ∃ u, mv[i]? = some u ∧
       (u * 1000 < nominal i * (1000 - pm) ∨ nominal i * (1000 + pm) < u * 1000)
     let count := Map.getD k.railOut j 0
     (∀ u, j < 9 → k.railsOn.getLsbD j = true → mv[j]? = some u → (∀ i, ¬ off i 60) → Gives (.railSample mv) s fun t =>
       t.get Fld.kettleVmonMv j = u % 65536 ∧ (¬ off j 30 → t.get Fld.kettleVmonWarn j = 0 ∧ Map.getD t.kettle.railOut j 0 = 0) ∧
       (off j 30 → Map.getD t.kettle.railOut j 0 = count + 1 ∧ (count ≠ 9 → t.get Fld.kettleVmonWarn j = s.get Fld.kettleVmonWarn j) ∧
         (count = 9 → t.get Fld.kettleVmonWarn j = 1 ∧ Map.find t.lastCode 0x3C = some 0x3C83)) ∧
       (¬ off 0 30 → ¬ off 1 30 → HoldCause.band ∉ t.kettle.holds)) ∧
     ((∃ i, off i 60) → k.inReset = false → Gives (.railSample mv) s fun t => resets 0x3C06 t ∧
       (off 0 60 ∨ off 1 60 → HoldCause.band ∈ t.kettle.holds) ∧
       (¬ off 0 60 → ¬ off 1 60 → HoldCause.rails ∈ t.kettle.holds ∧ t.kettle.seq = [1, 2, 3, 4, 5, 6, 7]))) ∧
    (let on := s.getB Fld.kettlePfwPinEn = true ∨ s.getB Fld.kettlePfwSenseEn = true
     (pfw ∨ ¬ on → same .pfwAssert) ∧
     (¬ pfw → on → Gives .pfwAssert s fun t => t.kettle.pfwUs = s.us ∧ t.get Fld.kettleStatePfw = 1 ∧ reports 0x3C86 0 t ∧ t.keywell = { s.keywell with stopped := true } ∧
       (∀ x, (t.core x).chestQ = [] ∧ (t.core x).chestLost = ((s.core x).chestLost || !(s.core x).chestQ.isEmpty) ∧ (t.core x).run = (s.core x).run ∧ (t.core x).pc = (s.core x).pc) ∧
       (s.getB Fld.tallyStateRunning = true → s.tally.flush = [] → t.tally.save = [] ∧ t.get Fld.tallyStateSaving = 0 ∧ t.tally.flush ≠ []) ∧
       (s.getB Fld.tallyStateRunning = false → t.tally = s.tally ∧ t.chest = s.chest)) ∧
     (¬ pfw → same .pfwRelease ∧ same .pfwReset ∧ Gives .pfwResetHoldEnd s (frees .pfw)) ∧
     (pfw → s.tally.stopping = false → Gives .pfwRelease s (SetsWords s [(Fld.kettleStatePfw, 0, 0)])) ∧
     (pfw → same .pfwResetHoldEnd) ∧ (pfw → s.reachUs (k.pfwUs + s.get Fld.kettlePfwPfwResetUs) = none → same .pfwReset) ∧
     (∀ u, pfw → s.reachUs (k.pfwUs + s.get Fld.kettlePfwPfwResetUs) = some u → Gives .pfwReset s fun t => resets 0x3C09 t ∧ t.get Fld.kettleStatePfw = 1 ∧ HoldCause.pfw ∈ t.kettle.holds)) ∧
    Gives .powerLoss s fun t => t.get Fld.kettleCauseCode = 0 ∧ t.kettle.railsOn = 0 ∧ t.kettle.holds = [.rails] ∧ (∀ x, t.runs (.hub x) = false) ∧
      (∀ x, x ∈ t.mem ↔ x ∈ s.mem ∧ regionOf x.1 = .flash) ∧
      chestKept s.tally.flush t

/-- ISLAND_GRANT, ISLAND_READY, ISLAND_FAILED, ISLFAIL_CLEAR, ISLAND_SLEEP, ISLAND_WAKE, DEMAND_WAKE, SCRUB_PASS_COMPLETE, SCRUB_LATE and
SCRUB_BANK_WAKE complete (19 R448-R454, R457; 01 R39): the island queue grants in order, an island becomes ready or fails, an idle one
outside its windows goes to the state that the gap to its next event allows, and is woken before that event; a scrub pass ends, is late, or
needs a bank awake. -/
def Obligations.IslandsAndScrub : Prop :=
  ∀ (s : State) (i : Island) (b : Fin 16) (us : Nat) (rest : List Island),
    let k := s.kettle
    let same := fun (c : Instr) => Gives c s fun t => t = s
    let pfw := s.getB Fld.kettleStatePfw = true
    let nap := fun (t : State) => bitOf (t.get (islandNapBit i).1) (islandNapBit i).2
    let failed := fun (t : State) => bitOf (t.get (islandFailBit i).1) (islandFailBit i).2
    let sleeps := fun (v : IslandSleep) (t : State) => t.sleepOf i = v ∧ nap t = decide (v = .nap) ∧ ∀ x, x ≠ i → t.sleepOf x = s.sleepOf x
    let only := fun (v : IslandSleep) (t : State) => t = { s with cw := t.cw, kettle := { k with sleep := t.kettle.sleep, wakeUs := t.kettle.wakeUs } } ∧
      ∀ g, s.calGap i = some g → Map.find t.kettle.wakeUs (islandKey i) = some (s.us + g - (if v = .nap then 60 else 2) - s.get Fld.kettleNapLeadUs)
    let o := s.get Fld.sysPhaseOffsetUs
    let group := match i with
      | .engine n => some (1, n.val)
      | .bank m => some (2, m.val)
      | _ => none
    let names := fun (w : Nat) => w < 8 ∧ ∃ g, group = some g ∧ s.get Fld.kettleCalbGroup w = g.1 ∧ bitOf (s.get Fld.kettleCalbMask w) g.2 = true
    let inside := ∃ w, names w ∧ s.get Fld.kettleCalaStartUs w ≤ o ∧ o < s.get Fld.kettleCalaEndUs w
    let gap := fun (n : Nat) => ∀ w, names w →
      n ≤ if o < s.get Fld.kettleCalaStartUs w then s.get Fld.kettleCalaStartUs w - o else s.get Fld.kettleCalaStartUs w + 10000 - o
    let lead := s.get Fld.kettleNapLeadUs
    let isEngine := ∃ n, i = .engine n
    let be := s.get (match i with
      | .engine _ => Fld.kettleBeBeMillUs
      | _ => Fld.kettleBeBeBankUs)
    let enabled := s.getB (match i with
      | .engine _ => Fld.kettleNapNapMill
      | _ => Fld.kettleNapNapBank) = true ∧ s.sysRunning = true
    let idle := match i with
      | .engine n => (s.node n.val).run = .taking ∧ s.nextItem = none
      | .bank m => m.val ∉ k.scrubHold
      | _ => False
    let kept := ∃ u, Map.find k.keepUntil (islandKey i) = some u ∧ s.us < u
    let parked := ∃ n, i = .engine n ∧ s.getB Fld.kettleStateThrottle = true ∧ s.get Fld.kettleThermKeep ≤ n.val ∧ bitOf (s.get Fld.millEnableEnable) n.val = true ∧
      (s.node n.val).run = .taking
    let naps := (s.get Fld.kettleCntNaps + 1) % 65536
    (k.islandQ = [] → same .islandGrant) ∧
    (k.islandQ = i :: rest → (pfw ∨ s.reachUs s.grantDue = none → same .islandGrant) ∧
      (∀ u, ¬ pfw → s.reachUs s.grantDue = some u → Gives .islandGrant s fun t => t = { u with kettle := { k with
        islandQ := rest, granted := k.granted ++ [i], grantUs := some u.us, grantedUs := Map.put k.grantedUs (islandKey i) u.us } })) ∧
    (i ∉ k.granted → same (.islandReady i)) ∧
    (i ∈ k.granted → Gives (.islandReady i) s fun t => t.islandOn i = true ∧ sleeps .awake t ∧ t.kettle.islandQ = k.islandQ ∧
      (∀ x, x ∈ t.kettle.granted ↔ x ∈ k.granted ∧ x ≠ i) ∧ (∀ x, x ≠ i → t.islandOn x = s.islandOn x) ∧ t.mem = s.mem) ∧
    (let due := if i ∈ k.granted then s.reachUs (50 + Map.getD k.grantedUs (islandKey i) 0) else if s.sleepOf i = .nap then some s else none
     (due = none → same (.islandFailed i)) ∧
     ∀ u, due = some u → Gives (.islandFailed i) s fun t => t.islandOn i = false ∧ failed t = true ∧ i ∉ t.kettle.granted ∧
      t.get Fld.kettleFaultCode = 0x3C05 ∧ t.get Fld.kettleFaultIndex = islandKey i ∧ match i with
        | .engine n => bitOf (t.get Fld.millEngfailFail) n.val = true
        | .quad q => bitOf (t.get Fld.correlStateRun) q.val = false
        | .bank _ => t.mem = s.mem
        | .serdes l => if l.val < 4 then t.get Fld.netStatePort l.val = 3 else t.get Fld.plinkStateLink = 0) ∧
    (failed s = false → same (.islfailClear i)) ∧
    (failed s = true → Gives (.islfailClear i) s fun t => failed t = false ∧ t.islandOn i = s.islandOn i ∧
      (s.islandOn i = false → i ∉ k.islandQ → i ∉ k.granted → t.kettle = { k with islandQ := k.islandQ ++ [i] })) ∧
    (s.islandAwake i = false ∨ pfw ∨ kept → same (.islandSleep i)) ∧
    (s.islandAwake i = true → ¬ pfw → ¬ kept →
      (parked → Gives (.islandSleep i) s fun t => sleeps .nap t ∧ only .nap t ∧ t.get Fld.kettleCntNaps = naps) ∧
      (¬ parked → ¬ idle ∨ inside → same (.islandSleep i)) ∧
      (¬ parked → idle → ¬ inside →
        (enabled → gap be → gap (60 + lead) → Gives (.islandSleep i) s fun t => sleeps .nap t ∧ only .nap t ∧ t.get Fld.kettleCntNaps = naps) ∧
        (¬ (enabled ∧ gap be ∧ gap (60 + lead)) → gap 10 → gap (2 + lead) → Gives (.islandSleep i) s fun t => sleeps .doze t ∧ only .doze t ∧
          t.get Fld.kettleCntNaps = s.get Fld.kettleCntNaps) ∧
        (¬ (enabled ∧ gap be ∧ gap (60 + lead)) → ¬ (gap 10 ∧ gap (2 + lead)) → same (.islandSleep i)))) ∧
    (s.sleepOf i = .awake → same (.islandWake i) ∧ same (.demandWake i)) ∧
    (Map.find k.wakeUs (islandKey i) = none → same (.islandWake i)) ∧
    (∀ w u, s.sleepOf i ≠ .awake → Map.find k.wakeUs (islandKey i) = some w →
      s.reachUs (w - if s.getB Fld.timeStateStepPending then 1000 else 0) = some u → Gives (.islandWake i) s fun t => sleeps .awake t ∧
        t = { u with cw := t.cw, kettle := { k with sleep := t.kettle.sleep } }) ∧
    (s.sleepOf i ≠ .awake → (∃ m, i = .bank m) ∨ (∃ n, i = .engine n ∧ s.engineWanted n.val = true) → Gives (.demandWake i) s fun t =>
      sleeps .awake t ∧ t.get Fld.kettleCntDemand = (s.get Fld.kettleCntDemand + 1) % 65536 ∧
      Map.find t.kettle.keepUntil (islandKey i) = some (s.us + if s.sleepOf i = .nap then be else 10) ∧
      (Map.find s.warned (0x3C85 * 65536) = none → t.get Fld.kettleFaultCode = 0x3C85 ∧ t.get Fld.kettleFaultIndex = islandKey i)) ∧
    (s.sleepOf i ≠ .awake → isEngine → (∀ n, i = .engine n → s.engineWanted n.val = false) → same (.demandWake i)) ∧
    (s.oneBit = [] → s.poisoned = [] → Gives (.scrubPassComplete us) s fun t => t = { s with cw := t.cw, kettle := { k with scrubHold := [] } }) ∧
    Gives (.scrubPassComplete us) s (fun t => t.kettle.scrubHold = [] ∧ t.mem = s.mem ∧ (∀ w, w ∈ t.oneBit → w ∈ s.oneBit) ∧
      (∀ w ∈ s.poisoned, w * 8 < 0x4000000 → s.bankOff (w * 8) 8 = false → s.sleepOf (.bank (Fin.ofNat 16 (w / 0x80000))) = .awake →
        t.get Fld.granaryEccUncorr = 1) ∧
      (∀ w ∈ s.oneBit, s.bankOff (w * 8) 8 = false → s.sleepOf (.bank (Fin.ofNat 16 (w / 0x80000))) = .awake → w ∉ t.oneBit) ∧
      t.get Fld.granaryScrubLastPassUs = min 0xFFFFFF us ∧ t.get Fld.granaryScrubPasses = (s.get Fld.granaryScrubPasses + 1) % 256) ∧
    Gives (.scrubLate b) s (fun t => t.get Fld.granaryEccLate = 1 ∧ Map.find t.lastCode 8 = some 0x0802 ∧ t.mem = s.mem ∧ t.kettle = k) ∧
    Gives (.scrubBankWake b) s (fun t => t.sleepOf (.bank b) = .awake ∧ (∀ x, x ∈ t.kettle.scrubHold ↔ x = b.val ∨ x ∈ k.scrubHold) ∧
      ∀ x, x ≠ .bank b → t.sleepOf x = s.sleepOf x)

/-! ### The fleet cycle and the control words -/

/-- CYCLE_BOUNDARY, INGEST_CLOSE, FREEZE, RELEASE_PHASE_START, GATE_DEADLINE and SITE_TIME_STEP complete (00 R19; 01 R28-R35; 12 R308;
15 R376): the boundary, the three phase starts and what each does, the gate deadline, and the step at the end of a cycle that ends at a whole
second, or at any whole second before cycles run. -/
def Obligations.FleetCyclePhases : Prop :=
  ∀ (s : State) (late : BitVec 4) (discards : List Nat) (k : Fin 7) (c : Core) (n : Fin 4),
    let off := s.get Fld.sysPhaseOffsetUs
    let running := s.sysRunning = true
    let opened := s.gateOpen = true
    let phase := fun (p : Nat) (t : State) => t.get Fld.sysPhasePhase = p ∧ (t.core c).ipend.getLsbD p = true
    let box := fun (t : State) => t.mbox (8 + k)
    let held := (s.mbox (8 + k)).msgs.countP (·.held)
    let starts := fun (p at' : Nat) (t : State) => phase p t ∧ t.get Fld.sysPhaseOffsetUs = max at' off % 16384 ∧
      t.site = (s.moveTo at').site ∧ t.cycle = s.cycle
    let x := s.stepPart
    let left := ∃ p ∈ s.mill.items, (p.2.cls = 1 ∨ p.2.cls = 2) ∧ (p.2.run = .ready ∨ p.2.run = .service) ∧ p.2.cycle = s.cycle
    let same := fun (i : Instr) => Gives i s fun t => t = s
    Gives (.cycleBoundary late discards) s (fun t => phase 0 t ∧ t.get Fld.sysPhaseOffsetUs = 0 ∧ t.get Fld.sysReleaseGate = 0 ∧
      t.get Fld.sysReleaseAckUs = 0xFFFF ∧ t.stepping = false ∧ t.radio.gatePrev = s.gateOpen ∧
      t.site = s.toBoundary.site ∧ t.cyclePs = t.site.ps / 10000000000 * 10000000000 ∧ t.cycleRoots = s.toBoundary.roots ∧
      (running → t.cycle = nextCycle s.cycle) ∧
      (∀ y ∈ (box t).msgs, y.held = false) ∧
      (opened → (box t).put = ((s.mbox (8 + k)).put + held) % 2 ^ 32 ∨ held = 0) ∧
      (¬ opened → (box t).msgs = (s.mbox (8 + k)).msgs.filter fun y => !y.held)) ∧
    Gives .ingestClose s (fun t => starts 1 2000 t ∧ (t.rimg n).acks = [] ∧ (t.rimg n).acksDue = (s.rimg n).acksDue ++ (s.rimg n).acks ∧
      (let opens := s.get Fld.reeveStateState = 3 ∧ s.pair ≠ 1 ∧ s.pair ≠ 4 ∧ s.pair ≠ 5
       (opens → t.reeve.window = true) ∧ (¬ opens → t.reeve = s.reeve))) ∧
    Gives .freeze s (fun t => starts 2 6000 t ∧ t.reeve = { s.reeve with window := false } ∧
      (left → s.overrunRaised = false → t.get Fld.sysCountOverrun = (s.get Fld.sysCountOverrun + 1) % 65536 ∧
        Map.find t.lastCode 1 = some 0x0181 ∧ t.overrunRaised = true) ∧
      (¬ left ∨ s.overrunRaised = true → t.get Fld.sysCountOverrun = s.get Fld.sysCountOverrun) ∧
      (s.mill.cutting = true → s.mill.cutLate = false → Map.find t.lastCode 0x10 = some 0x1007 ∧ t.get Fld.millCutLastvalid = 0) ∧
      (s.pair ≠ 3 → t.decant = s.decant)) ∧
    (s.boot.restart = none → Gives .releasePhaseStart s fun t => starts 3 8000 t ∧ t.decant.frozen = [] ∧ t.decant.stalled = [] ∧ t.pair = s.pair ∧
      (s.solo = true → running → t.gateOpen = true ∧ (¬ opened → t.get Fld.sysLastrelCycle = s.cycle ∧ (t.core c).ipend.getLsbD 4 = true)) ∧
      (s.solo = false ∨ ¬ running → t.gateOpen = s.gateOpen ∧ t.get Fld.sysLastrelCycle = s.get Fld.sysLastrelCycle)) ∧
    (let counts := running ∧ (s.pair = 0 ∨ s.pair = 2 ∨ s.pair = 3) ∧ ¬ opened
     Gives .gateDeadline s fun t => t.cycle = s.cycle ∧ t.gateOpen = s.gateOpen ∧
      t.get Fld.sysPhaseOffsetUs = max (9900 - s.cycleStep / 1000000).toNat off % 16384 ∧
      (counts → t.get Fld.sysReleaseWithheld = 1 ∧ t.get Fld.sysCountWithheld = (s.get Fld.sysCountWithheld + 1) % 65536 ∧
        Map.find t.lastCode 1 = some 0x0101 ∧ (t.core c).ipend.getLsbD 5 = true ∧
        t.pairing.withheld = s.pairing.withheld + if s.pair = 3 then 1 else 0) ∧
      (¬ counts → t.get Fld.sysCountWithheld = s.get Fld.sysCountWithheld ∧ t.get Fld.sysReleaseWithheld = s.get Fld.sysReleaseWithheld ∧
        t.lastCode = s.lastCode ∧ t.pairing = s.pairing)) ∧
    (x = 0 ∨ s.stepping = true ∨ running ∧ s.endsSecond = false → same .siteTimeStep) ∧
    (x ≠ 0 → s.stepping = false → ¬ running ∨ s.endsSecond = true → Gives .siteTimeStep s fun t => t.servo.step = s.servo.step - x ∧
      t.stepping = true ∧ t.get Fld.timeStateStepseq = (s.get Fld.timeStateStepseq + 1) % 256 ∧
      (¬ running → t.servo.step = 0 ∧ (let sec := (s.site.ps + x.toNat + 999999999999) / 1000000000000 * 1000000000000
        t.site = (s.pass (s.clocksTo (rawOfPs (sec - x.toNat)))).site.addPs x) ∧
        t.cycle = if 0 < x then unsigned 32 ((t.siteCycle : Int) - 1) else t.siteCycle) ∧
      (running → t.cycle = s.cycle ∧ t.cyclePs = s.cyclePs ∧
        t.site = (s.passInCycle (s.clocksTo (rawOfPs (s.boundaryPs - x.toNat)))).site.addPs x))

/-- CWR, CWRL, CWRX, CWRLX, CWS, CWSX, CW_WRITE, CWAPPLY, CWWAIT, CWSTAT, CWOWN, CWDISOWN and APPLY_AT_BOUNDARY complete (00 R7-R14; 02 R43,
R54-R57, R64): the kernel-only blocks; reads of the staged and live sets, writes with what they stage, clear and trigger, ownership, apply
requests with their numbers, waiting for one, the state of a block's applies, and the applies themselves. -/
def Obligations.ControlWordAccess : Prop :=
  ∀ (s : State) (c : Core) (d a r : Reg) (b : BitVec 8) (x : BitVec 12) (w : Word32),
    let k := Engine.hub c
    let ready := s.runs k = true ∧ s.top c = true
    let ra := (s.rg k a).toNat
    let rr := (s.rg k r).toNat
    let named := bits ra 12 8 = b.toNat ∧ bits ra 0 12 = x.toNat
    let byReg := ra % 256 = b.toNat
    let same := fun (i : Instr) => Gives i s fun t => t = s
    let quiet := (s.core c).status.getLsbD 2 = false
    let next := (s.core c).pc + 4
    let known := blockKnown b.toNat = true
    let implemented := known ∧ wordExists b.toNat x.toNat = true
    let allowed := kernelOnly b.toNat = true → c = .kernel
    let own := s.ownerOf b.toNat = some c
    let fs := fieldsAt b.toNat x.toNat
    let fixed := fun (v : Nat) => ∃ p ∈ fs, (p.1.acc = .L ∨ p.1.acc = .N) ∧ bits v (p.1.bit p.2.1) p.1.width ≠ 0
    let ends := fun (code : Nat) (u t : State) => Enters u c next (if code = 0x0202 then 2 else 6) code 0 0 t
    let zero := fun (u : State) => ∃ g, u = s.setCore c { s.core c with g := g } ∧ ∀ y, regRead g y = if y = d then 0 else regRead (s.core c).g y
    let faults0 := fun (i : Instr) (code : Nat) => Gives i s fun t => ∃ u, zero u ∧ ends code u t
    let staged := fun (v : Nat) (u : State) => u = { s with cw := { s.cw with staged := u.cw.staged } } ∧
      (∀ f i j, (∀ p ∈ fs, f.key i j ≠ p.1.key p.2.1 p.2.2) → u.getStaged f i j = s.getStaged f i j) ∧
      (b = 0x3C → x = 0x010 → u.getStaged Fld.kettleNapNapMill = v % 2 ∧ u.getStaged Fld.kettleNapNapBank = v / 2 % 2 ∧
        u.getStaged Fld.kettleNapLeadUs = v / 256 % 256)
    let plain := (∀ p ∈ fs, p.1.acc = .S) ∧ b.toNat ≠ Blk.loop ∧ b.toNat ≠ Blk.axis
    let ap := s.appliesOf b.toNat
    let num := (ap.done + 1) % 65536
    let asked := if (b = 0x38 ∨ b = 0x39) ∧ 5990 < s.get Fld.sysPhaseOffsetUs then nextCycle s.cycle else s.cycle
    (kernelOnly b.toNat = true ↔ b ∈ ([0x01, 0x02, 0x0A, 0x0C, 0x24, 0x2C, 0x2D, 0x2E, 0x34, 0x3C, 0x3F] : List (BitVec 8))) ∧
    (∀ p : Instr × Bool, p ∈ [(.cwr (.hub c) d b x, false), (.cwrl (.hub c) d b x, true)] ∨ named ∧ p ∈ [(.cwrx (.hub c) d a, false), (.cwrlx (.hub c) d a, true)] → ready →
      (implemented → Gives p.1 s fun t => ∃ u, u = { s with cw := { s.cw with pres := u.cw.pres } } ∧
        (b.toNat ∉ [Blk.hub, Blk.keywell, Blk.boot] → u = s) ∧ Answers (u.causeRead c b.toNat x.toNat) k d (BitVec.ofNat 64 (u.readWord b.toNat x.toNat p.2)) t) ∧
      (b = 0x3C → x = 0x010 → let rd := fun (f : Fld) => if p.2 then s.get f else s.getStaged f
        Gives p.1 s (Answers s k d (BitVec.ofNat 64
          (rd Fld.kettleNapNapMill + 2 * rd Fld.kettleNapNapBank + 256 * rd Fld.kettleNapLeadUs)))) ∧
      (¬ implemented → quiet → faults0 p.1 0x0201)) ∧
    (∀ p : Instr × Nat, p = (.cws (.hub c) r b x, rr % 2 ^ 32) ∨ named ∧ p = (.cwsx (.hub c) a r, rr % 2 ^ 32) → ready →
      (implemented → allowed → own → ¬ fixed p.2 → plain → Gives p.1 s fun t => ∃ u, staged p.2 u ∧ GoesOn u k t) ∧
      (quiet → (¬ known → Gives p.1 s (ends 0x0201 s)) ∧ (known → ¬ allowed → Gives p.1 s (ends 0x0202 s)) ∧
        (known → allowed → ¬ own → Gives p.1 s (ends 0x0203 s)) ∧
        (known → allowed → own → ¬ implemented ∨ fixed p.2 → Gives p.1 s (ends 0x0201 s)))) ∧
    (implemented → allowed → own → ¬ fixed w.toNat → plain → Gives (.cwWrite c b x w) s (staged w.toNat)) ∧
    (¬ implemented ∨ ¬ allowed ∨ ¬ own ∨ fixed w.toNat → same (.cwWrite c b x w)) ∧
    (s.ownerOf 1 = some .kernel → Gives (.cwWrite .kernel 1 3 4) s (SetsWords (s.unpendAll 5) [(Fld.sysReleaseWithheld, 0, 0)])) ∧
    (∀ p : BitVec 8 × Word32 × Instr, p ∈ [(0x3C, 1, .sleep), (0x31, 2, .timeSnap), (0x10, 1, .millRun), (0x14, 1, .reeveRun), (0x3A, 1, .tallyRun),
        (0x3A, 8, .tallySnap), (0x38, 1, .loopRun), (0x39, 1, .axisRun), (0x24, 1, .bellRun), (0x2E, 1, .plinkRun)] →
      s.ownerOf p.1.toNat = some .kernel → exec (.cwWrite .kernel p.1 0 p.2.1) s = exec p.2.2 s) ∧
    (byReg → ready → (¬ known → quiet → faults0 (.cwapply (.hub c) d a) 0x0201) ∧ (known → ¬ allowed → quiet → faults0 (.cwapply (.hub c) d a) 0x0202) ∧
      (known → allowed → ¬ own → quiet → faults0 (.cwapply (.hub c) d a) 0x0203) ∧
      (known → allowed → own → Gives (.cwapply (.hub c) d a) s fun t => ∃ u, Answers u k d (BitVec.ofNat 64 num) t ∧
        (ap.pending.isSome = true → u = s) ∧ (ap.pending = none → u = s.setApplies b.toNat { ap with pending := some asked }))) ∧
    (byReg → s.runsOr k (.cwwait (.hub c) d a r) = true → s.top c = true → let want := rr % 65536
      let answer := fun (v : Nat) => Gives (.cwwait (.hub c) d a r) s (Answers (s.unpend c 63) k d (BitVec.ofNat 64 (want * 65536 + v)))
      (¬ known → quiet → faults0 (.cwwait (.hub c) d a r) 0x0201) ∧
      (known → (want = num → Gives (.cwwait (.hub c) d a r) s (Waits s k (.cwwait (.hub c) d a r))) ∧
        (want ≠ num → (∀ v, (ap.results.find? fun p => p.1 = want) = some (want, v) → answer v) ∧
          ((∀ p ∈ ap.results, p.1 ≠ want) → let ahead := (want + 65536 - num) % 65536
            if ahead < 32768 then answer 0x0212 else answer 0x0281)))) ∧
    (byReg → ready → (¬ known → quiet → faults0 (.cwstat (.hub c) d a) 0x0201) ∧
      (known → Gives (.cwstat (.hub c) d a) s (Answers (s.unpend c 63) k d (BitVec.ofNat 64
        (ap.done * 65536 + ((ap.results.head?.map (·.2)).getD 0) + ap.pending.isSome.toNat * 2 ^ 32))))) ∧
    (byReg → ready → let owner := s.ownerOf b.toNat
      let passes := fun (u : State) => u = { s with cw := u.cw } ∧ u.cw.live = s.cw.live ∧
        (∀ y, b.toNat * 131072 ≤ y → y < (b.toNat + 1) * 131072 → Map.find u.cw.staged y = Map.find s.cw.live y) ∧
        ∀ f i j, f.key i j ≠ Fld.hubOwnOwner.key b.toNat 0 → u.get f i j = s.get f i j
      (quiet → (¬ known → Gives (.cwown (.hub c) a) s (ends 0x0201 s) ∧ Gives (.cwdisown (.hub c) a) s (ends 0x0201 s)) ∧
        (known → ¬ allowed → Gives (.cwown (.hub c) a) s (ends 0x0202 s) ∧ Gives (.cwdisown (.hub c) a) s (ends 0x0202 s)) ∧
        (known → allowed → c ≠ .kernel → (∃ o, owner = some o ∧ o ≠ c) → Gives (.cwown (.hub c) a) s (ends 0x0204 s))) ∧
      (known → allowed → (own → Gives (.cwown (.hub c) a) s (GoesOn s k)) ∧
        (owner = none ∨ ¬ own ∧ c = .kernel → Gives (.cwown (.hub c) a) s fun t => ∃ u, GoesOn u k t ∧ passes u ∧ u.ownerOf b.toNat = some c) ∧
        (b = 0x02 ∨ ¬ own → Gives (.cwdisown (.hub c) a) s (GoesOn s k)) ∧
        (b ≠ 0x02 → own → Gives (.cwdisown (.hub c) a) s fun t => ∃ u, GoesOn u k t ∧ passes u ∧ u.ownerOf b.toNat = none))) ∧
    (ap.pending = none → same (.applyAtBoundary b)) ∧
    (∀ p : Nat × Prop, p ∈ [(Blk.mill, s.millState = 0), (Blk.reeve, s.get Fld.reeveStateState = 0), (Blk.correl, s.get Fld.correlStateRun = 0),
        (Blk.plink, s.get Fld.plinkStateLink = 0), (Blk.loop, s.getB Fld.loopStateRunning = false),
        (Blk.axis, s.getB Fld.axisStateRunning = false), (Blk.kettle, s.sysRunning = false)] → b.toNat = p.1 → ∀ cyc, ap.pending = some cyc →
      let v := if p.1 = Blk.axis then s.axesSync else s
      let due := p.2 ∨ s.get Fld.sysPhaseOffsetUs = 0 ∧ cyc ≠ s.cycle
      let shut := (p.1 = Blk.loop ∨ p.1 = Blk.axis) ∧ ¬ p.2 ∧ s.get Fld.sysLastrelCycle ≠ cyc
      let made := fun (v : Nat) (t : State) => t.appliesOf p.1 = { done := num, results := ((num, v) :: ap.results).take 4, pending := none } ∧
        ∀ o, s.ownerOf p.1 = some o → (t.core o).ipend.getLsbD 63 = true
      (¬ due → same (.applyAtBoundary b)) ∧
      (due → shut → Gives (.applyAtBoundary b) s fun t => made (p.1 * 256 + 3) t ∧ t.cw.live = s.cw.live) ∧
      (due → ¬ shut → (v.applyCheck p.1).2 = false → Gives (.applyAtBoundary b) s fun t => made (v.applyCheck p.1).1 t ∧
        t.cw.live = s.cw.live ∧ t.cw.staged = s.cw.staged) ∧
      (due → ¬ shut → (v.applyCheck p.1).2 = true → Gives (.applyAtBoundary b) s fun t => made 0 t ∧
        ∀ y, p.1 * 131072 ≤ y → y < (p.1 + 1) * 131072 → Map.find t.cw.live y = Map.find s.cw.staged y))
end

