-- ==== Sys2Proof/Laws/Map.lean ====
section
/-! SUPPORT. Tables by key: what a key reads after another, or the same, has been written. -/

namespace Sys2Proof.Machine

variable {α : Type}

@[simp] theorem Map.find_put_eq (m : Map α) (n : Nat) (v : α) : Map.find (Map.put m n v) n = some v := by
  induction m with
  | nil => simp [Map.put, Map.find]
  | cons d m ih =>
    obtain ⟨k, w⟩ := d
    simp only [Map.put]
    split
    · simp [Map.find]
    · split
      · simp [Map.find]
      · rename_i h; simp [Map.find, Ne.symm h, ih]

theorem Map.find_put_ne (m : Map α) {n k : Nat} (v : α) (h : k ≠ n) : Map.find (Map.put m n v) k = Map.find m k := by
  induction m with
  | nil => simp [Map.put, Map.find, Ne.symm h]
  | cons d m ih =>
    obtain ⟨l, w⟩ := d
    simp only [Map.put]
    split
    · simp [Map.find, Ne.symm h]
    · split
      · rename_i e; subst e; simp [Map.find, Ne.symm h]
      · simp only [Map.find, ih]

@[simp] theorem Map.getD_put_eq (m : Map α) (n : Nat) (v d : α) : Map.getD (Map.put m n v) n d = v := by
  simp [Map.getD]

theorem Map.getD_put_ne (m : Map α) {n k : Nat} (v d : α) (h : k ≠ n) : Map.getD (Map.put m n v) k d = Map.getD m k d := by
  simp [Map.getD, Map.find_put_ne m v h]

end Sys2Proof.Machine
end

