-- ==== Sys2Proof/Laws/State.lean ====
section
/-! SUPPORT. What each field of the state, and each control word field, reads after an update. -/

namespace Sys2Proof.Machine

namespace State

/-! ### Writing a control word field changes no other part of the state -/

@[simp] theorem set_pending (s : State) (f : Fld) (v i j : Nat) : (s.set f v i j).pending = s.pending := by unfold set; split <;> rfl
@[simp] theorem set_fresh (s : State) (f : Fld) (v i j : Nat) : (s.set f v i j).fresh = s.fresh := by unfold set; split <;> rfl
@[simp] theorem set_us (s : State) (f : Fld) (v i j : Nat) : (s.set f v i j).us = s.us := by unfold set; split <;> rfl
@[simp] theorem set_sub (s : State) (f : Fld) (v i j : Nat) : (s.set f v i j).sub = s.sub := by unfold set; split <;> rfl
@[simp] theorem set_cyclePs (s : State) (f : Fld) (v i j : Nat) : (s.set f v i j).cyclePs = s.cyclePs := by unfold set; split <;> rfl
@[simp] theorem set_cycleRoots (s : State) (f : Fld) (v i j : Nat) : (s.set f v i j).cycleRoots = s.cycleRoots := by unfold set; split <;> rfl
@[simp] theorem set_cycleStep (s : State) (f : Fld) (v i j : Nat) : (s.set f v i j).cycleStep = s.cycleStep := by unfold set; split <;> rfl
@[simp] theorem set_l2 (s : State) (f : Fld) (v i j : Nat) : (s.set f v i j).l2 = s.l2 := by unfold set; split <;> rfl
@[simp] theorem set_applies (s : State) (f : Fld) (v i j : Nat) : (s.set f v i j).applies = s.applies := by unfold set; split <;> rfl
@[simp] theorem set_mem (s : State) (f : Fld) (v i j : Nat) : (s.set f v i j).mem = s.mem := by unfold set; split <;> rfl
@[simp] theorem set_poisoned (s : State) (f : Fld) (v i j : Nat) : (s.set f v i j).poisoned = s.poisoned := by unfold set; split <;> rfl
@[simp] theorem set_oneBit (s : State) (f : Fld) (v i j : Nat) : (s.set f v i j).oneBit = s.oneBit := by unfold set; split <;> rfl
@[simp] theorem set_dramBytes (s : State) (f : Fld) (v i j : Nat) : (s.set f v i j).dramBytes = s.dramBytes := by unfold set; split <;> rfl
@[simp] theorem set_kernel (s : State) (f : Fld) (v i j : Nat) : (s.set f v i j).kernel = s.kernel := by unfold set; split <;> rfl
@[simp] theorem set_core2 (s : State) (f : Fld) (v i j : Nat) : (s.set f v i j).core2 = s.core2 := by unfold set; split <;> rfl
@[simp] theorem set_core3 (s : State) (f : Fld) (v i j : Nat) : (s.set f v i j).core3 = s.core3 := by unfold set; split <;> rfl
@[simp] theorem set_lockstepStopped (s : State) (f : Fld) (v i j : Nat) : (s.set f v i j).lockstepStopped = s.lockstepStopped := by unfold set; split <;> rfl
@[simp] theorem set_mailboxes (s : State) (f : Fld) (v i j : Nat) : (s.set f v i j).mailboxes = s.mailboxes := by unfold set; split <;> rfl
@[simp] theorem set_msix (s : State) (f : Fld) (v i j : Nat) : (s.set f v i j).msix = s.msix := by unfold set; split <;> rfl
@[simp] theorem set_chest (s : State) (f : Fld) (v i j : Nat) : (s.set f v i j).chest = s.chest := by unfold set; split <;> rfl
@[simp] theorem set_overrunRaised (s : State) (f : Fld) (v i j : Nat) : (s.set f v i j).overrunRaised = s.overrunRaised := by unfold set; split <;> rfl
@[simp] theorem set_stepping (s : State) (f : Fld) (v i j : Nat) : (s.set f v i j).stepping = s.stepping := by unfold set; split <;> rfl
@[simp] theorem set_warned (s : State) (f : Fld) (v i j : Nat) : (s.set f v i j).warned = s.warned := by unfold set; split <;> rfl
@[simp] theorem set_site (s : State) (f : Fld) (v i j : Nat) : (s.set f v i j).site = s.site := by unfold set; split <;> rfl
@[simp] theorem set_starts (s : State) (f : Fld) (v i j : Nat) : (s.set f v i j).starts = s.starts := by unfold set; split <;> rfl
@[simp] theorem set_loop (s : State) (f : Fld) (v i j : Nat) : (s.set f v i j).loop = s.loop := by unfold set; split <;> rfl
@[simp] theorem set_axes (s : State) (f : Fld) (v i j : Nat) : (s.set f v i j).axes = s.axes := by unfold set; split <;> rfl
@[simp] theorem set_tally (s : State) (f : Fld) (v i j : Nat) : (s.set f v i j).tally = s.tally := by unfold set; split <;> rfl
@[simp] theorem set_kettle (s : State) (f : Fld) (v i j : Nat) : (s.set f v i j).kettle = s.kettle := by unfold set; split <;> rfl
@[simp] theorem set_lastCode (s : State) (f : Fld) (v i j : Nat) : (s.set f v i j).lastCode = s.lastCode := by unfold set; split <;> rfl
@[simp] theorem set_nodes (s : State) (f : Fld) (v i j : Nat) : (s.set f v i j).nodes = s.nodes := by unfold set; split <;> rfl
@[simp] theorem set_seqs (s : State) (f : Fld) (v i j : Nat) : (s.set f v i j).seqs = s.seqs := by unfold set; split <;> rfl
@[simp] theorem set_mill (s : State) (f : Fld) (v i j : Nat) : (s.set f v i j).mill = s.mill := by unfold set; split <;> rfl
@[simp] theorem set_gnssin (s : State) (f : Fld) (v i j : Nat) : (s.set f v i j).gnssin = s.gnssin := by unfold set; split <;> rfl
@[simp] theorem set_grinder (s : State) (f : Fld) (v i j : Nat) : (s.set f v i j).grinder = s.grinder := by unfold set; split <;> rfl
@[simp] theorem set_correl (s : State) (f : Fld) (v i j : Nat) : (s.set f v i j).correl = s.correl := by unfold set; split <;> rfl
@[simp] theorem set_clock (s : State) (f : Fld) (v i j : Nat) : (s.set f v i j).clock = s.clock := by unfold set; split <;> rfl
@[simp] theorem set_servo (s : State) (f : Fld) (v i j : Nat) : (s.set f v i j).servo = s.servo := by unfold set; split <;> rfl
@[simp] theorem set_corr (s : State) (f : Fld) (v i j : Nat) : (s.set f v i j).corr = s.corr := by unfold set; split <;> rfl
@[simp] theorem set_reeve (s : State) (f : Fld) (v i j : Nat) : (s.set f v i j).reeve = s.reeve := by unfold set; split <;> rfl
@[simp] theorem set_radio (s : State) (f : Fld) (v i j : Nat) : (s.set f v i j).radio = s.radio := by unfold set; split <;> rfl
@[simp] theorem set_bell (s : State) (f : Fld) (v i j : Nat) : (s.set f v i j).bell = s.bell := by unfold set; split <;> rfl
@[simp] theorem set_queues (s : State) (f : Fld) (v i j : Nat) : (s.set f v i j).queues = s.queues := by unfold set; split <;> rfl
@[simp] theorem set_net (s : State) (f : Fld) (v i j : Nat) : (s.set f v i j).net = s.net := by unfold set; split <;> rfl
@[simp] theorem set_decant (s : State) (f : Fld) (v i j : Nat) : (s.set f v i j).decant = s.decant := by unfold set; split <;> rfl
@[simp] theorem set_pairing (s : State) (f : Fld) (v i j : Nat) : (s.set f v i j).pairing = s.pairing := by unfold set; split <;> rfl
@[simp] theorem set_keywell (s : State) (f : Fld) (v i j : Nat) : (s.set f v i j).keywell = s.keywell := by unfold set; split <;> rfl
@[simp] theorem set_boot (s : State) (f : Fld) (v i j : Nat) : (s.set f v i j).boot = s.boot := by unfold set; split <;> rfl

@[simp] theorem setB_pending (s : State) (f : Fld) (b : Bool) (i j : Nat) : (s.setB f b i j).pending = s.pending := set_pending ..
@[simp] theorem setB_fresh (s : State) (f : Fld) (b : Bool) (i j : Nat) : (s.setB f b i j).fresh = s.fresh := set_fresh ..
@[simp] theorem setB_us (s : State) (f : Fld) (b : Bool) (i j : Nat) : (s.setB f b i j).us = s.us := set_us ..
@[simp] theorem setB_sub (s : State) (f : Fld) (b : Bool) (i j : Nat) : (s.setB f b i j).sub = s.sub := set_sub ..
@[simp] theorem setB_cyclePs (s : State) (f : Fld) (b : Bool) (i j : Nat) : (s.setB f b i j).cyclePs = s.cyclePs := set_cyclePs ..
@[simp] theorem setB_cycleRoots (s : State) (f : Fld) (b : Bool) (i j : Nat) : (s.setB f b i j).cycleRoots = s.cycleRoots := set_cycleRoots ..
@[simp] theorem setB_cycleStep (s : State) (f : Fld) (b : Bool) (i j : Nat) : (s.setB f b i j).cycleStep = s.cycleStep := set_cycleStep ..
@[simp] theorem setB_l2 (s : State) (f : Fld) (b : Bool) (i j : Nat) : (s.setB f b i j).l2 = s.l2 := set_l2 ..
@[simp] theorem setB_applies (s : State) (f : Fld) (b : Bool) (i j : Nat) : (s.setB f b i j).applies = s.applies := set_applies ..
@[simp] theorem setB_mem (s : State) (f : Fld) (b : Bool) (i j : Nat) : (s.setB f b i j).mem = s.mem := set_mem ..
@[simp] theorem setB_poisoned (s : State) (f : Fld) (b : Bool) (i j : Nat) : (s.setB f b i j).poisoned = s.poisoned := set_poisoned ..
@[simp] theorem setB_oneBit (s : State) (f : Fld) (b : Bool) (i j : Nat) : (s.setB f b i j).oneBit = s.oneBit := set_oneBit ..
@[simp] theorem setB_dramBytes (s : State) (f : Fld) (b : Bool) (i j : Nat) : (s.setB f b i j).dramBytes = s.dramBytes := set_dramBytes ..
@[simp] theorem setB_kernel (s : State) (f : Fld) (b : Bool) (i j : Nat) : (s.setB f b i j).kernel = s.kernel := set_kernel ..
@[simp] theorem setB_core2 (s : State) (f : Fld) (b : Bool) (i j : Nat) : (s.setB f b i j).core2 = s.core2 := set_core2 ..
@[simp] theorem setB_core3 (s : State) (f : Fld) (b : Bool) (i j : Nat) : (s.setB f b i j).core3 = s.core3 := set_core3 ..
@[simp] theorem setB_lockstepStopped (s : State) (f : Fld) (b : Bool) (i j : Nat) : (s.setB f b i j).lockstepStopped = s.lockstepStopped := set_lockstepStopped ..
@[simp] theorem setB_mailboxes (s : State) (f : Fld) (b : Bool) (i j : Nat) : (s.setB f b i j).mailboxes = s.mailboxes := set_mailboxes ..
@[simp] theorem setB_msix (s : State) (f : Fld) (b : Bool) (i j : Nat) : (s.setB f b i j).msix = s.msix := set_msix ..
@[simp] theorem setB_chest (s : State) (f : Fld) (b : Bool) (i j : Nat) : (s.setB f b i j).chest = s.chest := set_chest ..
@[simp] theorem setB_overrunRaised (s : State) (f : Fld) (b : Bool) (i j : Nat) : (s.setB f b i j).overrunRaised = s.overrunRaised := set_overrunRaised ..
@[simp] theorem setB_stepping (s : State) (f : Fld) (b : Bool) (i j : Nat) : (s.setB f b i j).stepping = s.stepping := set_stepping ..
@[simp] theorem setB_warned (s : State) (f : Fld) (b : Bool) (i j : Nat) : (s.setB f b i j).warned = s.warned := set_warned ..
@[simp] theorem setB_site (s : State) (f : Fld) (b : Bool) (i j : Nat) : (s.setB f b i j).site = s.site := set_site ..
@[simp] theorem setB_starts (s : State) (f : Fld) (b : Bool) (i j : Nat) : (s.setB f b i j).starts = s.starts := set_starts ..
@[simp] theorem setB_loop (s : State) (f : Fld) (b : Bool) (i j : Nat) : (s.setB f b i j).loop = s.loop := set_loop ..
@[simp] theorem setB_axes (s : State) (f : Fld) (b : Bool) (i j : Nat) : (s.setB f b i j).axes = s.axes := set_axes ..
@[simp] theorem setB_tally (s : State) (f : Fld) (b : Bool) (i j : Nat) : (s.setB f b i j).tally = s.tally := set_tally ..
@[simp] theorem setB_kettle (s : State) (f : Fld) (b : Bool) (i j : Nat) : (s.setB f b i j).kettle = s.kettle := set_kettle ..
@[simp] theorem setB_lastCode (s : State) (f : Fld) (b : Bool) (i j : Nat) : (s.setB f b i j).lastCode = s.lastCode := set_lastCode ..
@[simp] theorem setB_nodes (s : State) (f : Fld) (b : Bool) (i j : Nat) : (s.setB f b i j).nodes = s.nodes := set_nodes ..
@[simp] theorem setB_seqs (s : State) (f : Fld) (b : Bool) (i j : Nat) : (s.setB f b i j).seqs = s.seqs := set_seqs ..
@[simp] theorem setB_mill (s : State) (f : Fld) (b : Bool) (i j : Nat) : (s.setB f b i j).mill = s.mill := set_mill ..
@[simp] theorem setB_gnssin (s : State) (f : Fld) (b : Bool) (i j : Nat) : (s.setB f b i j).gnssin = s.gnssin := set_gnssin ..
@[simp] theorem setB_grinder (s : State) (f : Fld) (b : Bool) (i j : Nat) : (s.setB f b i j).grinder = s.grinder := set_grinder ..
@[simp] theorem setB_correl (s : State) (f : Fld) (b : Bool) (i j : Nat) : (s.setB f b i j).correl = s.correl := set_correl ..
@[simp] theorem setB_clock (s : State) (f : Fld) (b : Bool) (i j : Nat) : (s.setB f b i j).clock = s.clock := set_clock ..
@[simp] theorem setB_servo (s : State) (f : Fld) (b : Bool) (i j : Nat) : (s.setB f b i j).servo = s.servo := set_servo ..
@[simp] theorem setB_corr (s : State) (f : Fld) (b : Bool) (i j : Nat) : (s.setB f b i j).corr = s.corr := set_corr ..
@[simp] theorem setB_reeve (s : State) (f : Fld) (b : Bool) (i j : Nat) : (s.setB f b i j).reeve = s.reeve := set_reeve ..
@[simp] theorem setB_radio (s : State) (f : Fld) (b : Bool) (i j : Nat) : (s.setB f b i j).radio = s.radio := set_radio ..
@[simp] theorem setB_bell (s : State) (f : Fld) (b : Bool) (i j : Nat) : (s.setB f b i j).bell = s.bell := set_bell ..
@[simp] theorem setB_queues (s : State) (f : Fld) (b : Bool) (i j : Nat) : (s.setB f b i j).queues = s.queues := set_queues ..
@[simp] theorem setB_net (s : State) (f : Fld) (b : Bool) (i j : Nat) : (s.setB f b i j).net = s.net := set_net ..
@[simp] theorem setB_decant (s : State) (f : Fld) (b : Bool) (i j : Nat) : (s.setB f b i j).decant = s.decant := set_decant ..
@[simp] theorem setB_pairing (s : State) (f : Fld) (b : Bool) (i j : Nat) : (s.setB f b i j).pairing = s.pairing := set_pairing ..
@[simp] theorem setB_keywell (s : State) (f : Fld) (b : Bool) (i j : Nat) : (s.setB f b i j).keywell = s.keywell := set_keywell ..
@[simp] theorem setB_boot (s : State) (f : Fld) (b : Bool) (i j : Nat) : (s.setB f b i j).boot = s.boot := set_boot ..

@[simp] theorem set_core (s : State) (f : Fld) (v i j : Nat) (c : Core) : (s.set f v i j).core c = s.core c := by cases c <;> simp [core]

@[simp] theorem setB_core (s : State) (f : Fld) (b : Bool) (i j : Nat) (c : Core) : (s.setB f b i j).core c = s.core c := set_core ..

/-! ### Replacing a core -/

@[simp] theorem setCore_core_eq (s : State) (c : Core) (h : HubCore) : (s.setCore c h).core c = h := by cases c <;> rfl

theorem setCore_core_ne (s : State) {c k : Core} (h : HubCore) (hk : k ≠ c) : (s.setCore c h).core k = s.core k := by
  cases c <;> cases k <;> first | rfl | exact absurd rfl hk

@[simp] theorem setCore_pending (s : State) (c : Core) (h : HubCore) : (s.setCore c h).pending = s.pending := by cases c <;> rfl
@[simp] theorem setCore_fresh (s : State) (c : Core) (h : HubCore) : (s.setCore c h).fresh = s.fresh := by cases c <;> rfl
@[simp] theorem setCore_us (s : State) (c : Core) (h : HubCore) : (s.setCore c h).us = s.us := by cases c <;> rfl
@[simp] theorem setCore_sub (s : State) (c : Core) (h : HubCore) : (s.setCore c h).sub = s.sub := by cases c <;> rfl
@[simp] theorem setCore_cyclePs (s : State) (c : Core) (h : HubCore) : (s.setCore c h).cyclePs = s.cyclePs := by cases c <;> rfl
@[simp] theorem setCore_cycleRoots (s : State) (c : Core) (h : HubCore) : (s.setCore c h).cycleRoots = s.cycleRoots := by cases c <;> rfl
@[simp] theorem setCore_cycleStep (s : State) (c : Core) (h : HubCore) : (s.setCore c h).cycleStep = s.cycleStep := by cases c <;> rfl
@[simp] theorem setCore_l2 (s : State) (c : Core) (h : HubCore) : (s.setCore c h).l2 = s.l2 := by cases c <;> rfl
@[simp] theorem setCore_cw (s : State) (c : Core) (h : HubCore) : (s.setCore c h).cw = s.cw := by cases c <;> rfl
@[simp] theorem setCore_applies (s : State) (c : Core) (h : HubCore) : (s.setCore c h).applies = s.applies := by cases c <;> rfl
@[simp] theorem setCore_mem (s : State) (c : Core) (h : HubCore) : (s.setCore c h).mem = s.mem := by cases c <;> rfl
@[simp] theorem setCore_poisoned (s : State) (c : Core) (h : HubCore) : (s.setCore c h).poisoned = s.poisoned := by cases c <;> rfl
@[simp] theorem setCore_oneBit (s : State) (c : Core) (h : HubCore) : (s.setCore c h).oneBit = s.oneBit := by cases c <;> rfl
@[simp] theorem setCore_dramBytes (s : State) (c : Core) (h : HubCore) : (s.setCore c h).dramBytes = s.dramBytes := by cases c <;> rfl
@[simp] theorem setCore_lockstepStopped (s : State) (c : Core) (h : HubCore) : (s.setCore c h).lockstepStopped = s.lockstepStopped := by cases c <;> rfl
@[simp] theorem setCore_mailboxes (s : State) (c : Core) (h : HubCore) : (s.setCore c h).mailboxes = s.mailboxes := by cases c <;> rfl
@[simp] theorem setCore_msix (s : State) (c : Core) (h : HubCore) : (s.setCore c h).msix = s.msix := by cases c <;> rfl
@[simp] theorem setCore_chest (s : State) (c : Core) (h : HubCore) : (s.setCore c h).chest = s.chest := by cases c <;> rfl
@[simp] theorem setCore_overrunRaised (s : State) (c : Core) (h : HubCore) : (s.setCore c h).overrunRaised = s.overrunRaised := by cases c <;> rfl
@[simp] theorem setCore_stepping (s : State) (c : Core) (h : HubCore) : (s.setCore c h).stepping = s.stepping := by cases c <;> rfl
@[simp] theorem setCore_warned (s : State) (c : Core) (h : HubCore) : (s.setCore c h).warned = s.warned := by cases c <;> rfl
@[simp] theorem setCore_site (s : State) (c : Core) (h : HubCore) : (s.setCore c h).site = s.site := by cases c <;> rfl
@[simp] theorem setCore_starts (s : State) (c : Core) (h : HubCore) : (s.setCore c h).starts = s.starts := by cases c <;> rfl
@[simp] theorem setCore_loop (s : State) (c : Core) (h : HubCore) : (s.setCore c h).loop = s.loop := by cases c <;> rfl
@[simp] theorem setCore_axes (s : State) (c : Core) (h : HubCore) : (s.setCore c h).axes = s.axes := by cases c <;> rfl
@[simp] theorem setCore_tally (s : State) (c : Core) (h : HubCore) : (s.setCore c h).tally = s.tally := by cases c <;> rfl
@[simp] theorem setCore_kettle (s : State) (c : Core) (h : HubCore) : (s.setCore c h).kettle = s.kettle := by cases c <;> rfl
@[simp] theorem setCore_lastCode (s : State) (c : Core) (h : HubCore) : (s.setCore c h).lastCode = s.lastCode := by cases c <;> rfl
@[simp] theorem setCore_nodes (s : State) (c : Core) (h : HubCore) : (s.setCore c h).nodes = s.nodes := by cases c <;> rfl
@[simp] theorem setCore_seqs (s : State) (c : Core) (h : HubCore) : (s.setCore c h).seqs = s.seqs := by cases c <;> rfl
@[simp] theorem setCore_mill (s : State) (c : Core) (h : HubCore) : (s.setCore c h).mill = s.mill := by cases c <;> rfl
@[simp] theorem setCore_gnssin (s : State) (c : Core) (h : HubCore) : (s.setCore c h).gnssin = s.gnssin := by cases c <;> rfl
@[simp] theorem setCore_grinder (s : State) (c : Core) (h : HubCore) : (s.setCore c h).grinder = s.grinder := by cases c <;> rfl
@[simp] theorem setCore_correl (s : State) (c : Core) (h : HubCore) : (s.setCore c h).correl = s.correl := by cases c <;> rfl
@[simp] theorem setCore_clock (s : State) (c : Core) (h : HubCore) : (s.setCore c h).clock = s.clock := by cases c <;> rfl
@[simp] theorem setCore_servo (s : State) (c : Core) (h : HubCore) : (s.setCore c h).servo = s.servo := by cases c <;> rfl
@[simp] theorem setCore_corr (s : State) (c : Core) (h : HubCore) : (s.setCore c h).corr = s.corr := by cases c <;> rfl
@[simp] theorem setCore_reeve (s : State) (c : Core) (h : HubCore) : (s.setCore c h).reeve = s.reeve := by cases c <;> rfl
@[simp] theorem setCore_radio (s : State) (c : Core) (h : HubCore) : (s.setCore c h).radio = s.radio := by cases c <;> rfl
@[simp] theorem setCore_bell (s : State) (c : Core) (h : HubCore) : (s.setCore c h).bell = s.bell := by cases c <;> rfl
@[simp] theorem setCore_queues (s : State) (c : Core) (h : HubCore) : (s.setCore c h).queues = s.queues := by cases c <;> rfl
@[simp] theorem setCore_net (s : State) (c : Core) (h : HubCore) : (s.setCore c h).net = s.net := by cases c <;> rfl
@[simp] theorem setCore_decant (s : State) (c : Core) (h : HubCore) : (s.setCore c h).decant = s.decant := by cases c <;> rfl
@[simp] theorem setCore_pairing (s : State) (c : Core) (h : HubCore) : (s.setCore c h).pairing = s.pairing := by cases c <;> rfl
@[simp] theorem setCore_keywell (s : State) (c : Core) (h : HubCore) : (s.setCore c h).keywell = s.keywell := by cases c <;> rfl
@[simp] theorem setCore_boot (s : State) (c : Core) (h : HubCore) : (s.setCore c h).boot = s.boot := by cases c <;> rfl

@[simp] theorem pend_core_eq (s : State) (c : Core) (n : Nat) :
    (s.pend c n).core c = { s.core c with ipend := (s.core c).ipend ||| (1#64 <<< n) } := setCore_core_eq ..

theorem pend_core_ne (s : State) {c k : Core} (n : Nat) (hk : k ≠ c) : (s.pend c n).core k = s.core k := setCore_core_ne _ _ hk

@[simp] theorem pend_pending (s : State) (c : Core) (n : Nat) : (s.pend c n).pending = s.pending := setCore_pending ..
@[simp] theorem pend_fresh (s : State) (c : Core) (n : Nat) : (s.pend c n).fresh = s.fresh := setCore_fresh ..
@[simp] theorem pend_us (s : State) (c : Core) (n : Nat) : (s.pend c n).us = s.us := setCore_us ..
@[simp] theorem pend_sub (s : State) (c : Core) (n : Nat) : (s.pend c n).sub = s.sub := setCore_sub ..
@[simp] theorem pend_cyclePs (s : State) (c : Core) (n : Nat) : (s.pend c n).cyclePs = s.cyclePs := setCore_cyclePs ..
@[simp] theorem pend_cycleRoots (s : State) (c : Core) (n : Nat) : (s.pend c n).cycleRoots = s.cycleRoots := setCore_cycleRoots ..
@[simp] theorem pend_cycleStep (s : State) (c : Core) (n : Nat) : (s.pend c n).cycleStep = s.cycleStep := setCore_cycleStep ..
@[simp] theorem pend_l2 (s : State) (c : Core) (n : Nat) : (s.pend c n).l2 = s.l2 := setCore_l2 ..
@[simp] theorem pend_cw (s : State) (c : Core) (n : Nat) : (s.pend c n).cw = s.cw := setCore_cw ..
@[simp] theorem pend_applies (s : State) (c : Core) (n : Nat) : (s.pend c n).applies = s.applies := setCore_applies ..
@[simp] theorem pend_mem (s : State) (c : Core) (n : Nat) : (s.pend c n).mem = s.mem := setCore_mem ..
@[simp] theorem pend_poisoned (s : State) (c : Core) (n : Nat) : (s.pend c n).poisoned = s.poisoned := setCore_poisoned ..
@[simp] theorem pend_oneBit (s : State) (c : Core) (n : Nat) : (s.pend c n).oneBit = s.oneBit := setCore_oneBit ..
@[simp] theorem pend_dramBytes (s : State) (c : Core) (n : Nat) : (s.pend c n).dramBytes = s.dramBytes := setCore_dramBytes ..
@[simp] theorem pend_lockstepStopped (s : State) (c : Core) (n : Nat) : (s.pend c n).lockstepStopped = s.lockstepStopped := setCore_lockstepStopped ..
@[simp] theorem pend_mailboxes (s : State) (c : Core) (n : Nat) : (s.pend c n).mailboxes = s.mailboxes := setCore_mailboxes ..
@[simp] theorem pend_msix (s : State) (c : Core) (n : Nat) : (s.pend c n).msix = s.msix := setCore_msix ..
@[simp] theorem pend_chest (s : State) (c : Core) (n : Nat) : (s.pend c n).chest = s.chest := setCore_chest ..
@[simp] theorem pend_overrunRaised (s : State) (c : Core) (n : Nat) : (s.pend c n).overrunRaised = s.overrunRaised := setCore_overrunRaised ..
@[simp] theorem pend_stepping (s : State) (c : Core) (n : Nat) : (s.pend c n).stepping = s.stepping := setCore_stepping ..
@[simp] theorem pend_warned (s : State) (c : Core) (n : Nat) : (s.pend c n).warned = s.warned := setCore_warned ..
@[simp] theorem pend_site (s : State) (c : Core) (n : Nat) : (s.pend c n).site = s.site := setCore_site ..
@[simp] theorem pend_starts (s : State) (c : Core) (n : Nat) : (s.pend c n).starts = s.starts := setCore_starts ..
@[simp] theorem pend_loop (s : State) (c : Core) (n : Nat) : (s.pend c n).loop = s.loop := setCore_loop ..
@[simp] theorem pend_axes (s : State) (c : Core) (n : Nat) : (s.pend c n).axes = s.axes := setCore_axes ..
@[simp] theorem pend_tally (s : State) (c : Core) (n : Nat) : (s.pend c n).tally = s.tally := setCore_tally ..
@[simp] theorem pend_kettle (s : State) (c : Core) (n : Nat) : (s.pend c n).kettle = s.kettle := setCore_kettle ..
@[simp] theorem pend_lastCode (s : State) (c : Core) (n : Nat) : (s.pend c n).lastCode = s.lastCode := setCore_lastCode ..
@[simp] theorem pend_nodes (s : State) (c : Core) (n : Nat) : (s.pend c n).nodes = s.nodes := setCore_nodes ..
@[simp] theorem pend_seqs (s : State) (c : Core) (n : Nat) : (s.pend c n).seqs = s.seqs := setCore_seqs ..
@[simp] theorem pend_mill (s : State) (c : Core) (n : Nat) : (s.pend c n).mill = s.mill := setCore_mill ..
@[simp] theorem pend_gnssin (s : State) (c : Core) (n : Nat) : (s.pend c n).gnssin = s.gnssin := setCore_gnssin ..
@[simp] theorem pend_grinder (s : State) (c : Core) (n : Nat) : (s.pend c n).grinder = s.grinder := setCore_grinder ..
@[simp] theorem pend_correl (s : State) (c : Core) (n : Nat) : (s.pend c n).correl = s.correl := setCore_correl ..
@[simp] theorem pend_clock (s : State) (c : Core) (n : Nat) : (s.pend c n).clock = s.clock := setCore_clock ..
@[simp] theorem pend_servo (s : State) (c : Core) (n : Nat) : (s.pend c n).servo = s.servo := setCore_servo ..
@[simp] theorem pend_corr (s : State) (c : Core) (n : Nat) : (s.pend c n).corr = s.corr := setCore_corr ..
@[simp] theorem pend_reeve (s : State) (c : Core) (n : Nat) : (s.pend c n).reeve = s.reeve := setCore_reeve ..
@[simp] theorem pend_radio (s : State) (c : Core) (n : Nat) : (s.pend c n).radio = s.radio := setCore_radio ..
@[simp] theorem pend_bell (s : State) (c : Core) (n : Nat) : (s.pend c n).bell = s.bell := setCore_bell ..
@[simp] theorem pend_queues (s : State) (c : Core) (n : Nat) : (s.pend c n).queues = s.queues := setCore_queues ..
@[simp] theorem pend_net (s : State) (c : Core) (n : Nat) : (s.pend c n).net = s.net := setCore_net ..
@[simp] theorem pend_decant (s : State) (c : Core) (n : Nat) : (s.pend c n).decant = s.decant := setCore_decant ..
@[simp] theorem pend_pairing (s : State) (c : Core) (n : Nat) : (s.pend c n).pairing = s.pairing := setCore_pairing ..
@[simp] theorem pend_keywell (s : State) (c : Core) (n : Nat) : (s.pend c n).keywell = s.keywell := setCore_keywell ..
@[simp] theorem pend_boot (s : State) (c : Core) (n : Nat) : (s.pend c n).boot = s.boot := setCore_boot ..

/-! ### Control word fields -/

/-- A field reads what the control words hold, and nothing else. -/
theorem get_cw {s t : State} (h : t.cw = s.cw) (f : Fld) (i j : Nat) : t.get f i j = s.get f i j := by unfold get; rw [h]

@[simp] theorem setCore_get (s : State) (c : Core) (h : HubCore) (f : Fld) (i j : Nat) : (s.setCore c h).get f i j = s.get f i j :=
  get_cw (setCore_cw ..) f i j

@[simp] theorem pend_get (s : State) (c : Core) (n : Nat) (f : Fld) (i j : Nat) : (s.pend c n).get f i j = s.get f i j :=
  get_cw (pend_cw ..) f i j

/-- A field of 32 bits or fewer reads the low bits of what was written to it. -/
theorem fitField_toNat (f : Fld) (v : Nat) (h : f.width ≤ 32) : (fitField f v).toNat = v % 2 ^ f.width := by
  unfold fitField
  rw [BitVec.toNat_ofNat]
  exact Nat.mod_eq_of_lt (lt_of_lt_of_le (Nat.mod_lt _ (by positivity)) (Nat.pow_le_pow_right (by decide) h))

/-- A field reads what was written to it, in its width: an S, L, C or K field. -/
theorem get_set_eq (s : State) (f : Fld) (v i j : Nat) (hw : f.width ≤ 32) (hx : f.acc ≠ .X) (hn : f.acc ≠ .N) :
    (s.set f v i j).get f i j = v % 2 ^ f.width := by
  unfold set get
  cases h : f.acc <;> simp_all [fitField_toNat]

/-- A field reads as before when another one was written. -/
theorem get_set_ne (s : State) {f g : Fld} (v i j k l : Nat) (h : g.key k l ≠ f.key i j) :
    (s.set f v i j).get g k l = s.get g k l := by
  unfold set get
  cases f.acc <;> cases g.acc <;> simp [Map.find_put_ne _ _ h]

/-- A one-bit field reads what was written to it. -/
theorem get_setB_eq (s : State) (f : Fld) (b : Bool) (i j : Nat) (hw : f.width = 1) (hx : f.acc ≠ .X) (hn : f.acc ≠ .N) :
    (s.setB f b i j).get f i j = b.toNat := by
  unfold setB
  rw [get_set_eq s f _ i j (by omega) hx hn, hw]
  cases b <;> rfl

/-- A field reads as before when another, one-bit field was written. -/
theorem get_setB_ne (s : State) {f g : Fld} (b : Bool) (i j k l : Nat) (h : g.key k l ≠ f.key i j) :
    (s.setB f b i j).get g k l = s.get g k l := get_set_ne s _ i j k l h

/-! ### Moments that a command stands for -/

/-- All that waiting for a root clock can do: the moment is over, or it comes within the present cycle, or nothing. -/
theorem reach_cases {s t : State} {at' : Nat} (h : s.reach at' = some t) :
    (at' ≤ s.roots ∧ t = s) ∨ (s.roots < at' ∧ at' - s.roots ≤ s.clocksTo (rawOfPs s.boundaryPs) ∧ t = s.passInCycle (at' - s.roots)) := by
  unfold reach at h
  split at h
  · cases h; exact .inl ⟨‹_›, rfl⟩
  · split at h
    · cases h; exact .inr ⟨by omega, ‹_›, rfl⟩
    · cases h

/-- A moment that is over changes nothing. -/
theorem reach_past {s : State} {at' : Nat} (h : at' ≤ s.roots) : s.reach at' = some s := if_pos h

/-- All that waiting for a site time can do. -/
theorem reachSite_cases {s t : State} {ps : Nat} (h : s.reachSite ps = some t) :
    (ps ≤ s.site.ps ∧ t = s) ∨ (s.site.ps < ps ∧ ps ≤ s.boundaryPs ∧ t = s.passInCycle (s.clocksTo (rawOfPs ps))) := by
  unfold reachSite at h
  split at h
  · cases h; exact .inl ⟨‹_›, rfl⟩
  · split at h
    · cases h; exact .inr ⟨by omega, ‹_›, rfl⟩
    · cases h

/-! ### Memory -/

/-- A byte written reads as written, in a memory of canonical form. -/
theorem memByte_memPut_eq {m : List Host.Cell} (a : Nat) (b : Byte) (h : Memory.wf m = true) : memByte (memPut m a b) a = b := by
  have low : ∀ (m : List Host.Cell), (∀ c ∈ m, a < c.1) → memByte m a = 0 := by
    intro m
    induction m with
    | nil => intro _; rfl
    | cons d m ih =>
      obtain ⟨k, v⟩ := d
      intro hl
      have hk := hl (k, v) (List.mem_cons_self ..)
      simp only [memByte]
      rw [if_neg (by simp only at hk; omega)]
      exact ih fun c hc => hl c (List.mem_cons_of_mem _ hc)
  have tail : ∀ (d : Host.Cell) (m : List Host.Cell), Memory.wf (d :: m) = true → Memory.wf m = true ∧ ∀ c ∈ m, d.1 < c.1 := by
    intro d m
    induction m generalizing d with
    | nil => intro _; exact ⟨rfl, by simp⟩
    | cons e m ih =>
      intro h
      simp only [Memory.wf, Bool.and_eq_true, decide_eq_true_eq] at h
      refine ⟨h.2, fun c hc => ?_⟩
      rcases List.mem_cons.1 hc with rfl | hc
      · exact h.1.1
      · exact lt_trans h.1.1 ((ih e h.2).2 c hc)
  induction m with
  | nil => simp only [memPut]; split <;> simp_all [memByte]
  | cons d m ih =>
    obtain ⟨k, v⟩ := d
    have t := tail _ _ h
    simp only [memPut]
    split
    · rename_i hk
      split
      · rename_i hb
        rw [hb]
        refine low _ fun c hc => ?_
        rcases List.mem_cons.1 hc with rfl | hc
        · exact hk
        · exact lt_trans hk (t.2 c hc)
      · simp [memByte]
    · split
      · rename_i hk
        split
        · rename_i hb; rw [hb]; exact low _ (hk ▸ t.2)
        · simp [memByte]
      · rename_i h1 h2
        simp only [memByte]
        rw [if_neg (fun e => h2 e.symm)]
        exact ih t.1

/-- Every other byte reads as before. -/
theorem memByte_memPut_ne (m : List Host.Cell) {a x : Nat} (b : Byte) (h : x ≠ a) : memByte (memPut m a b) x = memByte m x := by
  induction m with
  | nil => simp only [memPut]; split <;> simp [memByte, Ne.symm h]
  | cons d m ih =>
    obtain ⟨k, v⟩ := d
    simp only [memPut]
    split
    · split <;> simp [memByte, Ne.symm h]
    · split
      · rename_i hk; subst hk
        split <;> simp [memByte, Ne.symm h]
      · simp only [memByte, ih]

/-- A byte outside a range written reads as before. -/
theorem memByte_memPutAll_ne (m : List Host.Cell) {a x : Nat} (bs : List Byte) (h : x < a ∨ a + bs.length ≤ x) :
    memByte (memPutAll m a bs) x = memByte m x := by
  induction bs generalizing m a with
  | nil => rfl
  | cons b bs ih =>
    simp only [List.length_cons] at h
    simp only [memPutAll]
    rw [ih _ (by omega), memByte_memPut_ne _ _ (by omega)]

end State

end Sys2Proof.Machine
end

