-- ==== Sys2Proof/Laws/Engines.lean ====
section
/-! SUPPORT. What the shared operations of instructions do to registers and the program counter. -/

namespace Sys2Proof.Machine

/-- A register written reads the value, register 0 excepted; every other reads as before. -/
theorem regRead_write {w : Nat} (m : Map (BitVec w)) (d r : Reg) (v : BitVec w) :
    regRead (regWrite m d v) r = if r = d ∧ d ≠ 0 then v else regRead m r := by
  unfold regRead regWrite
  split
  · rename_i hr
    rw [if_neg (fun h => h.2 (h.1 ▸ hr))]
  · rename_i hr
    split
    · rename_i hd
      rw [if_neg (fun h => h.2 hd)]
    · rename_i hd
      split
      · rename_i h; rw [h.1]; exact Map.getD_put_eq ..
      · rename_i h
        exact Map.getD_put_ne _ _ _ fun e => h ⟨BitVec.eq_of_toNat_eq e, hd⟩

theorem State.setCore_setCore (s : State) (c : Core) (x y : HubCore) : (s.setCore c x).setCore c y = s.setCore c y := by
  cases c <;> rfl

@[simp] theorem State.node_setNode (s : State) (n : Nat) (x : NodeEngine) : (s.setNode n x).node n = x := by
  simp [State.setNode, State.node]

@[simp] theorem State.seq_setSeq (s : State) (n : Nat) (x : Sequencer) : (s.setSeq n x).seq n = x := by
  simp [State.setSeq, State.seq]

theorem Map.put_put {α : Type} (m : Map α) (n : Nat) (x y : α) : Map.put (Map.put m n x) n y = Map.put m n y := by
  induction m with
  | nil => simp [Map.put]
  | cons d m ih =>
    obtain ⟨k, w⟩ := d
    simp only [Map.put]
    split
    · simp [Map.put]
    · split
      · simp [Map.put]
      · rename_i h1 h2; simp [Map.put, h1, h2, ih]

/-- An instruction that writes a general register and goes on. -/
theorem wg_adv (s : State) (e : Engine) (d : Reg) (v : Word) : WritesG s e d v ((s.wg e d v).adv e) := by
  cases e with
  | hub c =>
    exact ⟨regWrite (s.core c).g d v, by simp [State.wg, State.adv, State.setCore_setCore], fun r => regRead_write ..⟩
  | node n =>
    exact ⟨regWrite (s.node n.val).g d v, by simp [State.wg, State.adv]; simp [State.setNode, Map.put_put], fun r => regRead_write ..⟩
  | seq q =>
    exact ⟨regWrite (s.seq q.val).g d (v.setWidth 32), by simp [State.wg, State.adv]; simp [State.setSeq, Map.put_put],
      fun r => regRead_write ..⟩

/-- A sequencer's register, cut back to its 32 bits. -/
theorem rg_seq (s : State) (q : Fin 8) (r : Reg) : (s.rg (.seq q) r).setWidth 32 = regRead (s.seq q.val).g r := by
  simp [State.rg]

/-- A register instruction that every profile keeps. -/
theorem alu_writes (s : State) (e : Engine) (d a b c : Reg) (h : Word → Word → Word → Word) (q : Word32 → Word32 → Word32 → Word32)
    (hr : s.runs e = true) (hk : regsOk e [d, a, b, c] = true) :
    WritesG s e d (onEngine e (h (s.rg e a) (s.rg e b) (s.rg e c))
      (q ((s.rg e a).setWidth 32) ((s.rg e b).setWidth 32) ((s.rg e c).setWidth 32))) (s.alu e d a b c h (some q)) := by
  unfold State.alu
  rw [hr]
  cases e with
  | hub c => exact wg_adv ..
  | node n => exact wg_adv ..
  | seq i => simp only [hk]; rw [rg_seq, rg_seq, rg_seq]; exact wg_adv ..

/-- A register instruction that only hub cores and node engines keep. -/
theorem alu_writes_wide (s : State) (e : Engine) (d a b c : Reg) (h : Word → Word → Word → Word)
    (q : Option (Word32 → Word32 → Word32 → Word32)) (hr : s.runs e = true) (hk : notSeq e = true) :
    WritesG s e d (h (s.rg e a) (s.rg e b) (s.rg e c)) (s.alu e d a b c h q) := by
  unfold State.alu
  rw [hr]
  cases e with
  | hub c => exact wg_adv ..
  | node n => exact wg_adv ..
  | seq i => cases hk

/-- An immediate instruction in a form the engine has. -/
theorem aluImm_writes (s : State) (e : Engine) (d a : Reg) (h : Word → Word) (q : Word32 → Word32)
    (hr : s.runs e = true) (hk : regsOk e [d, a] = true) :
    WritesG s e d (onEngine e (h (s.rg e a)) (q ((s.rg e a).setWidth 32))) (s.aluImm e d a true h q) := by
  unfold State.aluImm
  rw [hr]
  cases e with
  | hub c => exact wg_adv ..
  | node n => exact wg_adv ..
  | seq i => simp only [hk]; rw [rg_seq]; exact wg_adv ..

/-- A floating point register is written, with flags. -/
theorem wf_adv (s : State) (e : Engine) (d : Reg) (v : Word) (fl : FFlags) (hk : notSeq e = true) :
    WritesF s e d v fl.bits (((s.accrue e fl).wf e d v).adv e) := by
  have key : ∀ (m : Map Word) (r : Reg), Map.getD (Map.put m d.toNat v) r.toNat 0 = if r = d then v else Map.getD m r.toNat 0 := by
    intro m r
    split
    · rename_i h; rw [h, Map.getD_put_eq]
    · rename_i h; exact Map.getD_put_ne _ _ _ fun e => h (BitVec.eq_of_toNat_eq e)
  cases e with
  | hub k =>
    refine ⟨Map.put (s.core k).f d.toNat v, ?_, key _⟩
    simp only [State.accrue, State.wf, State.adv, State.setCore_core_eq, State.setCore_setCore]
  | node n =>
    refine ⟨Map.put (s.node n.val).f d.toNat v, ?_, key _⟩
    simp only [State.accrue, State.wf, State.adv, State.node_setNode]
    simp [State.setNode, Map.put_put]
  | seq q => cases hk

/-- A general register is written, with floating point flags. -/
theorem wgf_adv (s : State) (e : Engine) (d : Reg) (v : Word) (fl : FFlags) (hk : notSeq e = true) :
    WritesGF s e d v fl.bits (((s.accrue e fl).wg e d v).adv e) := by
  cases e with
  | hub k =>
    refine ⟨regWrite (s.core k).g d v, ?_, fun r => regRead_write ..⟩
    simp only [State.accrue, State.wg, State.adv, State.setCore_core_eq, State.setCore_setCore]
  | node n =>
    refine ⟨regWrite (s.node n.val).g d v, ?_, fun r => regRead_write ..⟩
    simp only [State.accrue, State.wg, State.adv, State.node_setNode]
    simp [State.setNode, Map.put_put]
  | seq q => cases hk

/-- A floating point instruction with an f result. -/
theorem fop_writes (s : State) (e : Engine) (d a b c : Reg) (f : RMode → Word → Word → Word → Word × FFlags) (hr : s.runs e = true)
    (hk : notSeq e = true) :
    WritesF s e d (f (s.rmode e) (s.rf e a) (s.rf e b) (s.rf e c)).1 (f (s.rmode e) (s.rf e a) (s.rf e b) (s.rf e c)).2.bits
      (s.fop e d a b c f) := by
  unfold State.fop
  rw [hr]
  cases e with
  | hub k => exact wf_adv _ _ _ _ _ hk
  | node n => exact wf_adv _ _ _ _ _ hk
  | seq q => cases hk

/-- A floating point instruction with a g result. -/
theorem fopG_writes (s : State) (e : Engine) (d a b : Reg) (f : RMode → Word → Word → Word × FFlags) (hr : s.runs e = true)
    (hk : notSeq e = true) :
    WritesGF s e d (f (s.rmode e) (s.rf e a) (s.rf e b)).1 (f (s.rmode e) (s.rf e a) (s.rf e b)).2.bits (s.fopG e d a b f) := by
  unfold State.fopG
  rw [hr]
  cases e with
  | hub k => exact wgf_adv _ _ _ _ _ hk
  | node n => exact wgf_adv _ _ _ _ _ hk
  | seq q => cases hk

/-- A floating point instruction with an f result from a general register. -/
theorem fopI_writes (s : State) (e : Engine) (d a : Reg) (f : RMode → Word → Word × FFlags) (hr : s.runs e = true)
    (hk : notSeq e = true) :
    WritesF s e d (f (s.rmode e) (s.rg e a)).1 (f (s.rmode e) (s.rg e a)).2.bits (s.fopI e d a f) := by
  unfold State.fopI
  rw [hr]
  cases e with
  | hub k => exact wf_adv _ _ _ _ _ hk
  | node n => exact wf_adv _ _ _ _ _ hk
  | seq q => cases hk

end Sys2Proof.Machine
end

