-- ==== Sys2Proof/Laws/KeepsBase.lean ====
section
/-! SUPPORT. What every command keeps: the relation `Keeps` between a state and a later one, and how it passes through the forms that
meanings are written in. -/

namespace Sys2Proof.Machine

/-- Every later state keeps the invariant and the queue's rest. -/
structure Keeps (s t : State) : Prop where
  inv : Inv s → Inv t
  queue : t.pending = s.pending

/-- The result is a next state that is related by `Keeps`. -/
def KeepsR (s : State) (r : Result) : Prop := ∃ t, r = .next t ∧ Keeps s t

variable {s₀ s : State}

theorem Keeps.refl (s : State) : Keeps s s := ⟨id, rfl⟩

theorem Keeps.ite {a b : State} {c : Prop} [Decidable c] (ha : Keeps s₀ a) (hb : Keeps s₀ b) : Keeps s₀ (if c then a else b) := by
  split <;> assumption

theorem Keeps.iteP {α : Type} {a b : α × State} {c : Prop} [Decidable c] (ha : Keeps s₀ a.2) (hb : Keeps s₀ b.2) :
    Keeps s₀ (if c then a else b).2 := by split <;> assumption

theorem Keeps.pair {α : Type} {a : α} (h : Keeps s₀ s) : Keeps s₀ (a, s).2 := h

theorem Keeps.ofEq {α : Type} {p : α × State} {a : α} (e : p = (a, s)) (h : Keeps s₀ p.2) : Keeps s₀ s := by cases e; exact h

theorem Keeps.ofSome {o : Option State} (e : o = some s) (h : ∀ t, o = some t → Keeps s₀ t) : Keeps s₀ s := h s e

theorem KeepsO.none {t : State} : none = some t → Keeps s₀ t := nofun

theorem KeepsO.some (h : Keeps s₀ s) {t : State} : some s = some t → Keeps s₀ t := by rintro ⟨⟩; exact h

theorem KeepsO.ite {a b : Option State} {t : State} {c : Prop} [Decidable c] (ha : a = Option.some t → Keeps s₀ t)
    (hb : b = Option.some t → Keeps s₀ t) : (if c then a else b) = Option.some t → Keeps s₀ t := by
  split <;> assumption

theorem Keeps.elim {o : Option State} {f : State → State} (h : Keeps s₀ s) (ho : ∀ t, o = Option.some t → Keeps s₀ t)
    (hf : ∀ t, Keeps s₀ t → Keeps s₀ (f t)) : Keeps s₀ (o.elim s f) := by
  cases o with
  | none => exact h
  | some t => exact hf t (ho t rfl)

theorem KeepsR.next (h : Keeps s₀ s) : KeepsR s₀ (.next s) := ⟨s, rfl, h⟩

theorem KeepsR.ite {a b : Result} {c : Prop} [Decidable c] (ha : KeepsR s₀ a) (hb : KeepsR s₀ b) : KeepsR s₀ (if c then a else b) := by
  split <;> assumption

theorem Keeps.foldl {α : Type} {l : List α} {f : State → α → State} (h : Keeps s₀ s)
    (hf : ∀ t x, Keeps s₀ t → Keeps s₀ (f t x)) : Keeps s₀ (l.foldl f s) := by
  induction l generalizing s with
  | nil => exact h
  | cons x l ih => exact ih (hf s x h)

theorem Keeps.foldlP {α β : Type} {l : List α} {f : β × State → α → β × State} {b : β × State} (h : Keeps s₀ b.2)
    (hf : ∀ t x, Keeps s₀ t.2 → Keeps s₀ (f t x).2) : Keeps s₀ (l.foldl f b).2 := by
  induction l generalizing b with
  | nil => exact h
  | cons x l ih => exact ih (hf b x h)

/-- An update that touches neither memory, nor a core, nor the queue. -/
theorem Keeps.upd (h : Keeps s₀ s)
    (fresh' : Nat) (us' : Nat) (sub' : Nat) (cyclePs' : Nat) (cycleRoots' : Nat) (cycleStep' : Int) (cw' : CwState) (applies' :
    Map Applies) (l2' : Map L2Line) (poisoned' : List Nat) (oneBit' : List Nat) (dramBytes' : Nat) (lockstepStopped' : Bool)
    (mailboxes' : Map Mailbox) (msix' : List Nat) (chest' : Map Word) (overrunRaised' : Bool) (stepping' : Bool) (warned' : Map
    Nat) (site' : SiteTime) (starts' : List Starter) (loop' : Loop) (axes' : Map Axis) (tally' : Tally) (kettle' : Kettle)
    (lastCode' : Map Nat) (nodes' : Map NodeEngine) (seqs' : Map Sequencer) (mill' : Mill) (gnssin' : GnssIn) (grinder' : Grinder)
    (correl' : Correl) (clock' : Clock) (servo' : Servo) (corr' : Corr) (reeve' : Reeve) (radio' : Radio) (bell' : Bell) (queues'
    : Map QUnit) (net' : Net) (decant' : Decant) (pairing' : Pairing) (keywell' : Keywell) (boot' : Boot) :
    Keeps s₀ ⟨
    s.pending, fresh', us', sub', cyclePs', cycleRoots', cycleStep', cw', applies', s.mem, l2', poisoned', oneBit', dramBytes',
    s.kernel, s.core2, s.core3, lockstepStopped', mailboxes', msix', chest', overrunRaised', stepping', warned', site', starts',
    loop', axes', tally', kettle', lastCode', nodes', seqs', mill', gnssin', grinder', correl', clock', servo', corr', reeve',
    radio', bell', queues', net', decant', pairing', keywell', boot'⟩ :=
  ⟨fun i => ⟨(h.inv i).mem, (h.inv i).kernel, (h.inv i).core2, (h.inv i).core3⟩, h.queue⟩

/-- The state a Keywell job ends with is related by `Keeps`. -/
def KeepsE (s : State) (e : JobEnd) : Prop := Keeps s e.2.2

theorem KeepsE.mk {c n : Nat} (h : Keeps s₀ s) : KeepsE s₀ (c, n, s) := h

theorem KeepsE.ite {a b : JobEnd} {c : Prop} [Decidable c] (ha : KeepsE s₀ a) (hb : KeepsE s₀ b) : KeepsE s₀ (if c then a else b) := by
  split <;> assumption

/-- The state with which a Keywell job ends, or goes on, is related by `Keeps`. -/
def KeepsJ (s : State) : JobStart → Prop
  | .inl e => KeepsE s e
  | .inr t => Keeps s t

theorem KeepsJ.inl {e : JobEnd} (h : KeepsE s₀ e) : KeepsJ s₀ (.inl e) := h

theorem KeepsJ.inr (h : Keeps s₀ s) : KeepsJ s₀ (.inr s) := h

theorem KeepsJ.ite {a b : JobStart} {c : Prop} [Decidable c] (ha : KeepsJ s₀ a) (hb : KeepsJ s₀ b) :
    KeepsJ s₀ (if c then a else b) := by
  split <;> assumption

theorem core_ok (i : Inv s) (c : Core) : CoreOk (s.core c) := by
  cases c
  · exact i.kernel
  · exact i.core2
  · exact i.core3

theorem State.setCore_keeps (h : Keeps s₀ s) (c : Core) (x : HubCore) (hx : Inv s → CoreOk x) : Keeps s₀ (s.setCore c x) := by
  refine ⟨fun i => ?_, by cases c <;> exact h.queue⟩
  have j := h.inv i
  cases c
  · exact ⟨j.mem, hx j, j.core2, j.core3⟩
  · exact ⟨j.mem, j.kernel, hx j, j.core3⟩
  · exact ⟨j.mem, j.kernel, j.core2, hx j⟩

/-- All three cores change. -/
theorem Keeps.cores (h : Keeps s₀ s) (f : HubCore → HubCore) (hf : ∀ x, CoreOk x → CoreOk (f x)) :
    Keeps s₀ { s with kernel := f s.kernel, core2 := f s.core2, core3 := f s.core3 } :=
  ⟨fun i => have j := h.inv i; ⟨j.mem, hf _ j.kernel, hf _ j.core2, hf _ j.core3⟩, h.queue⟩

/-! ### Memory keeps its canonical form -/

theorem Memory.wf_tail {c : Host.Cell} {m : List Host.Cell} (h : Memory.wf (c :: m) = true) : Memory.wf m = true := by
  cases m with
  | nil => rfl
  | cons d m => simp only [Memory.wf, Bool.and_eq_true] at h; exact h.2

/-- Every address of a canonical memory lies above its first. -/
theorem Memory.wf_lt {k : Nat} {v : Byte} {m : List Host.Cell} (h : Memory.wf ((k, v) :: m) = true) : ∀ c ∈ m, k < c.1 := by
  induction m generalizing k v with
  | nil => simp
  | cons d m ih =>
    obtain ⟨l, w⟩ := d
    simp only [Memory.wf, Bool.and_eq_true, decide_eq_true_eq] at h
    intro c hc
    rcases List.mem_cons.1 hc with rfl | hc
    · exact h.1.1
    · exact lt_trans h.1.1 (ih h.2 c hc)

/-- The canonical form of a memory with one more cell below all others. -/
theorem Memory.wf_cons {k : Nat} {v : Byte} {m : List Host.Cell} (hv : v ≠ 0) (hm : Memory.wf m = true)
    (hk : ∀ c ∈ m, k < c.1) : Memory.wf ((k, v) :: m) = true := by
  cases m with
  | nil => simpa [Memory.wf] using hv
  | cons d m =>
    obtain ⟨l, w⟩ := d
    have := hk (l, w) (List.mem_cons_self ..)
    simp only [Memory.wf, Bool.and_eq_true, decide_eq_true_eq, bne_iff_ne, ne_eq]
    exact ⟨⟨this, hv⟩, hm⟩

theorem Memory.wf_ne {k : Nat} {v : Byte} {m : List Host.Cell} (h : Memory.wf ((k, v) :: m) = true) : v ≠ 0 := by
  cases m with
  | nil => simpa [Memory.wf] using h
  | cons d m =>
    simp only [Memory.wf, Bool.and_eq_true, bne_iff_ne, ne_eq] at h
    exact h.1.2

theorem Memory.wf_filter {m : List Host.Cell} (p : Host.Cell → Bool) (h : Memory.wf m = true) : Memory.wf (m.filter p) = true := by
  induction m with
  | nil => rfl
  | cons d m ih =>
    obtain ⟨k, v⟩ := d
    have ht := ih (Memory.wf_tail h)
    by_cases hp : p (k, v) = true
    · rw [List.filter_cons_of_pos hp]
      exact Memory.wf_cons (Memory.wf_ne h) ht fun c hc => Memory.wf_lt h c (List.mem_filter.1 hc).1
    · rw [List.filter_cons_of_neg hp]; exact ht

theorem memPut_mem {m : List Host.Cell} {a : Nat} {b : Byte} {c : Host.Cell} (h : c ∈ memPut m a b) : c = (a, b) ∨ c ∈ m := by
  induction m with
  | nil => simp only [memPut] at h; split at h <;> simp_all
  | cons d m ih =>
    obtain ⟨k, v⟩ := d
    simp only [memPut] at h
    split at h
    · split at h
      · exact .inr h
      · exact List.mem_cons.1 h
    · split at h
      · rename_i hak
        split at h
        · exact .inr (List.mem_cons_of_mem _ h)
        · exact (List.mem_cons.1 h).imp id (List.mem_cons_of_mem _)
      · rcases List.mem_cons.1 h with rfl | h
        · exact .inr (List.mem_cons_self ..)
        · exact (ih h).imp_right (List.mem_cons_of_mem _)

/-- Writing a byte keeps the canonical form. -/
theorem memPut_wf {m : List Host.Cell} (a : Nat) (b : Byte) (h : Memory.wf m = true) : Memory.wf (memPut m a b) = true := by
  induction m with
  | nil => simp only [memPut]; split <;> simp_all [Memory.wf]
  | cons d m ih =>
    obtain ⟨k, v⟩ := d
    have hl := Memory.wf_lt h
    have ht := Memory.wf_tail h
    simp only [memPut]
    split
    · rename_i hk
      split
      · exact h
      · rename_i hb
        refine Memory.wf_cons hb h fun c hc => ?_
        rcases List.mem_cons.1 hc with rfl | hc
        · exact hk
        · exact lt_trans hk (hl c hc)
    · rename_i hk
      split
      · rename_i hak
        split
        · exact ht
        · rename_i hb; exact Memory.wf_cons hb ht (hak ▸ hl)
      · rename_i hak
        refine Memory.wf_cons (Memory.wf_ne h) (ih ht) fun c hc => ?_
        rcases memPut_mem hc with rfl | hc
        · show k < a; omega
        · exact hl c hc

/-- Writing bytes keeps the canonical form. -/
theorem memPutAll_wf {m : List Host.Cell} (a : Nat) (bs : List Byte) (h : Memory.wf m = true) :
    Memory.wf (memPutAll m a bs) = true := by
  induction bs generalizing m a with
  | nil => exact h
  | cons b bs ih => exact ih _ (memPut_wf a b h)

/-- A write by any initiator changes memory canonically, and of the cores only reservations. -/
theorem State.writeRaw_keeps (h : Keeps s₀ s) (a : Nat) (bs : List Byte) : Keeps s₀ (s.writeRaw a bs) :=
  ⟨fun i => have j := h.inv i
    ⟨memPutAll_wf a bs j.mem, ⟨j.kernel.pc, j.kernel.epc, j.kernel.status, j.kernel.evec, j.kernel.g0, j.kernel.chest⟩,
      ⟨j.core2.pc, j.core2.epc, j.core2.status, j.core2.evec, j.core2.g0, j.core2.chest⟩,
      ⟨j.core3.pc, j.core3.epc, j.core3.status, j.core3.evec, j.core3.g0, j.core3.chest⟩⟩, h.queue⟩

theorem CoreOk.congr {x y : HubCore} (h : CoreOk x) (hp : y.pc = x.pc) (he : y.epc = x.epc) (hs : y.status = x.status)
    (hv : y.evec = x.evec) (hg : y.g = x.g) (hc : y.chestQ = x.chestQ) : CoreOk y :=
  ⟨hp ▸ h.pc, he ▸ h.epc, hs ▸ h.status, hv ▸ h.evec, hg ▸ h.g0, hc ▸ h.chest⟩

/-- A core with a program counter of the right form, and the other words as `CoreOk` sees them at reset. -/
theorem CoreOk.start {x : HubCore} (hp : pcFit x.pc = x.pc) (he : x.epc = 0) (hs : x.status = ({} : HubCore).status) (hv : x.evec = 0)
    (hg : Map.find x.g 0 = none) (hc : x.chestQ.length ≤ 16) : CoreOk x :=
  ⟨hp, by rw [he]; decide, by rw [hs]; decide, by rw [hv]; decide, hg, hc⟩

theorem CoreOk.default : CoreOk {} := ⟨by decide, by decide, by decide, by decide, rfl, by decide⟩

theorem CoreOk.tickBy {x : HubCore} (h : CoreOk x) (clocks now : Nat) : CoreOk (x.tickBy clocks now) := by
  unfold HubCore.tickBy
  split
  · exact h
  · exact h.congr rfl rfl rfl rfl rfl rfl

theorem CoreOk.stop {x : HubCore} (h : CoreOk x) : CoreOk x.stop := by
  unfold HubCore.stop
  split
  · exact h
  · exact h.congr rfl rfl rfl rfl rfl rfl

theorem pcFit_fit (v : Word) : pcFit (pcFit v) = pcFit v := by
  simp only [pcFit, BitVec.and_assoc, BitVec.and_self]

theorem regWrite_zero {w : Nat} {m : Map (BitVec w)} (h : Map.find m 0 = none) (r : Reg) (v : BitVec w) :
    Map.find (regWrite m r v) 0 = none := by
  unfold regWrite
  split
  · exact h
  · rename_i hr
    rw [Map.find_put_ne]
    · exact h
    · intro e; exact hr (BitVec.eq_of_toNat_eq e.symm)

theorem entryStatus_lt (w : Word) : (entryStatus w).toNat < 32 := by
  unfold entryStatus
  cases bitOf w.toNat 0 <;> cases bitOf w.toNat 1 <;> decide

theorem eretStatus_lt (w : Word) : (eretStatus w).toNat < 32 := by
  unfold eretStatus
  cases bitOf w.toNat 3 <;> cases bitOf w.toNat 4 <;> decide

/-- A core word written by MTC keeps the reserved bits 0. -/
theorem CoreOk.setWord {x : HubCore} (h : CoreOk x) (i : Nat) (v : Word) : CoreOk (x.setWord i v) := by
  unfold HubCore.setWord
  split
  · refine ⟨h.pc, h.epc, ?_, h.evec, h.g0, h.chest⟩
    have : (v &&& 0x1F#64) < 32#64 := by
      rw [BitVec.lt_def]; simp only [BitVec.toNat_and]
      exact lt_of_le_of_lt Nat.and_le_right (by decide)
    simpa [BitVec.lt_def] using this
  · exact ⟨h.pc, pcFit_fit v, h.status, h.evec, h.g0, h.chest⟩
  · exact h.congr rfl rfl rfl rfl rfl rfl
  · exact h.congr rfl rfl rfl rfl rfl rfl
  · exact h.congr rfl rfl rfl rfl rfl rfl
  · refine ⟨h.pc, h.epc, h.status, ?_, h.g0, h.chest⟩
    show (v &&& ~~~0xFFF#64).toNat % 4096 = 0
    rw [show (4096 : Nat) = 2 ^ 12 from rfl, ← BitVec.toNat_setWidth]
    rw [show (v &&& ~~~0xFFF#64).setWidth 12 = 0#12 from by
      rw [BitVec.setWidth_and]; rw [show (~~~0xFFF#64).setWidth 12 = 0#12 from by decide]; exact BitVec.and_zero]
    rfl
  all_goals exact h.congr rfl rfl rfl rfl rfl rfl

end Sys2Proof.Machine
end

