-- ==== Sys2Proof/Laws/KeepsSite.lean ====
section
/-! SUPPORT. That the words and operations of every block, the queues, the Tally, the loops, the axes, the Bell, the Mill, the Reeve and the pair keep the invariant and the queue (`Keeps`), one lemma per function. -/

namespace Sys2Proof.Machine

open State

variable {s₀ : State}

/-! ### Ops -/

theorem State.draw_keeps {s : State} (h : Keeps s₀ s) : Keeps s₀ (State.draw s).2 := by
  unfold State.draw
  with_reducible repeat'
    first | assumption | intro _ | apply Keeps.ite | apply Keeps.iteP | split | refine Keeps.ofEq (by assumption) ?_
          | refine Keeps.ofSome (by assumption) ?_ | dsimp only | apply Keeps.upd

theorem State.drawBytes_keeps {s : State} (h : Keeps s₀ s) (n : Nat) : Keeps s₀ (State.drawBytes s n).2 := by
  unfold State.drawBytes
  with_reducible repeat'
    first | assumption | intro _ | apply Keeps.ite | apply Keeps.iteP | split | refine Keeps.ofEq (by assumption) ?_
          | refine Keeps.ofSome (by assumption) ?_ | dsimp only | apply Keeps.upd

theorem State.set_keeps {s : State} (h : Keeps s₀ s) (f : Fld) (v i j : Nat) : Keeps s₀ (State.set s f v i j) := by
  unfold State.set
  with_reducible repeat'
    first | assumption | intro _ | apply Keeps.ite | split | refine Keeps.ofEq (by assumption) ?_ | refine Keeps.ofSome (by assumption) ?_
          | dsimp only | apply Keeps.upd

theorem State.setStaged_keeps {s : State} (h : Keeps s₀ s) (f : Fld) (v i j : Nat) : Keeps s₀ (State.setStaged s f v i j) := by
  unfold State.setStaged
  with_reducible repeat'
    first | assumption | intro _ | apply Keeps.ite | split | refine Keeps.ofEq (by assumption) ?_ | refine Keeps.ofSome (by assumption) ?_
          | dsimp only | apply Keeps.upd

theorem State.setB_keeps {s : State} (h : Keeps s₀ s) (f : Fld) (b : Bool) (i j : Nat) : Keeps s₀ (State.setB s f b i j) := by
  unfold State.setB
  with_reducible repeat' first | assumption | intro _ | apply set_keeps

theorem State.setMask_keeps {s : State} (h : Keeps s₀ s) (f : Fld) (n : Nat) (b : Bool) (i : Nat) : Keeps s₀ (State.setMask s f n b i) := by
  unfold State.setMask
  with_reducible repeat' first | assumption | intro _ | apply set_keeps

theorem State.bump_keeps {s : State} (h : Keeps s₀ s) (f : Fld) (i : Nat) (by' : Nat) : Keeps s₀ (State.bump s f i by') := by
  unfold State.bump
  with_reducible repeat' first | assumption | intro _ | apply set_keeps

theorem State.stagedToLive_keeps {s : State} (h : Keeps s₀ s) (lo hi : Nat) : Keeps s₀ (State.stagedToLive s lo hi) := by
  unfold State.stagedToLive
  with_reducible repeat'
    first | assumption | intro _ | apply Keeps.ite | split | refine Keeps.ofEq (by assumption) ?_ | refine Keeps.ofSome (by assumption) ?_
          | dsimp only | apply Keeps.upd

theorem State.liveToStaged_keeps {s : State} (h : Keeps s₀ s) (lo hi : Nat) : Keeps s₀ (State.liveToStaged s lo hi) := by
  unfold State.liveToStaged
  with_reducible repeat'
    first | assumption | intro _ | apply Keeps.ite | split | refine Keeps.ofEq (by assumption) ?_ | refine Keeps.ofSome (by assumption) ?_
          | dsimp only | apply Keeps.upd

theorem State.loadLive_keeps {s : State} (h : Keeps s₀ s) (b index v : Nat) : Keeps s₀ (State.loadLive s b index v) := by
  unfold State.loadLive
  with_reducible repeat' first | assumption | intro _ | apply set_keeps | apply Keeps.foldl | apply Keeps.foldlP | apply Keeps.ite

theorem State.loadStaged_keeps {s : State} (h : Keeps s₀ s) (b index v : Nat) : Keeps s₀ (State.loadStaged s b index v) := by
  unfold State.loadStaged
  with_reducible repeat' first | assumption | intro _ | apply setStaged_keeps | apply Keeps.foldl | apply Keeps.foldlP | apply Keeps.ite

theorem State.afterStart_keeps {s : State} (h : Keeps s₀ s) (b lo hi : Nat) : Keeps s₀ (State.afterStart s b lo hi) := by
  unfold State.afterStart
  with_reducible repeat'
    first | assumption | intro _ | apply Keeps.ite | split | refine Keeps.ofEq (by assumption) ?_ | refine Keeps.ofSome (by assumption) ?_
          | dsimp only | apply Keeps.upd

theorem State.setF_keeps {s : State} (h : Keeps s₀ s) (f : Fld) (v : Word) (i : Nat) : Keeps s₀ (State.setF s f v i) := by
  unfold State.setF
  with_reducible repeat' first | assumption | intro _ | apply set_keeps

theorem State.setApplies_keeps {s : State} (h : Keeps s₀ s) (b : Nat) (a : Applies) : Keeps s₀ (State.setApplies s b a) := by
  unfold State.setApplies
  with_reducible repeat'
    first | assumption | intro _ | apply Keeps.ite | split | refine Keeps.ofEq (by assumption) ?_ | refine Keeps.ofSome (by assumption) ?_
          | dsimp only | apply Keeps.upd

theorem State.pend_keeps {s : State} (h : Keeps s₀ s) (c : Core) (src : Nat) : Keeps s₀ (State.pend s c src) := by
  unfold State.pend
  with_reducible repeat'
    first | exact fun i => (core_ok i _).congr rfl rfl rfl rfl rfl rfl
          | exact fun i => have k := core_ok i _; ⟨pcFit_fit _, k.epc, k.status, k.evec, k.g0, k.chest⟩
          | exact fun i => (core_ok i _).stop | assumption | intro _ | apply setCore_keeps

theorem State.pendAll_keeps {s : State} (h : Keeps s₀ s) (src : Nat) : Keeps s₀ (State.pendAll s src) := by
  unfold State.pendAll
  with_reducible repeat'
    first | exact fun i => (core_ok i _).congr rfl rfl rfl rfl rfl rfl
          | exact fun i => have k := core_ok i _; ⟨pcFit_fit _, k.epc, k.status, k.evec, k.g0, k.chest⟩
          | exact fun i => (core_ok i _).stop | assumption | intro _ | apply pend_keeps

theorem State.unpend_keeps {s : State} (h : Keeps s₀ s) (c : Core) (src : Nat) : Keeps s₀ (State.unpend s c src) := by
  unfold State.unpend
  with_reducible repeat'
    first | exact fun i => (core_ok i _).congr rfl rfl rfl rfl rfl rfl
          | exact fun i => have k := core_ok i _; ⟨pcFit_fit _, k.epc, k.status, k.evec, k.g0, k.chest⟩
          | exact fun i => (core_ok i _).stop | assumption | intro _ | apply setCore_keeps

theorem State.unpendAll_keeps {s : State} (h : Keeps s₀ s) (src : Nat) : Keeps s₀ (State.unpendAll s src) := by
  unfold State.unpendAll
  with_reducible repeat'
    first | exact fun i => (core_ok i _).congr rfl rfl rfl rfl rfl rfl
          | exact fun i => have k := core_ok i _; ⟨pcFit_fit _, k.epc, k.status, k.evec, k.g0, k.chest⟩
          | exact fun i => (core_ok i _).stop | assumption | intro _ | apply unpend_keeps

theorem State.raise_keeps {s : State} (h : Keeps s₀ s) (code index : Nat) (owner : Option Nat) :
    Keeps s₀ (State.raise s code index owner) := by
  unfold State.raise
  with_reducible repeat'
    first | assumption | intro _ | apply set_keeps | apply pend_keeps | apply Keeps.ite | split | refine Keeps.ofEq (by assumption) ?_
          | refine Keeps.ofSome (by assumption) ?_ | dsimp only | apply Keeps.upd

theorem State.warnOnce_keeps {s : State} (h : Keeps s₀ s) (code key index : Nat) : Keeps s₀ (State.warnOnce s code key index) := by
  unfold State.warnOnce
  with_reducible repeat'
    first | assumption | intro _ | apply raise_keeps | apply Keeps.ite | split | refine Keeps.ofEq (by assumption) ?_
          | refine Keeps.ofSome (by assumption) ?_ | dsimp only | apply Keeps.upd

theorem State.eccFix_keeps {s : State} (h : Keeps s₀ s) (found : Nat → Bool) : Keeps s₀ (State.eccFix s found) := by
  unfold State.eccFix
  with_reducible repeat'
    first | assumption | intro _ | apply set_keeps | apply bump_keeps | apply raise_keeps | apply Keeps.ite | split
          | refine Keeps.ofEq (by assumption) ?_ | refine Keeps.ofSome (by assumption) ?_ | dsimp only | apply Keeps.upd

theorem State.eccRead_keeps {s : State} (h : Keeps s₀ s) (a n : Nat) : Keeps s₀ (State.eccRead s a n) := by
  unfold State.eccRead
  with_reducible repeat' first | assumption | intro _ | apply eccFix_keeps

theorem State.eccBad_keeps {s : State} (h : Keeps s₀ s) (a n : Nat) : Keeps s₀ (State.eccBad s a n) := by
  unfold State.eccBad
  with_reducible repeat' first | assumption | intro _ | apply set_keeps | apply setB_keeps | apply raise_keeps

theorem State.touch_keeps {s : State} (h : Keeps s₀ s) (a n : Nat) : Keeps s₀ (State.touch s a n) := by
  unfold State.touch
  with_reducible repeat' first | assumption | intro _ | apply eccRead_keeps | apply eccBad_keeps | apply Keeps.ite

theorem State.lockedWrite_keeps {s : State} (h : Keeps s₀ s) : Keeps s₀ (State.lockedWrite s) := by
  unfold State.lockedWrite
  with_reducible repeat'
    first | assumption | intro _ | apply bump_keeps | apply raise_keeps | apply Keeps.ite | split | refine Keeps.ofEq (by assumption) ?_
          | refine Keeps.ofSome (by assumption) ?_ | dsimp only | apply Keeps.upd

theorem State.store_keeps {s : State} (h : Keeps s₀ s) (a : Nat) (bs : List Byte) (w : Option Engine) (xfer : Bool) :
    Keeps s₀ (State.store s a bs w xfer) := by
  unfold State.store
  with_reducible repeat'
    first | assumption | intro _ | apply writeRaw_keeps | apply lockedWrite_keeps | apply Keeps.foldl | apply Keeps.foldlP
          | apply Keeps.ite | split | refine Keeps.ofEq (by assumption) ?_ | refine Keeps.ofSome (by assumption) ?_ | dsimp only
          | apply Keeps.upd

theorem State.setSeq_keeps {s : State} (h : Keeps s₀ s) (q : Nat) (x : Sequencer) : Keeps s₀ (State.setSeq s q x) := by
  unfold State.setSeq
  with_reducible repeat'
    first | assumption | intro _ | apply Keeps.ite | split | refine Keeps.ofEq (by assumption) ?_ | refine Keeps.ofSome (by assumption) ?_
          | dsimp only | apply Keeps.upd

theorem State.xferDone_keeps {s : State} (h : Keeps s₀ s) (q : Nat) : Keeps s₀ (State.xferDone s q) := by
  unfold State.xferDone
  with_reducible repeat' first | assumption | intro _ | apply setSeq_keeps

theorem State.unstall_keeps {s : State} (h : Keeps s₀ s) (w : StalledWrite) : Keeps s₀ (State.unstall s w) := by
  unfold State.unstall
  with_reducible repeat' first | assumption | intro _ | apply store_keeps | apply xferDone_keeps | apply Keeps.ite | split

theorem State.zeroRaw_keeps {s : State} (h : Keeps s₀ s) (a n : Nat) (on : Nat → Bool) : Keeps s₀ (s.zeroRaw a n on) := by
  refine ⟨fun i => ?_, h.queue⟩
  have j := h.inv i
  exact ⟨Memory.wf_filter _ j.mem, j.kernel.congr rfl rfl rfl rfl rfl rfl, j.core2.congr rfl rfl rfl rfl rfl rfl,
    j.core3.congr rfl rfl rfl rfl rfl rfl⟩

theorem State.zeroFill_keeps {s : State} (h : Keeps s₀ s) (a n : Nat) : Keeps s₀ (State.zeroFill s a n) := by
  unfold State.zeroFill
  with_reducible repeat'
    first | assumption | intro _ | apply lockedWrite_keeps | apply zeroRaw_keeps | apply Keeps.foldl | apply Keeps.foldlP
          | apply Keeps.ite | split | refine Keeps.ofEq (by assumption) ?_ | refine Keeps.ofSome (by assumption) ?_ | dsimp only
          | apply Keeps.upd

theorem State.keepResvs_keeps {s : State} (h : Keeps s₀ s) (old : State) : Keeps s₀ (s.keepResvs old) := by
  refine ⟨fun i => ?_, h.queue⟩
  have j := h.inv i
  exact ⟨j.mem, j.kernel.congr rfl rfl rfl rfl rfl rfl, j.core2.congr rfl rfl rfl rfl rfl rfl, j.core3.congr rfl rfl rfl rfl rfl rfl⟩

theorem State.l2WriteBack_keeps {s : State} (h : Keeps s₀ s) (l : Nat) : Keeps s₀ (s.l2WriteBack l) := by
  unfold State.l2WriteBack
  split
  · rename_i x _
    split
    · have k := State.keepResvs_keeps (State.store_keeps h (l * 64) x.bytes none false) s
      exact ⟨fun i => have j := k.inv i; ⟨j.mem, j.kernel, j.core2, j.core3⟩, k.queue⟩
    · exact h
  · exact h

theorem State.l2Drop_keeps {s : State} (h : Keeps s₀ s) (l : Nat) : Keeps s₀ (State.l2Drop s l) := by
  unfold State.l2Drop
  with_reducible repeat'
    first | assumption | intro _ | apply Keeps.ite | split | refine Keeps.ofEq (by assumption) ?_ | refine Keeps.ofSome (by assumption) ?_
          | dsimp only | apply Keeps.upd

theorem State.l2Evict_keeps {s : State} (h : Keeps s₀ s) : Keeps s₀ (State.l2Evict s) := by
  unfold State.l2Evict
  with_reducible repeat'
    first | assumption | intro _ | apply draw_keeps | apply l2WriteBack_keeps | apply l2Drop_keeps | apply Keeps.ite | split
          | refine Keeps.ofEq (by assumption) ?_ | refine Keeps.ofSome (by assumption) ?_ | dsimp only

theorem State.l2Fill_keeps {s : State} (h : Keeps s₀ s) (l : Nat) : Keeps s₀ (State.l2Fill s l) := by
  unfold State.l2Fill
  with_reducible repeat'
    first | assumption | intro _ | apply eccRead_keeps | apply l2Evict_keeps | apply Keeps.ite | split
          | refine Keeps.ofEq (by assumption) ?_ | refine Keeps.ofSome (by assumption) ?_ | dsimp only | apply Keeps.upd

theorem State.hubRead_keeps {s : State} (h : Keeps s₀ s) (a n : Nat) : Keeps s₀ (State.hubRead s a n).2 := by
  unfold State.hubRead
  with_reducible repeat'
    first | assumption | intro _ | apply eccRead_keeps | apply l2Fill_keeps | apply Keeps.foldl | apply Keeps.foldlP | apply Keeps.ite

theorem State.hubPut_keeps {s : State} (h : Keeps s₀ s) (c : Core) (a : Nat) (bs : List Byte) : Keeps s₀ (s.hubPut c a bs) := by
  unfold State.hubPut
  dsimp only
  split
  · have k := State.store_keeps h a bs (some (.hub c)) false
    split
    · exact ⟨fun i => have j := k.inv i; ⟨j.mem, j.kernel, j.core2, j.core3⟩, k.queue⟩
    · exact k
  · have k := State.l2Fill_keeps h (a / 64)
    split
    · refine ⟨fun i => ?_, k.queue⟩
      have j := k.inv i
      exact ⟨j.mem, j.kernel.congr rfl rfl rfl rfl rfl rfl, j.core2.congr rfl rfl rfl rfl rfl rfl, j.core3.congr rfl rfl rfl rfl rfl rfl⟩
    · exact State.store_keeps k a bs (some (.hub c)) false

theorem State.hubWrite_keeps {s : State} (h : Keeps s₀ s) (c : Core) (a : Nat) (bs : List Byte) : Keeps s₀ (State.hubWrite s c a bs) := by
  unfold State.hubWrite
  with_reducible repeat' first | assumption | intro _ | apply hubPut_keeps | apply Keeps.foldl

theorem State.pass_keeps {s : State} (h : Keeps s₀ s) (r : Nat) : Keeps s₀ (s.pass r) := by
  unfold State.pass
  extract_lets now nets age acc left site src servo hub t
  have k : Keeps s₀ t := Keeps.ite h (State.set_keeps h _ _ _ _)
  refine ⟨fun i => ?_, k.queue⟩
  have j := k.inv i
  exact ⟨j.mem, j.kernel.tickBy _ _, j.core2.tickBy _ _, j.core3.tickBy _ _⟩

theorem State.moveTo_keeps {s : State} (h : Keeps s₀ s) (off : Nat) : Keeps s₀ (State.moveTo s off) := by
  unfold State.moveTo
  with_reducible repeat' first | assumption | intro _ | apply set_keeps | apply pass_keeps

theorem State.passInCycle_keeps {s : State} (h : Keeps s₀ s) (r : Nat) : Keeps s₀ (State.passInCycle s r) := by
  unfold State.passInCycle
  with_reducible repeat' first | assumption | intro _ | apply set_keeps | apply pass_keeps

theorem State.reach_keeps {s : State} (h : Keeps s₀ s) (at' : Nat) : ∀ t, s.reach at' = some t → Keeps s₀ t := by
  intro t e
  unfold State.reach at e
  split at e
  · cases e; exact h
  · split at e
    · cases e; exact State.passInCycle_keeps h _
    · cases e

theorem State.reachUs_keeps {s : State} (h : Keeps s₀ s) (us : Nat) : ∀ t, s.reachUs us = some t → Keeps s₀ t :=
  State.reach_keeps h _

theorem State.reachSite_keeps {s : State} (h : Keeps s₀ s) (ps : Nat) : ∀ t, s.reachSite ps = some t → Keeps s₀ t := by
  intro t e
  unfold State.reachSite at e
  split at e
  · cases e; exact h
  · split at e
    · cases e; exact State.passInCycle_keeps h _
    · cases e

theorem State.chestSet_keeps {s : State} (h : Keeps s₀ s) (loc : Nat) (v : Word) : Keeps s₀ (State.chestSet s loc v) := by
  unfold State.chestSet
  with_reducible repeat'
    first | assumption | intro _ | apply Keeps.ite | split | refine Keeps.ofEq (by assumption) ?_ | refine Keeps.ofSome (by assumption) ?_
          | dsimp only | apply Keeps.upd

theorem State.askIsland_keeps {s : State} (h : Keeps s₀ s) (i : Island) : Keeps s₀ (State.askIsland s i) := by
  unfold State.askIsland
  with_reducible repeat'
    first | assumption | intro _ | apply Keeps.ite | split | refine Keeps.ofEq (by assumption) ?_ | refine Keeps.ofSome (by assumption) ?_
          | dsimp only | apply Keeps.upd

theorem State.makeApply_keeps {s : State} (h : Keeps s₀ s) (b code : Nat) (ok : Bool) : Keeps s₀ (State.makeApply s b code ok) := by
  unfold State.makeApply
  with_reducible repeat'
    first | assumption | intro _ | apply stagedToLive_keeps | apply setApplies_keeps | apply pend_keeps | apply raise_keeps
          | apply Keeps.ite | split | refine Keeps.ofEq (by assumption) ?_ | refine Keeps.ofSome (by assumption) ?_ | dsimp only

theorem State.askStart_keeps {s : State} (h : Keeps s₀ s) (w : Starter) : Keeps s₀ (State.askStart s w) := by
  unfold State.askStart
  with_reducible repeat'
    first | assumption | intro _ | apply Keeps.ite | split | refine Keeps.ofEq (by assumption) ?_ | refine Keeps.ofSome (by assumption) ?_
          | dsimp only | apply Keeps.upd

theorem State.dropStart_keeps {s : State} (h : Keeps s₀ s) (w : Starter) : Keeps s₀ (State.dropStart s w) := by
  unfold State.dropStart
  with_reducible repeat'
    first | assumption | intro _ | apply Keeps.ite | split | refine Keeps.ofEq (by assumption) ?_ | refine Keeps.ofSome (by assumption) ?_
          | dsimp only | apply Keeps.upd

theorem State.deviceReset_keeps {s : State} (h : Keeps s₀ s) (cause code : Nat) : Keeps s₀ (s.deviceReset cause code) := by
  unfold State.deviceReset
  have key : ∀ t : State, t.pending = s.pending → t.mem = s.mem → t.kernel = {} → t.core2 = {} → t.core3 = {} → Keeps s₀ t :=
    fun t hp hm hk h2 h3 => ⟨fun i => ⟨hm ▸ (h.inv i).mem, hk ▸ CoreOk.default, h2 ▸ CoreOk.default, h3 ▸ CoreOk.default⟩,
      hp.trans h.queue⟩
  dsimp only
  with_reducible repeat' first | apply set_keeps | apply setB_keeps
  exact key _ rfl rfl rfl rfl rfl

theorem State.holdReset_keeps {s : State} (h : Keeps s₀ s) (h : HoldCause) : Keeps s₀ (State.holdReset s h) := by
  unfold State.holdReset
  with_reducible repeat'
    first | assumption | intro _ | apply Keeps.ite | split | refine Keeps.ofEq (by assumption) ?_ | refine Keeps.ofSome (by assumption) ?_
          | dsimp only | apply Keeps.upd

theorem State.freeReset_keeps {s : State} (h : Keeps s₀ s) (h : HoldCause) : Keeps s₀ (State.freeReset s h) := by
  unfold State.freeReset
  with_reducible repeat'
    first | assumption | intro _ | apply Keeps.ite | split | refine Keeps.ofEq (by assumption) ?_ | refine Keeps.ofSome (by assumption) ?_
          | dsimp only | apply Keeps.upd

theorem State.kettleReset_keeps {s : State} (h : Keeps s₀ s) (code : Nat) : Keeps s₀ (State.kettleReset s code) := by
  unfold State.kettleReset
  with_reducible repeat' first | assumption | intro _ | apply deviceReset_keeps

/-! ### Queues -/

theorem State.setQueue_keeps {s : State} (h : Keeps s₀ s) (q : Nat) (u : QUnit) : Keeps s₀ (State.setQueue s q u) := by
  unfold State.setQueue
  with_reducible repeat'
    first | assumption | intro _ | apply set_keeps | apply setB_keeps | apply Keeps.ite | split | refine Keeps.ofEq (by assumption) ?_
          | refine Keeps.ofSome (by assumption) ?_ | dsimp only | apply Keeps.upd

theorem State.qDrop_keeps {s : State} (h : Keeps s₀ s) (q : Nat) : Keeps s₀ (State.qDrop s q) := by
  unfold State.qDrop
  with_reducible repeat'
    first | assumption | intro _ | apply bump_keeps | apply raise_keeps | apply setQueue_keeps | apply Keeps.ite | split
          | refine Keeps.ofEq (by assumption) ?_ | refine Keeps.ofSome (by assumption) ?_ | dsimp only

theorem State.qPush_keeps {s : State} (h : Keeps s₀ s) (q : Nat) (body : List Byte) : Keeps s₀ (State.qPush s q body).2 := by
  unfold State.qPush
  with_reducible repeat'
    first | assumption | intro _ | apply raise_keeps | apply setQueue_keeps | apply qDrop_keeps | apply Keeps.ite | apply Keeps.iteP

theorem State.qPushHw_keeps {s : State} (h : Keeps s₀ s) (q : Nat) (body : List Byte) : Keeps s₀ (State.qPushHw s q body) := by
  unfold State.qPushHw
  with_reducible repeat'
    first | assumption | intro _ | apply setQueue_keeps | apply qPush_keeps | apply Keeps.ite | split
          | refine Keeps.ofEq (by assumption) ?_

theorem State.qPop_keeps {s : State} (h : Keeps s₀ s) (q : Nat) : Keeps s₀ (State.qPop s q).2 := by
  unfold State.qPop
  with_reducible repeat'
    first | assumption | intro _ | apply setQueue_keeps | apply Keeps.ite | apply Keeps.iteP | split
          | refine Keeps.ofEq (by assumption) ?_ | refine Keeps.ofSome (by assumption) ?_ | dsimp only

theorem execQueueItemVisible_keeps {s : State} (h : Keeps s₀ s) (q : Fin 48) : KeepsR s₀ (execQueueItemVisible q s) := by
  unfold execQueueItemVisible
  with_reducible repeat' first | assumption | intro _ | apply setQueue_keeps | apply KeepsR.ite | apply KeepsR.next

theorem State.gatedRelease_keeps {s : State} (h : Keeps s₀ s) (open' : Bool) : Keeps s₀ (State.gatedRelease s open') := by
  unfold State.gatedRelease
  with_reducible repeat'
    first | assumption | intro _ | apply bump_keeps | apply setQueue_keeps | apply Keeps.foldl | apply Keeps.foldlP | apply Keeps.ite

theorem execMarkerClose_keeps {s : State} (h : Keeps s₀ s) (q : Fin 48) : KeepsR s₀ (execMarkerClose q s) := by
  unfold execMarkerClose
  with_reducible repeat' first | assumption | intro _ | apply setQueue_keeps | apply KeepsR.ite | apply KeepsR.next

theorem execPrivStall_keeps {s : State} (h : Keeps s₀ s) (q : Fin 48) : KeepsR s₀ (execPrivStall q s) := by
  unfold execPrivStall
  with_reducible repeat'
    first | assumption | refine reachUs_keeps ?_ _ | intro _ | apply raise_keeps | apply setQueue_keeps | apply KeepsR.ite
          | apply KeepsR.next | apply Keeps.ite | split | refine Keeps.ofEq (by assumption) ?_ | refine Keeps.ofSome (by assumption) ?_

theorem execPrivWriteResume_keeps {s : State} (h : Keeps s₀ s) (q : Fin 48) : KeepsR s₀ (execPrivWriteResume q s) := by
  unfold execPrivWriteResume
  with_reducible repeat'
    first | assumption | intro _ | apply setQueue_keeps | apply KeepsR.ite | apply KeepsR.next | apply Keeps.ite | split
          | refine Keeps.ofEq (by assumption) ?_ | refine Keeps.ofSome (by assumption) ?_ | dsimp only

theorem State.queueEnable_keeps {s : State} (h : Keeps s₀ s) (q : Nat) : Keeps s₀ (State.queueEnable s q) := by
  unfold State.queueEnable
  with_reducible repeat' first | assumption | intro _ | apply set_keeps | apply raise_keeps | apply setQueue_keeps | apply Keeps.ite

theorem execQueueEnable_keeps {s : State} (h : Keeps s₀ s) (q : Fin 48) : KeepsR s₀ (execQueueEnable q s) := by
  unfold execQueueEnable
  with_reducible repeat' first | assumption | intro _ | apply queueEnable_keeps | apply KeepsR.ite | apply KeepsR.next

theorem State.queueDisable_keeps {s : State} (h : Keeps s₀ s) (q : Nat) : Keeps s₀ (State.queueDisable s q) := by
  unfold State.queueDisable
  with_reducible repeat' first | assumption | intro _ | apply set_keeps | apply Keeps.ite

theorem execQueueDisable_keeps {s : State} (h : Keeps s₀ s) (q : Fin 48) : KeepsR s₀ (execQueueDisable q s) := by
  unfold execQueueDisable
  with_reducible repeat' first | assumption | intro _ | apply queueDisable_keeps | apply KeepsR.ite | apply KeepsR.next

theorem State.queueFlush_keeps {s : State} (h : Keeps s₀ s) (q : Nat) : Keeps s₀ (State.queueFlush s q) := by
  unfold State.queueFlush
  with_reducible repeat' first | assumption | intro _ | apply raise_keeps | apply setQueue_keeps | apply Keeps.ite

theorem State.unitStart_keeps {s : State} (h : Keeps s₀ s) (q : Nat) : Keeps s₀ (State.unitStart s q) := by
  unfold State.unitStart
  with_reducible repeat' first | assumption | intro _ | apply set_keeps | apply setQueue_keeps

theorem State.unitStop_keeps {s : State} (h : Keeps s₀ s) (q : Nat) : Keeps s₀ (State.unitStop s q) := by
  unfold State.unitStop
  with_reducible repeat' first | assumption | intro _ | apply set_keeps | apply setQueue_keeps

theorem State.qCross_keeps {s : State} (h : Keeps s₀ s) (q : Nat) (f : List Byte) : Keeps s₀ (State.qCross s q f).2 := by
  unfold State.qCross
  with_reducible repeat'
    first | assumption | intro _ | apply setQueue_keeps | apply qPush_keeps | apply Keeps.ite | apply Keeps.iteP | split
          | refine Keeps.ofEq (by assumption) ?_

theorem execQueueFlush_keeps {s : State} (h : Keeps s₀ s) (q : Fin 48) : KeepsR s₀ (execQueueFlush q s) := by
  unfold execQueueFlush
  with_reducible repeat' first | assumption | intro _ | apply queueFlush_keeps | apply KeepsR.ite | apply KeepsR.next

theorem State.ringTake_keeps {s : State} (h : Keeps s₀ s) (q : Nat) : ∀ t, s.ringTake q = some t → Keeps s₀ t := by
  intro t e
  unfold State.ringTake at e
  dsimp only at e
  split at e
  · cases e
    have h1 : Keeps s₀ ((s.touch (s.get Fld.queueRingAddr q * 256 + 4) 4).touch
        (s.get Fld.queueRingAddr q * 256 + 64 + 16 * (s.readLE (s.get Fld.queueRingAddr q * 256 + 4) 4 % 256)) 16) :=
      State.touch_keeps (State.touch_keeps h _ _) _ _
    refine State.store_keeps (State.store_keeps ?_ _ _ _ _) _ _ _ _
    exact Keeps.ite (State.qPush_keeps (State.touch_keeps h1 _ _) _ _) (State.qDrop_keeps (State.raise_keeps h1 _ _ _) _)
  · cases e

theorem State.ringPoll_keeps {s : State} (h : Keeps s₀ s) (n q : Nat) : Keeps s₀ (State.ringPoll n q s) := by
  induction n generalizing s with
  | zero => exact h
  | succ n ih =>
    unfold State.ringPoll
    split
    · exact ih (State.ringTake_keeps h q _ (by assumption))
    · exact h

theorem execMillRingPoll_keeps {s : State} (h : Keeps s₀ s) (q : Fin 48) : KeepsR s₀ (execMillRingPoll q s) := by
  unfold execMillRingPoll
  with_reducible repeat' first | assumption | intro _ | apply ringPoll_keeps | apply KeepsR.ite | apply KeepsR.next

/-! ### Tally -/

theorem State.accumulate_keeps {s : State} (h : Keeps s₀ s) (m k : Nat) (e : Word) : Keeps s₀ (State.accumulate s m k e) := by
  unfold State.accumulate
  with_reducible repeat'
    first | assumption | intro _ | apply Keeps.ite | split | refine Keeps.ofEq (by assumption) ?_ | refine Keeps.ofSome (by assumption) ?_
          | dsimp only | apply Keeps.upd

theorem State.tallyPair_keeps {s : State} (h : Keeps s₀ s) (m : Nat) (ws : List Word32) : Keeps s₀ (State.tallyPair s m ws) := by
  unfold State.tallyPair
  with_reducible repeat'
    first | assumption | intro _ | apply Keeps.ite | split | refine Keeps.ofEq (by assumption) ?_ | refine Keeps.ofSome (by assumption) ?_
          | dsimp only | apply Keeps.upd

theorem State.accumulateAll_keeps {s : State} (h : Keeps s₀ s) (m : Nat) (p q sv ep eq es : Word) :
    Keeps s₀ (State.accumulateAll s m p q sv ep eq es) := by
  unfold State.accumulateAll
  with_reducible repeat' first | assumption | intro _ | apply setB_keeps | apply accumulate_keeps | apply Keeps.ite

theorem State.intervalChan_keeps {s : State} (h : Keeps s₀ s) (m clks : Nat) : Keeps s₀ (State.intervalChan s m clks) := by
  unfold State.intervalChan
  with_reducible repeat'
    first | assumption | intro _ | apply set_keeps | apply setB_keeps | apply setF_keeps | apply warnOnce_keeps
          | apply accumulateAll_keeps | apply Keeps.ite

theorem State.beginInterval_keeps {s : State} (h : Keeps s₀ s) (at' : Nat) : Keeps s₀ (State.beginInterval s at') := by
  unfold State.beginInterval
  with_reducible repeat'
    first | assumption | intro _ | apply Keeps.ite | split | refine Keeps.ofEq (by assumption) ?_ | refine Keeps.ofSome (by assumption) ?_
          | dsimp only | apply Keeps.upd

theorem State.closeInterval_keeps {s : State} (h : Keeps s₀ s) (at' : Nat) : Keeps s₀ (State.closeInterval s at') := by
  unfold State.closeInterval
  with_reducible repeat'
    first | assumption | intro _ | apply intervalChan_keeps | apply beginInterval_keeps | apply Keeps.foldl | apply Keeps.foldlP
          | apply Keeps.ite

theorem State.startSave_keeps {s : State} (h : Keeps s₀ s) : Keeps s₀ (State.startSave s) := by
  unfold State.startSave
  with_reducible repeat'
    first | assumption | intro _ | apply setB_keeps | apply Keeps.ite | split | refine Keeps.ofEq (by assumption) ?_
          | refine Keeps.ofSome (by assumption) ?_ | dsimp only | apply Keeps.upd

theorem State.intervalEnd_keeps {s : State} (h : Keeps s₀ s) : Keeps s₀ (State.intervalEnd s) := by
  unfold State.intervalEnd
  with_reducible repeat'
    first | assumption | intro _ | apply raise_keeps | apply beginInterval_keeps | apply closeInterval_keeps | apply startSave_keeps
          | apply Keeps.ite | split | refine Keeps.ofEq (by assumption) ?_ | refine Keeps.ofSome (by assumption) ?_ | dsimp only
          | apply Keeps.upd

theorem execIntervalEnd_keeps {s : State} (h : Keeps s₀ s) : KeepsR s₀ (execIntervalEnd s) := by
  unfold execIntervalEnd
  with_reducible repeat' first | assumption | intro _ | apply intervalEnd_keeps | apply KeepsR.ite | apply KeepsR.next

theorem State.tallyFrame_keeps {s : State} (h : Keeps s₀ s) (port : Nat) (ws : List Word32) : Keeps s₀ (State.tallyFrame s port ws) := by
  unfold State.tallyFrame
  with_reducible repeat'
    first | assumption | intro _ | apply tallyPair_keeps | apply intervalEnd_keeps | apply Keeps.foldl | apply Keeps.foldlP
          | apply Keeps.ite

theorem State.saveDone_keeps {s : State} (h : Keeps s₀ s) : Keeps s₀ (State.saveDone s) := by
  unfold State.saveDone
  with_reducible repeat'
    first | assumption | intro _ | apply setB_keeps | apply bump_keeps | apply Keeps.ite | split | refine Keeps.ofEq (by assumption) ?_
          | refine Keeps.ofSome (by assumption) ?_ | dsimp only | apply Keeps.upd

theorem execTallySaveDone_keeps {s : State} (h : Keeps s₀ s) : KeepsR s₀ (execTallySaveDone s) := by
  unfold execTallySaveDone
  with_reducible repeat'
    first | assumption | intro _ | apply chestSet_keeps | apply saveDone_keeps | apply Keeps.foldl | apply Keeps.foldlP | apply KeepsR.ite
          | apply KeepsR.next

theorem State.tallyFlush_keeps {s : State} (h : Keeps s₀ s) : Keeps s₀ (State.tallyFlush s) := by
  unfold State.tallyFlush
  with_reducible repeat'
    first | assumption | intro _ | apply setB_keeps | apply chestSet_keeps | apply closeInterval_keeps | apply intervalEnd_keeps
          | apply Keeps.ite | split | refine Keeps.ofEq (by assumption) ?_ | refine Keeps.ofSome (by assumption) ?_ | dsimp only
          | apply Keeps.upd

theorem execFlushDone_keeps {s : State} (h : Keeps s₀ s) : KeepsR s₀ (execFlushDone s) := by
  unfold execFlushDone
  with_reducible repeat'
    first | assumption | intro _ | apply setB_keeps | apply raise_keeps | apply chestSet_keeps | apply Keeps.foldl | apply Keeps.foldlP
          | apply KeepsR.ite | apply KeepsR.next | apply Keeps.ite | split | refine Keeps.ofEq (by assumption) ?_
          | refine Keeps.ofSome (by assumption) ?_ | dsimp only | apply Keeps.upd

theorem State.tallyResume_keeps {s : State} (h : Keeps s₀ s) : Keeps s₀ (State.tallyResume s) := by
  unfold State.tallyResume
  with_reducible repeat' first | assumption | intro _ | apply startSave_keeps | apply Keeps.ite

theorem State.tallyRun_keeps {s : State} (h : Keeps s₀ s) : Keeps s₀ (State.tallyRun s) := by
  unfold State.tallyRun
  with_reducible repeat'
    first | assumption | intro _ | apply setB_keeps | apply raise_keeps | apply Keeps.foldl | apply Keeps.foldlP | apply Keeps.ite | split
          | refine Keeps.ofEq (by assumption) ?_ | refine Keeps.ofSome (by assumption) ?_ | dsimp only | apply Keeps.upd

theorem execTallyRun_keeps {s : State} (h : Keeps s₀ s) : KeepsR s₀ (execTallyRun s) := by
  unfold execTallyRun
  with_reducible repeat' first | assumption | intro _ | apply tallyRun_keeps | apply KeepsR.ite | apply KeepsR.next

theorem State.tallyStop_keeps {s : State} (h : Keeps s₀ s) : Keeps s₀ (State.tallyStop s) := by
  unfold State.tallyStop
  with_reducible repeat'
    first | assumption | intro _ | apply closeInterval_keeps | apply startSave_keeps | apply intervalEnd_keeps | apply Keeps.ite | split
          | refine Keeps.ofEq (by assumption) ?_ | refine Keeps.ofSome (by assumption) ?_ | dsimp only | apply Keeps.upd

theorem execTallyStop_keeps {s : State} (h : Keeps s₀ s) : KeepsR s₀ (execTallyStop s) := by
  unfold execTallyStop
  with_reducible repeat' first | assumption | intro _ | apply tallyStop_keeps | apply KeepsR.ite | apply KeepsR.next

theorem State.tallyClear_keeps {s : State} (h : Keeps s₀ s) : Keeps s₀ (State.tallyClear s) := by
  unfold State.tallyClear
  with_reducible repeat'
    first | assumption | intro _ | apply raise_keeps | apply chestSet_keeps | apply Keeps.foldl | apply Keeps.foldlP | apply Keeps.ite

theorem execTallyClear_keeps {s : State} (h : Keeps s₀ s) : KeepsR s₀ (execTallyClear s) := by
  unfold execTallyClear
  with_reducible repeat' first | assumption | intro _ | apply tallyClear_keeps | apply KeepsR.ite | apply KeepsR.next

theorem State.tallySnap_keeps {s : State} (h : Keeps s₀ s) : Keeps s₀ (State.tallySnap s) := by
  unfold State.tallySnap
  with_reducible repeat' first | assumption | intro _ | apply set_keeps | apply Keeps.foldl

theorem execTallySnap_keeps {s : State} (h : Keeps s₀ s) : KeepsR s₀ (execTallySnap s) := by
  unfold execTallySnap
  with_reducible repeat' first | assumption | intro _ | apply tallySnap_keeps | apply KeepsR.ite | apply KeepsR.next

/-! ### Loop -/

theorem State.setLslot_keeps {s : State} (h : Keeps s₀ s) (n : Nat) (x : LoopSlot) : Keeps s₀ (State.setLslot s n x) := by
  unfold State.setLslot
  with_reducible repeat'
    first | assumption | intro _ | apply Keeps.ite | split | refine Keeps.ofEq (by assumption) ?_ | refine Keeps.ofSome (by assumption) ?_
          | dsimp only | apply Keeps.upd

theorem State.driveSlot_keeps {s : State} (h : Keeps s₀ s) (n : Nat) (u : Word) : Keeps s₀ (State.driveSlot s n u) := by
  unfold State.driveSlot
  with_reducible repeat'
    first | assumption | intro _ | apply setF_keeps | apply setLslot_keeps | apply Keeps.ite | split
          | refine Keeps.ofEq (by assumption) ?_ | refine Keeps.ofSome (by assumption) ?_ | dsimp only | apply Keeps.upd

theorem State.slotGpio_keeps {s : State} (h : Keeps s₀ s) (n : Nat) : Keeps s₀ (State.slotGpio s n) := by
  unfold State.slotGpio
  with_reducible repeat'
    first | assumption | intro _ | apply Keeps.ite | split | refine Keeps.ofEq (by assumption) ?_ | refine Keeps.ofSome (by assumption) ?_
          | dsimp only | apply Keeps.upd

theorem State.countClosed_keeps {s : State} (h : Keeps s₀ s) : Keeps s₀ (State.countClosed s) := by
  unfold State.countClosed
  with_reducible repeat' first | assumption | intro _ | apply set_keeps

theorem State.putSlotState_keeps {s : State} (h : Keeps s₀ s) (n st reason : Nat) : Keeps s₀ (State.putSlotState s n st reason) := by
  unfold State.putSlotState
  with_reducible repeat'
    first | assumption | intro _ | apply set_keeps | apply dropStart_keeps | apply slotGpio_keeps | apply countClosed_keeps
          | apply Keeps.ite

theorem State.holdOuter_keeps {s : State} (h : Keeps s₀ s) (n : Nat) : Keeps s₀ (State.holdOuter s n) := by
  unfold State.holdOuter
  with_reducible repeat' first | assumption | intro _ | apply putSlotState_keeps | apply Keeps.ite | split

theorem State.enterClosed_keeps {s : State} (h : Keeps s₀ s) (n : Nat) (stagger : Bool) : Keeps s₀ (State.enterClosed s n stagger) := by
  unfold State.enterClosed
  with_reducible repeat'
    first | assumption | intro _ | apply setB_keeps | apply askStart_keeps | apply setLslot_keeps | apply putSlotState_keeps
          | apply Keeps.ite

theorem State.enterOpen_keeps {s : State} (h : Keeps s₀ s) (n : Nat) : Keeps s₀ (State.enterOpen s n) := by
  unfold State.enterOpen
  with_reducible repeat' first | assumption | intro _ | apply driveSlot_keeps | apply putSlotState_keeps | apply holdOuter_keeps

theorem State.enterHeld_keeps {s : State} (h : Keeps s₀ s) (n reason : Nat) : Keeps s₀ (State.enterHeld s n reason) := by
  unfold State.enterHeld
  with_reducible repeat' first | assumption | intro _ | apply setLslot_keeps | apply putSlotState_keeps | apply holdOuter_keeps

theorem State.enterFailsafe_keeps {s : State} (h : Keeps s₀ s) (n reason : Nat) : Keeps s₀ (State.enterFailsafe s n reason) := by
  unfold State.enterFailsafe
  with_reducible repeat' first | assumption | intro _ | apply driveSlot_keeps | apply putSlotState_keeps | apply holdOuter_keeps

theorem State.slotMode_keeps {s : State} (h : Keeps s₀ s) (n : Nat) : Keeps s₀ (State.slotMode s n) := by
  unfold State.slotMode
  with_reducible repeat'
    first | assumption | intro _ | apply enterClosed_keeps | apply enterOpen_keeps | apply enterHeld_keeps | apply Keeps.ite | split

theorem State.closedOut_keeps {s : State} (h : Keeps s₀ s) (n : Nat) (x : LoopSlot) (u : Word) : Keeps s₀ (State.closedOut s n x u) := by
  unfold State.closedOut
  with_reducible repeat' first | assumption | intro _ | apply setB_keeps | apply setF_keeps | apply setLslot_keeps | apply driveSlot_keeps

theorem State.closeSample_keeps {s : State} (h : Keeps s₀ s) (n : Nat) (y : Word) : Keeps s₀ (State.closeSample s n y) := by
  unfold State.closeSample
  with_reducible repeat' first | assumption | intro _ | apply setB_keeps | apply raise_keeps | apply closedOut_keeps | apply Keeps.ite

theorem State.lawSample_keeps {s : State} (h : Keeps s₀ s) (n : Nat) (y : Word) : Keeps s₀ (State.lawSample s n y) := by
  unfold State.lawSample
  with_reducible repeat' first | assumption | intro _ | apply closedOut_keeps

theorem State.sampleSlot_keeps {s : State} (h : Keeps s₀ s) (n : Nat) : Keeps s₀ (State.sampleSlot s n) := by
  unfold State.sampleSlot
  with_reducible repeat'
    first | assumption | intro _ | apply bump_keeps | apply setF_keeps | apply raise_keeps | apply setLslot_keeps | apply driveSlot_keeps
          | apply enterClosed_keeps | apply enterHeld_keeps | apply enterFailsafe_keeps | apply closeSample_keeps | apply lawSample_keeps
          | apply Keeps.ite

theorem execLoopSample_keeps {s : State} (h : Keeps s₀ s) (slot : Fin 32) : KeepsR s₀ (execLoopSample slot s) := by
  unfold execLoopSample
  with_reducible repeat'
    first | assumption | refine reach_keeps ?_ _ | intro _ | apply setLslot_keeps | apply enterClosed_keeps | apply sampleSlot_keeps
          | apply KeepsR.ite | apply KeepsR.next | apply Keeps.ite | split | refine Keeps.ofEq (by assumption) ?_
          | refine Keeps.ofSome (by assumption) ?_ | dsimp only

theorem execSampleFrame_keeps {s : State} (h : Keeps s₀ s) (port : Fin 8) (item : SampleItem) :
    KeepsR s₀ (execSampleFrame port item s) := by
  unfold execSampleFrame
  with_reducible repeat'
    first | assumption | intro _ | apply bump_keeps | apply raise_keeps | apply qCross_keeps | apply tallyFrame_keeps | apply KeepsR.ite
          | apply KeepsR.next | apply Keeps.ite | split | refine Keeps.ofEq (by assumption) ?_ | refine Keeps.ofSome (by assumption) ?_
          | dsimp only | apply Keeps.upd

theorem State.loopClaimLost_keeps {s : State} (h : Keeps s₀ s) : Keeps s₀ (State.loopClaimLost s) := by
  unfold State.loopClaimLost
  with_reducible repeat' first | assumption | intro _ | apply enterHeld_keeps | apply Keeps.foldl | apply Keeps.foldlP | apply Keeps.ite

theorem State.loopClaimHeld_keeps {s : State} (h : Keeps s₀ s) : Keeps s₀ (State.loopClaimHeld s) := by
  unfold State.loopClaimHeld
  with_reducible repeat' first | assumption | intro _ | apply enterClosed_keeps | apply Keeps.foldl | apply Keeps.foldlP | apply Keeps.ite

theorem State.loopApplied_keeps {s : State} (h : Keeps s₀ s) (old : State) : Keeps s₀ (State.loopApplied s old) := by
  unfold State.loopApplied
  with_reducible repeat'
    first | assumption | intro _ | apply unitStart_keeps | apply unitStop_keeps | apply slotMode_keeps | apply Keeps.foldl
          | apply Keeps.foldlP | apply Keeps.ite | split | refine Keeps.ofEq (by assumption) ?_ | refine Keeps.ofSome (by assumption) ?_
          | dsimp only | apply Keeps.upd

theorem State.loopRun_keeps {s : State} (h : Keeps s₀ s) : Keeps s₀ (State.loopRun s) := by
  unfold State.loopRun
  with_reducible repeat'
    first | assumption | intro _ | apply setB_keeps | apply raise_keeps | apply Keeps.ite | split | refine Keeps.ofEq (by assumption) ?_
          | refine Keeps.ofSome (by assumption) ?_ | dsimp only | apply Keeps.upd

theorem execLoopRun_keeps {s : State} (h : Keeps s₀ s) : KeepsR s₀ (execLoopRun s) := by
  unfold execLoopRun
  with_reducible repeat' first | assumption | intro _ | apply loopRun_keeps | apply KeepsR.ite | apply KeepsR.next

theorem State.loopStop_keeps {s : State} (h : Keeps s₀ s) : Keeps s₀ (State.loopStop s) := by
  unfold State.loopStop
  with_reducible repeat'
    first | assumption | intro _ | apply setB_keeps | apply enterOpen_keeps | apply Keeps.foldl | apply Keeps.foldlP | apply Keeps.ite

theorem execLoopStop_keeps {s : State} (h : Keeps s₀ s) : KeepsR s₀ (execLoopStop s) := by
  unfold execLoopStop
  with_reducible repeat' first | assumption | intro _ | apply loopStop_keeps | apply KeepsR.ite | apply KeepsR.next

theorem execLoopCut_keeps {s : State} (h : Keeps s₀ s) : KeepsR s₀ (execLoopCut s) := by
  unfold execLoopCut
  with_reducible repeat' first | assumption | intro _ | apply store_keeps | apply moveTo_keeps | apply KeepsR.ite | apply KeepsR.next

theorem State.loadSlot_keeps {s : State} (h : Keeps s₀ s) (a n : Nat) : Keeps s₀ (State.loadSlot s a n) := by
  unfold State.loadSlot
  with_reducible repeat'
    first | assumption | intro _ | apply set_keeps | apply loadLive_keeps | apply loadStaged_keeps | apply setLslot_keeps
          | apply putSlotState_keeps | apply enterClosed_keeps | apply Keeps.foldl | apply Keeps.foldlP | apply Keeps.ite

theorem State.loopRestore_keeps {s : State} (h : Keeps s₀ s) : Keeps s₀ (State.loopRestore s) := by
  unfold State.loopRestore
  with_reducible repeat'
    first | assumption | intro _ | apply loadLive_keeps | apply loadStaged_keeps | apply afterStart_keeps | apply raise_keeps
          | apply touch_keeps | apply countClosed_keeps | apply loadSlot_keeps | apply Keeps.foldl | apply Keeps.foldlP | apply Keeps.ite
          | split | refine Keeps.ofEq (by assumption) ?_ | refine Keeps.ofSome (by assumption) ?_ | dsimp only | apply Keeps.upd

theorem execLoopRestore_keeps {s : State} (h : Keeps s₀ s) : KeepsR s₀ (execLoopRestore s) := by
  unfold execLoopRestore
  with_reducible repeat' first | assumption | intro _ | apply loopRestore_keeps | apply KeepsR.ite | apply KeepsR.next

/-! ### Axis -/

theorem State.setAxis_keeps {s : State} (h : Keeps s₀ s) (a : Nat) (x : Axis) : Keeps s₀ (State.setAxis s a x) := by
  unfold State.setAxis
  with_reducible repeat'
    first | assumption | intro _ | apply Keeps.ite | split | refine Keeps.ofEq (by assumption) ?_ | refine Keeps.ofSome (by assumption) ?_
          | dsimp only | apply Keeps.upd

theorem State.setPos_keeps {s : State} (h : Keeps s₀ s) (a : Nat) (p : Int) : Keeps s₀ (State.setPos s a p) := by
  unfold State.setPos
  with_reducible repeat' first | assumption | intro _ | apply set_keeps

theorem State.axFollow_keeps {s : State} (h : Keeps s₀ s) (a : Nat) : Keeps s₀ (State.axFollow s a) := by
  unfold State.axFollow
  with_reducible repeat' first | assumption | intro _ | apply setB_keeps | apply setAxis_keeps

theorem State.putAxState_keeps {s : State} (h : Keeps s₀ s) (a st reason : Nat) : Keeps s₀ (State.putAxState s a st reason) := by
  unfold State.putAxState
  with_reducible repeat' first | assumption | intro _ | apply set_keeps | apply dropStart_keeps | apply axFollow_keeps | apply Keeps.ite

theorem State.setHomed_keeps {s : State} (h : Keeps s₀ s) (a : Nat) (b : Bool) : Keeps s₀ (State.setHomed s a b) := by
  unfold State.setHomed
  with_reducible repeat' first | assumption | intro _ | apply setB_keeps | apply setMask_keeps

theorem State.loseHome_keeps {s : State} (h : Keeps s₀ s) (a : Nat) : Keeps s₀ (State.loseHome s a) := by
  unfold State.loseHome
  with_reducible repeat' first | assumption | intro _ | apply raise_keeps | apply setHomed_keeps

theorem State.standAt_keeps {s : State} (h : Keeps s₀ s) (a : Nat) (p : Int) : Keeps s₀ (State.standAt s a p) := by
  unfold State.standAt
  with_reducible repeat' first | assumption | intro _ | apply set_keeps | apply setAxis_keeps | apply setPos_keeps | apply axFollow_keeps

theorem State.beginMotion_keeps {s : State} (h : Keeps s₀ s) (a : Nat) (m : AxisMotion) (positive : Bool) :
    Keeps s₀ (State.beginMotion s a m positive) := by
  unfold State.beginMotion
  with_reducible repeat' first | assumption | intro _ | apply setAxis_keeps

theorem State.hardStop_keeps {s : State} (h : Keeps s₀ s) (a : Nat) : Keeps s₀ (State.hardStop s a) := by
  unfold State.hardStop
  with_reducible repeat' first | assumption | intro _ | apply standAt_keeps

theorem State.rampTo_keeps {s : State} (h : Keeps s₀ s) (a st reason : Nat) (fast : Bool) : Keeps s₀ (State.rampTo s a st reason fast) := by
  unfold State.rampTo
  with_reducible repeat' first | assumption | intro _ | apply setAxis_keeps

theorem State.limitEnd_keeps {s : State} (h : Keeps s₀ s) (a st reason : Nat) : Keeps s₀ (State.limitEnd s a st reason) := by
  unfold State.limitEnd
  with_reducible repeat' first | assumption | intro _ | apply putAxState_keeps | apply hardStop_keeps | apply rampTo_keeps | apply Keeps.ite

theorem State.homeDone_keeps {s : State} (h : Keeps s₀ s) (a : Nat) : Keeps s₀ (State.homeDone s a) := by
  unfold State.homeDone
  with_reducible repeat' first | assumption | intro _ | apply putAxState_keeps | apply setHomed_keeps | apply standAt_keeps

theorem State.homeEdge_keeps {s : State} (h : Keeps s₀ s) (a : Nat) : Keeps s₀ (State.homeEdge s a) := by
  unfold State.homeEdge
  with_reducible repeat' first | assumption | intro _ | apply set_keeps | apply setAxis_keeps | apply Keeps.ite

theorem State.homeFail_keeps {s : State} (h : Keeps s₀ s) (a : Nat) : Keeps s₀ (State.homeFail s a) := by
  unfold State.homeFail
  with_reducible repeat' first | assumption | intro _ | apply raise_keeps | apply setHomed_keeps | apply limitEnd_keeps

theorem State.startAway_keeps {s : State} (h : Keeps s₀ s) (a : Nat) (m : AxisMotion) : Keeps s₀ (State.startAway s a m) := by
  unfold State.startAway
  with_reducible repeat' first | assumption | intro _ | apply setAxis_keeps | apply beginMotion_keeps

theorem State.limitStop_keeps {s : State} (h : Keeps s₀ s) (a : Nat) : Keeps s₀ (State.limitStop s a) := by
  unfold State.limitStop
  with_reducible repeat'
    first | assumption | intro _ | apply raise_keeps | apply setAxis_keeps | apply hardStop_keeps | apply limitEnd_keeps
          | apply homeDone_keeps | apply homeEdge_keeps | apply homeFail_keeps | apply startAway_keeps | apply Keeps.ite | split

theorem State.startLimit_keeps {s : State} (h : Keeps s₀ s) (a : Nat) : Keeps s₀ (State.startLimit s a) := by
  unfold State.startLimit
  with_reducible repeat' first | assumption | intro _ | apply limitStop_keeps | apply Keeps.ite

theorem State.standstill_keeps {s : State} (h : Keeps s₀ s) (a : Nat) : Keeps s₀ (State.standstill s a) := by
  unfold State.standstill
  with_reducible repeat'
    first | assumption | intro _ | apply putAxState_keeps | apply standAt_keeps | apply beginMotion_keeps | apply homeDone_keeps
          | apply startAway_keeps | apply startLimit_keeps | apply Keeps.ite | split | refine Keeps.ofEq (by assumption) ?_
          | refine Keeps.ofSome (by assumption) ?_ | dsimp only

theorem State.coarseStep_keeps {s : State} (h : Keeps s₀ s) (a : Nat) (positive : Bool) (dst : Int) (at' : Nat) (period : Nat) :
    Keeps s₀ (State.coarseStep s a positive dst at' period) := by
  unfold State.coarseStep
  with_reducible repeat'
    first | assumption | intro _ | apply bump_keeps | apply setAxis_keeps | apply setPos_keeps | apply axFollow_keeps | apply Keeps.ite

theorem State.microNow_keeps {s : State} (h : Keeps s₀ s) (a : Nat) : Keeps s₀ (State.microNow s a) := by
  unfold State.microNow
  with_reducible repeat' first | assumption | intro _ | apply setPos_keeps | apply axFollow_keeps | apply Keeps.ite

theorem State.genTick_keeps {s : State} (h : Keeps s₀ s) (a : Nat) : Keeps s₀ (State.genTick s a) := by
  unfold State.genTick
  with_reducible repeat'
    first | assumption | intro _ | apply setF_keeps | apply setAxis_keeps | apply startLimit_keeps | apply standstill_keeps
          | apply coarseStep_keeps | apply Keeps.ite | split

theorem State.axRun_keeps {s : State} (h : Keeps s₀ s) (a : Nat) (through : Bool) : Keeps s₀ (State.axRun s a through) := by
  unfold State.axRun
  with_reducible repeat'
    first | assumption | intro _ | apply microNow_keeps | apply genTick_keeps | apply Keeps.foldl | apply Keeps.foldlP | apply Keeps.ite

theorem State.axSync_keeps {s : State} (h : Keeps s₀ s) (a : Nat) : Keeps s₀ (State.axSync s a) := by
  unfold State.axSync
  with_reducible repeat' first | assumption | intro _ | apply axRun_keeps

theorem State.axesSync_keeps {s : State} (h : Keeps s₀ s) : Keeps s₀ (State.axesSync s) := by
  unfold State.axesSync
  with_reducible repeat' first | assumption | intro _ | apply axSync_keeps | apply Keeps.foldl

theorem State.takeRamp_keeps {s : State} (h : Keeps s₀ s) (a : Nat) : Keeps s₀ (State.takeRamp s a) := by
  unfold State.takeRamp
  with_reducible repeat' first | assumption | intro _ | apply setAxis_keeps

theorem State.turnTest_keeps {s : State} (h : Keeps s₀ s) (a : Nat) : Keeps s₀ (State.turnTest s a) := by
  unfold State.turnTest
  with_reducible repeat' first | assumption | intro _ | apply setAxis_keeps | apply Keeps.ite

theorem State.axisCmd_keeps {s : State} (h : Keeps s₀ s) (a cmd : Nat) : Keeps s₀ (State.axisCmd s a cmd) := by
  unfold State.axisCmd
  with_reducible repeat'
    first | assumption | intro _ | apply setB_keeps | apply raise_keeps | apply askStart_keeps | apply setAxis_keeps
          | apply axFollow_keeps | apply putAxState_keeps | apply setHomed_keeps | apply standAt_keeps | apply beginMotion_keeps
          | apply hardStop_keeps | apply rampTo_keeps | apply axSync_keeps | apply takeRamp_keeps | apply turnTest_keeps | apply Keeps.ite
          | split

theorem execAxisOn_keeps {s : State} (h : Keeps s₀ s) (a : Fin 8) : KeepsR s₀ (execAxisOn a s) := by
  unfold execAxisOn
  with_reducible repeat' first | assumption | intro _ | apply axisCmd_keeps | apply KeepsR.ite | apply KeepsR.next

theorem execAxisOff_keeps {s : State} (h : Keeps s₀ s) (a : Fin 8) : KeepsR s₀ (execAxisOff a s) := by
  unfold execAxisOff
  with_reducible repeat' first | assumption | intro _ | apply axisCmd_keeps | apply KeepsR.ite | apply KeepsR.next

theorem execMove_keeps {s : State} (h : Keeps s₀ s) (a : Fin 8) : KeepsR s₀ (execMove a s) := by
  unfold execMove
  with_reducible repeat' first | assumption | intro _ | apply axisCmd_keeps | apply KeepsR.ite | apply KeepsR.next

theorem execVel_keeps {s : State} (h : Keeps s₀ s) (a : Fin 8) : KeepsR s₀ (execVel a s) := by
  unfold execVel
  with_reducible repeat' first | assumption | intro _ | apply axisCmd_keeps | apply KeepsR.ite | apply KeepsR.next

theorem execHome_keeps {s : State} (h : Keeps s₀ s) (a : Fin 8) : KeepsR s₀ (execHome a s) := by
  unfold execHome
  with_reducible repeat' first | assumption | intro _ | apply axisCmd_keeps | apply KeepsR.ite | apply KeepsR.next

theorem execAxisStop_keeps {s : State} (h : Keeps s₀ s) (a : Fin 8) : KeepsR s₀ (execAxisStop a s) := by
  unfold execAxisStop
  with_reducible repeat' first | assumption | intro _ | apply axisCmd_keeps | apply KeepsR.ite | apply KeepsR.next

theorem execSetpos_keeps {s : State} (h : Keeps s₀ s) (a : Fin 8) : KeepsR s₀ (execSetpos a s) := by
  unfold execSetpos
  with_reducible repeat' first | assumption | intro _ | apply axisCmd_keeps | apply KeepsR.ite | apply KeepsR.next

theorem State.qstop_keeps {s : State} (h : Keeps s₀ s) (a : Nat) : Keeps s₀ (State.qstop s a) := by
  unfold State.qstop
  with_reducible repeat' first | assumption | intro _ | apply rampTo_keeps | apply axSync_keeps | apply Keeps.ite

theorem execQstop_keeps {s : State} (h : Keeps s₀ s) (a : Fin 8) : KeepsR s₀ (execQstop a s) := by
  unfold execQstop
  with_reducible repeat' first | assumption | intro _ | apply qstop_keeps | apply KeepsR.ite | apply KeepsR.next

theorem execCoarseStep_keeps {s : State} (h : Keeps s₀ s) (a : Fin 8) : KeepsR s₀ (execCoarseStep a s) := by
  unfold execCoarseStep
  with_reducible repeat'
    first | assumption | refine reach_keeps ?_ _ | intro _ | apply axRun_keeps | apply axSync_keeps | apply KeepsR.ite | apply KeepsR.next
          | apply Keeps.ite | split | refine Keeps.ofEq (by assumption) ?_ | refine Keeps.ofSome (by assumption) ?_

theorem execMicrostepIssue_keeps {s : State} (h : Keeps s₀ s) (a : Fin 8) : KeepsR s₀ (execMicrostepIssue a s) := by
  unfold execMicrostepIssue
  with_reducible repeat'
    first | assumption | refine reach_keeps ?_ _ | intro _ | apply axRun_keeps | apply axSync_keeps | apply KeepsR.ite | apply KeepsR.next
          | apply Keeps.ite | split | refine Keeps.ofEq (by assumption) ?_ | refine Keeps.ofSome (by assumption) ?_

theorem execStepEdge_keeps {s : State} (h : Keeps s₀ s) (a : Fin 8) (dirHigh : Bool) (wait : Nat) :
    KeepsR s₀ (execStepEdge a dirHigh wait s) := by
  unfold execStepEdge
  with_reducible repeat'
    first | assumption | refine reach_keeps ?_ _ | intro _ | apply bump_keeps | apply raise_keeps | apply setAxis_keeps
          | apply coarseStep_keeps | apply axSync_keeps | apply KeepsR.ite | apply KeepsR.next | apply Keeps.ite | split
          | refine Keeps.ofEq (by assumption) ?_ | refine Keeps.ofSome (by assumption) ?_

theorem State.inputsFollow_keeps {s : State} (h : Keeps s₀ s) (a : Nat) : Keeps s₀ (State.inputsFollow s a) := by
  unfold State.inputsFollow
  with_reducible repeat' first | assumption | intro _ | apply setB_keeps

theorem State.setInput_keeps {s : State} (h : Keeps s₀ s) (a k : Nat) (level : Bool) : Keeps s₀ (State.setInput s a k level) := by
  unfold State.setInput
  with_reducible repeat' first | assumption | intro _ | apply setAxis_keeps | apply inputsFollow_keeps

theorem State.activate_keeps {s : State} (h : Keeps s₀ s) (a k : Nat) : Keeps s₀ (State.activate s a k) := by
  unfold State.activate
  with_reducible repeat' first | assumption | intro _ | apply setInput_keeps

theorem execLimitStop_keeps {s : State} (h : Keeps s₀ s) (a : Fin 8) : KeepsR s₀ (execLimitStop a s) := by
  unfold execLimitStop
  with_reducible repeat'
    first | assumption | intro _ | apply limitStop_keeps | apply axSync_keeps | apply activate_keeps | apply KeepsR.ite
          | apply KeepsR.next

theorem execHomeEdge_keeps {s : State} (h : Keeps s₀ s) (a : Fin 8) : KeepsR s₀ (execHomeEdge a s) := by
  unfold execHomeEdge
  with_reducible repeat'
    first | assumption | intro _ | apply homeEdge_keeps | apply limitStop_keeps | apply axSync_keeps | apply activate_keeps
          | apply KeepsR.ite | apply KeepsR.next

theorem execAxisStandstill_keeps {s : State} (h : Keeps s₀ s) (a : Fin 8) : KeepsR s₀ (execAxisStandstill a s) := by
  unfold execAxisStandstill
  with_reducible repeat'
    first | assumption | refine reach_keeps ?_ _ | intro _ | apply axRun_keeps | apply axSync_keeps | apply KeepsR.ite | apply KeepsR.next
          | apply Keeps.ite | split | refine Keeps.ofEq (by assumption) ?_ | refine Keeps.ofSome (by assumption) ?_

theorem execAxisInputChange_keeps {s : State} (h : Keeps s₀ s) (a : Fin 8) (pin : AxisPin) (level : Bool) :
    KeepsR s₀ (execAxisInputChange a pin level s) := by
  unfold execAxisInputChange
  with_reducible repeat'
    first | assumption | intro _ | apply setAxis_keeps | apply homeEdge_keeps | apply limitStop_keeps | apply axSync_keeps
          | apply setInput_keeps | apply KeepsR.ite | apply KeepsR.next

theorem State.axesBellStop_keeps {s : State} (h : Keeps s₀ s) : Keeps s₀ (State.axesBellStop s) := by
  unfold State.axesBellStop
  with_reducible repeat'
    first | assumption | intro _ | apply putAxState_keeps | apply hardStop_keeps | apply rampTo_keeps | apply axSync_keeps
          | apply Keeps.foldl | apply Keeps.foldlP | apply Keeps.ite

theorem State.axesClaimLost_keeps {s : State} (h : Keeps s₀ s) : Keeps s₀ (State.axesClaimLost s) := by
  unfold State.axesClaimLost
  with_reducible repeat'
    first | assumption | intro _ | apply putAxState_keeps | apply loseHome_keeps | apply hardStop_keeps | apply axSync_keeps
          | apply Keeps.foldl | apply Keeps.foldlP | apply Keeps.ite

theorem State.axesClaimHeld_keeps {s : State} (h : Keeps s₀ s) : Keeps s₀ (State.axesClaimHeld s) := by
  unfold State.axesClaimHeld
  with_reducible repeat'
    first | assumption | intro _ | apply askStart_keeps | apply setAxis_keeps | apply putAxState_keeps | apply Keeps.foldl
          | apply Keeps.foldlP | apply Keeps.ite

theorem execStartGrant_keeps {s : State} (h : Keeps s₀ s) : KeepsR s₀ (execStartGrant s) := by
  unfold execStartGrant
  with_reducible repeat'
    first | assumption | refine reachUs_keeps ?_ _ | intro _ | apply set_keeps | apply slotGpio_keeps | apply putAxState_keeps
          | apply KeepsR.ite | apply KeepsR.next | apply Keeps.ite | split | refine Keeps.ofEq (by assumption) ?_
          | refine Keeps.ofSome (by assumption) ?_ | dsimp only | apply Keeps.upd

theorem State.rampTest_keeps {s : State} (h : Keeps s₀ s) (a : Nat) : Keeps s₀ (State.rampTest s a) := by
  unfold State.rampTest
  with_reducible repeat' first | assumption | intro _ | apply setB_keeps | apply raise_keeps | apply takeRamp_keeps | apply Keeps.ite

theorem State.axisApplied_keeps {s : State} (h : Keeps s₀ s) : Keeps s₀ (State.axisApplied s) := by
  unfold State.axisApplied
  with_reducible repeat'
    first | assumption | intro _ | apply setAxis_keeps | apply turnTest_keeps | apply axisCmd_keeps | apply inputsFollow_keeps
          | apply rampTest_keeps | apply Keeps.foldl | apply Keeps.foldlP | apply Keeps.ite

theorem State.axisRun_keeps {s : State} (h : Keeps s₀ s) : Keeps s₀ (State.axisRun s) := by
  unfold State.axisRun
  with_reducible repeat' first | assumption | intro _ | apply setB_keeps | apply raise_keeps | apply Keeps.ite

theorem execAxisRun_keeps {s : State} (h : Keeps s₀ s) : KeepsR s₀ (execAxisRun s) := by
  unfold execAxisRun
  with_reducible repeat' first | assumption | intro _ | apply axisRun_keeps | apply KeepsR.ite | apply KeepsR.next

theorem State.axisBlockStop_keeps {s : State} (h : Keeps s₀ s) : Keeps s₀ (State.axisBlockStop s) := by
  unfold State.axisBlockStop
  with_reducible repeat'
    first | assumption | intro _ | apply setB_keeps | apply putAxState_keeps | apply hardStop_keeps | apply axesSync_keeps
          | apply Keeps.foldl | apply Keeps.foldlP | apply Keeps.ite

theorem execAxisBlockStop_keeps {s : State} (h : Keeps s₀ s) : KeepsR s₀ (execAxisBlockStop s) := by
  unfold execAxisBlockStop
  with_reducible repeat' first | assumption | intro _ | apply axisBlockStop_keeps | apply KeepsR.ite | apply KeepsR.next

theorem execAxisCut_keeps {s : State} (h : Keeps s₀ s) : KeepsR s₀ (execAxisCut s) := by
  unfold execAxisCut
  with_reducible repeat'
    first | assumption | intro _ | apply store_keeps | apply moveTo_keeps | apply axesSync_keeps | apply KeepsR.ite | apply KeepsR.next

theorem State.loadAxis_keeps {s : State} (h : Keeps s₀ s) (c a : Nat) : Keeps s₀ (State.loadAxis s c a) := by
  unfold State.loadAxis
  with_reducible repeat'
    first | assumption | intro _ | apply loadLive_keeps | apply loadStaged_keeps | apply pend_keeps | apply askStart_keeps
          | apply setAxis_keeps | apply putAxState_keeps | apply setHomed_keeps | apply loseHome_keeps | apply standAt_keeps
          | apply takeRamp_keeps | apply inputsFollow_keeps | apply Keeps.foldl | apply Keeps.foldlP | apply Keeps.ite

theorem State.axisRestore_keeps {s : State} (h : Keeps s₀ s) : Keeps s₀ (State.axisRestore s) := by
  unfold State.axisRestore
  with_reducible repeat'
    first | assumption | intro _ | apply set_keeps | apply afterStart_keeps | apply raise_keeps | apply touch_keeps
          | apply dropStart_keeps | apply inputsFollow_keeps | apply loadAxis_keeps | apply Keeps.foldl | apply Keeps.foldlP
          | apply Keeps.ite | split | refine Keeps.ofEq (by assumption) ?_ | refine Keeps.ofSome (by assumption) ?_ | dsimp only
          | apply Keeps.upd

theorem execAxisRestore_keeps {s : State} (h : Keeps s₀ s) : KeepsR s₀ (execAxisRestore s) := by
  unfold execAxisRestore
  with_reducible repeat' first | assumption | intro _ | apply axisRestore_keeps | apply KeepsR.ite | apply KeepsR.next

/-! ### Bell -/

theorem State.setOwed_keeps {s : State} (h : Keeps s₀ s) (i : Nat) (b : Bool) : Keeps s₀ (State.setOwed s i b) := by
  unfold State.setOwed
  with_reducible repeat' first | assumption | intro _ | apply setMask_keeps

theorem State.countAcks_keeps {s : State} (h : Keeps s₀ s) : Keeps s₀ (State.countAcks s) := by
  unfold State.countAcks
  with_reducible repeat' first | assumption | intro _ | apply set_keeps | apply Keeps.foldl

theorem State.newEpisode_keeps {s : State} (h : Keeps s₀ s) : Keeps s₀ (State.newEpisode s) := by
  unfold State.newEpisode
  with_reducible repeat'
    first | assumption | intro _ | apply set_keeps | apply setOwed_keeps | apply countAcks_keeps | apply Keeps.foldl | apply Keeps.foldlP
          | apply Keeps.ite | split | refine Keeps.ofEq (by assumption) ?_ | refine Keeps.ofSome (by assumption) ?_ | dsimp only
          | apply Keeps.upd

theorem State.putBell_keeps {s : State} (h : Keeps s₀ s) (st : Nat) : Keeps s₀ (State.putBell s st) := by
  unfold State.putBell
  with_reducible repeat'
    first | assumption | intro _ | apply set_keeps | apply axesBellStop_keeps | apply newEpisode_keeps | apply Keeps.ite | split
          | refine Keeps.ofEq (by assumption) ?_ | refine Keeps.ofSome (by assumption) ?_ | dsimp only | apply Keeps.upd

theorem State.bellUpdate_keeps {s : State} (h : Keeps s₀ s) : Keeps s₀ (State.bellUpdate s) := by
  unfold State.bellUpdate
  with_reducible repeat' first | assumption | intro _ | apply set_keeps | apply putBell_keeps | apply Keeps.ite

theorem State.followCond_keeps {s : State} (h : Keeps s₀ s) : Keeps s₀ (State.followCond s) := by
  unfold State.followCond
  with_reducible repeat' first | assumption | intro _ | apply set_keeps

theorem State.estLatch_keeps {s : State} (h : Keeps s₀ s) (n : Nat) : Keeps s₀ (State.estLatch s n) := by
  unfold State.estLatch
  with_reducible repeat' first | assumption | intro _ | apply setMask_keeps | apply bellUpdate_keeps | apply Keeps.ite

theorem State.discFollow_keeps {s : State} (h : Keeps s₀ s) (n : Nat) : Keeps s₀ (State.discFollow s n) := by
  unfold State.discFollow
  with_reducible repeat'
    first | assumption | intro _ | apply Keeps.ite | split | refine Keeps.ofEq (by assumption) ?_ | refine Keeps.ofSome (by assumption) ?_
          | dsimp only | apply Keeps.upd

theorem execEstopChannelOpen_keeps {s : State} (h : Keeps s₀ s) (n : Fin 4) (chanB : Bool) :
    KeepsR s₀ (execEstopChannelOpen n chanB s) := by
  unfold execEstopChannelOpen
  with_reducible repeat'
    first | assumption | intro _ | apply setMask_keeps | apply followCond_keeps | apply estLatch_keeps | apply discFollow_keeps
          | apply KeepsR.ite | apply KeepsR.next

theorem execEstopChannelClose_keeps {s : State} (h : Keeps s₀ s) (n : Fin 4) (chanB : Bool) :
    KeepsR s₀ (execEstopChannelClose n chanB s) := by
  unfold execEstopChannelClose
  with_reducible repeat'
    first | assumption | intro _ | apply setMask_keeps | apply followCond_keeps | apply discFollow_keeps | apply KeepsR.ite
          | apply KeepsR.next

theorem State.testStart_keeps {s : State} (h : Keeps s₀ s) (n : Nat) : Keeps s₀ (State.testStart s n) := by
  unfold State.testStart
  with_reducible repeat'
    first | assumption | intro _ | apply Keeps.ite | split | refine Keeps.ofEq (by assumption) ?_ | refine Keeps.ofSome (by assumption) ?_
          | dsimp only | apply Keeps.upd

theorem execEstopTestPulse_keeps {s : State} (h : Keeps s₀ s) (n : Fin 4) (chanB readHigh : Bool) :
    KeepsR s₀ (execEstopTestPulse n chanB readHigh s) := by
  unfold execEstopTestPulse
  with_reducible repeat'
    first | assumption | refine reachUs_keeps ?_ _ | intro _ | apply setMask_keeps | apply raise_keeps | apply followCond_keeps
          | apply estLatch_keeps | apply KeepsR.ite | apply KeepsR.next | apply Keeps.ite | split | refine Keeps.ofEq (by assumption) ?_
          | refine Keeps.ofSome (by assumption) ?_ | dsimp only | apply Keeps.upd

theorem execEstopDiscrepancy_keeps {s : State} (h : Keeps s₀ s) (n : Fin 4) : KeepsR s₀ (execEstopDiscrepancy n s) := by
  unfold execEstopDiscrepancy
  with_reducible repeat'
    first | assumption | refine reachUs_keeps ?_ _ | intro _ | apply setMask_keeps | apply raise_keeps | apply followCond_keeps
          | apply KeepsR.ite | apply KeepsR.next | apply Keeps.ite | split | refine Keeps.ofEq (by assumption) ?_
          | refine Keeps.ofSome (by assumption) ?_

theorem State.eststatClear_keeps {s : State} (h : Keeps s₀ s) (tf dc : Nat) : Keeps s₀ (State.eststatClear s tf dc) := by
  unfold State.eststatClear
  with_reducible repeat' first | assumption | intro _ | apply set_keeps | apply followCond_keeps

theorem execEststatClear_keeps {s : State} (h : Keeps s₀ s) (testfail : BitVec 4) (discrep : BitVec 4) :
    KeepsR s₀ (execEststatClear testfail discrep s) := by
  unfold execEststatClear
  with_reducible repeat' first | assumption | intro _ | apply eststatClear_keeps | apply KeepsR.ite | apply KeepsR.next

theorem State.bellRelease_keeps {s : State} (h : Keeps s₀ s) (forward : Bool) : Keeps s₀ (State.bellRelease s forward).2 := by
  unfold State.bellRelease
  with_reducible repeat'
    first | assumption | intro _ | apply set_keeps | apply raise_keeps | apply putBell_keeps | apply bellUpdate_keeps
          | apply followCond_keeps | apply Keeps.ite | apply Keeps.iteP | split | refine Keeps.ofEq (by assumption) ?_
          | refine Keeps.ofSome (by assumption) ?_ | dsimp only | apply Keeps.upd

theorem State.bellKernel_keeps {s : State} (h : Keeps s₀ s) (cls : Nat) : Keeps s₀ (State.bellKernel s cls) := by
  unfold State.bellKernel
  with_reducible repeat'
    first | assumption | intro _ | apply setB_keeps | apply bellUpdate_keeps | apply Keeps.ite | split
          | refine Keeps.ofEq (by assumption) ?_ | refine Keeps.ofSome (by assumption) ?_ | dsimp only | apply Keeps.upd

theorem State.bring_keeps {s : State} (h : Keeps s₀ s) (cls : Nat) : Keeps s₀ (State.bring s cls).2 := by
  unfold State.bring
  with_reducible repeat'
    first | assumption | intro _ | apply bellRelease_keeps | apply bellKernel_keeps | apply Keeps.ite | apply Keeps.iteP | split

theorem State.bellReserve_keeps {s : State} (h : Keeps s₀ s) (v : Nat) : Keeps s₀ (State.bellReserve s v) := by
  unfold State.bellReserve
  with_reducible repeat'
    first | assumption | intro _ | apply set_keeps | apply Keeps.ite | split | refine Keeps.ofEq (by assumption) ?_
          | refine Keeps.ofSome (by assumption) ?_ | dsimp only | apply Keeps.upd

theorem State.bellRun_keeps {s : State} (h : Keeps s₀ s) : Keeps s₀ (State.bellRun s) := by
  unfold State.bellRun
  with_reducible repeat'
    first | assumption | intro _ | apply set_keeps | apply setB_keeps | apply raise_keeps | apply putBell_keeps | apply bellUpdate_keeps
          | apply testStart_keeps | apply bellReserve_keeps | apply Keeps.foldl | apply Keeps.foldlP | apply Keeps.ite | split
          | refine Keeps.ofEq (by assumption) ?_ | refine Keeps.ofSome (by assumption) ?_ | dsimp only | apply Keeps.upd

theorem execBellRun_keeps {s : State} (h : Keeps s₀ s) : KeepsR s₀ (execBellRun s) := by
  unfold execBellRun
  with_reducible repeat' first | assumption | intro _ | apply bellRun_keeps | apply KeepsR.ite | apply KeepsR.next

theorem State.stopCommand_keeps {s : State} (h : Keeps s₀ s) (b : List Byte) : Keeps s₀ (State.stopCommand s b) := by
  unfold State.stopCommand
  with_reducible repeat'
    first | assumption | intro _ | apply setB_keeps | apply raise_keeps | apply bellUpdate_keeps | apply Keeps.ite | split
          | refine Keeps.ofEq (by assumption) ?_ | refine Keeps.ofSome (by assumption) ?_ | dsimp only | apply Keeps.upd

theorem execStopCommand_keeps {s : State} (h : Keeps s₀ s) : KeepsR s₀ (execStopCommand s) := by
  unfold execStopCommand
  with_reducible repeat'
    first | assumption | intro _ | apply qPop_keeps | apply stopCommand_keeps | apply KeepsR.ite | apply KeepsR.next | apply Keeps.ite
          | split | refine Keeps.ofEq (by assumption) ?_

theorem execReleaseCountDurable_keeps {s : State} (h : Keeps s₀ s) : KeepsR s₀ (execReleaseCountDurable s) := by
  unfold execReleaseCountDurable
  with_reducible repeat'
    first | assumption | intro _ | apply bellRelease_keeps | apply KeepsR.ite | apply KeepsR.next | apply Keeps.ite | split
          | refine Keeps.ofEq (by assumption) ?_ | refine Keeps.ofSome (by assumption) ?_ | dsimp only | apply Keeps.upd

theorem execPartnerReleaseMsg_keeps {s : State} (h : Keeps s₀ s) : KeepsR s₀ (execPartnerReleaseMsg s) := by
  unfold execPartnerReleaseMsg
  with_reducible repeat' first | assumption | intro _ | apply bellRelease_keeps | apply KeepsR.ite | apply KeepsR.next

theorem execPartnerReportSend_keeps {s : State} (h : Keeps s₀ s) : KeepsR s₀ (execPartnerReportSend s) := by
  unfold execPartnerReportSend
  with_reducible repeat'
    first | assumption | intro _ | apply KeepsR.ite | apply KeepsR.next | apply Keeps.ite | split | refine Keeps.ofEq (by assumption) ?_
          | refine Keeps.ofSome (by assumption) ?_ | dsimp only | apply Keeps.upd

theorem execPartnerReport_keeps {s : State} (h : Keeps s₀ s) (cls : Fin 3) : KeepsR s₀ (execPartnerReport cls s) := by
  unfold execPartnerReport
  with_reducible repeat'
    first | assumption | intro _ | apply set_keeps | apply setB_keeps | apply bellUpdate_keeps | apply KeepsR.ite | apply KeepsR.next
          | apply Keeps.ite | split | refine Keeps.ofEq (by assumption) ?_ | refine Keeps.ofSome (by assumption) ?_ | dsimp only
          | apply Keeps.upd

theorem execPartnerReportLost_keeps {s : State} (h : Keeps s₀ s) : KeepsR s₀ (execPartnerReportLost s) := by
  unfold execPartnerReportLost
  with_reducible repeat'
    first | assumption | refine reachUs_keeps ?_ _ | intro _ | apply setB_keeps | apply raise_keeps | apply KeepsR.ite | apply KeepsR.next
          | apply Keeps.ite | split | refine Keeps.ofEq (by assumption) ?_ | refine Keeps.ofSome (by assumption) ?_ | dsimp only
          | apply Keeps.upd

/-! ### Mill -/

theorem State.setNode_keeps {s : State} (h : Keeps s₀ s) (n : Nat) (e : NodeEngine) : Keeps s₀ (State.setNode s n e) := by
  unfold State.setNode
  with_reducible repeat'
    first | assumption | intro _ | apply Keeps.ite | split | refine Keeps.ofEq (by assumption) ?_ | refine Keeps.ofSome (by assumption) ?_
          | dsimp only | apply Keeps.upd

theorem State.setItem_keeps {s : State} (h : Keeps s₀ s) (k : Nat) (x : MillItem) : Keeps s₀ (State.setItem s k x) := by
  unfold State.setItem
  with_reducible repeat'
    first | assumption | intro _ | apply Keeps.ite | split | refine Keeps.ofEq (by assumption) ?_ | refine Keeps.ofSome (by assumption) ?_
          | dsimp only | apply Keeps.upd

theorem State.setFlow_keeps {s : State} (h : Keeps s₀ s) (f : Nat) (x : MillFlow) : Keeps s₀ (State.setFlow s f x) := by
  unfold State.setFlow
  with_reducible repeat'
    first | assumption | intro _ | apply Keeps.ite | split | refine Keeps.ofEq (by assumption) ?_ | refine Keeps.ofSome (by assumption) ?_
          | dsimp only | apply Keeps.upd

theorem State.setReady_keeps {s : State} (h : Keeps s₀ s) (c : Nat) (l : List Nat) : Keeps s₀ (State.setReady s c l) := by
  unfold State.setReady
  with_reducible repeat'
    first | assumption | intro _ | apply Keeps.ite | split | refine Keeps.ofEq (by assumption) ?_ | refine Keeps.ofSome (by assumption) ?_
          | dsimp only | apply Keeps.upd

theorem State.millFollow_keeps {s : State} (h : Keeps s₀ s) : Keeps s₀ (State.millFollow s) := by
  unfold State.millFollow
  with_reducible repeat' first | assumption | intro _ | apply set_keeps | apply Keeps.ite

theorem State.nodeReads_keeps {s : State} (h : Keeps s₀ s) (ts : List (Word × Word)) : Keeps s₀ (State.nodeReads s ts) := by
  unfold State.nodeReads
  with_reducible repeat' first | assumption | intro _ | apply touch_keeps | apply Keeps.foldl | apply Keeps.foldlP | apply Keeps.ite

theorem State.freeItem_keeps {s : State} (h : Keeps s₀ s) (k : Nat) : Keeps s₀ (State.freeItem s k) := by
  unfold State.freeItem
  with_reducible repeat'
    first | assumption | intro _ | apply setReady_keeps | apply Keeps.ite | split | refine Keeps.ofEq (by assumption) ?_
          | refine Keeps.ofSome (by assumption) ?_ | dsimp only | apply Keeps.upd

theorem State.putTomb_keeps {s : State} (h : Keeps s₀ s) (k : Nat) (t : Tomb) : Keeps s₀ (State.putTomb s k t) := by
  unfold State.putTomb
  with_reducible repeat'
    first | assumption | intro _ | apply Keeps.ite | split | refine Keeps.ofEq (by assumption) ?_ | refine Keeps.ofSome (by assumption) ?_
          | dsimp only | apply Keeps.upd

theorem State.takeSeq_keeps {s : State} (h : Keeps s₀ s) (f : Nat) : Keeps s₀ (State.takeSeq s f).2 := by
  unfold State.takeSeq
  with_reducible repeat' first | assumption | intro _ | apply setFlow_keeps | apply Keeps.ite | apply Keeps.iteP

theorem State.applyCancel_keeps {s : State} (h : Keeps s₀ s) (batch : List (Word × Word)) (d : Word) :
    Keeps s₀ (State.applyCancel s batch d).2 := by
  unfold State.applyCancel
  with_reducible repeat'
    first | assumption | intro _ | apply raise_keeps | apply freeItem_keeps | apply putTomb_keeps | apply Keeps.ite | apply Keeps.iteP
          | split

theorem State.applyCancels_keeps {s : State} (h : Keeps s₀ s) (batch : List (Word × Word)) (ds : List Word) :
    Keeps s₀ (s.applyCancels batch ds).2 := by
  induction ds generalizing s with
  | nil => exact h
  | cons d ds ih => exact ih (State.applyCancel_keeps h batch d)

theorem State.renumber_keeps {s : State} (h : Keeps s₀ s) (k : Nat) : Keeps s₀ (State.renumber s k) := by
  unfold State.renumber
  with_reducible repeat'
    first | assumption | intro _ | apply Keeps.ite | split | refine Keeps.ofEq (by assumption) ?_ | refine Keeps.ofSome (by assumption) ?_
          | dsimp only | apply Keeps.upd

theorem State.endContext_keeps {s : State} (h : Keeps s₀ s) (ctx : Nat) : Keeps s₀ (State.endContext s ctx) := by
  unfold State.endContext
  with_reducible repeat'
    first | assumption | intro _ | apply renumber_keeps | apply Keeps.foldl | apply Keeps.foldlP | apply Keeps.ite | split
          | refine Keeps.ofEq (by assumption) ?_ | refine Keeps.ofSome (by assumption) ?_ | dsimp only | apply Keeps.upd

theorem State.applyToken_keeps {s : State} (h : Keeps s₀ s) (t : Word × Word) : Keeps s₀ (State.applyToken s t) := by
  unfold State.applyToken
  with_reducible repeat'
    first | assumption | intro _ | apply bump_keeps | apply endContext_keeps | apply Keeps.ite | split
          | refine Keeps.ofEq (by assumption) ?_ | refine Keeps.ofSome (by assumption) ?_ | dsimp only | apply Keeps.upd

theorem State.settle_keeps {s : State} (h : Keeps s₀ s) (holes : List (Nat × Nat × Nat)) (touched : List Nat) :
    Keeps s₀ (State.settle s holes touched) := by
  unfold State.settle
  with_reducible repeat'
    first | assumption | intro _ | apply setItem_keeps | apply setReady_keeps | apply putTomb_keeps | apply takeSeq_keeps
          | apply Keeps.foldl | apply Keeps.foldlP | apply Keeps.ite | split

theorem State.applyBatch_keeps {s : State} (h : Keeps s₀ s) (tokens : List (Word × Word)) (cancels : List Word) :
    Keeps s₀ (State.applyBatch s tokens cancels) := by
  unfold State.applyBatch
  with_reducible repeat'
    first | assumption | intro _ | apply millFollow_keeps | apply applyCancels_keeps | apply applyToken_keeps | apply settle_keeps
          | apply Keeps.foldl

theorem State.released_keeps {s : State} (h : Keeps s₀ s) (f : Nat) : Keeps s₀ (State.released s f) := by
  unfold State.released
  with_reducible repeat' first | assumption | intro _ | apply setFlow_keeps | apply Keeps.ite

theorem State.dropItem_keeps {s : State} (h : Keeps s₀ s) (k : Nat) : Keeps s₀ (State.dropItem s k) := by
  unfold State.dropItem
  with_reducible repeat'
    first | assumption | intro _ | apply raise_keeps | apply freeItem_keeps | apply putTomb_keeps | apply Keeps.ite | split

theorem State.putBack_keeps {s : State} (h : Keeps s₀ s) (k : Nat) (x : MillItem) : Keeps s₀ (State.putBack s k x) := by
  unfold State.putBack
  with_reducible repeat' first | assumption | intro _ | apply setItem_keeps | apply setReady_keeps

theorem State.millSettleStop_keeps {s : State} (h : Keeps s₀ s) : Keeps s₀ (State.millSettleStop s) := by
  unfold State.millSettleStop
  with_reducible repeat'
    first | assumption | intro _ | apply set_keeps | apply setNode_keeps | apply Keeps.foldl | apply Keeps.foldlP | apply Keeps.ite

theorem State.engineOut_keeps {s : State} (h : Keeps s₀ s) (n : Nat) : Keeps s₀ (State.engineOut s n) := by
  unfold State.engineOut
  with_reducible repeat' first | assumption | intro _ | apply set_keeps | apply setMask_keeps | apply setNode_keeps

theorem State.engineFail_keeps {s : State} (h : Keeps s₀ s) (n : Nat) : Keeps s₀ (State.engineFail s n) := by
  unfold State.engineFail
  with_reducible repeat' first | assumption | intro _ | apply setMask_keeps | apply raise_keeps | apply engineOut_keeps

theorem State.abandonItem_keeps {s : State} (h : Keeps s₀ s) (k code : Nat) : Keeps s₀ (State.abandonItem s k code) := by
  unfold State.abandonItem
  with_reducible repeat'
    first | assumption | intro _ | apply bump_keeps | apply dropItem_keeps | apply putBack_keeps | apply Keeps.ite | split

theorem State.reeveSrc_keeps {s : State} (h : Keeps s₀ s) (n : Nat) (retired : Bool) : Keeps s₀ (State.reeveSrc s n retired) := by
  unfold State.reeveSrc
  with_reducible repeat'
    first | assumption | intro _ | apply set_keeps | apply Keeps.ite | split | refine Keeps.ofEq (by assumption) ?_
          | refine Keeps.ofSome (by assumption) ?_ | dsimp only | apply Keeps.upd

theorem State.nodeAbandon_keeps {s : State} (h : Keeps s₀ s) (n code : Nat) : Keeps s₀ (State.nodeAbandon s n code) := by
  unfold State.nodeAbandon
  with_reducible repeat'
    first | assumption | intro _ | apply set_keeps | apply raise_keeps | apply setNode_keeps | apply millFollow_keeps
          | apply millSettleStop_keeps | apply engineFail_keeps | apply abandonItem_keeps | apply reeveSrc_keeps | apply Keeps.ite | split

theorem State.dropSame_keeps {s : State} (h : Keeps s₀ s) (same : List (Fin 24)) (taken : List Word) :
    Keeps s₀ (State.dropSame s same taken) := by
  unfold State.dropSame
  with_reducible repeat' first | assumption | intro _ | apply setNode_keeps | apply Keeps.foldl

theorem State.millResults_keeps {s : State} (h : Keeps s₀ s) (n : Nat) : Keeps s₀ (State.millResults n s) := by
  induction n generalizing s with
  | zero => exact h
  | succ n ih =>
    unfold State.millResults
    split
    · rename_i t rest _
      have pop : Keeps s₀ ({ s with mill := { s.mill with results := rest } } : State) := Keeps.upd h ..
      dsimp only
      split
      · exact ih (State.raise_keeps pop ..)
      · exact Keeps.ite (ih (State.applyBatch_keeps pop _ _)) h
    · exact h

theorem State.sameFirst_keeps {s : State} (h : Keeps s₀ s) (batch : List (Word × Word)) (same : List (Fin 24)) :
    Keeps s₀ (State.sameFirst s batch same) := by
  unfold State.sameFirst
  with_reducible repeat'
    first | assumption | intro _ | apply millFollow_keeps | apply applyCancels_keeps | apply settle_keeps | apply dropSame_keeps

theorem State.reeveResult_keeps {s : State} (h : Keeps s₀ s) (d v : Word) (same : List (Fin 24)) :
    Keeps s₀ (State.reeveResult s d v same) := by
  unfold State.reeveResult
  with_reducible repeat'
    first | assumption | intro _ | apply millFollow_keeps | apply nodeReads_keeps | apply millResults_keeps | apply sameFirst_keeps
          | apply Keeps.ite | split | refine Keeps.ofEq (by assumption) ?_ | refine Keeps.ofSome (by assumption) ?_ | dsimp only
          | apply Keeps.upd

theorem State.engineFree_keeps {s : State} (h : Keeps s₀ s) (n : Nat) : Keeps s₀ (State.engineFree s n) := by
  unfold State.engineFree
  with_reducible repeat' first | assumption | intro _ | apply setNode_keeps | apply engineOut_keeps | apply reeveSrc_keeps | apply Keeps.ite

theorem State.retireTake_keeps {s : State} (h : Keeps s₀ s) (n : Nat) : Keeps s₀ (State.retireTake s n) := by
  unfold State.retireTake
  with_reducible repeat'
    first | assumption | intro _ | apply bump_keeps | apply setItem_keeps | apply millFollow_keeps | apply applyBatch_keeps
          | apply released_keeps | apply millSettleStop_keeps | apply nodeAbandon_keeps | apply millResults_keeps | apply engineFree_keeps
          | apply Keeps.ite | split | refine Keeps.ofEq (by assumption) ?_ | refine Keeps.ofSome (by assumption) ?_ | dsimp only
          | apply Keeps.upd

theorem State.retire_keeps {s : State} (h : Keeps s₀ s) (n : Nat) (same : List (Fin 24)) : Keeps s₀ (State.retire s n same) := by
  unfold State.retire
  with_reducible repeat'
    first | assumption | intro _ | apply nodeReads_keeps | apply sameFirst_keeps
          | apply retireTake_keeps

theorem execRetireAccepted_keeps {s : State} (h : Keeps s₀ s) (e : Fin 24) (same : List (Fin 24)) :
    KeepsR s₀ (execRetireAccepted e same s) := by
  unfold execRetireAccepted
  with_reducible repeat' first | assumption | intro _ | apply retire_keeps | apply KeepsR.ite | apply KeepsR.next | apply Keeps.ite

theorem State.holePass_keeps {s : State} (h : Keeps s₀ s) (f k : Nat) (t : Tomb) : Keeps s₀ (State.holePass s f k t) := by
  unfold State.holePass
  with_reducible repeat'
    first | assumption | intro _ | apply bump_keeps | apply millFollow_keeps | apply released_keeps | apply Keeps.ite | split
          | refine Keeps.ofEq (by assumption) ?_ | refine Keeps.ofSome (by assumption) ?_ | dsimp only | apply Keeps.upd

theorem State.holeRelease_keeps {s : State} (h : Keeps s₀ s) (f : Nat) : Keeps s₀ (State.holeRelease s f) := by
  unfold State.holeRelease
  with_reducible repeat'
    first | assumption | intro _ | apply raise_keeps | apply applyBatch_keeps | apply holePass_keeps | apply Keeps.ite | split

theorem execHoleRelease_keeps {s : State} (h : Keeps s₀ s) (flow : Fin 1024) : KeepsR s₀ (execHoleRelease flow s) := by
  unfold execHoleRelease
  with_reducible repeat' first | assumption | intro _ | apply holeRelease_keeps | apply KeepsR.ite | apply KeepsR.next

theorem State.parkedRelease_keeps {s : State} (h : Keeps s₀ s) (f : Nat) : Keeps s₀ (s.parkedRelease f) := by
  unfold State.parkedRelease
  split
  · exact State.holeRelease_keeps h f
  · extract_lets x un _ freed
    have hu : ∀ s, Keeps s₀ s → Keeps s₀ (un s) := fun s h => Keeps.upd h ..
    have hf : Keeps s₀ freed := Keeps.upd h ..
    clear_value un freed
    split
    · exact State.millFollow_keeps (State.dropItem_keeps (State.raise_keeps (hu _ h) ..) _)
    · refine Keeps.ite ?_ ?_
      · exact State.millFollow_keeps (State.millResults_keeps (State.bump_keeps (State.released_keeps (State.applyBatch_keeps (hu _ hf) _ _) _) _ _ _) _)
      · exact State.millFollow_keeps (State.putBack_keeps (State.bump_keeps (State.raise_keeps (hu _ h) ..) _ _ _) _ _)

theorem execParkedRelease_keeps {s : State} (h : Keeps s₀ s) (flow : Fin 1024) : KeepsR s₀ (execParkedRelease flow s) := by
  unfold execParkedRelease
  with_reducible repeat' first | assumption | intro _ | apply parkedRelease_keeps | apply KeepsR.ite | apply KeepsR.next

theorem State.dispatch_keeps {s : State} (h : Keeps s₀ s) (n k : Nat) : Keeps s₀ (State.dispatch s n k) := by
  unfold State.dispatch
  with_reducible repeat'
    first | assumption | intro _ | apply bump_keeps | apply touch_keeps | apply setNode_keeps | apply setItem_keeps | apply setReady_keeps
          | apply millFollow_keeps | apply nodeAbandon_keeps | apply Keeps.foldl | apply Keeps.foldlP | apply Keeps.ite | split
          | refine Keeps.ofEq (by assumption) ?_ | refine Keeps.ofSome (by assumption) ?_ | dsimp only

theorem execDispatch_keeps {s : State} (h : Keeps s₀ s) (e : Fin 24) : KeepsR s₀ (execDispatch e s) := by
  unfold execDispatch
  with_reducible repeat'
    first | assumption | intro _ | apply dispatch_keeps | apply KeepsR.ite | apply KeepsR.next | apply Keeps.ite | split

theorem execNodeOvertime_keeps {s : State} (h : Keeps s₀ s) (e : Fin 24) : KeepsR s₀ (execNodeOvertime e s) := by
  unfold execNodeOvertime
  with_reducible repeat' first | assumption | intro _ | apply nodeAbandon_keeps | apply KeepsR.ite | apply KeepsR.next

theorem State.inject_keeps {s : State} (h : Keeps s₀ s) (n : Nat) : Keeps s₀ (State.inject n s) := by
  induction n generalizing s with
  | zero => exact h
  | succ n ih =>
    unfold State.inject
    refine Keeps.ite (Keeps.upd h ..) ?_
    extract_lets a s1 d v s2 next
    have h2 : Keeps s₀ s2 := State.nodeReads_keeps (State.touch_keeps h _ _) _
    have hn : ∀ t, Keeps s₀ t → Keeps s₀ (next t) := fun t ht => State.set_keeps (Keeps.upd ht ..) _ _ _ _
    clear_value s2 next
    refine Keeps.ite (ih (State.bump_keeps (State.raise_keeps (hn _ h2) ..) _ _ _)) ?_
    exact Keeps.ite (ih (hn _ (State.applyBatch_keeps h2 _ _))) (Keeps.ite h2 (Keeps.upd (State.raise_keeps h2 ..) ..))

theorem State.injectOn_keeps {s : State} (h : Keeps s₀ s) : Keeps s₀ (State.injectOn s) := by
  unfold State.injectOn
  with_reducible repeat' first | assumption | intro _ | apply inject_keeps | apply Keeps.ite

theorem State.injectDoorbell_keeps {s : State} (h : Keeps s₀ s) : Keeps s₀ (State.injectDoorbell s) := by
  unfold State.injectDoorbell
  with_reducible repeat'
    first | assumption | intro _ | apply touch_keeps | apply injectOn_keeps | apply Keeps.ite | split
          | refine Keeps.ofEq (by assumption) ?_ | refine Keeps.ofSome (by assumption) ?_ | dsimp only | apply Keeps.upd

theorem execInjectDoorbell_keeps {s : State} (h : Keeps s₀ s) : KeepsR s₀ (execInjectDoorbell s) := by
  unfold execInjectDoorbell
  with_reducible repeat' first | assumption | intro _ | apply injectDoorbell_keeps | apply KeepsR.ite | apply KeepsR.next

theorem execInjectResume_keeps {s : State} (h : Keeps s₀ s) : KeepsR s₀ (execInjectResume s) := by
  unfold execInjectResume
  with_reducible repeat' first | assumption | intro _ | apply injectOn_keeps | apply KeepsR.ite | apply KeepsR.next

theorem State.millJoined_keeps {s : State} (h : Keeps s₀ s) : Keeps s₀ (State.millJoined s) := by
  unfold State.millJoined
  with_reducible repeat'
    first | assumption | intro _ | apply set_keeps | apply Keeps.ite | split | refine Keeps.ofEq (by assumption) ?_
          | refine Keeps.ofSome (by assumption) ?_ | dsimp only | apply Keeps.upd

theorem State.engineJoin_keeps {s : State} (h : Keeps s₀ s) (n : Nat) : Keeps s₀ (State.engineJoin s n) := by
  unfold State.engineJoin
  with_reducible repeat'
    first | assumption | intro _ | apply set_keeps | apply setMask_keeps | apply store_keeps | apply setNode_keeps
          | apply millJoined_keeps | apply Keeps.ite

theorem State.engineIn_keeps {s : State} (h : Keeps s₀ s) (n : Fin 24) : Keeps s₀ (State.engineIn s n) := by
  unfold State.engineIn
  with_reducible repeat' first | assumption | intro _ | apply askIsland_keeps | apply engineJoin_keeps | apply Keeps.ite

theorem State.engfailClear_keeps {s : State} (h : Keeps s₀ s) (n : Fin 24) : Keeps s₀ (State.engfailClear s n) := by
  unfold State.engfailClear
  with_reducible repeat' first | assumption | intro _ | apply setMask_keeps | apply engineIn_keeps | apply Keeps.ite

theorem execEngfailClear_keeps {s : State} (h : Keeps s₀ s) (e : Fin 24) : KeepsR s₀ (execEngfailClear e s) := by
  unfold execEngfailClear
  with_reducible repeat' first | assumption | intro _ | apply engfailClear_keeps | apply KeepsR.ite | apply KeepsR.next

theorem State.readFlows_keeps {s : State} (h : Keeps s₀ s) (fresh : Bool) : Keeps s₀ (State.readFlows s fresh) := by
  unfold State.readFlows
  with_reducible repeat'
    first | assumption | intro _ | apply touch_keeps | apply setFlow_keeps | apply Keeps.foldl | apply Keeps.foldlP | apply Keeps.ite
          | split | refine Keeps.ofEq (by assumption) ?_ | refine Keeps.ofSome (by assumption) ?_ | dsimp only | apply Keeps.upd

theorem State.millApplied_keeps {s : State} (h : Keeps s₀ s) : Keeps s₀ (State.millApplied s) := by
  unfold State.millApplied
  with_reducible repeat'
    first | assumption | intro _ | apply set_keeps | apply engineOut_keeps | apply millJoined_keeps | apply engineIn_keeps
          | apply readFlows_keeps | apply Keeps.foldl | apply Keeps.foldlP | apply Keeps.ite

theorem State.millRun_keeps {s : State} (h : Keeps s₀ s) : Keeps s₀ (State.millRun s) := by
  unfold State.millRun
  with_reducible repeat'
    first | assumption | intro _ | apply set_keeps | apply raise_keeps | apply millFollow_keeps | apply engineIn_keeps
          | apply readFlows_keeps | apply Keeps.foldl | apply Keeps.foldlP | apply Keeps.ite | split
          | refine Keeps.ofEq (by assumption) ?_ | refine Keeps.ofSome (by assumption) ?_ | dsimp only | apply Keeps.upd

theorem execMillRun_keeps {s : State} (h : Keeps s₀ s) : KeepsR s₀ (execMillRun s) := by
  unfold execMillRun
  with_reducible repeat' first | assumption | intro _ | apply millRun_keeps | apply KeepsR.ite | apply KeepsR.next

theorem State.millStop_keeps {s : State} (h : Keeps s₀ s) : Keeps s₀ (State.millStop s) := by
  unfold State.millStop
  with_reducible repeat'
    first | assumption | intro _ | apply set_keeps | apply millSettleStop_keeps | apply Keeps.ite | split
          | refine Keeps.ofEq (by assumption) ?_ | refine Keeps.ofSome (by assumption) ?_ | dsimp only | apply Keeps.upd

theorem execMillStop_keeps {s : State} (h : Keeps s₀ s) : KeepsR s₀ (execMillStop s) := by
  unfold execMillStop
  with_reducible repeat' first | assumption | intro _ | apply millStop_keeps | apply KeepsR.ite | apply KeepsR.next

theorem State.millHwreset_keeps {s : State} (h : Keeps s₀ s) : Keeps s₀ (State.millHwreset s) := by
  unfold State.millHwreset
  with_reducible repeat' first | assumption | intro _ | apply set_keeps

theorem execMillHwreset_keeps {s : State} (h : Keeps s₀ s) : KeepsR s₀ (execMillHwreset s) := by
  unfold execMillHwreset
  with_reducible repeat' first | assumption | intro _ | apply millHwreset_keeps | apply KeepsR.ite | apply KeepsR.next

theorem State.millCutStart_keeps {s : State} (h : Keeps s₀ s) : Keeps s₀ (State.millCutStart s) := by
  unfold State.millCutStart
  with_reducible repeat'
    first | assumption | intro _ | apply set_keeps | apply store_keeps | apply Keeps.ite | split | refine Keeps.ofEq (by assumption) ?_
          | refine Keeps.ofSome (by assumption) ?_ | dsimp only | apply Keeps.upd

theorem State.millCutDone_keeps {s : State} (h : Keeps s₀ s) : Keeps s₀ (State.millCutDone s) := by
  unfold State.millCutDone
  with_reducible repeat'
    first | assumption | intro _ | apply set_keeps | apply setB_keeps | apply raise_keeps | apply store_keeps | apply millFollow_keeps
          | apply millSettleStop_keeps | apply millResults_keeps | apply millStop_keeps | apply Keeps.ite | split
          | refine Keeps.ofEq (by assumption) ?_ | refine Keeps.ofSome (by assumption) ?_ | dsimp only | apply Keeps.upd

theorem State.millFreeze_keeps {s : State} (h : Keeps s₀ s) : Keeps s₀ (State.millFreeze s) := by
  unfold State.millFreeze
  with_reducible repeat'
    first | assumption | intro _ | apply setB_keeps | apply raise_keeps | apply Keeps.ite | split | refine Keeps.ofEq (by assumption) ?_
          | refine Keeps.ofSome (by assumption) ?_ | dsimp only | apply Keeps.upd

theorem execMillCutDone_keeps {s : State} (h : Keeps s₀ s) : KeepsR s₀ (execMillCutDone s) := by
  unfold execMillCutDone
  with_reducible repeat'
    first | assumption | intro _ | apply millCutDone_keeps | apply KeepsR.ite | apply KeepsR.next

theorem State.millRestore_keeps {s : State} (h : Keeps s₀ s) : Keeps s₀ (State.millRestore s) := by
  unfold State.millRestore
  with_reducible repeat' first | assumption | intro _ | apply set_keeps | apply raise_keeps | apply Keeps.ite

theorem execMillRestore_keeps {s : State} (h : Keeps s₀ s) : KeepsR s₀ (execMillRestore s) := by
  unfold execMillRestore
  with_reducible repeat' first | assumption | intro _ | apply millRestore_keeps | apply KeepsR.ite | apply KeepsR.next

theorem State.loadCut_keeps {s : State} (h : Keeps s₀ s) (a : Nat) : Keeps s₀ (State.loadCut s a) := by
  unfold State.loadCut
  with_reducible repeat'
    first | assumption | intro _ | apply set_keeps | apply setFlow_keeps | apply Keeps.foldl | apply Keeps.foldlP | apply Keeps.ite
          | split | refine Keeps.ofEq (by assumption) ?_ | refine Keeps.ofSome (by assumption) ?_ | dsimp only | apply Keeps.upd

theorem State.millRestoreDone_keeps {s : State} (h : Keeps s₀ s) : Keeps s₀ (State.millRestoreDone s) := by
  unfold State.millRestoreDone
  with_reducible repeat'
    first | assumption | intro _ | apply set_keeps | apply raise_keeps | apply touch_keeps | apply millFollow_keeps
          | apply millResults_keeps | apply readFlows_keeps | apply millCutStart_keeps | apply loadCut_keeps | apply Keeps.ite | split
          | refine Keeps.ofEq (by assumption) ?_ | refine Keeps.ofSome (by assumption) ?_ | dsimp only | apply Keeps.upd

theorem execMillRestoreDone_keeps {s : State} (h : Keeps s₀ s) : KeepsR s₀ (execMillRestoreDone s) := by
  unfold execMillRestoreDone
  with_reducible repeat'
    first | assumption | intro _ | apply millRestoreDone_keeps | apply KeepsR.ite
          | apply KeepsR.next

/-! ### Reeve -/

theorem State.putResv_keeps {s : State} (h : Keeps s₀ s) (k : Nat) (e : Resv) : Keeps s₀ (State.putResv s k e) := by
  unfold State.putResv
  with_reducible repeat'
    first | assumption | intro _ | apply store_keeps | apply Keeps.ite | split | refine Keeps.ofEq (by assumption) ?_
          | refine Keeps.ofSome (by assumption) ?_ | dsimp only | apply Keeps.upd

theorem State.freeResv_keeps {s : State} (h : Keeps s₀ s) (k : Nat) : Keeps s₀ (State.freeResv s k) := by
  unfold State.freeResv
  with_reducible repeat'
    first | assumption | intro _ | apply store_keeps | apply Keeps.ite | split | refine Keeps.ofEq (by assumption) ?_
          | refine Keeps.ofSome (by assumption) ?_ | dsimp only | apply Keeps.upd

theorem State.freeAll_keeps {s : State} (h : Keeps s₀ s) (es : List (Nat × Resv)) : Keeps s₀ (State.freeAll s es) := by
  unfold State.freeAll
  with_reducible repeat' first | assumption | intro _ | apply freeResv_keeps | apply Keeps.foldl

theorem State.markAll_keeps {s : State} (h : Keeps s₀ s) (es : List (Nat × Resv)) (st : ResvState) : Keeps s₀ (State.markAll s es st) := by
  unfold State.markAll
  with_reducible repeat' first | assumption | intro _ | apply putResv_keeps | apply Keeps.foldl

theorem State.putClosed_keeps {s : State} (h : Keeps s₀ s) (g : Nat) (b : Bool) : Keeps s₀ (State.putClosed s g b) := by
  unfold State.putClosed
  with_reducible repeat'
    first | assumption | intro _ | apply store_keeps | apply Keeps.foldl | apply Keeps.foldlP | apply Keeps.ite | split
          | refine Keeps.ofEq (by assumption) ?_ | refine Keeps.ofSome (by assumption) ?_ | dsimp only | apply Keeps.upd

theorem State.putTask_keeps {s : State} (h : Keeps s₀ s) (n : Nat) (t : TaskRec) : Keeps s₀ (State.putTask s n t) := by
  unfold State.putTask
  with_reducible repeat'
    first | assumption | intro _ | apply store_keeps | apply Keeps.ite | split | refine Keeps.ofEq (by assumption) ?_
          | refine Keeps.ofSome (by assumption) ?_ | dsimp only | apply Keeps.upd

theorem State.freeTask_keeps {s : State} (h : Keeps s₀ s) (n : Nat) : Keeps s₀ (State.freeTask s n) := by
  unfold State.freeTask
  with_reducible repeat'
    first | assumption | intro _ | apply store_keeps | apply Keeps.ite | split | refine Keeps.ofEq (by assumption) ?_
          | refine Keeps.ofSome (by assumption) ?_ | dsimp only | apply Keeps.upd

theorem State.putWindow_keeps {s : State} (h : Keeps s₀ s) (n : Nat) (w : LightWin) : Keeps s₀ (State.putWindow s n w) := by
  unfold State.putWindow
  with_reducible repeat'
    first | assumption | intro _ | apply store_keeps | apply Keeps.ite | split | refine Keeps.ofEq (by assumption) ?_
          | refine Keeps.ofSome (by assumption) ?_ | dsimp only | apply Keeps.upd

theorem State.freeWindow_keeps {s : State} (h : Keeps s₀ s) (n : Nat) : Keeps s₀ (State.freeWindow s n) := by
  unfold State.freeWindow
  with_reducible repeat'
    first | assumption | intro _ | apply store_keeps | apply Keeps.ite | split | refine Keeps.ofEq (by assumption) ?_
          | refine Keeps.ofSome (by assumption) ?_ | dsimp only | apply Keeps.upd

theorem State.writePreempts_keeps {s : State} (h : Keeps s₀ s) : Keeps s₀ (State.writePreempts s) := by
  unfold State.writePreempts
  with_reducible repeat' first | assumption | intro _ | apply store_keeps | apply zeroFill_keeps

theorem State.reeveFollow_keeps {s : State} (h : Keeps s₀ s) : Keeps s₀ (State.reeveFollow s) := by
  unfold State.reeveFollow
  with_reducible repeat' first | assumption | intro _ | apply set_keeps | apply store_keeps | apply Keeps.ite

theorem State.revokeRecord_keeps {s : State} (h : Keeps s₀ s) (v : Revoke) (kind : Nat) : Keeps s₀ (State.revokeRecord s v kind) := by
  unfold State.revokeRecord
  with_reducible repeat' first | assumption | intro _ | apply store_keeps

theorem State.revokeVictims_keeps {s : State} (h : Keeps s₀ s) (resid : Nat) (vs : List (Nat × Nat)) :
    Keeps s₀ (State.revokeVictims s resid vs) := by
  unfold State.revokeVictims
  with_reducible repeat'
    first | assumption | intro _ | apply markAll_keeps | apply revokeRecord_keeps | apply Keeps.foldl | apply Keeps.foldlP
          | apply Keeps.ite | split | refine Keeps.ofEq (by assumption) ?_ | refine Keeps.ofSome (by assumption) ?_ | dsimp only
          | apply Keeps.upd

theorem State.reqClaim_keeps {s : State} (h : Keeps s₀ s) (r : ClaimReq) : Keeps s₀ (State.reqClaim s r).2 := by
  unfold State.reqClaim
  with_reducible repeat'
    first | assumption | intro _ | apply set_keeps | apply bump_keeps | apply raise_keeps | apply putResv_keeps | apply freeAll_keeps
          | apply writePreempts_keeps | apply revokeVictims_keeps | apply Keeps.foldl | apply Keeps.foldlP | apply Keeps.ite
          | apply Keeps.iteP | split | refine Keeps.ofEq (by assumption) ?_ | refine Keeps.ofSome (by assumption) ?_ | dsimp only
          | apply Keeps.upd

theorem State.reqRelease_keeps {s : State} (h : Keeps s₀ s) (r : ClaimReq) : Keeps s₀ (State.reqRelease s r).2 := by
  unfold State.reqRelease
  with_reducible repeat' first | assumption | intro _ | apply freeAll_keeps | apply Keeps.ite | apply Keeps.iteP

theorem State.settleToken_keeps {s : State} (h : Keeps s₀ s) (resid : Nat) (a : ReeveAnswer) (same : List (Fin 24)) :
    Keeps s₀ (State.settleToken s resid a same) := by
  unfold State.settleToken
  with_reducible repeat' first | assumption | intro _ | apply reeveResult_keeps | apply Keeps.ite | split

theorem State.dropPreempt_keeps {s : State} (h : Keeps s₀ s) (resid : Nat) : Keeps s₀ (State.dropPreempt s resid) := by
  unfold State.dropPreempt
  with_reducible repeat'
    first | assumption | intro _ | apply writePreempts_keeps | apply Keeps.ite | split | refine Keeps.ofEq (by assumption) ?_
          | refine Keeps.ofSome (by assumption) ?_ | dsimp only | apply Keeps.upd

theorem State.reqConfirm_keeps {s : State} (h : Keeps s₀ s) (r : ClaimReq) (same : List (Fin 24)) :
    Keeps s₀ (State.reqConfirm s r same).2 := by
  unfold State.reqConfirm
  with_reducible repeat'
    first | assumption | intro _ | apply pend_keeps | apply freeAll_keeps | apply markAll_keeps | apply writePreempts_keeps
          | apply revokeRecord_keeps | apply settleToken_keeps | apply dropPreempt_keeps | apply Keeps.ite | apply Keeps.iteP | split
          | refine Keeps.ofEq (by assumption) ?_ | refine Keeps.ofSome (by assumption) ?_ | dsimp only | apply Keeps.upd

theorem State.reqClose_keeps {s : State} (h : Keeps s₀ s) (r : ClaimReq) (close : Bool) : Keeps s₀ (State.reqClose s r close).2 := by
  unfold State.reqClose
  with_reducible repeat' first | assumption | intro _ | apply putClosed_keeps | apply Keeps.ite | apply Keeps.iteP | split

theorem State.reqPost_keeps {s : State} (h : Keeps s₀ s) (r : ClaimReq) : Keeps s₀ (State.reqPost s r).2 := by
  unfold State.reqPost
  with_reducible repeat' first | assumption | intro _ | apply raise_keeps | apply putTask_keeps | apply Keeps.ite | apply Keeps.iteP | split

theorem State.reqAward_keeps {s : State} (h : Keeps s₀ s) (r : ClaimReq) : Keeps s₀ (State.reqAward s r).2 := by
  unfold State.reqAward
  with_reducible repeat'
    first | assumption | intro _ | apply set_keeps | apply putTask_keeps | apply putWindow_keeps | apply Keeps.ite | apply Keeps.iteP
          | split

theorem State.leaveWindow_keeps {s : State} (h : Keeps s₀ s) (t : TaskRec) : Keeps s₀ (State.leaveWindow s t) := by
  unfold State.leaveWindow
  with_reducible repeat'
    first | assumption | intro _ | apply set_keeps | apply putWindow_keeps | apply freeWindow_keeps | apply Keeps.ite | split

theorem State.reqEndTask_keeps {s : State} (h : Keeps s₀ s) (r : ClaimReq) (cancel : Bool) : Keeps s₀ (State.reqEndTask s r cancel).2 := by
  unfold State.reqEndTask
  with_reducible repeat' first | assumption | intro _ | apply putTask_keeps | apply leaveWindow_keeps | apply Keeps.ite | apply Keeps.iteP

theorem State.takeReq_keeps {s : State} (h : Keeps s₀ s) (op : Nat) (same : List (Fin 24)) (f : State → ClaimReq → ReeveAnswer × State) (hf : ∀ x0 x1, Keeps s₀ x0 → Keeps s₀ (f x0 x1).2) :
    Keeps s₀ (State.takeReq s op same f) := by
  unfold State.takeReq
  with_reducible repeat'
    first | assumption | intro _ | apply bump_keeps | apply reeveResult_keeps | apply reeveFollow_keeps | apply hf | apply Keeps.ite
          | split | refine Keeps.ofEq (by assumption) ?_ | refine Keeps.ofSome (by assumption) ?_ | dsimp only | apply Keeps.upd

theorem execClaim_keeps {s : State} (h : Keeps s₀ s) (same : List (Fin 24)) : KeepsR s₀ (execClaim same s) := by
  unfold execClaim
  with_reducible repeat' first | assumption | intro _ | apply reqClaim_keeps | apply takeReq_keeps | apply KeepsR.ite | apply KeepsR.next

theorem execRelease_keeps {s : State} (h : Keeps s₀ s) (same : List (Fin 24)) : KeepsR s₀ (execRelease same s) := by
  unfold execRelease
  with_reducible repeat' first | assumption | intro _ | apply reqRelease_keeps | apply takeReq_keeps | apply KeepsR.ite | apply KeepsR.next

theorem execConfirm_keeps {s : State} (h : Keeps s₀ s) (same : List (Fin 24)) : KeepsR s₀ (execConfirm same s) := by
  unfold execConfirm
  with_reducible repeat' first | assumption | intro _ | apply reqConfirm_keeps | apply takeReq_keeps | apply KeepsR.ite | apply KeepsR.next

theorem execCloseGroup_keeps {s : State} (h : Keeps s₀ s) (same : List (Fin 24)) : KeepsR s₀ (execCloseGroup same s) := by
  unfold execCloseGroup
  with_reducible repeat' first | assumption | intro _ | apply reqClose_keeps | apply takeReq_keeps | apply KeepsR.ite | apply KeepsR.next

theorem execOpenGroup_keeps {s : State} (h : Keeps s₀ s) (same : List (Fin 24)) : KeepsR s₀ (execOpenGroup same s) := by
  unfold execOpenGroup
  with_reducible repeat' first | assumption | intro _ | apply reqClose_keeps | apply takeReq_keeps | apply KeepsR.ite | apply KeepsR.next

theorem execTaskPost_keeps {s : State} (h : Keeps s₀ s) (same : List (Fin 24)) : KeepsR s₀ (execTaskPost same s) := by
  unfold execTaskPost
  with_reducible repeat' first | assumption | intro _ | apply reqPost_keeps | apply takeReq_keeps | apply KeepsR.ite | apply KeepsR.next

theorem execAward_keeps {s : State} (h : Keeps s₀ s) (same : List (Fin 24)) : KeepsR s₀ (execAward same s) := by
  unfold execAward
  with_reducible repeat' first | assumption | intro _ | apply reqAward_keeps | apply takeReq_keeps | apply KeepsR.ite | apply KeepsR.next

theorem execTaskDone_keeps {s : State} (h : Keeps s₀ s) (same : List (Fin 24)) : KeepsR s₀ (execTaskDone same s) := by
  unfold execTaskDone
  with_reducible repeat' first | assumption | intro _ | apply reqEndTask_keeps | apply takeReq_keeps | apply KeepsR.ite | apply KeepsR.next

theorem execTaskCancel_keeps {s : State} (h : Keeps s₀ s) (same : List (Fin 24)) : KeepsR s₀ (execTaskCancel same s) := by
  unfold execTaskCancel
  with_reducible repeat' first | assumption | intro _ | apply reqEndTask_keeps | apply takeReq_keeps | apply KeepsR.ite | apply KeepsR.next

theorem State.reeveExpire_keeps {s : State} (h : Keeps s₀ s) : Keeps s₀ (State.reeveExpire s) := by
  unfold State.reeveExpire
  with_reducible repeat'
    first | assumption | intro _ | apply freeAll_keeps | apply Keeps.ite | split | refine Keeps.ofEq (by assumption) ?_
          | refine Keeps.ofSome (by assumption) ?_ | dsimp only | apply Keeps.upd

theorem State.preemptFail_keeps {s : State} (h : Keeps s₀ s) (resid : Nat) : Keeps s₀ (State.preemptFail s resid) := by
  unfold State.preemptFail
  with_reducible repeat'
    first | assumption | intro _ | apply bump_keeps | apply raise_keeps | apply freeAll_keeps | apply markAll_keeps
          | apply revokeRecord_keeps | apply settleToken_keeps | apply dropPreempt_keeps | apply Keeps.foldl | apply Keeps.foldlP
          | apply Keeps.ite | split | refine Keeps.ofEq (by assumption) ?_ | refine Keeps.ofSome (by assumption) ?_ | dsimp only
          | apply Keeps.upd

theorem State.reeveDeadlines_keeps {s : State} (h : Keeps s₀ s) : Keeps s₀ (State.reeveDeadlines s) := by
  unfold State.reeveDeadlines
  with_reducible repeat' first | assumption | intro _ | apply preemptFail_keeps | apply Keeps.foldl

theorem State.stepWindows_keeps {s : State} (h : Keeps s₀ s) : Keeps s₀ (State.stepWindows s) := by
  unfold State.stepWindows
  with_reducible repeat'
    first | assumption | intro _ | apply putWindow_keeps | apply freeWindow_keeps | apply Keeps.foldl | apply Keeps.foldlP
          | apply Keeps.ite

theorem State.roundStart_keeps {s : State} (h : Keeps s₀ s) : Keeps s₀ (State.roundStart s) := by
  unfold State.roundStart
  with_reducible repeat'
    first | assumption | intro _ | apply set_keeps | apply bump_keeps | apply reeveResult_keeps | apply putTask_keeps
          | apply freeTask_keeps | apply stepWindows_keeps | apply Keeps.foldl | apply Keeps.foldlP | apply Keeps.ite | split
          | refine Keeps.ofEq (by assumption) ?_ | refine Keeps.ofSome (by assumption) ?_ | dsimp only | apply Keeps.upd

theorem State.reeveComputeStart_keeps {s : State} (h : Keeps s₀ s) (whole : Bool) : Keeps s₀ (State.reeveComputeStart s whole) := by
  unfold State.reeveComputeStart
  with_reducible repeat'
    first | assumption | intro _ | apply reeveFollow_keeps | apply reeveExpire_keeps | apply reeveDeadlines_keeps | apply roundStart_keeps
          | apply Keeps.ite | split | refine Keeps.ofEq (by assumption) ?_ | refine Keeps.ofSome (by assumption) ?_ | dsimp only
          | apply Keeps.upd

theorem State.reeveClose_keeps {s : State} (h : Keeps s₀ s) : Keeps s₀ (State.reeveClose s) := by
  unfold State.reeveClose
  with_reducible repeat'
    first | assumption | intro _ | apply Keeps.ite | split | refine Keeps.ofEq (by assumption) ?_ | refine Keeps.ofSome (by assumption) ?_
          | dsimp only | apply Keeps.upd

theorem execSoloRequestWindowClose_keeps {s : State} (h : Keeps s₀ s) : KeepsR s₀ (execSoloRequestWindowClose s) := by
  unfold execSoloRequestWindowClose
  with_reducible repeat' first | assumption | intro _ | apply moveTo_keeps | apply reeveClose_keeps | apply KeepsR.ite | apply KeepsR.next

theorem State.queueSnapshot_keeps {s : State} (h : Keeps s₀ s) : Keeps s₀ (State.queueSnapshot s) := by
  unfold State.queueSnapshot
  with_reducible repeat' first | assumption | intro _ | apply store_keeps | apply Keeps.ite

theorem execMillCutStart_keeps {s : State} (h : Keeps s₀ s) : KeepsR s₀ (execMillCutStart s) := by
  unfold execMillCutStart
  with_reducible repeat'
    first | assumption | intro _ | apply moveTo_keeps | apply millCutStart_keeps | apply reeveClose_keeps | apply queueSnapshot_keeps
          | apply KeepsR.ite | apply KeepsR.next | apply Keeps.ite

theorem State.reeveLoad_keeps {s : State} (h : Keeps s₀ s) : Keeps s₀ (State.reeveLoad s) := by
  unfold State.reeveLoad
  with_reducible repeat' first | assumption | intro _ | apply set_keeps | apply raise_keeps | apply Keeps.ite

theorem execReeveLoad_keeps {s : State} (h : Keeps s₀ s) : KeepsR s₀ (execReeveLoad s) := by
  unfold execReeveLoad
  with_reducible repeat' first | assumption | intro _ | apply reeveLoad_keeps | apply KeepsR.ite | apply KeepsR.next

theorem State.graphLoadDone_keeps {s : State} (h : Keeps s₀ s) : Keeps s₀ (State.graphLoadDone s) := by
  unfold State.graphLoadDone
  with_reducible repeat'
    first | assumption | intro _ | apply set_keeps | apply setB_keeps | apply raise_keeps | apply touch_keeps | apply Keeps.foldl
          | apply Keeps.foldlP | apply Keeps.ite | split | refine Keeps.ofEq (by assumption) ?_ | refine Keeps.ofSome (by assumption) ?_
          | dsimp only | apply Keeps.upd

theorem execGraphLoadDone_keeps {s : State} (h : Keeps s₀ s) : KeepsR s₀ (execGraphLoadDone s) := by
  unfold execGraphLoadDone
  with_reducible repeat' first | assumption | intro _ | apply graphLoadDone_keeps | apply KeepsR.ite | apply KeepsR.next

theorem State.reeveEmpty_keeps {s : State} (h : Keeps s₀ s) : Keeps s₀ (State.reeveEmpty s) := by
  unfold State.reeveEmpty
  with_reducible repeat'
    first | assumption | intro _ | apply set_keeps | apply Keeps.ite | split | refine Keeps.ofEq (by assumption) ?_
          | refine Keeps.ofSome (by assumption) ?_ | dsimp only | apply Keeps.upd

theorem State.mirrorEmpty_keeps {s : State} (h : Keeps s₀ s) : Keeps s₀ (State.mirrorEmpty s) := by
  unfold State.mirrorEmpty
  with_reducible repeat' first | assumption | intro _ | apply zeroFill_keeps | apply Keeps.ite

theorem State.reeveClear_keeps {s : State} (h : Keeps s₀ s) : Keeps s₀ (State.reeveClear s) := by
  unfold State.reeveClear
  with_reducible repeat'
    first | assumption | intro _ | apply raise_keeps | apply reeveFollow_keeps | apply reeveEmpty_keeps | apply mirrorEmpty_keeps
          | apply Keeps.ite

theorem execReeveClear_keeps {s : State} (h : Keeps s₀ s) : KeepsR s₀ (execReeveClear s) := by
  unfold execReeveClear
  with_reducible repeat' first | assumption | intro _ | apply reeveClear_keeps | apply KeepsR.ite | apply KeepsR.next

theorem State.reeveRestore_keeps {s : State} (h : Keeps s₀ s) : Keeps s₀ (State.reeveRestore s) := by
  unfold State.reeveRestore
  with_reducible repeat' first | assumption | intro _ | apply set_keeps | apply raise_keeps | apply Keeps.ite

theorem execReeveRestore_keeps {s : State} (h : Keeps s₀ s) : KeepsR s₀ (execReeveRestore s) := by
  unfold execReeveRestore
  with_reducible repeat' first | assumption | intro _ | apply reeveRestore_keeps | apply KeepsR.ite | apply KeepsR.next

theorem State.reeveRestoreDone_keeps {s : State} (h : Keeps s₀ s) : Keeps s₀ (State.reeveRestoreDone s) := by
  unfold State.reeveRestoreDone
  with_reducible repeat'
    first | assumption | intro _ | apply set_keeps | apply setB_keeps | apply raise_keeps | apply touch_keeps | apply reeveFollow_keeps
          | apply reeveEmpty_keeps | apply mirrorEmpty_keeps | apply Keeps.foldl | apply Keeps.foldlP | apply Keeps.ite | split
          | refine Keeps.ofEq (by assumption) ?_ | refine Keeps.ofSome (by assumption) ?_ | dsimp only | apply Keeps.upd

theorem execReeveRestoreDone_keeps {s : State} (h : Keeps s₀ s) : KeepsR s₀ (execReeveRestoreDone s) := by
  unfold execReeveRestoreDone
  with_reducible repeat' first | assumption | intro _ | apply reeveRestoreDone_keeps | apply KeepsR.ite | apply KeepsR.next

theorem State.reeveRun_keeps {s : State} (h : Keeps s₀ s) : Keeps s₀ (State.reeveRun s) := by
  unfold State.reeveRun
  with_reducible repeat'
    first | assumption | intro _ | apply set_keeps | apply raise_keeps | apply reeveFollow_keeps | apply reeveEmpty_keeps
          | apply mirrorEmpty_keeps | apply Keeps.ite | split | refine Keeps.ofEq (by assumption) ?_
          | refine Keeps.ofSome (by assumption) ?_ | dsimp only | apply Keeps.upd

theorem execReeveRun_keeps {s : State} (h : Keeps s₀ s) : KeepsR s₀ (execReeveRun s) := by
  unfold execReeveRun
  with_reducible repeat' first | assumption | intro _ | apply reeveRun_keeps | apply KeepsR.ite | apply KeepsR.next

theorem State.reeveStop_keeps {s : State} (h : Keeps s₀ s) : Keeps s₀ (State.reeveStop s) := by
  unfold State.reeveStop
  with_reducible repeat' first | assumption | intro _ | apply set_keeps | apply reeveClose_keeps | apply Keeps.ite

theorem execReeveStop_keeps {s : State} (h : Keeps s₀ s) : KeepsR s₀ (execReeveStop s) := by
  unfold execReeveStop
  with_reducible repeat' first | assumption | intro _ | apply reeveStop_keeps | apply KeepsR.ite | apply KeepsR.next

theorem State.reeveBoundary_keeps {s : State} (h : Keeps s₀ s) : Keeps s₀ (State.reeveBoundary s) := by
  unfold State.reeveBoundary
  with_reducible repeat' first | assumption | intro _ | apply set_keeps

/-! ### Pair -/

theorem State.sendCtl_keeps {s : State} (h : Keeps s₀ s) (m : CtlMsg) : Keeps s₀ (State.sendCtl s m) := by
  unfold State.sendCtl
  with_reducible repeat'
    first | assumption | intro _ | apply Keeps.ite | split | refine Keeps.ofEq (by assumption) ?_ | refine Keeps.ofSome (by assumption) ?_
          | dsimp only | apply Keeps.upd

theorem State.openGate_keeps {s : State} (h : Keeps s₀ s) : Keeps s₀ (State.openGate s) := by
  unfold State.openGate
  with_reducible repeat'
    first | assumption | intro _ | apply set_keeps | apply setB_keeps | apply pendAll_keeps | apply Keeps.ite | split
          | refine Keeps.ofEq (by assumption) ?_ | refine Keeps.ofSome (by assumption) ?_ | dsimp only | apply Keeps.upd

theorem State.decantCopied_keeps {s : State} (h : Keeps s₀ s) : Keeps s₀ (State.decantCopied s) := by
  unfold State.decantCopied
  with_reducible repeat'
    first | assumption | intro _ | apply unstall_keeps | apply Keeps.foldl | apply Keeps.foldlP | apply Keeps.ite | split
          | refine Keeps.ofEq (by assumption) ?_ | refine Keeps.ofSome (by assumption) ?_ | dsimp only | apply Keeps.upd

theorem State.releaseStage_keeps {s : State} (h : Keeps s₀ s) (reason : Nat) : Keeps s₀ (State.releaseStage s reason) := by
  unfold State.releaseStage
  with_reducible repeat'
    first | assumption | intro _ | apply set_keeps | apply setB_keeps | apply bump_keeps | apply loopClaimLost_keeps
          | apply axesClaimLost_keeps | apply decantCopied_keeps | apply Keeps.ite | split | refine Keeps.ofEq (by assumption) ?_
          | refine Keeps.ofSome (by assumption) ?_ | dsimp only | apply Keeps.upd

theorem State.raiseSeen_keeps {s : State} (h : Keeps s₀ s) (c : Nat) : Keeps s₀ (State.raiseSeen s c) := by
  unfold State.raiseSeen
  with_reducible repeat'
    first | assumption | intro _ | apply set_keeps | apply raise_keeps | apply chestSet_keeps | apply releaseStage_keeps | apply Keeps.ite

theorem State.clmnext_keeps {s : State} (h : Keeps s₀ s) : Keeps s₀ (State.clmnext s).2 := by
  unfold State.clmnext
  with_reducible repeat'
    first | assumption | intro _ | apply set_keeps | apply raise_keeps | apply chestSet_keeps | apply raiseSeen_keeps | apply Keeps.ite
          | apply Keeps.iteP

theorem State.claimHold_keeps {s : State} (h : Keeps s₀ s) : Keeps s₀ (State.claimHold s) := by
  unfold State.claimHold
  with_reducible repeat' first | assumption | intro _ | apply set_keeps | apply raise_keeps | apply Keeps.ite

theorem execHold_keeps {s : State} (h : Keeps s₀ s) : KeepsR s₀ (execHold s) := by
  unfold execHold
  with_reducible repeat' first | assumption | intro _ | apply claimHold_keeps | apply KeepsR.ite | apply KeepsR.next

theorem execClaimStageRelease_keeps {s : State} (h : Keeps s₀ s) : KeepsR s₀ (execClaimStageRelease s) := by
  unfold execClaimStageRelease
  with_reducible repeat' first | assumption | intro _ | apply releaseStage_keeps | apply KeepsR.ite | apply KeepsR.next

theorem State.setPair_keeps {s : State} (h : Keeps s₀ s) (p : Nat) (keep : Bool) : Keeps s₀ (State.setPair s p keep) := by
  unfold State.setPair
  with_reducible repeat'
    first | (intro x; refine (fun (hx : Keeps s₀ x) => ?_) ?_; (on_goal 1 => clear_value x); (on_goal 2 => subst x))
          | (intro x; clear_value x) | lift_lets | assumption | intro _ | apply set_keeps | apply setB_keeps | apply reeveStop_keeps
          | apply openGate_keeps | apply releaseStage_keeps | apply Keeps.ite | split | refine Keeps.ofEq (by assumption) ?_
          | refine Keeps.ofSome (by assumption) ?_ | apply Keeps.upd

theorem State.resync_keeps {s : State} (h : Keeps s₀ s) : Keeps s₀ (State.resync s) := by
  unfold State.resync
  with_reducible repeat'
    first | assumption | intro _ | apply setB_keeps | apply Keeps.ite | split | refine Keeps.ofEq (by assumption) ?_
          | refine Keeps.ofSome (by assumption) ?_ | dsimp only | apply Keeps.upd

theorem State.decantFreeze_keeps {s : State} (h : Keeps s₀ s) : Keeps s₀ (State.decantFreeze s) := by
  unfold State.decantFreeze
  with_reducible repeat'
    first | assumption | intro _ | apply set_keeps | apply bump_keeps | apply raise_keeps | apply eccFix_keeps | apply eccBad_keeps
          | apply Keeps.foldl | apply Keeps.foldlP | apply Keeps.ite | split | refine Keeps.ofEq (by assumption) ?_
          | refine Keeps.ofSome (by assumption) ?_ | dsimp only | apply Keeps.upd

theorem State.stalledResume_keeps {s : State} (h : Keeps s₀ s) : Keeps s₀ (State.stalledResume s) := by
  unfold State.stalledResume
  with_reducible repeat'
    first | assumption | intro _ | apply unstall_keeps | apply Keeps.ite | split | refine Keeps.ofEq (by assumption) ?_
          | refine Keeps.ofSome (by assumption) ?_ | dsimp only | apply Keeps.upd

theorem execStalledWriteResume_keeps {s : State} (h : Keeps s₀ s) : KeepsR s₀ (execStalledWriteResume s) := by
  unfold execStalledWriteResume
  with_reducible repeat' first | assumption | intro _ | apply stalledResume_keeps | apply KeepsR.ite | apply KeepsR.next

theorem State.partnerState_keeps {s : State} (h : Keeps s₀ s) (m : CtlMsg) : Keeps s₀ (State.partnerState s m) := by
  unfold State.partnerState
  with_reducible repeat' first | assumption | intro _ | apply set_keeps | apply raiseSeen_keeps | apply resync_keeps | apply Keeps.ite

theorem State.journalAck_keeps {s : State} (h : Keeps s₀ s) (m : CtlMsg) : Keeps s₀ (State.journalAck s m) := by
  unfold State.journalAck
  with_reducible repeat'
    first | assumption | intro _ | apply set_keeps | apply setB_keeps | apply qPushHw_keeps | apply openGate_keeps
          | apply decantCopied_keeps | apply partnerState_keeps | apply Keeps.ite | split | refine Keeps.ofEq (by assumption) ?_
          | refine Keeps.ofSome (by assumption) ?_ | dsimp only | apply Keeps.upd

theorem State.sendLeave_keeps {s : State} (h : Keeps s₀ s) (code : Nat) : Keeps s₀ (State.sendLeave s code) := by
  unfold State.sendLeave
  with_reducible repeat' first | assumption | intro _ | apply sendCtl_keeps

theorem State.commitRuns_keeps {s : State} {t : State} (h : Keeps s₀ t) (b : List Byte) (n k : Nat) : Keeps s₀ (s.commitRuns b n k t) := by
  induction n generalizing t k with
  | zero => exact h
  | succ n ih => exact ih (Keeps.foldl h fun t x ht => State.writeRaw_keeps ht _ _) _

theorem State.journalCommit_keeps {s : State} (h : Keeps s₀ s) : Keeps s₀ (State.journalCommit s) := by
  unfold State.journalCommit
  with_reducible repeat'
    first | assumption | intro _ | apply set_keeps | apply setMask_keeps | apply sendCtl_keeps | apply raiseSeen_keeps
          | apply setPair_keeps | apply commitRuns_keeps | apply Keeps.ite | split | refine Keeps.ofEq (by assumption) ?_
          | refine Keeps.ofSome (by assumption) ?_ | dsimp only | apply Keeps.upd

theorem State.journalReceived_keeps {s : State} (h : Keeps s₀ s) (b : List Byte) (part : Bool) :
    Keeps s₀ (State.journalReceived s b part) := by
  unfold State.journalReceived
  with_reducible repeat'
    first | assumption | intro _ | apply setMask_keeps | apply bump_keeps | apply raise_keeps | apply store_keeps | apply sendCtl_keeps
          | apply setPair_keeps | apply sendLeave_keeps | apply journalCommit_keeps | apply Keeps.ite | split
          | refine Keeps.ofEq (by assumption) ?_ | refine Keeps.ofSome (by assumption) ?_ | dsimp only | apply Keeps.upd

theorem execJournalCommitDone_keeps {s : State} (h : Keeps s₀ s) : KeepsR s₀ (execJournalCommitDone s) := by
  unfold execJournalCommitDone
  with_reducible repeat' first | assumption | intro _ | apply journalCommit_keeps | apply KeepsR.ite | apply KeepsR.next

theorem State.plinkRun_keeps {s : State} (h : Keeps s₀ s) : Keeps s₀ (State.plinkRun s) := by
  unfold State.plinkRun
  with_reducible repeat'
    first | assumption | intro _ | apply set_keeps | apply raise_keeps | apply Keeps.ite | split | refine Keeps.ofEq (by assumption) ?_
          | refine Keeps.ofSome (by assumption) ?_ | dsimp only | apply Keeps.upd

theorem execPlinkRun_keeps {s : State} (h : Keeps s₀ s) : KeepsR s₀ (execPlinkRun s) := by
  unfold execPlinkRun
  with_reducible repeat' first | assumption | intro _ | apply plinkRun_keeps | apply KeepsR.ite | apply KeepsR.next

theorem State.linkDown_keeps {s : State} (h : Keeps s₀ s) : Keeps s₀ (State.linkDown s) := by
  unfold State.linkDown
  with_reducible repeat' first | assumption | intro _ | apply set_keeps

theorem execPlinkStop_keeps {s : State} (h : Keeps s₀ s) : KeepsR s₀ (execPlinkStop s) := by
  unfold execPlinkStop
  with_reducible repeat' first | assumption | intro _ | apply linkDown_keeps | apply KeepsR.ite | apply KeepsR.next

theorem execLinkTrainDone_keeps {s : State} (h : Keeps s₀ s) : KeepsR s₀ (execLinkTrainDone s) := by
  unfold execLinkTrainDone
  with_reducible repeat'
    first | assumption | intro _ | apply set_keeps | apply KeepsR.ite | apply KeepsR.next | apply Keeps.ite | split
          | refine Keeps.ofEq (by assumption) ?_ | refine Keeps.ofSome (by assumption) ?_ | dsimp only | apply Keeps.upd

theorem execLaneDegraded_keeps {s : State} (h : Keeps s₀ s) : KeepsR s₀ (execLaneDegraded s) := by
  unfold execLaneDegraded
  with_reducible repeat' first | assumption | intro _ | apply set_keeps | apply raise_keeps | apply KeepsR.ite | apply KeepsR.next

theorem execPlinkLinkDown_keeps {s : State} (h : Keeps s₀ s) : KeepsR s₀ (execPlinkLinkDown s) := by
  unfold execPlinkLinkDown
  with_reducible repeat' first | assumption | intro _ | apply linkDown_keeps | apply KeepsR.ite | apply KeepsR.next

theorem State.sendItems_keeps {s : State} (h : Keeps s₀ s) (n inq out : Nat) : Keeps s₀ (State.sendItems n inq out s) := by
  induction n generalizing s with
  | zero => exact h
  | succ n ih =>
    unfold State.sendItems
    split
    · dsimp only
      exact Keeps.ite (ih (Keeps.upd (State.qPop_keeps h _) ..)) h
    · exact h

theorem execCreditReturn_keeps {s : State} (h : Keeps s₀ s) (unit : Fin 48) (blocks : Nat) :
    KeepsR s₀ (execCreditReturn unit blocks s) := by
  unfold execCreditReturn
  with_reducible repeat'
    first | assumption | intro _ | apply sendItems_keeps | apply KeepsR.ite | apply KeepsR.next | apply Keeps.ite | split
          | refine Keeps.ofEq (by assumption) ?_ | refine Keeps.ofSome (by assumption) ?_ | dsimp only | apply Keeps.upd

theorem State.plinkAlive_keeps {s : State} (h : Keeps s₀ s) : Keeps s₀ (State.plinkAlive s) := by
  unfold State.plinkAlive
  with_reducible repeat'
    first | assumption | intro _ | apply Keeps.ite | split | refine Keeps.ofEq (by assumption) ?_ | refine Keeps.ofSome (by assumption) ?_
          | dsimp only | apply Keeps.upd

theorem execAlive_keeps {s : State} (h : Keeps s₀ s) : KeepsR s₀ (execAlive s) := by
  unfold execAlive
  with_reducible repeat' first | assumption | intro _ | apply plinkAlive_keeps | apply KeepsR.ite | apply KeepsR.next

theorem execHeartbeatSend_keeps {s : State} (h : Keeps s₀ s) : KeepsR s₀ (execHeartbeatSend s) := by
  unfold execHeartbeatSend
  with_reducible repeat'
    first | assumption | refine reachSite_keeps ?_ _ | intro _ | apply sendCtl_keeps | apply KeepsR.ite | apply KeepsR.next
          | apply Keeps.ite | split | refine Keeps.ofEq (by assumption) ?_ | refine Keeps.ofSome (by assumption) ?_ | dsimp only
          | apply Keeps.upd

theorem execHelloSend_keeps {s : State} (h : Keeps s₀ s) : KeepsR s₀ (execHelloSend s) := by
  unfold execHelloSend
  with_reducible repeat'
    first | assumption | refine reachUs_keeps ?_ _ | intro _ | apply sendCtl_keeps | apply KeepsR.ite | apply KeepsR.next
          | apply Keeps.ite | split | refine Keeps.ofEq (by assumption) ?_ | refine Keeps.ofSome (by assumption) ?_ | dsimp only
          | apply Keeps.upd

theorem State.heartbeat_keeps {s : State} (h : Keeps s₀ s) (m : CtlMsg) (t1 t4 : Word) : Keeps s₀ (State.heartbeat s m t1 t4) := by
  unfold State.heartbeat
  with_reducible repeat'
    first | assumption | intro _ | apply set_keeps | apply raise_keeps | apply qPushHw_keeps | apply partnerState_keeps | apply Keeps.ite
          | split | refine Keeps.ofEq (by assumption) ?_ | refine Keeps.ofSome (by assumption) ?_ | dsimp only | apply Keeps.upd

theorem execHeartbeatReceive_keeps {s : State} (h : Keeps s₀ s) (m : CtlMsg) (t1 t4 : Word) :
    KeepsR s₀ (execHeartbeatReceive m t1 t4 s) := by
  unfold execHeartbeatReceive
  with_reducible repeat' first | assumption | intro _ | apply heartbeat_keeps | apply KeepsR.ite | apply KeepsR.next

theorem State.declareLost_keeps {s : State} (h : Keeps s₀ s) (part : Bool) : Keeps s₀ (State.declareLost s part) := by
  unfold State.declareLost
  with_reducible repeat'
    first | (intro x; refine (fun (hx : Keeps s₀ x) => ?_) ?_; (on_goal 1 => clear_value x); (on_goal 2 => subst x))
          | (intro x; clear_value x) | lift_lets | assumption | intro _ | apply set_keeps | apply bump_keeps | apply raise_keeps
          | apply setPair_keeps | apply Keeps.ite | split | refine Keeps.ofEq (by assumption) ?_ | refine Keeps.ofSome (by assumption) ?_
          | apply Keeps.upd

theorem execHeartbeatTimeout_keeps {s : State} (h : Keeps s₀ s) (part : Bool) : KeepsR s₀ (execHeartbeatTimeout part s) := by
  unfold execHeartbeatTimeout
  with_reducible repeat'
    first | assumption | refine reachUs_keeps ?_ _ | intro _ | apply declareLost_keeps | apply KeepsR.ite | apply KeepsR.next
          | apply Keeps.ite | split | refine Keeps.ofEq (by assumption) ?_ | refine Keeps.ofSome (by assumption) ?_

theorem execPartnerWireFall_keeps {s : State} (h : Keeps s₀ s) (part : Bool) : KeepsR s₀ (execPartnerWireFall part s) := by
  unfold execPartnerWireFall
  with_reducible repeat'
    first | assumption | intro _ | apply setB_keeps | apply declareLost_keeps | apply KeepsR.ite | apply KeepsR.next | apply Keeps.ite
          | split | refine Keeps.ofEq (by assumption) ?_ | refine Keeps.ofSome (by assumption) ?_ | dsimp only | apply Keeps.upd

theorem State.handedOver_keeps {s : State} (h : Keeps s₀ s) : Keeps s₀ (State.handedOver s) := by
  unfold State.handedOver
  with_reducible repeat'
    first | assumption | intro _ | apply set_keeps | apply raise_keeps | apply releaseStage_keeps | apply Keeps.ite | split
          | refine Keeps.ofEq (by assumption) ?_ | refine Keeps.ofSome (by assumption) ?_ | dsimp only | apply Keeps.upd

theorem State.partnerRise_keeps {s : State} (h : Keeps s₀ s) (tie : Bool) : Keeps s₀ (State.partnerRise s tie) := by
  unfold State.partnerRise
  with_reducible repeat'
    first | assumption | intro _ | apply setB_keeps | apply raise_keeps | apply releaseStage_keeps | apply setPair_keeps
          | apply handedOver_keeps | apply Keeps.ite | split | refine Keeps.ofEq (by assumption) ?_
          | refine Keeps.ofSome (by assumption) ?_ | dsimp only | apply Keeps.upd

theorem execPartnerWireRise_keeps {s : State} (h : Keeps s₀ s) (tie : Bool) : KeepsR s₀ (execPartnerWireRise tie s) := by
  unfold execPartnerWireRise
  with_reducible repeat' first | assumption | intro _ | apply partnerRise_keeps | apply KeepsR.ite | apply KeepsR.next

theorem State.hello_keeps {s : State} (h : Keeps s₀ s) (m : CtlMsg) : Keeps s₀ (State.hello s m) := by
  unfold State.hello
  with_reducible repeat'
    first | (intro x; refine (fun (hx : Keeps s₀ x) => ?_) ?_; (on_goal 1 => clear_value x); (on_goal 2 => subst x))
          | (intro x; clear_value x) | lift_lets | assumption | intro _ | apply setB_keeps | apply raise_keeps | apply qPushHw_keeps
          | apply sendCtl_keeps | apply setPair_keeps | apply resync_keeps | apply partnerState_keeps | apply Keeps.ite | split
          | refine Keeps.ofEq (by assumption) ?_ | refine Keeps.ofSome (by assumption) ?_ | apply Keeps.upd

theorem execHelloReceive_keeps {s : State} (h : Keeps s₀ s) (m : CtlMsg) : KeepsR s₀ (execHelloReceive m s) := by
  unfold execHelloReceive
  with_reducible repeat' first | assumption | intro _ | apply hello_keeps | apply KeepsR.ite | apply KeepsR.next

theorem execSeekingTimeout_keeps {s : State} (h : Keeps s₀ s) : KeepsR s₀ (execSeekingTimeout s) := by
  unfold execSeekingTimeout
  refine KeepsR.ite (KeepsR.next h) ?_
  split
  · exact KeepsR.next h
  · rename_i e
    obtain ⟨t, _, e⟩ := Option.bind_eq_some_iff.1 e
    exact KeepsR.next (State.setPair_keeps (State.reachUs_keeps h t _ e) ..)

theorem State.leave_keeps {s : State} (h : Keeps s₀ s) (m : CtlMsg) : Keeps s₀ (State.leave s m) := by
  unfold State.leave
  with_reducible repeat'
    first | (intro x; refine (fun (hx : Keeps s₀ x) => ?_) ?_; (on_goal 1 => clear_value x); (on_goal 2 => subst x))
          | (intro x; clear_value x) | lift_lets | assumption | intro _ | apply setB_keeps | apply qPushHw_keeps | apply setPair_keeps
          | apply resync_keeps | apply partnerState_keeps | apply Keeps.ite | split | refine Keeps.ofEq (by assumption) ?_
          | refine Keeps.ofSome (by assumption) ?_ | apply Keeps.upd

theorem execLeave_keeps {s : State} (h : Keeps s₀ s) (m : CtlMsg) : KeepsR s₀ (execLeave m s) := by
  unfold execLeave
  with_reducible repeat' first | assumption | intro _ | apply leave_keeps | apply KeepsR.ite | apply KeepsR.next

theorem execHandbackReq_keeps {s : State} (h : Keeps s₀ s) (m : CtlMsg) : KeepsR s₀ (execHandbackReq m s) := by
  unfold execHandbackReq
  with_reducible repeat'
    first | assumption | intro _ | apply set_keeps | apply qPushHw_keeps | apply sendCtl_keeps | apply partnerState_keeps
          | apply KeepsR.ite | apply KeepsR.next | apply Keeps.ite | split | refine Keeps.ofEq (by assumption) ?_
          | refine Keeps.ofSome (by assumption) ?_ | dsimp only | apply Keeps.upd

theorem execHandback_keeps {s : State} (h : Keeps s₀ s) (m : CtlMsg) : KeepsR s₀ (execHandback m s) := by
  unfold execHandback
  with_reducible repeat'
    first | assumption | intro _ | apply set_keeps | apply qPushHw_keeps | apply partnerState_keeps | apply KeepsR.ite | apply KeepsR.next

theorem State.yieldPair_keeps {s : State} (h : Keeps s₀ s) : Keeps s₀ (State.yieldPair s) := by
  unfold State.yieldPair
  with_reducible repeat'
    first | (intro x; refine (fun (hx : Keeps s₀ x) => ?_) ?_; (on_goal 1 => clear_value x); (on_goal 2 => subst x))
          | (intro x; clear_value x) | lift_lets | assumption | intro _ | apply releaseStage_keeps | apply setPair_keeps | apply Keeps.ite
          | split | refine Keeps.ofEq (by assumption) ?_ | refine Keeps.ofSome (by assumption) ?_ | apply Keeps.upd

theorem execYield_keeps {s : State} (h : Keeps s₀ s) : KeepsR s₀ (execYield s) := by
  unfold execYield
  with_reducible repeat' first | assumption | intro _ | apply yieldPair_keeps | apply KeepsR.ite | apply KeepsR.next

theorem State.takeoverDecision_keeps {s : State} (h : Keeps s₀ s) : Keeps s₀ (State.takeoverDecision s) := by
  unfold State.takeoverDecision
  with_reducible repeat'
    first | (intro x; refine (fun (hx : Keeps s₀ x) => ?_) ?_; (on_goal 1 => clear_value x); (on_goal 2 => subst x))
          | (intro x; clear_value x) | lift_lets | assumption | intro _ | apply raise_keeps | apply setPair_keeps | apply Keeps.ite
          | split | refine Keeps.ofEq (by assumption) ?_ | refine Keeps.ofSome (by assumption) ?_ | apply Keeps.upd

theorem execTakeoverDecision_keeps {s : State} (h : Keeps s₀ s) : KeepsR s₀ (execTakeoverDecision s) := by
  unfold execTakeoverDecision
  with_reducible repeat' first | assumption | intro _ | apply takeoverDecision_keeps | apply KeepsR.ite | apply KeepsR.next

theorem execPairDropped_keeps {s : State} (h : Keeps s₀ s) : KeepsR s₀ (execPairDropped s) := by
  unfold execPairDropped
  with_reducible repeat'
    first | assumption | intro _ | apply raise_keeps | apply setPair_keeps | apply sendLeave_keeps
          | apply KeepsR.ite | apply KeepsR.next

theorem execInsyncStale_keeps {s : State} (h : Keeps s₀ s) : KeepsR s₀ (execInsyncStale s) := by
  unfold execInsyncStale
  with_reducible repeat'
    first | (intro x; refine (fun (hx : Keeps s₀ x) => ?_) ?_; (on_goal 1 => clear_value x); (on_goal 2 => subst x))
          | (intro x; clear_value x) | lift_lets | assumption | intro _ | apply setPair_keeps | apply KeepsR.ite | apply KeepsR.next

theorem State.stageHolding_keeps {s : State} (h : Keeps s₀ s) : Keeps s₀ (State.stageHolding s) := by
  unfold State.stageHolding
  with_reducible repeat'
    first | assumption | intro _ | apply set_keeps | apply setB_keeps | apply bump_keeps | apply loopClaimHeld_keeps
          | apply axesClaimHeld_keeps | apply partnerRise_keeps | apply Keeps.ite | split | refine Keeps.ofEq (by assumption) ?_
          | refine Keeps.ofSome (by assumption) ?_ | dsimp only | apply Keeps.upd

theorem State.pairBoundary_keeps {s : State} (h : Keeps s₀ s) : Keeps s₀ (State.pairBoundary s) := by
  unfold State.pairBoundary
  with_reducible repeat'
    first | (intro x; refine (fun (hx : Keeps s₀ x) => ?_) ?_; (on_goal 1 => clear_value x); (on_goal 2 => subst x))
          | (intro x; clear_value x) | lift_lets | assumption | intro _ | apply set_keeps | apply setB_keeps | apply bump_keeps
          | apply millStop_keeps | apply setPair_keeps | apply handedOver_keeps | apply stageHolding_keeps | apply Keeps.ite | split
          | refine Keeps.ofEq (by assumption) ?_ | refine Keeps.ofSome (by assumption) ?_ | apply Keeps.upd

theorem State.plinkApplied_keeps {s : State} (h : Keeps s₀ s) : Keeps s₀ (State.plinkApplied s) := by
  unfold State.plinkApplied
  with_reducible repeat'
    first | assumption | intro _ | apply setPair_keeps | apply Keeps.ite

end Sys2Proof.Machine
end

