-- ==== Sys2Proof/Laws/KeepsEngines.lean ====
section
/-! SUPPORT. That the instructions of the hub cores and the node engines keep the invariant and the queue (`Keeps`), one lemma per function. -/

namespace Sys2Proof.Machine

open State

variable {s₀ : State}

/-! ### Operands -/

theorem State.wg_keeps {s : State} (h : Keeps s₀ s) (e : Engine) (r : Reg) (v : Word) : Keeps s₀ (s.wg e r v) := by
  unfold State.wg
  cases e with
  | hub c => exact State.setCore_keeps h c _ fun i => have k := core_ok i c; ⟨k.pc, k.epc, k.status, k.evec, regWrite_zero k.g0 _ _, k.chest⟩
  | node n => exact State.setNode_keeps h _ _
  | seq q => exact State.setSeq_keeps h _ _

theorem State.wf_keeps {s : State} (h : Keeps s₀ s) (e : Engine) (r : Reg) (v : Word) : Keeps s₀ (State.wf s e r v) := by
  unfold State.wf
  with_reducible repeat'
    first | exact fun i => (core_ok i _).congr rfl rfl rfl rfl rfl rfl
          | exact fun i => have k := core_ok i _; ⟨pcFit_fit _, k.epc, k.status, k.evec, k.g0, k.chest⟩
          | exact fun i => (core_ok i _).stop | assumption | intro _ | apply setCore_keeps | apply setNode_keeps
          | refine setCore_keeps ?_ _ _ ?_ | apply Keeps.ite | split

theorem State.setPc_keeps {s : State} (h : Keeps s₀ s) (e : Engine) (v : Word) : Keeps s₀ (State.setPc s e v) := by
  unfold State.setPc
  with_reducible repeat'
    first | exact fun i => (core_ok i _).congr rfl rfl rfl rfl rfl rfl
          | exact fun i => have k := core_ok i _; ⟨pcFit_fit _, k.epc, k.status, k.evec, k.g0, k.chest⟩
          | exact fun i => (core_ok i _).stop | assumption | intro _ | apply setCore_keeps | apply setSeq_keeps | apply setNode_keeps
          | refine setCore_keeps ?_ _ _ ?_ | apply Keeps.ite | split

theorem State.adv_keeps {s : State} (h : Keeps s₀ s) (e : Engine) : Keeps s₀ (State.adv s e) := by
  unfold State.adv
  with_reducible repeat'
    first | exact fun i => (core_ok i _).congr rfl rfl rfl rfl rfl rfl
          | exact fun i => have k := core_ok i _; ⟨pcFit_fit _, k.epc, k.status, k.evec, k.g0, k.chest⟩
          | exact fun i => (core_ok i _).stop | assumption | intro _ | apply setCore_keeps | apply setSeq_keeps | apply setNode_keeps
          | refine setCore_keeps ?_ _ _ ?_ | apply Keeps.ite | split

theorem State.block_keeps {s : State} (h : Keeps s₀ s) (e : Engine) (i : Instr) : Keeps s₀ (State.block s e i) := by
  unfold State.block
  with_reducible repeat'
    first | exact fun i => (core_ok i _).congr rfl rfl rfl rfl rfl rfl
          | exact fun i => have k := core_ok i _; ⟨pcFit_fit _, k.epc, k.status, k.evec, k.g0, k.chest⟩
          | exact fun i => (core_ok i _).stop | assumption | intro _ | apply setCore_keeps | apply setSeq_keeps
          | refine setCore_keeps ?_ _ _ ?_ | apply Keeps.ite | split

theorem State.unblock_keeps {s : State} (h : Keeps s₀ s) (e : Engine) : Keeps s₀ (State.unblock s e) := by
  unfold State.unblock
  with_reducible repeat'
    first | exact fun i => (core_ok i _).congr rfl rfl rfl rfl rfl rfl
          | exact fun i => have k := core_ok i _; ⟨pcFit_fit _, k.epc, k.status, k.evec, k.g0, k.chest⟩
          | exact fun i => (core_ok i _).stop | assumption | intro _ | apply setCore_keeps | apply setSeq_keeps
          | refine setCore_keeps ?_ _ _ ?_ | apply Keeps.ite | split

/-! ### Flags -/

theorem State.accrue_keeps {s : State} (h : Keeps s₀ s) (e : Engine) (f : FFlags) : Keeps s₀ (State.accrue s e f) := by
  unfold State.accrue
  with_reducible repeat'
    first | exact fun i => (core_ok i _).congr rfl rfl rfl rfl rfl rfl
          | exact fun i => have k := core_ok i _; ⟨pcFit_fit _, k.epc, k.status, k.evec, k.g0, k.chest⟩
          | exact fun i => (core_ok i _).stop | assumption | intro _ | apply setCore_keeps | apply setNode_keeps
          | refine setCore_keeps ?_ _ _ ?_ | apply Keeps.ite | split

/-! ### Exceptions -/

theorem State.lockstepStop_keeps {s : State} (h : Keeps s₀ s) : Keeps s₀ (s.lockstepStop) := by
  unfold State.lockstepStop
  have key : ∀ b : Bool, Keeps s₀ { s with lockstepStopped := b, kernel := s.kernel.stop, core2 := s.core2.stop, core3 := s.core3.stop } :=
    fun b => ⟨fun i => have j := h.inv i; ⟨j.mem, j.kernel.stop, j.core2.stop, j.core3.stop⟩, h.queue⟩
  have k2 := State.releaseStage_keeps (State.raise_keeps (State.setB_keeps (key true) Fld.hubLstepMismatch true 0 0) 0x0220 0 none) 0x0220
  exact Keeps.ite (State.bellKernel_keeps k2 _) k2

theorem State.enter_keeps {s : State} (h : Keeps s₀ s) (c : Core) (epc : Word) (cause eval eaddr off : Nat) :
    Keeps s₀ (s.enter c epc cause eval eaddr off) := by
  unfold State.enter
  exact State.setCore_keeps h c _ fun i => have k := core_ok i c
    ⟨pcFit_fit _, pcFit_fit _, entryStatus_lt _, k.evec, k.g0, k.chest⟩

theorem State.except_keeps {s : State} (h : Keeps s₀ s) (c : Core) (epc : Word) (cause eval eaddr : Nat) :
    Keeps s₀ (s.except c epc cause eval eaddr) := by
  unfold State.except
  refine Keeps.ite ?_ (State.enter_keeps h _ _ _ _ _ _)
  cases c
  · exact State.lockstepStop_keeps h
  · exact State.pend_keeps (State.set_keeps (State.setCore_keeps h .core2 _ fun i => i.core2.stop) _ _ _ _) _ _
  · exact State.pend_keeps (State.set_keeps (State.setCore_keeps h .core3 _ fun i => i.core3.stop) _ _ _ _) _ _

theorem State.hubFault_keeps {s : State} (h : Keeps s₀ s) (c : Core) (code addr : Nat) : Keeps s₀ (State.hubFault s c code addr) := by
  unfold State.hubFault
  with_reducible repeat'
    first | exact fun i => (core_ok i _).congr rfl rfl rfl rfl rfl rfl
          | exact fun i => have k := core_ok i _; ⟨pcFit_fit _, k.epc, k.status, k.evec, k.g0, k.chest⟩
          | exact fun i => (core_ok i _).stop | assumption | intro _ | apply except_keeps

theorem State.hubFaultDone_keeps {s : State} (h : Keeps s₀ s) (c : Core) (code : Nat) : Keeps s₀ (State.hubFaultDone s c code) := by
  unfold State.hubFaultDone
  with_reducible repeat'
    first | exact fun i => (core_ok i _).congr rfl rfl rfl rfl rfl rfl
          | exact fun i => have k := core_ok i _; ⟨pcFit_fit _, k.epc, k.status, k.evec, k.g0, k.chest⟩
          | exact fun i => (core_ok i _).stop | assumption | intro _ | apply except_keeps

theorem State.seqHalt_keeps {s : State} (h : Keeps s₀ s) (q code : Nat) : Keeps s₀ (State.seqHalt s q code) := by
  unfold State.seqHalt
  with_reducible repeat' first | assumption | intro _ | apply set_keeps | apply raise_keeps | apply setSeq_keeps | apply Keeps.ite

theorem State.engFault_keeps {s : State} (h : Keeps s₀ s) (e : Engine) (code addr : Nat) : Keeps s₀ (State.engFault s e code addr) := by
  unfold State.engFault
  with_reducible repeat'
    first | assumption | intro _ | apply nodeAbandon_keeps | apply hubFault_keeps | apply seqHalt_keeps | apply Keeps.ite | split

theorem State.cannot_keeps {s : State} (h : Keeps s₀ s) (e : Engine) : Keeps s₀ (State.cannot s e) := by
  unfold State.cannot
  with_reducible repeat' first | assumption | intro _ | apply engFault_keeps | apply Keeps.ite | split

theorem State.onHub_keeps {s : State} (h : Keeps s₀ s) (e : Engine) (f : Core → State) (hf : ∀ x0, Keeps s₀ (f x0)) :
    Keeps s₀ (State.onHub s e f) := by
  unfold State.onHub
  with_reducible repeat' first | assumption | intro _ | apply engFault_keeps | apply cannot_keeps | apply hf | apply Keeps.ite | split

theorem State.onNode_keeps {s : State} (h : Keeps s₀ s) (e : Engine) (f : Fin 24 → State) (hf : ∀ x0, Keeps s₀ (f x0)) :
    Keeps s₀ (State.onNode s e f) := by
  unfold State.onNode
  with_reducible repeat' first | assumption | intro _ | apply engFault_keeps | apply cannot_keeps | apply hf | apply Keeps.ite | split

theorem State.onSeq_keeps {s : State} (h : Keeps s₀ s) (e : Engine) (f : Fin 8 → State) (hf : ∀ x0, Keeps s₀ (f x0)) :
    Keeps s₀ (State.onSeq s e f) := by
  unfold State.onSeq
  with_reducible repeat' first | assumption | intro _ | apply engFault_keeps | apply cannot_keeps | apply hf | apply Keeps.ite | split

theorem execInterruptEntry_keeps {s : State} (h : Keeps s₀ s) (c : Core) : KeepsR s₀ (execInterruptEntry c s) := by
  unfold execInterruptEntry
  with_reducible repeat'
    first | exact fun i => (core_ok i _).congr rfl rfl rfl rfl rfl rfl
          | exact fun i => have k := core_ok i _; ⟨pcFit_fit _, k.epc, k.status, k.evec, k.g0, k.chest⟩
          | exact fun i => (core_ok i _).stop | assumption | intro _ | apply enter_keeps | apply KeepsR.ite | apply KeepsR.next
          | apply Keeps.ite | split

theorem execTimerCompare_keeps {s : State} (h : Keeps s₀ s) (c : Core) : KeepsR s₀ (execTimerCompare c s) := by
  unfold execTimerCompare
  with_reducible repeat'
    first | exact fun i => (core_ok i _).congr rfl rfl rfl rfl rfl rfl
          | exact fun i => have k := core_ok i _; ⟨pcFit_fit _, k.epc, k.status, k.evec, k.g0, k.chest⟩
          | exact fun i => (core_ok i _).stop | assumption | intro _ | apply setCore_keeps | refine setCore_keeps ?_ _ _ ?_
          | apply KeepsR.ite | apply KeepsR.next

theorem execLockstepMismatch_keeps {s : State} (h : Keeps s₀ s) : KeepsR s₀ (execLockstepMismatch s) := by
  unfold execLockstepMismatch
  with_reducible repeat' first | assumption | intro _ | apply lockstepStop_keeps | apply KeepsR.ite | apply KeepsR.next | apply Keeps.ite

theorem State.lstepSelftest_keeps {s : State} (h : Keeps s₀ s) (ok : Bool) : Keeps s₀ (State.lstepSelftest s ok) := by
  unfold State.lstepSelftest
  with_reducible repeat' first | assumption | intro _ | apply setB_keeps | apply raise_keeps | apply lockstepStop_keeps | apply Keeps.ite

theorem execLstepSelftest_keeps {s : State} (h : Keeps s₀ s) (ok : Bool) : KeepsR s₀ (execLstepSelftest ok s) := by
  unfold execLstepSelftest
  with_reducible repeat' first | assumption | intro _ | apply lstepSelftest_keeps | apply KeepsR.ite | apply KeepsR.next | apply Keeps.ite

theorem State.coreStart_keeps {s : State} (h : Keeps s₀ s) (c : Core) : Keeps s₀ (s.coreStart c) := by
  unfold State.coreStart
  refine Keeps.ite h (Keeps.ite (State.raise_keeps h ..) (Keeps.ite (State.raise_keeps h ..) ?_))
  have k := fun x hx => State.setCore_keeps h c x hx
  refine Keeps.ite (k _ fun i => ?_) (State.unpend_keeps (k _ fun i => ?_) _ _) <;>
    exact CoreOk.start (pcFit_fit _) rfl rfl rfl (core_ok i c).g0 (core_ok i c).chest

theorem execCoreStart_keeps {s : State} (h : Keeps s₀ s) (c : Core) : KeepsR s₀ (execCoreStart c s) := by
  unfold execCoreStart
  with_reducible repeat'
    first | exact fun i => (core_ok i _).congr rfl rfl rfl rfl rfl rfl
          | exact fun i => have k := core_ok i _; ⟨pcFit_fit _, k.epc, k.status, k.evec, k.g0, k.chest⟩
          | exact fun i => (core_ok i _).stop | assumption | intro _ | apply coreStart_keeps | apply KeepsR.ite | apply KeepsR.next

theorem State.coreHalt_keeps {s : State} (h : Keeps s₀ s) (c : Core) : Keeps s₀ (State.coreHalt s c) := by
  unfold State.coreHalt
  with_reducible repeat'
    first | exact fun i => (core_ok i _).congr rfl rfl rfl rfl rfl rfl
          | exact fun i => have k := core_ok i _; ⟨pcFit_fit _, k.epc, k.status, k.evec, k.g0, k.chest⟩
          | exact fun i => (core_ok i _).stop | assumption | intro _ | apply setCore_keeps | apply pend_keeps
          | refine setCore_keeps ?_ _ _ ?_ | apply Keeps.ite

theorem execCoreHalt_keeps {s : State} (h : Keeps s₀ s) (c : Core) : KeepsR s₀ (execCoreHalt c s) := by
  unfold execCoreHalt
  with_reducible repeat'
    first | exact fun i => (core_ok i _).congr rfl rfl rfl rfl rfl rfl
          | exact fun i => have k := core_ok i _; ⟨pcFit_fit _, k.epc, k.status, k.evec, k.g0, k.chest⟩
          | exact fun i => (core_ok i _).stop | assumption | intro _ | apply coreHalt_keeps | apply KeepsR.ite | apply KeepsR.next

theorem State.hubSync_keeps {s : State} (h : Keeps s₀ s) : Keeps s₀ (State.hubSync s) := by
  unfold State.hubSync
  with_reducible repeat'
    first | exact fun i => (core_ok i _).congr rfl rfl rfl rfl rfl rfl
          | exact fun i => have k := core_ok i _; ⟨pcFit_fit _, k.epc, k.status, k.evec, k.g0, k.chest⟩
          | exact fun i => (core_ok i _).stop | assumption | intro _ | apply set_keeps

/-! ### HubMem -/

theorem State.engRead_keeps {s : State} (h : Keeps s₀ s) (e : Engine) (a n : Nat) : Keeps s₀ (State.engRead s e a n).2 := by
  unfold State.engRead
  with_reducible repeat'
    first | assumption | intro _ | apply draw_keeps | apply eccRead_keeps | apply store_keeps | apply hubRead_keeps | apply Keeps.ite
          | apply Keeps.iteP | split

theorem State.hubStore_keeps {s : State} (h : Keeps s₀ s) (c : Core) (a : Nat) (bs : List Byte) : Keeps s₀ (State.hubStore s c a bs) := by
  unfold State.hubStore
  with_reducible repeat'
    first | exact fun i => (core_ok i _).congr rfl rfl rfl rfl rfl rfl
          | exact fun i => have k := core_ok i _; ⟨pcFit_fit _, k.epc, k.status, k.evec, k.g0, k.chest⟩
          | exact fun i => (core_ok i _).stop | assumption | intro _ | apply setCore_keeps | apply hubWrite_keeps

theorem State.nodeStore_keeps {s : State} (h : Keeps s₀ s) (n : Fin 24) (a : Nat) (bs : List Byte) :
    Keeps s₀ (State.nodeStore s n a bs) := by
  unfold State.nodeStore
  with_reducible repeat' first | assumption | intro _ | apply store_keeps | apply setNode_keeps

theorem State.engWrite_keeps {s : State} (h : Keeps s₀ s) (e : Engine) (a : Nat) (bs : List Byte) : Keeps s₀ (State.engWrite s e a bs) := by
  unfold State.engWrite
  with_reducible repeat'
    first | assumption | intro _ | apply store_keeps | apply setSeq_keeps | apply setNode_keeps | apply hubStore_keeps
          | apply nodeStore_keeps | apply Keeps.ite | split

theorem State.noteEcc_keeps {s : State} (h : Keeps s₀ s) (code a n : Nat) : Keeps s₀ (State.noteEcc s code a n) := by
  unfold State.noteEcc
  with_reducible repeat' first | assumption | intro _ | apply eccBad_keeps | apply Keeps.ite

theorem State.load_keeps {s : State} (h : Keeps s₀ s) (e : Engine) (d a : Reg) (imm : BitVec 16) (n : Nat) (kept : Bool) (put : State → Nat → State) (hput : ∀ x0 x1, Keeps s₀ x0 → Keeps s₀ (put x0 x1)) :
    Keeps s₀ (State.load s e d a imm n kept put) := by
  unfold State.load
  with_reducible repeat'
    first | assumption | intro _ | apply adv_keeps | apply engFault_keeps | apply cannot_keeps | apply engRead_keeps | apply noteEcc_keeps
          | apply hput | apply Keeps.ite | split | refine Keeps.ofEq (by assumption) ?_ | refine Keeps.ofSome (by assumption) ?_
          | dsimp only

theorem State.storeInsn_keeps {s : State} (h : Keeps s₀ s) (e : Engine) (d a : Reg) (imm : BitVec 16) (n : Nat) (kept : Bool) (v : Word) :
    Keeps s₀ (State.storeInsn s e d a imm n kept v) := by
  unfold State.storeInsn
  with_reducible repeat'
    first | assumption | intro _ | apply adv_keeps | apply engFault_keeps | apply cannot_keeps | apply engWrite_keeps | apply Keeps.ite
          | split | refine Keeps.ofEq (by assumption) ?_ | refine Keeps.ofSome (by assumption) ?_ | dsimp only

theorem execLb_keeps {s : State} (h : Keeps s₀ s) (e : Engine) (d a : Reg) (imm : BitVec 16) : KeepsR s₀ (execLb e d a imm s) := by
  unfold execLb
  with_reducible repeat' first | assumption | intro _ | apply wg_keeps | apply load_keeps | apply KeepsR.ite | apply KeepsR.next

theorem execLh_keeps {s : State} (h : Keeps s₀ s) (e : Engine) (d a : Reg) (imm : BitVec 16) : KeepsR s₀ (execLh e d a imm s) := by
  unfold execLh
  with_reducible repeat' first | assumption | intro _ | apply wg_keeps | apply load_keeps | apply KeepsR.ite | apply KeepsR.next

theorem execLw_keeps {s : State} (h : Keeps s₀ s) (e : Engine) (d a : Reg) (imm : BitVec 16) : KeepsR s₀ (execLw e d a imm s) := by
  unfold execLw
  with_reducible repeat' first | assumption | intro _ | apply wg_keeps | apply load_keeps | apply KeepsR.ite | apply KeepsR.next

theorem execLd_keeps {s : State} (h : Keeps s₀ s) (e : Engine) (d a : Reg) (imm : BitVec 16) : KeepsR s₀ (execLd e d a imm s) := by
  unfold execLd
  with_reducible repeat' first | assumption | intro _ | apply wg_keeps | apply load_keeps | apply KeepsR.ite | apply KeepsR.next

theorem execLbu_keeps {s : State} (h : Keeps s₀ s) (e : Engine) (d a : Reg) (imm : BitVec 16) : KeepsR s₀ (execLbu e d a imm s) := by
  unfold execLbu
  with_reducible repeat' first | assumption | intro _ | apply wg_keeps | apply load_keeps | apply KeepsR.ite | apply KeepsR.next

theorem execLhu_keeps {s : State} (h : Keeps s₀ s) (e : Engine) (d a : Reg) (imm : BitVec 16) : KeepsR s₀ (execLhu e d a imm s) := by
  unfold execLhu
  with_reducible repeat' first | assumption | intro _ | apply wg_keeps | apply load_keeps | apply KeepsR.ite | apply KeepsR.next

theorem execLwu_keeps {s : State} (h : Keeps s₀ s) (e : Engine) (d a : Reg) (imm : BitVec 16) : KeepsR s₀ (execLwu e d a imm s) := by
  unfold execLwu
  with_reducible repeat' first | assumption | intro _ | apply wg_keeps | apply load_keeps | apply KeepsR.ite | apply KeepsR.next

theorem execFld_keeps {s : State} (h : Keeps s₀ s) (e : Engine) (d a : Reg) (imm : BitVec 16) : KeepsR s₀ (execFld e d a imm s) := by
  unfold execFld
  with_reducible repeat' first | assumption | intro _ | apply wf_keeps | apply load_keeps | apply KeepsR.ite | apply KeepsR.next

theorem execSb_keeps {s : State} (h : Keeps s₀ s) (e : Engine) (d a : Reg) (imm : BitVec 16) : KeepsR s₀ (execSb e d a imm s) := by
  unfold execSb
  with_reducible repeat' first | assumption | intro _ | apply storeInsn_keeps | apply KeepsR.ite | apply KeepsR.next

theorem execSh_keeps {s : State} (h : Keeps s₀ s) (e : Engine) (d a : Reg) (imm : BitVec 16) : KeepsR s₀ (execSh e d a imm s) := by
  unfold execSh
  with_reducible repeat' first | assumption | intro _ | apply storeInsn_keeps | apply KeepsR.ite | apply KeepsR.next

theorem execSw_keeps {s : State} (h : Keeps s₀ s) (e : Engine) (d a : Reg) (imm : BitVec 16) : KeepsR s₀ (execSw e d a imm s) := by
  unfold execSw
  with_reducible repeat' first | assumption | intro _ | apply storeInsn_keeps | apply KeepsR.ite | apply KeepsR.next

theorem execSd_keeps {s : State} (h : Keeps s₀ s) (e : Engine) (d a : Reg) (imm : BitVec 16) : KeepsR s₀ (execSd e d a imm s) := by
  unfold execSd
  with_reducible repeat' first | assumption | intro _ | apply storeInsn_keeps | apply KeepsR.ite | apply KeepsR.next

theorem execFsd_keeps {s : State} (h : Keeps s₀ s) (e : Engine) (d a : Reg) (imm : BitVec 16) : KeepsR s₀ (execFsd e d a imm s) := by
  unfold execFsd
  with_reducible repeat' first | assumption | intro _ | apply storeInsn_keeps | apply KeepsR.ite | apply KeepsR.next

theorem State.atomic_keeps {s : State} (h : Keeps s₀ s) (e : Engine) (a : Reg) (f : State → Nat → Nat → State) (hf : ∀ x0 x1 x2, Keeps s₀ x0 → Keeps s₀ (f x0 x1 x2)) :
    Keeps s₀ (State.atomic s e a f) := by
  unfold State.atomic
  with_reducible repeat'
    first | assumption | intro _ | apply adv_keeps | apply engFault_keeps | apply cannot_keeps | apply engRead_keeps | apply noteEcc_keeps
          | apply hf | apply Keeps.ite | split | refine Keeps.ofEq (by assumption) ?_ | refine Keeps.ofSome (by assumption) ?_
          | dsimp only

theorem State.setResv_keeps {s : State} (h : Keeps s₀ s) (e : Engine) (r : Option Nat) : Keeps s₀ (State.setResv s e r) := by
  unfold State.setResv
  with_reducible repeat'
    first | exact fun i => (core_ok i _).congr rfl rfl rfl rfl rfl rfl
          | exact fun i => have k := core_ok i _; ⟨pcFit_fit _, k.epc, k.status, k.evec, k.g0, k.chest⟩
          | exact fun i => (core_ok i _).stop | assumption | intro _ | apply setCore_keeps | apply setNode_keeps
          | refine setCore_keeps ?_ _ _ ?_ | apply Keeps.ite | split

theorem execLld_keeps {s : State} (h : Keeps s₀ s) (e : Engine) (d a : Reg) : KeepsR s₀ (execLld e d a s) := by
  unfold execLld
  with_reducible repeat'
    first | assumption | intro _ | apply wg_keeps | apply atomic_keeps | apply setResv_keeps | apply KeepsR.ite | apply KeepsR.next

theorem execScd_keeps {s : State} (h : Keeps s₀ s) (e : Engine) (d a b : Reg) : KeepsR s₀ (execScd e d a b s) := by
  unfold execScd
  with_reducible repeat'
    first | assumption | intro _ | apply wg_keeps | apply engWrite_keeps | apply atomic_keeps | apply setResv_keeps | apply KeepsR.ite
          | apply KeepsR.next | apply Keeps.ite

theorem execAmoadd_keeps {s : State} (h : Keeps s₀ s) (e : Engine) (d a b : Reg) : KeepsR s₀ (execAmoadd e d a b s) := by
  unfold execAmoadd
  with_reducible repeat'
    first | assumption | intro _ | apply wg_keeps | apply engWrite_keeps | apply atomic_keeps | apply KeepsR.ite | apply KeepsR.next

theorem execAmoswp_keeps {s : State} (h : Keeps s₀ s) (e : Engine) (d a b : Reg) : KeepsR s₀ (execAmoswp e d a b s) := by
  unfold execAmoswp
  with_reducible repeat'
    first | assumption | intro _ | apply wg_keeps | apply engWrite_keeps | apply atomic_keeps | apply KeepsR.ite | apply KeepsR.next

theorem execAmocas_keeps {s : State} (h : Keeps s₀ s) (e : Engine) (d a b c : Reg) : KeepsR s₀ (execAmocas e d a b c s) := by
  unfold execAmocas
  with_reducible repeat'
    first | assumption | intro _ | apply wg_keeps | apply engWrite_keeps | apply atomic_keeps | apply KeepsR.ite | apply KeepsR.next
          | apply Keeps.ite

/-! ### HubSystem -/

theorem State.topInsn_keeps {s : State} (h : Keeps s₀ s) (c : Core) (i : Instr) (f : State → State) (hf : ∀ x0, Keeps s₀ x0 → Keeps s₀ (f x0)) :
    Keeps s₀ (State.topInsn s c i f) := by
  unfold State.topInsn
  with_reducible repeat' first | assumption | intro _ | apply hubFault_keeps | apply cannot_keeps | apply hf | apply Keeps.ite

theorem State.kernelInsn_keeps {s : State} (h : Keeps s₀ s) (c : Core) (i : Instr) (f : State → State) (hf : ∀ x0, Keeps s₀ x0 → Keeps s₀ (f x0)) :
    Keeps s₀ (State.kernelInsn s c i f) := by
  unfold State.kernelInsn
  with_reducible repeat' first | assumption | intro _ | apply hubFault_keeps | apply topInsn_keeps | apply hf | apply Keeps.ite

theorem State.done_keeps {s : State} (h : Keeps s₀ s) (c : Core) (d : Reg) (v : Nat) : Keeps s₀ (State.done s c d v) := by
  unfold State.done
  with_reducible repeat' first | assumption | intro _ | apply wg_keeps | apply adv_keeps | apply unblock_keeps

theorem State.rangeRead_keeps {s : State} (h : Keeps s₀ s) (e : Engine) (a n : Nat) : Keeps s₀ (State.rangeRead s e a n).2 := by
  unfold State.rangeRead
  with_reducible repeat'
    first | assumption | intro _ | apply drawBytes_keeps | apply hubRead_keeps | apply Keeps.ite | apply Keeps.iteP | split

theorem State.setMbox_keeps {s : State} (h : Keeps s₀ s) (m : Nat) (x : Mailbox) : Keeps s₀ (State.setMbox s m x) := by
  unfold State.setMbox
  with_reducible repeat'
    first | assumption | intro _ | apply Keeps.ite | split | refine Keeps.ofEq (by assumption) ?_ | refine Keeps.ofSome (by assumption) ?_
          | dsimp only | apply Keeps.upd

theorem State.mboxPut_keeps {s : State} (h : Keeps s₀ s) (m : Nat) (bytes : List Byte) : Keeps s₀ (State.mboxPut s m bytes) := by
  unfold State.mboxPut
  with_reducible repeat'
    first | assumption | intro _ | apply setMbox_keeps | apply Keeps.ite | split | refine Keeps.ofEq (by assumption) ?_
          | refine Keeps.ofSome (by assumption) ?_ | dsimp only | apply Keeps.upd

theorem State.mboxRelease_keeps {s : State} (h : Keeps s₀ s) (open' : Bool) : Keeps s₀ (State.mboxRelease s open') := by
  unfold State.mboxRelease
  with_reducible repeat'
    first | assumption | intro _ | apply setMbox_keeps | apply Keeps.foldl | apply Keeps.foldlP | apply Keeps.ite | split
          | refine Keeps.ofEq (by assumption) ?_ | refine Keeps.ofSome (by assumption) ?_ | dsimp only | apply Keeps.upd

theorem execMbsend_keeps {s : State} (h : Keeps s₀ s) (e : Engine) (d a b : Reg) : KeepsR s₀ (execMbsend e d a b s) := by
  unfold execMbsend
  with_reducible repeat'
    first | assumption | intro _ | apply hubFault_keeps | apply onHub_keeps | apply noteEcc_keeps | apply topInsn_keeps | apply done_keeps
          | apply rangeRead_keeps | apply mboxPut_keeps | apply KeepsR.ite | apply KeepsR.next | apply Keeps.ite | split

theorem execMbrecv_keeps {s : State} (h : Keeps s₀ s) (e : Engine) (d a b : Reg) : KeepsR s₀ (execMbrecv e d a b s) := by
  unfold execMbrecv
  with_reducible repeat'
    first | exact fun i => (core_ok i _).congr rfl rfl rfl rfl rfl rfl
          | exact fun i => have k := core_ok i _; ⟨pcFit_fit _, k.epc, k.status, k.evec, k.g0, k.chest⟩
          | exact fun i => (core_ok i _).stop | assumption | intro _ | apply hubFault_keeps | apply onHub_keeps | apply engWrite_keeps
          | apply topInsn_keeps | apply done_keeps | apply setMbox_keeps | apply KeepsR.ite | apply KeepsR.next | apply Keeps.ite | split

theorem execMbwait_keeps {s : State} (h : Keeps s₀ s) (e : Engine) (a : Reg) : KeepsR s₀ (execMbwait e a s) := by
  unfold execMbwait
  with_reducible repeat'
    first | exact fun i => (core_ok i _).congr rfl rfl rfl rfl rfl rfl
          | exact fun i => have k := core_ok i _; ⟨pcFit_fit _, k.epc, k.status, k.evec, k.g0, k.chest⟩
          | exact fun i => (core_ok i _).stop | assumption | intro _ | apply adv_keeps | apply block_keeps | apply unblock_keeps
          | apply hubFault_keeps | apply onHub_keeps | apply topInsn_keeps | apply KeepsR.ite | apply KeepsR.next | apply Keeps.ite

theorem execMbstat_keeps {s : State} (h : Keeps s₀ s) (e : Engine) (d a : Reg) : KeepsR s₀ (execMbstat e d a s) := by
  unfold execMbstat
  with_reducible repeat'
    first | assumption | intro _ | apply hubFault_keeps | apply onHub_keeps | apply topInsn_keeps | apply done_keeps | apply KeepsR.ite
          | apply KeepsR.next | apply Keeps.ite

theorem execHostMailboxPut_keeps {s : State} (h : Keeps s₀ s) (m : Fin 32) (bytes : List Byte) :
    KeepsR s₀ (execHostMailboxPut m bytes s) := by
  unfold execHostMailboxPut
  with_reducible repeat'
    first | assumption | intro _ | apply qPushHw_keeps | apply setMbox_keeps | apply KeepsR.ite | apply KeepsR.next | apply Keeps.ite

theorem execHostMailboxGet_keeps {s : State} (h : Keeps s₀ s) (m : Fin 32) : KeepsR s₀ (execHostMailboxGet m s) := by
  unfold execHostMailboxGet
  with_reducible repeat'
    first | assumption | intro _ | apply setMbox_keeps | apply KeepsR.ite | apply KeepsR.next | apply Keeps.ite | split
          | refine Keeps.ofEq (by assumption) ?_ | refine Keeps.ofSome (by assumption) ?_ | dsimp only

theorem State.queueInsn_keeps {s : State} (h : Keeps s₀ s) (e : Engine) (rs : List Reg) (a : Reg) (i : Instr) (f : State → Nat → State) (hf : ∀ x0 x1, Keeps s₀ x0 → Keeps s₀ (f x0 x1)) :
    Keeps s₀ (State.queueInsn s e rs a i f) := by
  unfold State.queueInsn
  with_reducible repeat' first | assumption | intro _ | apply engFault_keeps | apply cannot_keeps | apply hf | apply Keeps.ite

theorem State.doneE_keeps {s : State} (h : Keeps s₀ s) (e : Engine) (d : Reg) (v : Nat) : Keeps s₀ (State.doneE s e d v) := by
  unfold State.doneE
  with_reducible repeat' first | assumption | intro _ | apply wg_keeps | apply adv_keeps | apply unblock_keeps

theorem State.waitedE_keeps {s : State} (h : Keeps s₀ s) (e : Engine) : Keeps s₀ (State.waitedE s e) := by
  unfold State.waitedE
  with_reducible repeat' first | assumption | intro _ | apply setSeq_keeps | apply Keeps.ite | split

theorem execQpush_keeps {s : State} (h : Keeps s₀ s) (e : Engine) (d a b c : Reg) : KeepsR s₀ (execQpush e d a b c s) := by
  unfold execQpush
  with_reducible repeat'
    first | assumption | intro _ | apply set_keeps | apply qPush_keeps | apply block_keeps | apply engFault_keeps | apply noteEcc_keeps
          | apply rangeRead_keeps | apply queueInsn_keeps | apply doneE_keeps | apply waitedE_keeps | apply KeepsR.ite | apply KeepsR.next
          | apply Keeps.ite | split | refine Keeps.ofEq (by assumption) ?_

theorem execQpop_keeps {s : State} (h : Keeps s₀ s) (e : Engine) (d a b : Reg) : KeepsR s₀ (execQpop e d a b s) := by
  unfold execQpop
  with_reducible repeat'
    first | assumption | intro _ | apply qPop_keeps | apply engFault_keeps | apply engWrite_keeps | apply queueInsn_keeps
          | apply doneE_keeps | apply KeepsR.ite | apply KeepsR.next | apply Keeps.ite | split | refine Keeps.ofEq (by assumption) ?_

theorem execQwait_keeps {s : State} (h : Keeps s₀ s) (e : Engine) (a : Reg) : KeepsR s₀ (execQwait e a s) := by
  unfold execQwait
  with_reducible repeat'
    first | assumption | intro _ | apply adv_keeps | apply block_keeps | apply unblock_keeps | apply hubFault_keeps | apply onHub_keeps
          | apply queueInsn_keeps | apply KeepsR.ite | apply KeepsR.next | apply Keeps.ite

theorem execQstat_keeps {s : State} (h : Keeps s₀ s) (e : Engine) (d a : Reg) : KeepsR s₀ (execQstat e d a s) := by
  unfold execQstat
  with_reducible repeat'
    first | assumption | intro _ | apply engFault_keeps | apply queueInsn_keeps | apply doneE_keeps | apply KeepsR.ite | apply KeepsR.next
          | apply Keeps.ite

theorem execChrd_keeps {s : State} (h : Keeps s₀ s) (e : Engine) (d a : Reg) : KeepsR s₀ (execChrd e d a s) := by
  unfold execChrd
  with_reducible repeat'
    first | exact fun i => (core_ok i _).congr rfl rfl rfl rfl rfl rfl
          | exact fun i => have k := core_ok i _; ⟨pcFit_fit _, k.epc, k.status, k.evec, k.g0, k.chest⟩
          | exact fun i => (core_ok i _).stop | assumption | intro _ | apply hubFault_keeps | apply onHub_keeps | apply topInsn_keeps
          | apply done_keeps | apply KeepsR.ite | apply KeepsR.next | apply Keeps.ite | split

theorem execChwr_keeps {s : State} (h : Keeps s₀ s) (e : Engine) (a b : Reg) : KeepsR s₀ (execChwr e a b s) := by
  unfold execChwr
  refine KeepsR.next (State.onHub_keeps h _ _ fun c => State.topInsn_keeps h c _ _ fun t ht => ?_)
  refine Keeps.ite (State.hubFault_keeps ht _ _ _) ?_
  split
  · exact State.block_keeps ht _ _
  · rename_i hq
    refine State.adv_keeps (State.setCore_keeps (State.unblock_keeps ht _) c _ fun i => ?_) _
    have k := core_ok i c
    refine ⟨k.pc, k.epc, k.status, k.evec, k.g0, ?_⟩
    have : ((t.unblock (.hub c)).core c).chestQ = (t.core c).chestQ := by cases c <;> rfl
    simp only [List.length_append, List.length_singleton, this]
    omega

theorem execChsync_keeps {s : State} (h : Keeps s₀ s) (e : Engine) : KeepsR s₀ (execChsync e s) := by
  unfold execChsync
  with_reducible repeat'
    first | exact fun i => (core_ok i _).congr rfl rfl rfl rfl rfl rfl
          | exact fun i => have k := core_ok i _; ⟨pcFit_fit _, k.epc, k.status, k.evec, k.g0, k.chest⟩
          | exact fun i => (core_ok i _).stop | assumption | intro _ | apply adv_keeps | apply block_keeps | apply unblock_keeps
          | apply onHub_keeps | apply topInsn_keeps | apply KeepsR.ite | apply KeepsR.next | apply Keeps.ite

theorem execBring_keeps {s : State} (h : Keeps s₀ s) (e : Engine) (d a : Reg) : KeepsR s₀ (execBring e d a s) := by
  unfold execBring
  with_reducible repeat'
    first | assumption | intro _ | apply bring_keeps | apply onHub_keeps | apply kernelInsn_keeps | apply done_keeps | apply KeepsR.ite
          | apply KeepsR.next

theorem execBstat_keeps {s : State} (h : Keeps s₀ s) (e : Engine) (d : Reg) : KeepsR s₀ (execBstat e d s) := by
  unfold execBstat
  with_reducible repeat'
    first | assumption | intro _ | apply onHub_keeps | apply kernelInsn_keeps | apply done_keeps | apply KeepsR.ite | apply KeepsR.next

theorem execClmrd_keeps {s : State} (h : Keeps s₀ s) (e : Engine) (d : Reg) : KeepsR s₀ (execClmrd e d s) := by
  unfold execClmrd
  with_reducible repeat'
    first | assumption | intro _ | apply onHub_keeps | apply kernelInsn_keeps | apply done_keeps | apply KeepsR.ite | apply KeepsR.next

theorem execClmseen_keeps {s : State} (h : Keeps s₀ s) (e : Engine) (d : Reg) : KeepsR s₀ (execClmseen e d s) := by
  unfold execClmseen
  with_reducible repeat'
    first | assumption | intro _ | apply onHub_keeps | apply kernelInsn_keeps | apply done_keeps | apply KeepsR.ite | apply KeepsR.next

theorem execClmnext_keeps {s : State} (h : Keeps s₀ s) (e : Engine) (d : Reg) : KeepsR s₀ (execClmnext e d s) := by
  unfold execClmnext
  with_reducible repeat'
    first | assumption | intro _ | apply clmnext_keeps | apply onHub_keeps | apply kernelInsn_keeps | apply done_keeps | apply KeepsR.ite
          | apply KeepsR.next

theorem execFence_keeps {s : State} (h : Keeps s₀ s) (e : Engine) : KeepsR s₀ (execFence e s) := by
  unfold execFence
  with_reducible repeat'
    first | assumption | intro _ | apply adv_keeps | apply engFault_keeps | apply cannot_keeps | apply KeepsR.ite | apply KeepsR.next
          | apply Keeps.ite

theorem State.sysInsn_keeps {s : State} (h : Keeps s₀ s) (e : Engine) (f : Core → State) (hf : ∀ x0, Keeps s₀ (f x0)) :
    Keeps s₀ (State.sysInsn s e f) := by
  unfold State.sysInsn
  with_reducible repeat'
    first | assumption | intro _ | apply adv_keeps | apply cannot_keeps | apply onHub_keeps | apply hf | apply Keeps.ite

theorem execFenceio_keeps {s : State} (h : Keeps s₀ s) (e : Engine) : KeepsR s₀ (execFenceio e s) := by
  unfold execFenceio
  with_reducible repeat' first | assumption | intro _ | apply sysInsn_keeps | apply KeepsR.ite | apply KeepsR.next

theorem execDcflush_keeps {s : State} (h : Keeps s₀ s) (e : Engine) (a : Reg) : KeepsR s₀ (execDcflush e a s) := by
  unfold execDcflush
  with_reducible repeat' first | assumption | intro _ | apply l2WriteBack_keeps | apply sysInsn_keeps | apply KeepsR.ite | apply KeepsR.next

theorem execDcinv_keeps {s : State} (h : Keeps s₀ s) (e : Engine) (a : Reg) : KeepsR s₀ (execDcinv e a s) := by
  unfold execDcinv
  with_reducible repeat' first | assumption | intro _ | apply l2Drop_keeps | apply sysInsn_keeps | apply KeepsR.ite | apply KeepsR.next

theorem execIcinv_keeps {s : State} (h : Keeps s₀ s) (e : Engine) : KeepsR s₀ (execIcinv e s) := by
  unfold execIcinv
  with_reducible repeat' first | assumption | intro _ | apply sysInsn_keeps | apply KeepsR.ite | apply KeepsR.next

theorem execMfc_keeps {s : State} (h : Keeps s₀ s) (e : Engine) (d : Reg) (idx : BitVec 5) : KeepsR s₀ (execMfc e d idx s) := by
  unfold execMfc
  with_reducible repeat'
    first | exact fun i => (core_ok i _).congr rfl rfl rfl rfl rfl rfl
          | exact fun i => have k := core_ok i _; ⟨pcFit_fit _, k.epc, k.status, k.evec, k.g0, k.chest⟩
          | exact fun i => (core_ok i _).stop | assumption | intro _ | apply wg_keeps | apply adv_keeps | apply hubFault_keeps
          | apply engFault_keeps | apply cannot_keeps | apply KeepsR.ite | apply KeepsR.next | apply Keeps.ite | split

theorem execMtc_keeps {s : State} (h : Keeps s₀ s) (e : Engine) (a : Reg) (idx : BitVec 5) : KeepsR s₀ (execMtc e a idx s) := by
  unfold execMtc
  refine KeepsR.next (Keeps.ite (State.cannot_keeps h _) ?_)
  cases e with
  | hub c =>
    exact Keeps.ite (State.hubFault_keeps h _ _ _) (Keeps.ite (State.hubFault_keeps h _ _ _)
      (State.adv_keeps (State.setCore_keeps h c _ fun i => (core_ok i c).setWord _ _) _))
  | node n => exact Keeps.ite (State.adv_keeps (State.setNode_keeps h _ _) _) (State.engFault_keeps h _ _ _)
  | seq q => exact State.engFault_keeps h _ _ _

theorem execTrap_keeps {s : State} (h : Keeps s₀ s) (e : Engine) (code : BitVec 5) : KeepsR s₀ (execTrap e code s) := by
  unfold execTrap
  with_reducible repeat'
    first | exact fun i => (core_ok i _).congr rfl rfl rfl rfl rfl rfl
          | exact fun i => have k := core_ok i _; ⟨pcFit_fit _, k.epc, k.status, k.evec, k.g0, k.chest⟩
          | exact fun i => (core_ok i _).stop | assumption | intro _ | apply except_keeps | apply cannot_keeps | apply onHub_keeps
          | apply KeepsR.ite | apply KeepsR.next | apply Keeps.ite

theorem execEret_keeps {s : State} (h : Keeps s₀ s) (e : Engine) : KeepsR s₀ (execEret e s) := by
  unfold execEret
  refine KeepsR.next (State.onHub_keeps h _ _ fun c => Keeps.ite (State.setCore_keeps h c _ fun i => ?_) (State.cannot_keeps h _))
  have k := core_ok i c
  exact ⟨pcFit_fit _, k.epc, eretStatus_lt _, k.evec, k.g0, k.chest⟩

theorem execWfi_keeps {s : State} (h : Keeps s₀ s) (e : Engine) : KeepsR s₀ (execWfi e s) := by
  unfold execWfi
  with_reducible repeat'
    first | assumption | intro _ | apply adv_keeps | apply block_keeps | apply unblock_keeps | apply cannot_keeps | apply onHub_keeps
          | apply KeepsR.ite | apply KeepsR.next | apply Keeps.ite

theorem execBrk_keeps {s : State} (h : Keeps s₀ s) (e : Engine) : KeepsR s₀ (execBrk e s) := by
  unfold execBrk
  with_reducible repeat'
    first | exact fun i => (core_ok i _).congr rfl rfl rfl rfl rfl rfl
          | exact fun i => have k := core_ok i _; ⟨pcFit_fit _, k.epc, k.status, k.evec, k.g0, k.chest⟩
          | exact fun i => (core_ok i _).stop | assumption | intro _ | apply setCore_keeps | apply pend_keeps | apply setSeq_keeps
          | apply setNode_keeps | apply except_keeps | apply engFault_keeps | apply cannot_keeps | refine setCore_keeps ?_ _ _ ?_
          | apply KeepsR.ite | apply KeepsR.next | apply Keeps.ite | split

/-! ### Node -/

theorem State.nodeInsn_keeps {s : State} (h : Keeps s₀ s) (n : Fin 24) (f : NodeEngine → State) (hf : ∀ x0, Keeps s₀ (f x0)) :
    Keeps s₀ (State.nodeInsn s n f) := by
  unfold State.nodeInsn
  with_reducible repeat' first | assumption | intro _ | apply cannot_keeps | apply hf | apply Keeps.ite

theorem execTake_keeps {s : State} (h : Keeps s₀ s) (e : Engine) (d : Reg) : KeepsR s₀ (execTake e d s) := by
  unfold execTake
  with_reducible repeat'
    first | assumption | intro _ | apply setNode_keeps | apply onNode_keeps | apply nodeInsn_keeps | apply KeepsR.ite | apply KeepsR.next

theorem execEmit_keeps {s : State} (h : Keeps s₀ s) (e : Engine) (a b : Reg) : KeepsR s₀ (execEmit e a b s) := by
  unfold execEmit
  with_reducible repeat'
    first | assumption | intro _ | apply setNode_keeps | apply nodeAbandon_keeps | apply adv_keeps | apply onNode_keeps
          | apply nodeInsn_keeps | apply KeepsR.ite | apply KeepsR.next | apply Keeps.ite

theorem execCancel_keeps {s : State} (h : Keeps s₀ s) (e : Engine) (a : Reg) : KeepsR s₀ (execCancel e a s) := by
  unfold execCancel
  with_reducible repeat'
    first | assumption | intro _ | apply setNode_keeps | apply nodeAbandon_keeps | apply adv_keeps | apply onNode_keeps
          | apply nodeInsn_keeps | apply KeepsR.ite | apply KeepsR.next | apply Keeps.ite

theorem execRclaim_keeps {s : State} (h : Keeps s₀ s) (e : Engine) (d a b c : Reg) : KeepsR s₀ (execRclaim e d a b c s) := by
  unfold execRclaim
  with_reducible repeat'
    first | assumption | intro _ | apply set_keeps | apply store_keeps | apply nodeAbandon_keeps | apply wg_keeps | apply adv_keeps
          | apply onNode_keeps | apply nodeInsn_keeps | apply KeepsR.ite | apply KeepsR.next | apply Keeps.ite | split
          | refine Keeps.ofEq (by assumption) ?_ | refine Keeps.ofSome (by assumption) ?_ | dsimp only | apply Keeps.upd

theorem execAbandon_keeps {s : State} (h : Keeps s₀ s) (e : Engine) : KeepsR s₀ (execAbandon e s) := by
  unfold execAbandon
  with_reducible repeat'
    first | assumption | intro _ | apply nodeAbandon_keeps | apply onNode_keeps | apply nodeInsn_keeps | apply KeepsR.ite
          | apply KeepsR.next

/-! ### HubBranch -/

theorem State.jumpTo_keeps {s : State} (h : Keeps s₀ s) (e : Engine) (v : Word) : Keeps s₀ (State.jumpTo s e v) := by
  unfold State.jumpTo
  with_reducible repeat'
    first | assumption | intro _ | apply setSeq_keeps | apply setPc_keeps | apply engFault_keeps | apply Keeps.ite | split

theorem State.branch_keeps {s : State} (h : Keeps s₀ s) (e : Engine) (a b : Reg) (off : BitVec 16) (h : Word → Word → Bool) (q : Word32 → Word32 → Bool) :
    Keeps s₀ (State.branch s e a b off h q) := by
  unfold State.branch
  with_reducible repeat'
    first | assumption | intro _ | apply adv_keeps | apply engFault_keeps | apply cannot_keeps | apply jumpTo_keeps | apply Keeps.ite

theorem execBeq_keeps {s : State} (h : Keeps s₀ s) (e : Engine) (a b : Reg) (off : BitVec 16) : KeepsR s₀ (execBeq e a b off s) := by
  unfold execBeq
  with_reducible repeat' first | assumption | intro _ | apply branch_keeps | apply KeepsR.ite | apply KeepsR.next

theorem execBne_keeps {s : State} (h : Keeps s₀ s) (e : Engine) (a b : Reg) (off : BitVec 16) : KeepsR s₀ (execBne e a b off s) := by
  unfold execBne
  with_reducible repeat' first | assumption | intro _ | apply branch_keeps | apply KeepsR.ite | apply KeepsR.next

theorem execBlt_keeps {s : State} (h : Keeps s₀ s) (e : Engine) (a b : Reg) (off : BitVec 16) : KeepsR s₀ (execBlt e a b off s) := by
  unfold execBlt
  with_reducible repeat' first | assumption | intro _ | apply branch_keeps | apply KeepsR.ite | apply KeepsR.next

theorem execBge_keeps {s : State} (h : Keeps s₀ s) (e : Engine) (a b : Reg) (off : BitVec 16) : KeepsR s₀ (execBge e a b off s) := by
  unfold execBge
  with_reducible repeat' first | assumption | intro _ | apply branch_keeps | apply KeepsR.ite | apply KeepsR.next

theorem execBltu_keeps {s : State} (h : Keeps s₀ s) (e : Engine) (a b : Reg) (off : BitVec 16) : KeepsR s₀ (execBltu e a b off s) := by
  unfold execBltu
  with_reducible repeat' first | assumption | intro _ | apply branch_keeps | apply KeepsR.ite | apply KeepsR.next

theorem execBgeu_keeps {s : State} (h : Keeps s₀ s) (e : Engine) (a b : Reg) (off : BitVec 16) : KeepsR s₀ (execBgeu e a b off s) := by
  unfold execBgeu
  with_reducible repeat' first | assumption | intro _ | apply branch_keeps | apply KeepsR.ite | apply KeepsR.next

theorem State.jumpLink_keeps {s : State} (h : Keeps s₀ s) (e : Engine) (d : Reg) (t : Word) : Keeps s₀ (State.jumpLink s e d t) := by
  unfold State.jumpLink
  with_reducible repeat' first | assumption | intro _ | apply wg_keeps | apply engFault_keeps | apply jumpTo_keeps | apply Keeps.ite

theorem execJ_keeps {s : State} (h : Keeps s₀ s) (e : Engine) (off : BitVec 26) : KeepsR s₀ (execJ e off s) := by
  unfold execJ
  with_reducible repeat'
    first | assumption | intro _ | apply cannot_keeps | apply jumpTo_keeps | apply KeepsR.ite | apply KeepsR.next | apply Keeps.ite

theorem execJal_keeps {s : State} (h : Keeps s₀ s) (e : Engine) (off : BitVec 26) : KeepsR s₀ (execJal e off s) := by
  unfold execJal
  with_reducible repeat'
    first | assumption | intro _ | apply cannot_keeps | apply jumpLink_keeps | apply KeepsR.ite | apply KeepsR.next | apply Keeps.ite

theorem execJalr_keeps {s : State} (h : Keeps s₀ s) (e : Engine) (d a : Reg) (imm : BitVec 16) : KeepsR s₀ (execJalr e d a imm s) := by
  unfold execJalr
  with_reducible repeat'
    first | assumption | intro _ | apply engFault_keeps | apply cannot_keeps | apply jumpLink_keeps | apply KeepsR.ite | apply KeepsR.next
          | apply Keeps.ite

/-! ### HubFloat -/

theorem State.fop_keeps {s : State} (h : Keeps s₀ s) (e : Engine) (d a b c : Reg) (f : RMode → Word → Word → Word → Word × FFlags) :
    Keeps s₀ (State.fop s e d a b c f) := by
  unfold State.fop
  with_reducible repeat'
    first | assumption | intro _ | apply wf_keeps | apply adv_keeps | apply accrue_keeps | apply engFault_keeps | apply cannot_keeps
          | apply Keeps.ite | split

theorem State.fopG_keeps {s : State} (h : Keeps s₀ s) (e : Engine) (d a b : Reg) (f : RMode → Word → Word → Word × FFlags) :
    Keeps s₀ (State.fopG s e d a b f) := by
  unfold State.fopG
  with_reducible repeat'
    first | assumption | intro _ | apply wg_keeps | apply adv_keeps | apply accrue_keeps | apply engFault_keeps | apply cannot_keeps
          | apply Keeps.ite | split

theorem State.fopI_keeps {s : State} (h : Keeps s₀ s) (e : Engine) (d a : Reg) (f : RMode → Word → Word × FFlags) :
    Keeps s₀ (State.fopI s e d a f) := by
  unfold State.fopI
  with_reducible repeat'
    first | assumption | intro _ | apply wf_keeps | apply adv_keeps | apply accrue_keeps | apply engFault_keeps | apply cannot_keeps
          | apply Keeps.ite | split

theorem execFadd_keeps {s : State} (h : Keeps s₀ s) (e : Engine) (d a b : Reg) : KeepsR s₀ (execFadd e d a b s) := by
  unfold execFadd
  with_reducible repeat' first | assumption | intro _ | apply fop_keeps | apply KeepsR.ite | apply KeepsR.next

theorem execFsub_keeps {s : State} (h : Keeps s₀ s) (e : Engine) (d a b : Reg) : KeepsR s₀ (execFsub e d a b s) := by
  unfold execFsub
  with_reducible repeat' first | assumption | intro _ | apply fop_keeps | apply KeepsR.ite | apply KeepsR.next

theorem execFmul_keeps {s : State} (h : Keeps s₀ s) (e : Engine) (d a b : Reg) : KeepsR s₀ (execFmul e d a b s) := by
  unfold execFmul
  with_reducible repeat' first | assumption | intro _ | apply fop_keeps | apply KeepsR.ite | apply KeepsR.next

theorem execFdiv_keeps {s : State} (h : Keeps s₀ s) (e : Engine) (d a b : Reg) : KeepsR s₀ (execFdiv e d a b s) := by
  unfold execFdiv
  with_reducible repeat' first | assumption | intro _ | apply fop_keeps | apply KeepsR.ite | apply KeepsR.next

theorem execFsqrt_keeps {s : State} (h : Keeps s₀ s) (e : Engine) (d a : Reg) : KeepsR s₀ (execFsqrt e d a s) := by
  unfold execFsqrt
  with_reducible repeat' first | assumption | intro _ | apply fop_keeps | apply KeepsR.ite | apply KeepsR.next

theorem execFmadd_keeps {s : State} (h : Keeps s₀ s) (e : Engine) (d a b c : Reg) : KeepsR s₀ (execFmadd e d a b c s) := by
  unfold execFmadd
  with_reducible repeat' first | assumption | intro _ | apply fop_keeps | apply KeepsR.ite | apply KeepsR.next

theorem execFmsub_keeps {s : State} (h : Keeps s₀ s) (e : Engine) (d a b c : Reg) : KeepsR s₀ (execFmsub e d a b c s) := by
  unfold execFmsub
  with_reducible repeat' first | assumption | intro _ | apply fop_keeps | apply KeepsR.ite | apply KeepsR.next

theorem execFnmadd_keeps {s : State} (h : Keeps s₀ s) (e : Engine) (d a b c : Reg) : KeepsR s₀ (execFnmadd e d a b c s) := by
  unfold execFnmadd
  with_reducible repeat' first | assumption | intro _ | apply fop_keeps | apply KeepsR.ite | apply KeepsR.next

theorem execFmin_keeps {s : State} (h : Keeps s₀ s) (e : Engine) (d a b : Reg) : KeepsR s₀ (execFmin e d a b s) := by
  unfold execFmin
  with_reducible repeat' first | assumption | intro _ | apply fop_keeps | apply KeepsR.ite | apply KeepsR.next

theorem execFmax_keeps {s : State} (h : Keeps s₀ s) (e : Engine) (d a b : Reg) : KeepsR s₀ (execFmax e d a b s) := by
  unfold execFmax
  with_reducible repeat' first | assumption | intro _ | apply fop_keeps | apply KeepsR.ite | apply KeepsR.next

theorem execFeq_keeps {s : State} (h : Keeps s₀ s) (e : Engine) (d a b : Reg) : KeepsR s₀ (execFeq e d a b s) := by
  unfold execFeq
  with_reducible repeat' first | assumption | intro _ | apply fopG_keeps | apply KeepsR.ite | apply KeepsR.next

theorem execFlt_keeps {s : State} (h : Keeps s₀ s) (e : Engine) (d a b : Reg) : KeepsR s₀ (execFlt e d a b s) := by
  unfold execFlt
  with_reducible repeat' first | assumption | intro _ | apply fopG_keeps | apply KeepsR.ite | apply KeepsR.next

theorem execFle_keeps {s : State} (h : Keeps s₀ s) (e : Engine) (d a b : Reg) : KeepsR s₀ (execFle e d a b s) := by
  unfold execFle
  with_reducible repeat' first | assumption | intro _ | apply fopG_keeps | apply KeepsR.ite | apply KeepsR.next

theorem execFclass_keeps {s : State} (h : Keeps s₀ s) (e : Engine) (d a : Reg) : KeepsR s₀ (execFclass e d a s) := by
  unfold execFclass
  with_reducible repeat' first | assumption | intro _ | apply fopG_keeps | apply KeepsR.ite | apply KeepsR.next

theorem execFitod_keeps {s : State} (h : Keeps s₀ s) (e : Engine) (d a : Reg) : KeepsR s₀ (execFitod e d a s) := by
  unfold execFitod
  with_reducible repeat' first | assumption | intro _ | apply fopI_keeps | apply KeepsR.ite | apply KeepsR.next

theorem execFutod_keeps {s : State} (h : Keeps s₀ s) (e : Engine) (d a : Reg) : KeepsR s₀ (execFutod e d a s) := by
  unfold execFutod
  with_reducible repeat' first | assumption | intro _ | apply fopI_keeps | apply KeepsR.ite | apply KeepsR.next

theorem execFdtoi_keeps {s : State} (h : Keeps s₀ s) (e : Engine) (d a : Reg) : KeepsR s₀ (execFdtoi e d a s) := by
  unfold execFdtoi
  with_reducible repeat' first | assumption | intro _ | apply fopG_keeps | apply KeepsR.ite | apply KeepsR.next

theorem execFdtou_keeps {s : State} (h : Keeps s₀ s) (e : Engine) (d a : Reg) : KeepsR s₀ (execFdtou e d a s) := by
  unfold execFdtou
  with_reducible repeat' first | assumption | intro _ | apply fopG_keeps | apply KeepsR.ite | apply KeepsR.next

theorem execFmvgf_keeps {s : State} (h : Keeps s₀ s) (e : Engine) (d a : Reg) : KeepsR s₀ (execFmvgf e d a s) := by
  unfold execFmvgf
  with_reducible repeat' first | assumption | intro _ | apply fopG_keeps | apply KeepsR.ite | apply KeepsR.next

theorem execFmvfg_keeps {s : State} (h : Keeps s₀ s) (e : Engine) (d a : Reg) : KeepsR s₀ (execFmvfg e d a s) := by
  unfold execFmvfg
  with_reducible repeat' first | assumption | intro _ | apply fopI_keeps | apply KeepsR.ite | apply KeepsR.next

theorem execFneg_keeps {s : State} (h : Keeps s₀ s) (e : Engine) (d a : Reg) : KeepsR s₀ (execFneg e d a s) := by
  unfold execFneg
  with_reducible repeat' first | assumption | intro _ | apply fop_keeps | apply KeepsR.ite | apply KeepsR.next

theorem execFabs_keeps {s : State} (h : Keeps s₀ s) (e : Engine) (d a : Reg) : KeepsR s₀ (execFabs e d a s) := by
  unfold execFabs
  with_reducible repeat' first | assumption | intro _ | apply fop_keeps | apply KeepsR.ite | apply KeepsR.next

/-! ### HubInt -/

theorem State.alu_keeps {s : State} (h : Keeps s₀ s) (e : Engine) (d a b c : Reg) (h : Word → Word → Word → Word) (q : Option (Word32 → Word32 → Word32 → Word32)) :
    Keeps s₀ (State.alu s e d a b c h q) := by
  unfold State.alu
  with_reducible repeat'
    first | assumption | intro _ | apply wg_keeps | apply adv_keeps | apply engFault_keeps | apply cannot_keeps | apply Keeps.ite | split

theorem State.aluImm_keeps {s : State} (h : Keeps s₀ s) (e : Engine) (d a : Reg) (ok : Bool) (h : Word → Word) (q : Word32 → Word32) :
    Keeps s₀ (State.aluImm s e d a ok h q) := by
  unfold State.aluImm
  with_reducible repeat'
    first | assumption | intro _ | apply wg_keeps | apply adv_keeps | apply engFault_keeps | apply cannot_keeps | apply Keeps.ite | split

theorem execAdd_keeps {s : State} (h : Keeps s₀ s) (e : Engine) (d a b : Reg) : KeepsR s₀ (execAdd e d a b s) := by
  unfold execAdd
  with_reducible repeat' first | assumption | intro _ | apply alu_keeps | apply KeepsR.ite | apply KeepsR.next

theorem execSub_keeps {s : State} (h : Keeps s₀ s) (e : Engine) (d a b : Reg) : KeepsR s₀ (execSub e d a b s) := by
  unfold execSub
  with_reducible repeat' first | assumption | intro _ | apply alu_keeps | apply KeepsR.ite | apply KeepsR.next

theorem execAnd_keeps {s : State} (h : Keeps s₀ s) (e : Engine) (d a b : Reg) : KeepsR s₀ (execAnd e d a b s) := by
  unfold execAnd
  with_reducible repeat' first | assumption | intro _ | apply alu_keeps | apply KeepsR.ite | apply KeepsR.next

theorem execOr_keeps {s : State} (h : Keeps s₀ s) (e : Engine) (d a b : Reg) : KeepsR s₀ (execOr e d a b s) := by
  unfold execOr
  with_reducible repeat' first | assumption | intro _ | apply alu_keeps | apply KeepsR.ite | apply KeepsR.next

theorem execXor_keeps {s : State} (h : Keeps s₀ s) (e : Engine) (d a b : Reg) : KeepsR s₀ (execXor e d a b s) := by
  unfold execXor
  with_reducible repeat' first | assumption | intro _ | apply alu_keeps | apply KeepsR.ite | apply KeepsR.next

theorem execSll_keeps {s : State} (h : Keeps s₀ s) (e : Engine) (d a b : Reg) : KeepsR s₀ (execSll e d a b s) := by
  unfold execSll
  with_reducible repeat' first | assumption | intro _ | apply alu_keeps | apply KeepsR.ite | apply KeepsR.next

theorem execSrl_keeps {s : State} (h : Keeps s₀ s) (e : Engine) (d a b : Reg) : KeepsR s₀ (execSrl e d a b s) := by
  unfold execSrl
  with_reducible repeat' first | assumption | intro _ | apply alu_keeps | apply KeepsR.ite | apply KeepsR.next

theorem execSra_keeps {s : State} (h : Keeps s₀ s) (e : Engine) (d a b : Reg) : KeepsR s₀ (execSra e d a b s) := by
  unfold execSra
  with_reducible repeat' first | assumption | intro _ | apply alu_keeps | apply KeepsR.ite | apply KeepsR.next

theorem execSlt_keeps {s : State} (h : Keeps s₀ s) (e : Engine) (d a b : Reg) : KeepsR s₀ (execSlt e d a b s) := by
  unfold execSlt
  with_reducible repeat' first | assumption | intro _ | apply alu_keeps | apply KeepsR.ite | apply KeepsR.next

theorem execSltu_keeps {s : State} (h : Keeps s₀ s) (e : Engine) (d a b : Reg) : KeepsR s₀ (execSltu e d a b s) := by
  unfold execSltu
  with_reducible repeat' first | assumption | intro _ | apply alu_keeps | apply KeepsR.ite | apply KeepsR.next

theorem execMin_keeps {s : State} (h : Keeps s₀ s) (e : Engine) (d a b : Reg) : KeepsR s₀ (execMin e d a b s) := by
  unfold execMin
  with_reducible repeat' first | assumption | intro _ | apply alu_keeps | apply KeepsR.ite | apply KeepsR.next

theorem execMax_keeps {s : State} (h : Keeps s₀ s) (e : Engine) (d a b : Reg) : KeepsR s₀ (execMax e d a b s) := by
  unfold execMax
  with_reducible repeat' first | assumption | intro _ | apply alu_keeps | apply KeepsR.ite | apply KeepsR.next

theorem execMinu_keeps {s : State} (h : Keeps s₀ s) (e : Engine) (d a b : Reg) : KeepsR s₀ (execMinu e d a b s) := by
  unfold execMinu
  with_reducible repeat' first | assumption | intro _ | apply alu_keeps | apply KeepsR.ite | apply KeepsR.next

theorem execMaxu_keeps {s : State} (h : Keeps s₀ s) (e : Engine) (d a b : Reg) : KeepsR s₀ (execMaxu e d a b s) := by
  unfold execMaxu
  with_reducible repeat' first | assumption | intro _ | apply alu_keeps | apply KeepsR.ite | apply KeepsR.next

theorem execAddw_keeps {s : State} (h : Keeps s₀ s) (e : Engine) (d a b : Reg) : KeepsR s₀ (execAddw e d a b s) := by
  unfold execAddw
  with_reducible repeat' first | assumption | intro _ | apply alu_keeps | apply KeepsR.ite | apply KeepsR.next

theorem execSubw_keeps {s : State} (h : Keeps s₀ s) (e : Engine) (d a b : Reg) : KeepsR s₀ (execSubw e d a b s) := by
  unfold execSubw
  with_reducible repeat' first | assumption | intro _ | apply alu_keeps | apply KeepsR.ite | apply KeepsR.next

theorem execClz_keeps {s : State} (h : Keeps s₀ s) (e : Engine) (d a : Reg) : KeepsR s₀ (execClz e d a s) := by
  unfold execClz
  with_reducible repeat' first | assumption | intro _ | apply alu_keeps | apply KeepsR.ite | apply KeepsR.next

theorem execCtz_keeps {s : State} (h : Keeps s₀ s) (e : Engine) (d a : Reg) : KeepsR s₀ (execCtz e d a s) := by
  unfold execCtz
  with_reducible repeat' first | assumption | intro _ | apply alu_keeps | apply KeepsR.ite | apply KeepsR.next

theorem execPopc_keeps {s : State} (h : Keeps s₀ s) (e : Engine) (d a : Reg) : KeepsR s₀ (execPopc e d a s) := by
  unfold execPopc
  with_reducible repeat' first | assumption | intro _ | apply alu_keeps | apply KeepsR.ite | apply KeepsR.next

theorem execBswap_keeps {s : State} (h : Keeps s₀ s) (e : Engine) (d a : Reg) : KeepsR s₀ (execBswap e d a s) := by
  unfold execBswap
  with_reducible repeat' first | assumption | intro _ | apply alu_keeps | apply KeepsR.ite | apply KeepsR.next

theorem execSel_keeps {s : State} (h : Keeps s₀ s) (e : Engine) (d a b c : Reg) : KeepsR s₀ (execSel e d a b c s) := by
  unfold execSel
  with_reducible repeat' first | assumption | intro _ | apply alu_keeps | apply KeepsR.ite | apply KeepsR.next

theorem execMul_keeps {s : State} (h : Keeps s₀ s) (e : Engine) (d a b : Reg) : KeepsR s₀ (execMul e d a b s) := by
  unfold execMul
  with_reducible repeat' first | assumption | intro _ | apply alu_keeps | apply KeepsR.ite | apply KeepsR.next

theorem execMulh_keeps {s : State} (h : Keeps s₀ s) (e : Engine) (d a b : Reg) : KeepsR s₀ (execMulh e d a b s) := by
  unfold execMulh
  with_reducible repeat' first | assumption | intro _ | apply alu_keeps | apply KeepsR.ite | apply KeepsR.next

theorem execMulhu_keeps {s : State} (h : Keeps s₀ s) (e : Engine) (d a b : Reg) : KeepsR s₀ (execMulhu e d a b s) := by
  unfold execMulhu
  with_reducible repeat' first | assumption | intro _ | apply alu_keeps | apply KeepsR.ite | apply KeepsR.next

theorem execMulw_keeps {s : State} (h : Keeps s₀ s) (e : Engine) (d a b : Reg) : KeepsR s₀ (execMulw e d a b s) := by
  unfold execMulw
  with_reducible repeat' first | assumption | intro _ | apply alu_keeps | apply KeepsR.ite | apply KeepsR.next

theorem execDiv_keeps {s : State} (h : Keeps s₀ s) (e : Engine) (d a b : Reg) : KeepsR s₀ (execDiv e d a b s) := by
  unfold execDiv
  with_reducible repeat' first | assumption | intro _ | apply alu_keeps | apply KeepsR.ite | apply KeepsR.next

theorem execDivu_keeps {s : State} (h : Keeps s₀ s) (e : Engine) (d a b : Reg) : KeepsR s₀ (execDivu e d a b s) := by
  unfold execDivu
  with_reducible repeat' first | assumption | intro _ | apply alu_keeps | apply KeepsR.ite | apply KeepsR.next

theorem execRem_keeps {s : State} (h : Keeps s₀ s) (e : Engine) (d a b : Reg) : KeepsR s₀ (execRem e d a b s) := by
  unfold execRem
  with_reducible repeat' first | assumption | intro _ | apply alu_keeps | apply KeepsR.ite | apply KeepsR.next

theorem execRemu_keeps {s : State} (h : Keeps s₀ s) (e : Engine) (d a b : Reg) : KeepsR s₀ (execRemu e d a b s) := by
  unfold execRemu
  with_reducible repeat' first | assumption | intro _ | apply alu_keeps | apply KeepsR.ite | apply KeepsR.next

theorem execMadd_keeps {s : State} (h : Keeps s₀ s) (e : Engine) (d a b c : Reg) : KeepsR s₀ (execMadd e d a b c s) := by
  unfold execMadd
  with_reducible repeat' first | assumption | intro _ | apply alu_keeps | apply KeepsR.ite | apply KeepsR.next

theorem execAddi_keeps {s : State} (h : Keeps s₀ s) (e : Engine) (d a : Reg) (imm : BitVec 16) : KeepsR s₀ (execAddi e d a imm s) := by
  unfold execAddi
  with_reducible repeat' first | assumption | intro _ | apply aluImm_keeps | apply KeepsR.ite | apply KeepsR.next

theorem execAndi_keeps {s : State} (h : Keeps s₀ s) (e : Engine) (d a : Reg) (imm : BitVec 16) : KeepsR s₀ (execAndi e d a imm s) := by
  unfold execAndi
  with_reducible repeat' first | assumption | intro _ | apply aluImm_keeps | apply KeepsR.ite | apply KeepsR.next

theorem execOri_keeps {s : State} (h : Keeps s₀ s) (e : Engine) (d a : Reg) (imm : BitVec 16) : KeepsR s₀ (execOri e d a imm s) := by
  unfold execOri
  with_reducible repeat' first | assumption | intro _ | apply aluImm_keeps | apply KeepsR.ite | apply KeepsR.next

theorem execXori_keeps {s : State} (h : Keeps s₀ s) (e : Engine) (d a : Reg) (imm : BitVec 16) : KeepsR s₀ (execXori e d a imm s) := by
  unfold execXori
  with_reducible repeat' first | assumption | intro _ | apply aluImm_keeps | apply KeepsR.ite | apply KeepsR.next

theorem execSlti_keeps {s : State} (h : Keeps s₀ s) (e : Engine) (d a : Reg) (imm : BitVec 16) : KeepsR s₀ (execSlti e d a imm s) := by
  unfold execSlti
  with_reducible repeat' first | assumption | intro _ | apply aluImm_keeps | apply KeepsR.ite | apply KeepsR.next

theorem execSltui_keeps {s : State} (h : Keeps s₀ s) (e : Engine) (d a : Reg) (imm : BitVec 16) : KeepsR s₀ (execSltui e d a imm s) := by
  unfold execSltui
  with_reducible repeat' first | assumption | intro _ | apply aluImm_keeps | apply KeepsR.ite | apply KeepsR.next

theorem execLui_keeps {s : State} (h : Keeps s₀ s) (e : Engine) (d : Reg) (imm : BitVec 16) : KeepsR s₀ (execLui e d imm s) := by
  unfold execLui
  with_reducible repeat' first | assumption | intro _ | apply aluImm_keeps | apply KeepsR.ite | apply KeepsR.next

theorem execSlli_keeps {s : State} (h : Keeps s₀ s) (e : Engine) (d a : Reg) (imm : BitVec 16) : KeepsR s₀ (execSlli e d a imm s) := by
  unfold execSlli
  with_reducible repeat' first | assumption | intro _ | apply aluImm_keeps | apply KeepsR.ite | apply KeepsR.next

theorem execSrli_keeps {s : State} (h : Keeps s₀ s) (e : Engine) (d a : Reg) (imm : BitVec 16) : KeepsR s₀ (execSrli e d a imm s) := by
  unfold execSrli
  with_reducible repeat' first | assumption | intro _ | apply aluImm_keeps | apply KeepsR.ite | apply KeepsR.next

theorem execSrai_keeps {s : State} (h : Keeps s₀ s) (e : Engine) (d a : Reg) (imm : BitVec 16) : KeepsR s₀ (execSrai e d a imm s) := by
  unfold execSrai
  with_reducible repeat' first | assumption | intro _ | apply aluImm_keeps | apply KeepsR.ite | apply KeepsR.next

end Sys2Proof.Machine
end

