-- ==== Sys2Proof/Laws/KeepsTime.lean ====
section
/-! SUPPORT. That GNSS, the sequencers, the correlator, tracking, time and corrections keep the invariant and the queue (`Keeps`), one lemma per function. -/

namespace Sys2Proof.Machine

open State

variable {s₀ : State}

/-! ### Gnss -/

theorem State.setStream_keeps {s : State} (h : Keeps s₀ s) (k : Nat) (x : GnssStream) : Keeps s₀ (State.setStream s k x) := by
  unfold State.setStream
  with_reducible repeat'
    first | assumption | intro _ | apply Keeps.ite | split | refine Keeps.ofEq (by assumption) ?_ | refine Keeps.ofSome (by assumption) ?_
          | dsimp only | apply Keeps.upd

theorem State.setGrEngine_keeps {s : State} (h : Keeps s₀ s) (e : Nat) (x : GrEngine) : Keeps s₀ (State.setGrEngine s e x) := by
  unfold State.setGrEngine
  with_reducible repeat'
    first | assumption | intro _ | apply Keeps.ite | split | refine Keeps.ofEq (by assumption) ?_ | refine Keeps.ofSome (by assumption) ?_
          | dsimp only | apply Keeps.upd

theorem State.onCaptures_keeps {s : State} (h : Keeps s₀ s) (k : Nat) (f : Search → Search) : Keeps s₀ (State.onCaptures s k f) := by
  unfold State.onCaptures
  with_reducible repeat' first | assumption | intro _ | apply setGrEngine_keeps | apply Keeps.foldl

theorem State.antLeaves_keeps {s : State} (h : Keeps s₀ s) (a : Nat) : Keeps s₀ (State.antLeaves s a) := by
  unfold State.antLeaves
  with_reducible repeat'
    first | assumption | intro _ | apply setB_keeps | apply setStream_keeps | apply onCaptures_keeps | apply Keeps.foldl

theorem State.setImage_keeps {s : State} (h : Keeps s₀ s) (a : Nat) (x : TrackImage) : Keeps s₀ (State.setImage s a x) := by
  unfold State.setImage
  with_reducible repeat'
    first | assumption | intro _ | apply Keeps.ite | split | refine Keeps.ofEq (by assumption) ?_ | refine Keeps.ofSome (by assumption) ?_
          | dsimp only | apply Keeps.upd

theorem State.antAlign_keeps {s : State} (h : Keeps s₀ s) (a : Nat) : Keeps s₀ (State.antAlign s a) := by
  unfold State.antAlign
  with_reducible repeat'
    first | assumption | intro _ | apply set_keeps | apply Keeps.ite | split | refine Keeps.ofEq (by assumption) ?_
          | refine Keeps.ofSome (by assumption) ?_ | dsimp only | apply Keeps.upd

theorem execAntennaAlign_keeps {s : State} (h : Keeps s₀ s) (a : Fin 4) : KeepsR s₀ (execAntennaAlign a s) := by
  unfold execAntennaAlign
  with_reducible repeat' first | assumption | intro _ | apply antAlign_keeps | apply KeepsR.ite | apply KeepsR.next

theorem execAlignDone_keeps {s : State} (h : Keeps s₀ s) (a : Fin 4) (pattern : Bool) (eye : Nat) :
    KeepsR s₀ (execAlignDone a pattern eye s) := by
  unfold execAlignDone
  with_reducible repeat'
    first | assumption | intro _ | apply set_keeps | apply raise_keeps | apply KeepsR.ite | apply KeepsR.next | apply Keeps.ite

theorem State.antRun_keeps {s : State} (h : Keeps s₀ s) (a : Nat) : Keeps s₀ (State.antRun s a) := by
  unfold State.antRun
  with_reducible repeat'
    first | assumption | intro _ | apply raise_keeps | apply Keeps.ite | split | refine Keeps.ofEq (by assumption) ?_
          | refine Keeps.ofSome (by assumption) ?_ | dsimp only | apply Keeps.upd

theorem execAntennaRun_keeps {s : State} (h : Keeps s₀ s) (a : Fin 4) : KeepsR s₀ (execAntennaRun a s) := by
  unfold execAntennaRun
  with_reducible repeat' first | assumption | intro _ | apply antRun_keeps | apply KeepsR.ite | apply KeepsR.next

theorem State.followFill_keeps {s : State} (h : Keeps s₀ s) (k : Nat) : Keeps s₀ (State.followFill s k) := by
  unfold State.followFill
  with_reducible repeat' first | assumption | intro _ | apply set_keeps | apply setB_keeps | apply Keeps.ite

theorem State.streamUnit_keeps {s : State} (h : Keeps s₀ s) (k : Nat) (on : Bool) : Keeps s₀ (State.streamUnit s k on) := by
  unfold State.streamUnit
  with_reducible repeat' first | assumption | intro _ | apply set_keeps | apply setStream_keeps | apply followFill_keeps

theorem State.antStop_keeps {s : State} (h : Keeps s₀ s) (a : Nat) : Keeps s₀ (State.antStop s a) := by
  unfold State.antStop
  with_reducible repeat'
    first | assumption | intro _ | apply set_keeps | apply antLeaves_keeps | apply streamUnit_keeps | apply Keeps.foldl
          | apply Keeps.foldlP | apply Keeps.ite | split | refine Keeps.ofEq (by assumption) ?_ | refine Keeps.ofSome (by assumption) ?_
          | dsimp only | apply Keeps.upd

theorem execAntennaStop_keeps {s : State} (h : Keeps s₀ s) (a : Fin 4) : KeepsR s₀ (execAntennaStop a s) := by
  unfold execAntennaStop
  with_reducible repeat' first | assumption | intro _ | apply antStop_keeps | apply KeepsR.ite | apply KeepsR.next

theorem execLaneLost_keeps {s : State} (h : Keeps s₀ s) (a : Fin 4) : KeepsR s₀ (execLaneLost a s) := by
  unfold execLaneLost
  with_reducible repeat'
    first | assumption | intro _ | apply set_keeps | apply setMask_keeps | apply raise_keeps | apply antLeaves_keeps | apply KeepsR.ite
          | apply KeepsR.next

theorem State.feed_keeps {s : State} (h : Keeps s₀ s) (k : Nat) (codes : List Byte) : Keeps s₀ (State.feed s k codes) := by
  unfold State.feed
  with_reducible repeat'
    first | assumption | intro _ | apply setB_keeps | apply bump_keeps | apply raise_keeps | apply setStream_keeps
          | apply followFill_keeps | apply Keeps.foldl | apply Keeps.foldlP | apply Keeps.ite

theorem execPulseBlank_keeps {s : State} (h : Keeps s₀ s) (st : Fin 12) (codes : List Byte) : KeepsR s₀ (execPulseBlank st codes s) := by
  unfold execPulseBlank
  with_reducible repeat' first | assumption | intro _ | apply feed_keeps | apply KeepsR.ite | apply KeepsR.next

theorem execLaneSlip_keeps {s : State} (h : Keeps s₀ s) (st : Fin 12) (codes : List Byte) : KeepsR s₀ (execLaneSlip st codes s) := by
  unfold execLaneSlip
  with_reducible repeat'
    first | assumption | intro _ | apply setB_keeps | apply setMask_keeps | apply raise_keeps | apply setStream_keeps
          | apply onCaptures_keeps | apply setImage_keeps | apply followFill_keeps | apply KeepsR.ite | apply KeepsR.next

theorem State.followDepth_keeps {s : State} (h : Keeps s₀ s) (k : Nat) : Keeps s₀ (State.followDepth s k) := by
  unfold State.followDepth
  with_reducible repeat' first | assumption | intro _ | apply set_keeps

theorem State.sendGain_keeps {s : State} (h : Keeps s₀ s) (k gain : Nat) : Keeps s₀ (State.sendGain s k gain) := by
  unfold State.sendGain
  with_reducible repeat'
    first | assumption | intro _ | apply setStream_keeps | apply Keeps.ite | split | refine Keeps.ofEq (by assumption) ?_
          | refine Keeps.ofSome (by assumption) ?_ | dsimp only | apply Keeps.upd

theorem State.setGain_keeps {s : State} (h : Keeps s₀ s) (k gain : Nat) : Keeps s₀ (State.setGain s k gain) := by
  unfold State.setGain
  with_reducible repeat' first | assumption | intro _ | apply set_keeps | apply followDepth_keeps | apply sendGain_keeps | apply Keeps.ite

theorem State.agcStep_keeps {s : State} (h : Keeps s₀ s) (k hot counted : Nat) : Keeps s₀ (State.agcStep s k hot counted) := by
  unfold State.agcStep
  with_reducible repeat' first | assumption | intro _ | apply raise_keeps | apply setGain_keeps | apply Keeps.ite

theorem State.agcEnd_keeps {s : State} (h : Keeps s₀ s) (k : Nat) : Keeps s₀ (State.agcEnd s k) := by
  unfold State.agcEnd
  with_reducible repeat'
    first | assumption | intro _ | apply set_keeps | apply setStream_keeps | apply setGain_keeps | apply agcStep_keeps | apply Keeps.ite

theorem execAgcPeriodEnd_keeps {s : State} (h : Keeps s₀ s) (st : Fin 12) (codes : List Byte) :
    KeepsR s₀ (execAgcPeriodEnd st codes s) := by
  unfold execAgcPeriodEnd
  with_reducible repeat'
    first | assumption | refine reachSite_keeps ?_ _ | intro _ | apply feed_keeps | apply agcEnd_keeps | apply KeepsR.ite
          | apply KeepsR.next | apply Keeps.ite | split | refine Keeps.ofEq (by assumption) ?_ | refine Keeps.ofSome (by assumption) ?_

theorem State.spectrum_keeps {s : State} (h : Keeps s₀ s) (k : Nat) (bins : List Nat) (depth : Nat) :
    Keeps s₀ (State.spectrum s k bins depth) := by
  unfold State.spectrum
  with_reducible repeat'
    first | assumption | intro _ | apply set_keeps | apply setB_keeps | apply setMask_keeps | apply raise_keeps | apply setStream_keeps
          | apply Keeps.ite

theorem execSpectrumPublish_keeps {s : State} (h : Keeps s₀ s) (st : Fin 12) : KeepsR s₀ (execSpectrumPublish st s) := by
  unfold execSpectrumPublish
  with_reducible repeat'
    first | assumption | refine reachSite_keeps ?_ _ | intro _ | apply spectrum_keeps | apply KeepsR.ite | apply KeepsR.next
          | apply Keeps.ite | split | refine Keeps.ofEq (by assumption) ?_ | refine Keeps.ofSome (by assumption) ?_ | dsimp only

theorem State.agcLearn_keeps {s : State} (h : Keeps s₀ s) (k : Nat) : Keeps s₀ (State.agcLearn s k) := by
  unfold State.agcLearn
  with_reducible repeat' first | assumption | intro _ | apply setB_keeps | apply setStream_keeps | apply Keeps.ite

theorem execAgcLearn_keeps {s : State} (h : Keeps s₀ s) (st : Fin 12) : KeepsR s₀ (execAgcLearn st s) := by
  unfold execAgcLearn
  with_reducible repeat' first | assumption | intro _ | apply agcLearn_keeps | apply KeepsR.ite | apply KeepsR.next

theorem execLearnDone_keeps {s : State} (h : Keeps s₀ s) (st : Fin 12) : KeepsR s₀ (execLearnDone st s) := by
  unfold execLearnDone
  with_reducible repeat'
    first | assumption | intro _ | apply set_keeps | apply setB_keeps | apply setStream_keeps | apply KeepsR.ite | apply KeepsR.next

theorem State.setNotch_keeps {s : State} (h : Keeps s₀ s) (k j : Nat) (n : Option NotchState) : Keeps s₀ (State.setNotch s k j n) := by
  unfold State.setNotch
  with_reducible repeat'
    first | assumption | intro _ | apply set_keeps | apply setB_keeps | apply onCaptures_keeps | apply Keeps.ite | split
          | refine Keeps.ofEq (by assumption) ?_ | refine Keeps.ofSome (by assumption) ?_ | dsimp only | apply Keeps.upd

theorem State.notchPass_keeps {s : State} (h : Keeps s₀ s) (k : Nat) (med : Nat × Nat) (inp : List (Int × Int)) (j : Nat) :
    Keeps s₀ (State.notchPass s k med inp j).2 := by
  unfold State.notchPass
  with_reducible repeat' first | assumption | intro _ | apply set_keeps | apply setNotch_keeps | apply Keeps.ite | apply Keeps.iteP | split

theorem State.notchChain_keeps {s : State} (h : Keeps s₀ s) (k : Nat) (tap : List (Int × Int)) : Keeps s₀ (State.notchChain s k tap) := by
  unfold State.notchChain
  with_reducible repeat'
    first | assumption | intro _ | apply setStream_keeps | apply notchPass_keeps | apply Keeps.foldl | apply Keeps.foldlP

theorem State.notchReleases_keeps {s : State} (h : Keeps s₀ s) (k : Nat) : Keeps s₀ (State.notchReleases s k) := by
  unfold State.notchReleases
  with_reducible repeat'
    first | assumption | intro _ | apply setNotch_keeps | apply Keeps.foldl | apply Keeps.foldlP | apply Keeps.ite | split

theorem State.engageAt_keeps {s : State} (h : Keeps s₀ s) (k j : Nat) (med : Nat × Nat) (c : Nat × (Nat × Nat)) :
    Keeps s₀ (State.engageAt s k j med c) := by
  unfold State.engageAt
  with_reducible repeat' first | assumption | intro _ | apply set_keeps | apply setNotch_keeps

theorem State.engage_keeps {s : State} (h : Keeps s₀ s) (k : Nat) (med : Nat × Nat) (c : Nat × (Nat × Nat)) :
    Keeps s₀ (State.engage s k med c) := by
  unfold State.engage
  with_reducible repeat'
    first | assumption | intro _ | apply raise_keeps | apply setStream_keeps | apply setNotch_keeps | apply engageAt_keeps
          | apply Keeps.ite | split | refine Keeps.ofEq (by assumption) ?_ | refine Keeps.ofSome (by assumption) ?_ | dsimp only

theorem State.notchEngages_keeps {s : State} (h : Keeps s₀ s) (k : Nat) : Keeps s₀ (State.notchEngages s k) := by
  unfold State.notchEngages
  with_reducible repeat'
    first | assumption | intro _ | apply setNotch_keeps | apply engage_keeps | apply Keeps.foldl | apply Keeps.foldlP | apply Keeps.ite

theorem State.gnssinApplied_keeps {s : State} (h : Keeps s₀ s) : Keeps s₀ (State.gnssinApplied s) := by
  unfold State.gnssinApplied
  with_reducible repeat'
    first | assumption | intro _ | apply followDepth_keeps | apply Keeps.foldl | apply Keeps.foldlP | apply Keeps.ite | split
          | refine Keeps.ofEq (by assumption) ?_ | refine Keeps.ofSome (by assumption) ?_ | dsimp only | apply Keeps.upd

theorem State.antStart_keeps {s : State} (h : Keeps s₀ s) (a : Nat) : Keeps s₀ (State.antStart s a) := by
  unfold State.antStart
  with_reducible repeat'
    first | assumption | intro _ | apply set_keeps | apply streamUnit_keeps | apply setGain_keeps | apply Keeps.foldl | apply Keeps.foldlP
          | apply Keeps.ite

theorem State.captureMs_keeps {s : State} (h : Keeps s₀ s) (k ms samples blanked : Nat) :
    Keeps s₀ (State.captureMs s k ms samples blanked) := by
  unfold State.captureMs
  with_reducible repeat' first | assumption | intro _ | apply setGrEngine_keeps | apply Keeps.foldl

theorem State.streamMs_keeps {s : State} (h : Keeps s₀ s) (k ms : Nat) : Keeps s₀ (State.streamMs s k ms) := by
  unfold State.streamMs
  with_reducible repeat'
    first | assumption | intro _ | apply set_keeps | apply setStream_keeps | apply agcEnd_keeps | apply notchChain_keeps
          | apply captureMs_keeps | apply Keeps.ite

theorem State.msTake_keeps {s : State} (h : Keeps s₀ s) (ms : Nat) (codes : List (List Byte)) : Keeps s₀ (State.msTake s ms codes) := by
  unfold State.msTake
  with_reducible repeat'
    first | assumption | intro _ | apply makeApply_keeps | apply feed_keeps | apply notchReleases_keeps | apply notchEngages_keeps
          | apply gnssinApplied_keeps | apply antStart_keeps | apply streamMs_keeps | apply Keeps.foldl | apply Keeps.foldlP
          | apply Keeps.ite | split | refine Keeps.ofEq (by assumption) ?_ | refine Keeps.ofSome (by assumption) ?_ | dsimp only
          | apply Keeps.upd

theorem execMsBoundary_keeps {s : State} (h : Keeps s₀ s) (codes : List (List Byte)) : KeepsR s₀ (execMsBoundary codes s) := by
  unfold execMsBoundary
  extract_lets ms
  split
  · rename_i e; exact KeepsR.next (State.msTake_keeps (State.reachSite_keeps h _ _ e) ..)
  · exact KeepsR.next h

/-! ### Grinder -/

theorem State.grFollow_keeps {s : State} (h : Keeps s₀ s) : Keeps s₀ (State.grFollow s) := by
  unfold State.grFollow
  with_reducible repeat'
    first | assumption | intro _ | apply set_keeps | apply setB_keeps | apply Keeps.foldl | apply Keeps.foldlP | apply Keeps.ite

theorem State.writeResult_keeps {s : State} (h : Keeps s₀ s) (r : List Byte) : Keeps s₀ (State.writeResult s r) := by
  unfold State.writeResult
  with_reducible repeat' first | assumption | intro _ | apply set_keeps | apply bump_keeps | apply store_keeps | apply Keeps.ite | split

theorem State.giveResult_keeps {s : State} (h : Keeps s₀ s) (e : Nat) (r : List Byte) : Keeps s₀ (State.giveResult s e r) := by
  unfold State.giveResult
  with_reducible repeat'
    first | assumption | intro _ | apply raise_keeps | apply setGrEngine_keeps | apply writeResult_keeps | apply Keeps.ite

theorem State.searchFails_keeps {s : State} (h : Keeps s₀ s) (e : Nat) (x : Search) : Keeps s₀ (State.searchFails s e x) := by
  unfold State.searchFails
  with_reducible repeat'
    first | assumption | intro _ | apply drawBytes_keeps | apply raise_keeps | apply setGrEngine_keeps | apply grFollow_keeps
          | apply giveResult_keeps | apply Keeps.ite | split

theorem State.grRun_keeps {s : State} (h : Keeps s₀ s) : Keeps s₀ (State.grRun s) := by
  unfold State.grRun
  with_reducible repeat' first | assumption | intro _ | apply set_keeps | apply Keeps.ite

theorem execGrinderRun_keeps {s : State} (h : Keeps s₀ s) : KeepsR s₀ (execGrinderRun s) := by
  unfold execGrinderRun
  with_reducible repeat' first | assumption | intro _ | apply grRun_keeps | apply KeepsR.ite | apply KeepsR.next

theorem State.grStop_keeps {s : State} (h : Keeps s₀ s) : Keeps s₀ (State.grStop s) := by
  unfold State.grStop
  with_reducible repeat' first | assumption | intro _ | apply set_keeps | apply grFollow_keeps | apply Keeps.ite

theorem execGrinderStop_keeps {s : State} (h : Keeps s₀ s) : KeepsR s₀ (execGrinderStop s) := by
  unfold execGrinderStop
  with_reducible repeat' first | assumption | intro _ | apply grStop_keeps | apply KeepsR.ite | apply KeepsR.next

theorem State.invalidResult_keeps {s : State} (h : Keeps s₀ s) (d : List Byte) : Keeps s₀ (State.invalidResult s d) := by
  unfold State.invalidResult
  with_reducible repeat'
    first | assumption | intro _ | apply drawBytes_keeps | apply raise_keeps | apply writeResult_keeps | apply Keeps.ite | split
          | refine Keeps.ofEq (by assumption) ?_ | refine Keeps.ofSome (by assumption) ?_ | dsimp only | apply Keeps.upd

theorem State.invalidDrain_keeps {s : State} (h : Keeps s₀ s) (n : Nat) : Keeps s₀ (State.invalidDrain n s) := by
  induction n generalizing s with
  | zero => exact h
  | succ n ih =>
    unfold State.invalidDrain
    split
    · exact Keeps.ite (ih (State.writeResult_keeps (Keeps.upd h ..) _)) h
    · exact h

theorem State.grDoorbell_keeps {s : State} (h : Keeps s₀ s) : Keeps s₀ (State.grDoorbell s) := by
  unfold State.grDoorbell
  with_reducible repeat'
    first | assumption | intro _ | apply bump_keeps | apply touch_keeps | apply grFollow_keeps | apply invalidResult_keeps
          | apply Keeps.foldl | apply Keeps.foldlP | apply Keeps.ite | split | refine Keeps.ofEq (by assumption) ?_
          | refine Keeps.ofSome (by assumption) ?_ | dsimp only | apply Keeps.upd

theorem execGrinderDoorbell_keeps {s : State} (h : Keeps s₀ s) : KeepsR s₀ (execGrinderDoorbell s) := by
  unfold execGrinderDoorbell
  with_reducible repeat' first | assumption | intro _ | apply grDoorbell_keeps | apply KeepsR.ite | apply KeepsR.next

theorem State.searchTake_keeps {s : State} (h : Keeps s₀ s) (e : Nat) : Keeps s₀ (State.searchTake s e) := by
  unfold State.searchTake
  with_reducible repeat'
    first | assumption | intro _ | apply bump_keeps | apply setGrEngine_keeps | apply grFollow_keeps | apply Keeps.ite | split
          | refine Keeps.ofEq (by assumption) ?_ | refine Keeps.ofSome (by assumption) ?_ | dsimp only | apply Keeps.upd

theorem execSearchTake_keeps {s : State} (h : Keeps s₀ s) (e : Fin 2) : KeepsR s₀ (execSearchTake e s) := by
  unfold execSearchTake
  with_reducible repeat' first | assumption | intro _ | apply searchTake_keeps | apply KeepsR.ite | apply KeepsR.next

theorem execCaptureStart_keeps {s : State} (h : Keeps s₀ s) (e : Fin 2) : KeepsR s₀ (execCaptureStart e s) := by
  unfold execCaptureStart
  extract_lets en
  split
  · exact KeepsR.next h
  · split
    · exact KeepsR.next h
    · rename_i c _
      split
      · exact KeepsR.next h
      · rename_i e'
        have k := State.reachSite_keeps h _ _ e'
        exact KeepsR.ite (KeepsR.next (State.searchFails_keeps k ..)) (KeepsR.next (State.setGrEngine_keeps k ..))

theorem execCaptureEnd_keeps {s : State} (h : Keeps s₀ s) (e : Fin 2) : KeepsR s₀ (execCaptureEnd e s) := by
  unfold execCaptureEnd
  with_reducible repeat'
    first | assumption | intro _ | apply setGrEngine_keeps | apply searchFails_keeps | apply KeepsR.ite | apply KeepsR.next
          | apply Keeps.ite | split | refine Keeps.ofEq (by assumption) ?_ | refine Keeps.ofSome (by assumption) ?_ | dsimp only

theorem execSearchDone_keeps {s : State} (h : Keeps s₀ s) (e : Fin 2) (peak : SearchPeak) : KeepsR s₀ (execSearchDone e peak s) := by
  unfold execSearchDone
  with_reducible repeat'
    first | assumption | refine reach_keeps ?_ _ | intro _ | apply setGrEngine_keeps | apply grFollow_keeps | apply giveResult_keeps
          | apply KeepsR.ite | apply KeepsR.next | apply Keeps.ite | split | refine Keeps.ofEq (by assumption) ?_
          | refine Keeps.ofSome (by assumption) ?_ | dsimp only

theorem execResultResume_keeps {s : State} (h : Keeps s₀ s) (e : Fin 2) : KeepsR s₀ (execResultResume e s) := by
  unfold execResultResume
  with_reducible repeat'
    first | assumption | intro _ | apply setGrEngine_keeps | apply grFollow_keeps | apply writeResult_keeps | apply invalidDrain_keeps
          | apply KeepsR.ite | apply KeepsR.next | apply Keeps.ite | split | refine Keeps.ofEq (by assumption) ?_
          | refine Keeps.ofSome (by assumption) ?_ | dsimp only

/-! ### Seq -/

theorem State.seqInsn_keeps {s : State} (h : Keeps s₀ s) (q : Fin 8) (rs : List Reg) (i : Instr) (f : State → State) (hf : ∀ x0, Keeps s₀ x0 → Keeps s₀ (f x0)) :
    Keeps s₀ (State.seqInsn s q rs i f) := by
  unfold State.seqInsn
  with_reducible repeat' first | assumption | intro _ | apply engFault_keeps | apply hf | apply Keeps.ite

theorem State.seqDone_keeps {s : State} (h : Keeps s₀ s) (q : Fin 8) (d : Reg) (v : Word32) : Keeps s₀ (State.seqDone s q d v) := by
  unfold State.seqDone
  with_reducible repeat' first | assumption | intro _ | apply setSeq_keeps | apply adv_keeps | apply unblock_keeps

theorem State.waited_keeps {s : State} (h : Keeps s₀ s) (q : Fin 8) : Keeps s₀ (State.waited s q) := by
  unfold State.waited
  with_reducible repeat' first | assumption | intro _ | apply setSeq_keeps

theorem execArm_keeps {s : State} (h : Keeps s₀ s) (e : Engine) (d a b : Reg) : KeepsR s₀ (execArm e d a b s) := by
  unfold execArm
  with_reducible repeat'
    first | assumption | intro _ | apply setSeq_keeps | apply engFault_keeps | apply onSeq_keeps | apply seqInsn_keeps
          | apply seqDone_keeps | apply KeepsR.ite | apply KeepsR.next | apply Keeps.ite

theorem execDisarm_keeps {s : State} (h : Keeps s₀ s) (e : Engine) (d a : Reg) : KeepsR s₀ (execDisarm e d a s) := by
  unfold execDisarm
  with_reducible repeat'
    first | assumption | intro _ | apply setSeq_keeps | apply onSeq_keeps | apply seqInsn_keeps | apply seqDone_keeps | apply KeepsR.ite
          | apply KeepsR.next | apply Keeps.ite | split | refine Keeps.ofEq (by assumption) ?_ | refine Keeps.ofSome (by assumption) ?_
          | dsimp only

theorem execWaitt_keeps {s : State} (h : Keeps s₀ s) (e : Engine) (a : Reg) : KeepsR s₀ (execWaitt e a s) := by
  unfold execWaitt
  with_reducible repeat'
    first | assumption | intro _ | apply adv_keeps | apply block_keeps | apply unblock_keeps | apply onSeq_keeps | apply seqInsn_keeps
          | apply waited_keeps | apply KeepsR.ite | apply KeepsR.next | apply Keeps.ite

theorem execWaite_keeps {s : State} (h : Keeps s₀ s) (e : Engine) (d a b : Reg) : KeepsR s₀ (execWaite e d a b s) := by
  unfold execWaite
  with_reducible repeat'
    first | assumption | intro _ | apply setSeq_keeps | apply block_keeps | apply onSeq_keeps | apply seqInsn_keeps | apply seqDone_keeps
          | apply waited_keeps | apply Keeps.foldl | apply Keeps.foldlP | apply KeepsR.ite | apply KeepsR.next | apply Keeps.ite

theorem execQseqRunaway_keeps {s : State} (h : Keeps s₀ s) (q : Fin 8) : KeepsR s₀ (execQseqRunaway q s) := by
  unfold execQseqRunaway
  with_reducible repeat' first | assumption | intro _ | apply seqHalt_keeps | apply KeepsR.ite | apply KeepsR.next | apply Keeps.ite

theorem State.xfer_keeps {s : State} (h : Keeps s₀ s) (q : Fin 8) (d a b c : Reg) (i : Instr) (get : Bool) :
    Keeps s₀ (State.xfer s q d a b c i get) := by
  unfold State.xfer
  with_reducible repeat'
    first | assumption | intro _ | apply eccRead_keeps | apply setSeq_keeps | apply block_keeps | apply engFault_keeps
          | apply noteEcc_keeps | apply seqInsn_keeps | apply seqDone_keeps | apply Keeps.ite

theorem execXget_keeps {s : State} (h : Keeps s₀ s) (e : Engine) (d a b c : Reg) : KeepsR s₀ (execXget e d a b c s) := by
  unfold execXget
  with_reducible repeat' first | assumption | intro _ | apply onSeq_keeps | apply xfer_keeps | apply KeepsR.ite | apply KeepsR.next

theorem execXput_keeps {s : State} (h : Keeps s₀ s) (e : Engine) (d a b c : Reg) : KeepsR s₀ (execXput e d a b c s) := by
  unfold execXput
  with_reducible repeat' first | assumption | intro _ | apply onSeq_keeps | apply xfer_keeps | apply KeepsR.ite | apply KeepsR.next

theorem execXwait_keeps {s : State} (h : Keeps s₀ s) (e : Engine) (a : Reg) : KeepsR s₀ (execXwait e a s) := by
  unfold execXwait
  with_reducible repeat'
    first | assumption | intro _ | apply adv_keeps | apply block_keeps | apply unblock_keeps | apply onSeq_keeps | apply seqInsn_keeps
          | apply waited_keeps | apply KeepsR.ite | apply KeepsR.next | apply Keeps.ite

theorem execXferComplete_keeps {s : State} (h : Keeps s₀ s) (q : Fin 8) : KeepsR s₀ (execXferComplete q s) := by
  unfold execXferComplete
  with_reducible repeat'
    first | assumption | intro _ | apply store_keeps | apply setSeq_keeps | apply xferDone_keeps | apply KeepsR.ite | apply KeepsR.next
          | apply Keeps.ite | split | refine Keeps.ofEq (by assumption) ?_ | refine Keeps.ofSome (by assumption) ?_ | dsimp only

theorem execAdds_keeps {s : State} (h : Keeps s₀ s) (e : Engine) (d a b : Reg) : KeepsR s₀ (execAdds e d a b s) := by
  unfold execAdds
  with_reducible repeat'
    first | assumption | intro _ | apply onSeq_keeps | apply seqInsn_keeps | apply seqDone_keeps | apply KeepsR.ite | apply KeepsR.next

theorem execSubs_keeps {s : State} (h : Keeps s₀ s) (e : Engine) (d a b : Reg) : KeepsR s₀ (execSubs e d a b s) := by
  unfold execSubs
  with_reducible repeat'
    first | assumption | intro _ | apply onSeq_keeps | apply seqInsn_keeps | apply seqDone_keeps | apply KeepsR.ite | apply KeepsR.next

theorem execShrr_keeps {s : State} (h : Keeps s₀ s) (e : Engine) (d a b : Reg) : KeepsR s₀ (execShrr e d a b s) := by
  unfold execShrr
  with_reducible repeat'
    first | assumption | intro _ | apply onSeq_keeps | apply seqInsn_keeps | apply seqDone_keeps | apply KeepsR.ite | apply KeepsR.next

theorem execMulq_keeps {s : State} (h : Keeps s₀ s) (e : Engine) (d a b c : Reg) : KeepsR s₀ (execMulq e d a b c s) := by
  unfold execMulq
  with_reducible repeat'
    first | assumption | intro _ | apply onSeq_keeps | apply seqInsn_keeps | apply seqDone_keeps | apply KeepsR.ite | apply KeepsR.next

theorem execPhase_keeps {s : State} (h : Keeps s₀ s) (e : Engine) (d a b : Reg) : KeepsR s₀ (execPhase e d a b s) := by
  unfold execPhase
  with_reducible repeat'
    first | assumption | intro _ | apply onSeq_keeps | apply seqInsn_keeps | apply seqDone_keeps | apply KeepsR.ite | apply KeepsR.next

theorem execMag_keeps {s : State} (h : Keeps s₀ s) (e : Engine) (d a b : Reg) : KeepsR s₀ (execMag e d a b s) := by
  unfold execMag
  with_reducible repeat'
    first | assumption | intro _ | apply onSeq_keeps | apply seqInsn_keeps | apply seqDone_keeps | apply KeepsR.ite | apply KeepsR.next

/-! ### Correl -/

theorem State.setTrack_keeps {s : State} (h : Keeps s₀ s) (a k : Nat) (x : TrackChan) : Keeps s₀ (State.setTrack s a k x) := by
  unfold State.setTrack
  with_reducible repeat'
    first | assumption | intro _ | apply Keeps.ite | split | refine Keeps.ofEq (by assumption) ?_ | refine Keeps.ofSome (by assumption) ?_
          | dsimp only | apply Keeps.upd

theorem State.followLanes_keeps {s : State} (h : Keeps s₀ s) (a : Nat) : Keeps s₀ (State.followLanes s a) := by
  unfold State.followLanes
  with_reducible repeat'
    first | assumption | intro _ | apply set_keeps | apply Keeps.ite | split | refine Keeps.ofEq (by assumption) ?_
          | refine Keeps.ofSome (by assumption) ?_ | dsimp only | apply Keeps.upd

theorem State.setChan_keeps {s : State} (h : Keeps s₀ s) (a k : Nat) (c : Channel) : Keeps s₀ (State.setChan s a k c) := by
  unfold State.setChan
  with_reducible repeat'
    first | assumption | intro _ | apply followLanes_keeps | apply Keeps.ite | split | refine Keeps.ofEq (by assumption) ?_
          | refine Keeps.ofSome (by assumption) ?_ | dsimp only | apply Keeps.upd

theorem State.chcfg_keeps {s : State} (h : Keeps s₀ s) (a k w : Nat) : Keeps s₀ (State.chcfg s a k w).2 := by
  unfold State.chcfg
  with_reducible repeat' first | assumption | intro _ | apply setChan_keeps | apply Keeps.ite | apply Keeps.iteP

theorem execChcfg_keeps {s : State} (h : Keeps s₀ s) (e : Engine) (d a b : Reg) : KeepsR s₀ (execChcfg e d a b s) := by
  unfold execChcfg
  with_reducible repeat'
    first | assumption | intro _ | apply engFault_keeps | apply onSeq_keeps | apply seqInsn_keeps | apply seqDone_keeps
          | apply chcfg_keeps | apply KeepsR.ite | apply KeepsR.next | apply Keeps.ite

theorem execNcow_keeps {s : State} (h : Keeps s₀ s) (e : Engine) (a b c : Reg) : KeepsR s₀ (execNcow e a b c s) := by
  unfold execNcow
  with_reducible repeat'
    first | assumption | intro _ | apply adv_keeps | apply engFault_keeps | apply onSeq_keeps | apply seqInsn_keeps | apply setChan_keeps
          | apply KeepsR.ite | apply KeepsR.next | apply Keeps.ite

theorem State.deliverDump_keeps {s : State} (h : Keeps s₀ s) (a k flags : Nat) (taps : List Word32) :
    Keeps s₀ (State.deliverDump s a k flags taps).2 := by
  unfold State.deliverDump
  with_reducible repeat'
    first | assumption | intro _ | apply raise_keeps | apply setSeq_keeps | apply setChan_keeps | apply Keeps.ite | apply Keeps.iteP

theorem execDump_keeps {s : State} (h : Keeps s₀ s) (e : Engine) (d a : Reg) : KeepsR s₀ (execDump e d a s) := by
  unfold execDump
  with_reducible repeat'
    first | assumption | intro _ | apply setSeq_keeps | apply engFault_keeps | apply onSeq_keeps | apply seqInsn_keeps
          | apply seqDone_keeps | apply KeepsR.ite | apply KeepsR.next | apply Keeps.ite | split

theorem State.quadReady_keeps {s : State} (h : Keeps s₀ s) (a : Nat) : Keeps s₀ (State.quadReady s a) := by
  unfold State.quadReady
  with_reducible repeat'
    first | assumption | intro _ | apply setMask_keeps | apply Keeps.ite | split | refine Keeps.ofEq (by assumption) ?_
          | refine Keeps.ofSome (by assumption) ?_ | dsimp only | apply Keeps.upd

theorem State.correlRun_keeps {s : State} (h : Keeps s₀ s) (a : Nat) : Keeps s₀ (State.correlRun s a) := by
  unfold State.correlRun
  with_reducible repeat'
    first | assumption | intro _ | apply askIsland_keeps | apply quadReady_keeps | apply Keeps.ite | split
          | refine Keeps.ofEq (by assumption) ?_ | refine Keeps.ofSome (by assumption) ?_ | dsimp only | apply Keeps.upd

theorem execCorrelRun_keeps {s : State} (h : Keeps s₀ s) (a : Fin 4) : KeepsR s₀ (execCorrelRun a s) := by
  unfold execCorrelRun
  with_reducible repeat' first | assumption | intro _ | apply correlRun_keeps | apply KeepsR.ite | apply KeepsR.next

theorem State.correlStop_keeps {s : State} (h : Keeps s₀ s) (a : Nat) : Keeps s₀ (State.correlStop s a) := by
  unfold State.correlStop
  with_reducible repeat'
    first | assumption | intro _ | apply set_keeps | apply setMask_keeps | apply Keeps.ite | split | refine Keeps.ofEq (by assumption) ?_
          | refine Keeps.ofSome (by assumption) ?_ | dsimp only | apply Keeps.upd

theorem execCorrelStop_keeps {s : State} (h : Keeps s₀ s) (a : Fin 4) : KeepsR s₀ (execCorrelStop a s) := by
  unfold execCorrelStop
  with_reducible repeat' first | assumption | intro _ | apply correlStop_keeps | apply KeepsR.ite | apply KeepsR.next

theorem State.calStart_keeps {s : State} (h : Keeps s₀ s) (a : Nat) : Keeps s₀ (State.calStart s a) := by
  unfold State.calStart
  with_reducible repeat'
    first | assumption | intro _ | apply Keeps.ite | split | refine Keeps.ofEq (by assumption) ?_ | refine Keeps.ofSome (by assumption) ?_
          | dsimp only | apply Keeps.upd

theorem execCalPassStart_keeps {s : State} (h : Keeps s₀ s) (a : Fin 4) : KeepsR s₀ (execCalPassStart a s) := by
  unfold execCalPassStart
  extract_lets due
  split
  · rename_i e; exact KeepsR.next (State.calStart_keeps (State.reach_keeps h _ _ e) ..)
  · exact KeepsR.next h

theorem State.calNow_keeps {s : State} (h : Keeps s₀ s) : Keeps s₀ (State.calNow s) := by
  unfold State.calNow
  with_reducible repeat' first | assumption | intro _ | apply calStart_keeps | apply Keeps.foldl

theorem execCalnow_keeps {s : State} (h : Keeps s₀ s) : KeepsR s₀ (execCalnow s) := by
  unfold execCalnow
  with_reducible repeat' first | assumption | intro _ | apply calNow_keeps | apply KeepsR.ite | apply KeepsR.next

theorem execCalPassDone_keeps {s : State} (h : Keeps s₀ s) (a : Fin 4) (d0 : BitVec 16) (d1 : BitVec 16) (spread : BitVec 8) :
    KeepsR s₀ (execCalPassDone a d0 d1 spread s) := by
  unfold execCalPassDone
  with_reducible repeat'
    first | assumption | intro _ | apply set_keeps | apply KeepsR.ite | apply KeepsR.next | apply Keeps.ite | split
          | refine Keeps.ofEq (by assumption) ?_ | refine Keeps.ofSome (by assumption) ?_ | dsimp only | apply Keeps.upd

theorem execCalPassDiscard_keeps {s : State} (h : Keeps s₀ s) (a : Fin 4) : KeepsR s₀ (execCalPassDiscard a s) := by
  unfold execCalPassDiscard
  with_reducible repeat'
    first | assumption | intro _ | apply KeepsR.ite | apply KeepsR.next | apply Keeps.ite | split | refine Keeps.ofEq (by assumption) ?_
          | refine Keeps.ofSome (by assumption) ?_ | dsimp only | apply Keeps.upd

theorem execCalStale_keeps {s : State} (h : Keeps s₀ s) (a : Fin 4) : KeepsR s₀ (execCalStale a s) := by
  unfold execCalStale
  with_reducible repeat'
    first | assumption | intro _ | apply raise_keeps | apply KeepsR.ite | apply KeepsR.next | apply Keeps.ite | split
          | refine Keeps.ofEq (by assumption) ?_ | refine Keeps.ofSome (by assumption) ?_ | dsimp only | apply Keeps.upd

theorem State.calSecond_keeps {s : State} (h : Keeps s₀ s) : Keeps s₀ (State.calSecond s) := by
  unfold State.calSecond
  with_reducible repeat' first | assumption | intro _ | apply set_keeps | apply Keeps.foldl | apply Keeps.foldlP | apply Keeps.ite

theorem State.latchEntry_keeps {s : State} (h : Keeps s₀ s) (addr : Nat) (c : Channel) (at' : Nat) :
    Keeps s₀ (State.latchEntry s addr c at') := by
  unfold State.latchEntry
  with_reducible repeat' first | assumption | intro _ | apply store_keeps

theorem State.epochLatch_keeps {s : State} (h : Keeps s₀ s) : Keeps s₀ (State.epochLatch s) := by
  unfold State.epochLatch
  with_reducible repeat'
    first | assumption | intro _ | apply latchEntry_keeps | apply Keeps.foldl | apply Keeps.foldlP | apply Keeps.ite | split
          | refine Keeps.ofEq (by assumption) ?_ | refine Keeps.ofSome (by assumption) ?_ | dsimp only | apply Keeps.upd

theorem State.gseqStart_keeps {s : State} (h : Keeps s₀ s) (a : Nat) : Keeps s₀ (State.gseqStart s a) := by
  unfold State.gseqStart
  with_reducible repeat'
    first | assumption | intro _ | apply set_keeps | apply raise_keeps | apply setSeq_keeps | apply Keeps.ite | split
          | refine Keeps.ofEq (by assumption) ?_ | refine Keeps.ofSome (by assumption) ?_ | dsimp only | apply Keeps.upd

theorem execGseqStart_keeps {s : State} (h : Keeps s₀ s) (a : Fin 4) : KeepsR s₀ (execGseqStart a s) := by
  unfold execGseqStart
  with_reducible repeat' first | assumption | intro _ | apply gseqStart_keeps | apply KeepsR.ite | apply KeepsR.next

theorem State.gseqHalt_keeps {s : State} (h : Keeps s₀ s) (a : Nat) : Keeps s₀ (State.gseqHalt s a) := by
  unfold State.gseqHalt
  with_reducible repeat' first | assumption | intro _ | apply seqHalt_keeps | apply Keeps.ite

theorem execGseqHalt_keeps {s : State} (h : Keeps s₀ s) (a : Fin 4) : KeepsR s₀ (execGseqHalt a s) := by
  unfold execGseqHalt
  with_reducible repeat' first | assumption | intro _ | apply gseqHalt_keeps | apply KeepsR.ite | apply KeepsR.next

/-! ### Track -/

theorem State.trackPost_keeps {s : State} (h : Keeps s₀ s) (a q code chan value : Nat) :
    Keeps s₀ (State.trackPost s a q code chan value) := by
  unfold State.trackPost
  with_reducible repeat' first | assumption | intro _ | apply qPush_keeps | apply seqHalt_keeps | apply Keeps.ite

theorem State.trackEvent_keeps {s : State} (h : Keeps s₀ s) (a code chan value : Nat) :
    Keeps s₀ (State.trackEvent s a code chan value) := by
  unfold State.trackEvent
  with_reducible repeat' first | assumption | intro _ | apply trackPost_keeps

theorem State.tcbCheck_keeps {s : State} (h : Keeps s₀ s) (a : Nat) : Keeps s₀ (State.tcbCheck s a) := by
  unfold State.tcbCheck
  with_reducible repeat'
    first | assumption | intro _ | apply draw_keeps | apply touch_keeps | apply setImage_keeps | apply trackPost_keeps
          | apply trackEvent_keeps | apply Keeps.ite

theorem State.trackFree_keeps {s : State} (h : Keeps s₀ s) (a k : Nat) : Keeps s₀ (State.trackFree s a k) := by
  unfold State.trackFree
  with_reducible repeat' first | assumption | intro _ | apply setTrack_keeps | apply setChan_keeps | apply Keeps.ite

theorem State.trackBegin_keeps {s : State} (h : Keeps s₀ s) (a k : Nat) (b : List Byte) : Keeps s₀ (State.trackBegin s a k b) := by
  unfold State.trackBegin
  with_reducible repeat' first | assumption | intro _ | apply setTrack_keeps | apply setChan_keeps | apply chcfg_keeps

theorem State.trackCmd_keeps {s : State} (h : Keeps s₀ s) (a op : Nat) : Keeps s₀ (State.trackCmd s a op) := by
  unfold State.trackCmd
  with_reducible repeat'
    first | assumption | intro _ | apply touch_keeps | apply store_keeps | apply trackEvent_keeps | apply trackFree_keeps
          | apply trackBegin_keeps | apply Keeps.ite | split | refine Keeps.ofEq (by assumption) ?_
          | refine Keeps.ofSome (by assumption) ?_ | dsimp only

theorem execTrackStart_keeps {s : State} (h : Keeps s₀ s) (a : Fin 4) : KeepsR s₀ (execTrackStart a s) := by
  unfold execTrackStart
  with_reducible repeat' first | assumption | intro _ | apply trackCmd_keeps | apply KeepsR.ite | apply KeepsR.next

theorem execTrackAssist_keeps {s : State} (h : Keeps s₀ s) (a : Fin 4) : KeepsR s₀ (execTrackAssist a s) := by
  unfold execTrackAssist
  with_reducible repeat' first | assumption | intro _ | apply trackCmd_keeps | apply KeepsR.ite | apply KeepsR.next

theorem execTrackStop_keeps {s : State} (h : Keeps s₀ s) (a : Fin 4) : KeepsR s₀ (execTrackStop a s) := by
  unfold execTrackStop
  with_reducible repeat' first | assumption | intro _ | apply trackCmd_keeps | apply KeepsR.ite | apply KeepsR.next

theorem State.trackMove_keeps {s : State} (h : Keeps s₀ s) (a k st : Nat) : Keeps s₀ (State.trackMove s a k st) := by
  unfold State.trackMove
  with_reducible repeat' first | assumption | intro _ | apply draw_keeps | apply setTrack_keeps | apply Keeps.ite | split

theorem State.trackLost_keeps {s : State} (h : Keeps s₀ s) (a k : Nat) : Keeps s₀ (State.trackLost s a k) := by
  unfold State.trackLost
  with_reducible repeat' first | assumption | intro _ | apply draw_keeps | apply trackEvent_keeps | apply trackFree_keeps

theorem State.trackFrom_keeps {s : State} (h : Keeps s₀ s) (a k : Nat) (from' : List Nat) (f : State → State) (hf : ∀ x0, Keeps s₀ x0 → Keeps s₀ (f x0)) :
    Keeps s₀ (State.trackFrom s a k from' f) := by
  unfold State.trackFrom
  with_reducible repeat' first | assumption | intro _ | apply hf | apply Keeps.ite

theorem State.trackAfter_keeps {s : State} (h : Keeps s₀ s) (a k st ms : Nat) (f : State → State) (hf : ∀ x0, Keeps s₀ x0 → Keeps s₀ (f x0)) :
    Keeps s₀ (State.trackAfter s a k st ms f) := by
  unfold State.trackAfter
  with_reducible repeat'
    first | assumption | refine reach_keeps ?_ _ | intro _ | apply hf | apply Keeps.ite | split | refine Keeps.ofEq (by assumption) ?_
          | refine Keeps.ofSome (by assumption) ?_

theorem execChannelPllLock_keeps {s : State} (h : Keeps s₀ s) (a : Fin 4) (slot : Fin 384) : KeepsR s₀ (execChannelPllLock a slot s) := by
  unfold execChannelPllLock
  with_reducible repeat' first | assumption | intro _ | apply trackMove_keeps | apply trackFrom_keeps | apply KeepsR.ite | apply KeepsR.next

theorem execPullinExpired_keeps {s : State} (h : Keeps s₀ s) (a : Fin 4) (slot : Fin 384) (strong : Bool) :
    KeepsR s₀ (execPullinExpired a slot strong s) := by
  unfold execPullinExpired
  with_reducible repeat'
    first | assumption | intro _ | apply trackMove_keeps | apply trackLost_keeps | apply trackAfter_keeps | apply KeepsR.ite
          | apply KeepsR.next | apply Keeps.ite

theorem execChannelLoss_keeps {s : State} (h : Keeps s₀ s) (a : Fin 4) (slot : Fin 384) : KeepsR s₀ (execChannelLoss a slot s) := by
  unfold execChannelLoss
  with_reducible repeat' first | assumption | intro _ | apply trackLost_keeps | apply trackFrom_keeps | apply KeepsR.ite | apply KeepsR.next

theorem execPllToCoast_keeps {s : State} (h : Keeps s₀ s) (a : Fin 4) (slot : Fin 384) : KeepsR s₀ (execPllToCoast a slot s) := by
  unfold execPllToCoast
  with_reducible repeat' first | assumption | intro _ | apply trackMove_keeps | apply trackFrom_keeps | apply KeepsR.ite | apply KeepsR.next

theorem execPllToFll_keeps {s : State} (h : Keeps s₀ s) (a : Fin 4) (slot : Fin 384) : KeepsR s₀ (execPllToFll a slot s) := by
  unfold execPllToFll
  with_reducible repeat' first | assumption | intro _ | apply trackMove_keeps | apply trackFrom_keeps | apply KeepsR.ite | apply KeepsR.next

theorem execCoastToPullin_keeps {s : State} (h : Keeps s₀ s) (a : Fin 4) (slot : Fin 384) : KeepsR s₀ (execCoastToPullin a slot s) := by
  unfold execCoastToPullin
  with_reducible repeat' first | assumption | intro _ | apply trackMove_keeps | apply trackFrom_keeps | apply KeepsR.ite | apply KeepsR.next

theorem execCoastExpired_keeps {s : State} (h : Keeps s₀ s) (a : Fin 4) (slot : Fin 384) : KeepsR s₀ (execCoastExpired a slot s) := by
  unfold execCoastExpired
  with_reducible repeat'
    first | assumption | intro _ | apply trackLost_keeps | apply trackAfter_keeps | apply KeepsR.ite | apply KeepsR.next

theorem State.trackDump_keeps {s : State} (h : Keeps s₀ s) (a k live : Nat) (lost rateChange : Bool) (taps : List Word32) (preamble : Option Bool) (sync : SyncFound) :
    Keeps s₀ (State.trackDump s a k live lost rateChange taps preamble sync) := by
  unfold State.trackDump
  with_reducible repeat'
    first | assumption | intro _ | apply setImage_keeps | apply setTrack_keeps | apply setChan_keeps | apply Keeps.ite | split

theorem State.chanDump_keeps {s : State} (h : Keeps s₀ s) (a k : Nat) (preamble : Option Bool) (sync : SyncFound) :
    Keeps s₀ (State.chanDump s a k preamble sync) := by
  unfold State.chanDump
  with_reducible repeat'
    first | assumption | intro _ | apply setChan_keeps | apply deliverDump_keeps | apply trackDump_keeps | apply Keeps.ite

theorem execChannelDump_keeps {s : State} (h : Keeps s₀ s) (a : Fin 4) (slot : Fin 384) (preamble : Option Bool) (sync : SyncFound) :
    KeepsR s₀ (execChannelDump a slot preamble sync s) := by
  unfold execChannelDump
  with_reducible repeat' first | assumption | intro _ | apply chanDump_keeps | apply KeepsR.ite | apply KeepsR.next

theorem State.channelRecord_keeps {s : State} (h : Keeps s₀ s) (a k : Nat) : Keeps s₀ (State.channelRecord s a k).2 := by
  unfold State.channelRecord
  with_reducible repeat' first | assumption | intro _ | apply drawBytes_keeps | apply setTrack_keeps

theorem State.measHeader_keeps {s : State} (h : Keeps s₀ s) (a count : Nat) (late stepped : Bool) :
    Keeps s₀ (State.measHeader s a count late stepped).2 := by
  unfold State.measHeader
  with_reducible repeat' first | assumption | intro _ | apply setImage_keeps

theorem State.measBlock_keeps {s : State} (h : Keeps s₀ s) (a : Nat) (stepped : Bool) : Keeps s₀ (State.measBlock s a stepped) := by
  unfold State.measBlock
  with_reducible repeat'
    first | assumption | intro _ | apply store_keeps | apply channelRecord_keeps | apply measHeader_keeps | apply Keeps.foldl

theorem State.trackBoundary_keeps {s : State} (h : Keeps s₀ s) (late : BitVec 4) (stepped : Bool) :
    Keeps s₀ (State.trackBoundary s late stepped) := by
  unfold State.trackBoundary
  with_reducible repeat'
    first | assumption | intro _ | apply setImage_keeps | apply tcbCheck_keeps | apply measHeader_keeps | apply measBlock_keeps
          | apply Keeps.foldl | apply Keeps.foldlP | apply Keeps.ite

theorem execMeasLate_keeps {s : State} (h : Keeps s₀ s) (a : Fin 4) : KeepsR s₀ (execMeasLate a s) := by
  unfold execMeasLate
  with_reducible repeat'
    first | assumption | intro _ | apply draw_keeps | apply store_keeps | apply moveTo_keeps | apply setImage_keeps
          | apply trackEvent_keeps | apply KeepsR.ite | apply KeepsR.next | apply Keeps.ite | split

/-! ### Time -/

theorem State.servoFollow_keeps {s : State} (h : Keeps s₀ s) (p : Int) : Keeps s₀ (State.servoFollow s p) := by
  unfold State.servoFollow
  with_reducible repeat'
    first | assumption | intro _ | apply set_keeps | apply setB_keeps | apply raise_keeps | apply Keeps.ite | split
          | refine Keeps.ofEq (by assumption) ?_ | refine Keeps.ofSome (by assumption) ?_ | dsimp only | apply Keeps.upd

theorem State.feedTaken_keeps {s : State} (h : Keeps s₀ s) : Keeps s₀ (State.feedTaken s) := by
  unfold State.feedTaken
  with_reducible repeat' first | assumption | intro _ | apply bump_keeps

theorem State.feedSkipped_keeps {s : State} (h : Keeps s₀ s) : Keeps s₀ (State.feedSkipped s) := by
  unfold State.feedSkipped
  with_reducible repeat' first | assumption | intro _ | apply bump_keeps

theorem State.servoMeas_keeps {s : State} (h : Keeps s₀ s) (e : FeedEntry) : Keeps s₀ (State.servoMeas s e) := by
  unfold State.servoMeas
  with_reducible repeat'
    first | assumption | intro _ | apply set_keeps | apply setB_keeps | apply raise_keeps | apply servoFollow_keeps
          | apply feedTaken_keeps | apply feedSkipped_keeps | apply Keeps.ite | split | refine Keeps.ofEq (by assumption) ?_
          | refine Keeps.ofSome (by assumption) ?_ | dsimp only | apply Keeps.upd

theorem State.servoSlew_keeps {s : State} (h : Keeps s₀ s) (e : FeedEntry) : Keeps s₀ (State.servoSlew s e) := by
  unfold State.servoSlew
  with_reducible repeat'
    first | assumption | intro _ | apply servoFollow_keeps | apply feedTaken_keeps | apply Keeps.ite | split
          | refine Keeps.ofEq (by assumption) ?_ | refine Keeps.ofSome (by assumption) ?_ | dsimp only | apply Keeps.upd

theorem State.servoStep_keeps {s : State} (h : Keeps s₀ s) (e : FeedEntry) : Keeps s₀ (State.servoStep s e) := by
  unfold State.servoStep
  with_reducible repeat'
    first | assumption | intro _ | apply servoFollow_keeps | apply feedTaken_keeps | apply Keeps.ite | split
          | refine Keeps.ofEq (by assumption) ?_ | refine Keeps.ofSome (by assumption) ?_ | dsimp only | apply Keeps.upd

theorem State.servoHold_keeps {s : State} (h : Keeps s₀ s) : Keeps s₀ (State.servoHold s) := by
  unfold State.servoHold
  with_reducible repeat' first | assumption | intro _ | apply set_keeps | apply servoFollow_keeps | apply feedTaken_keeps | apply Keeps.ite

theorem State.servoSet_keeps {s : State} (h : Keeps s₀ s) (e : FeedEntry) : Keeps s₀ (State.servoSet s e) := by
  unfold State.servoSet
  with_reducible repeat'
    first | assumption | intro _ | apply raise_keeps | apply feedTaken_keeps | apply Keeps.ite | split
          | refine Keeps.ofEq (by assumption) ?_ | refine Keeps.ofSome (by assumption) ?_ | dsimp only | apply Keeps.upd

theorem State.feedOne_keeps {s : State} (h : Keeps s₀ s) (e : FeedEntry) : Keeps s₀ (State.feedOne s e) := by
  unfold State.feedOne
  with_reducible repeat'
    first | assumption | intro _ | apply raise_keeps | apply feedSkipped_keeps | apply servoMeas_keeps | apply servoSlew_keeps
          | apply servoStep_keeps | apply servoHold_keeps | apply servoSet_keeps | apply Keeps.ite | split

theorem State.feedSkip_keeps {s : State} (h : Keeps s₀ s) (n : Nat) : Keeps s₀ (State.feedSkip n s) := by
  induction n generalizing s with
  | zero => exact h
  | succ n ih =>
    unfold State.feedSkip
    split
    · exact h
    · have k := State.touch_keeps h s.feedAddr 32
      exact Keeps.ite (ih (State.raise_keeps (State.bump_keeps k _ _ _) ..))
        (Keeps.ite (ih (State.feedOne_keeps (State.bump_keeps k _ _ _) _)) k)

theorem State.timeFeed_keeps {s : State} (h : Keeps s₀ s) : Keeps s₀ (State.timeFeed s) := by
  unfold State.timeFeed
  with_reducible repeat'
    first | assumption | intro _ | apply touch_keeps | apply feedSkip_keeps | apply Keeps.ite | split
          | refine Keeps.ofEq (by assumption) ?_ | refine Keeps.ofSome (by assumption) ?_ | dsimp only | apply Keeps.upd

theorem execTimeFeed_keeps {s : State} (h : Keeps s₀ s) : KeepsR s₀ (execTimeFeed s) := by
  unfold execTimeFeed
  with_reducible repeat' first | assumption | intro _ | apply timeFeed_keeps | apply KeepsR.ite | apply KeepsR.next

theorem State.feedKind_keeps {s : State} (h : Keeps s₀ s) (kind : Nat) : Keeps s₀ (State.feedKind s kind) := by
  unfold State.feedKind
  with_reducible repeat'
    first | assumption | intro _ | apply bump_keeps | apply feedOne_keeps | apply feedSkip_keeps | apply Keeps.ite | split

theorem execFeedMeas_keeps {s : State} (h : Keeps s₀ s) : KeepsR s₀ (execFeedMeas s) := by
  unfold execFeedMeas
  with_reducible repeat' first | assumption | intro _ | apply feedKind_keeps | apply KeepsR.ite | apply KeepsR.next

theorem execFeedSlew_keeps {s : State} (h : Keeps s₀ s) : KeepsR s₀ (execFeedSlew s) := by
  unfold execFeedSlew
  with_reducible repeat' first | assumption | intro _ | apply feedKind_keeps | apply KeepsR.ite | apply KeepsR.next

theorem execFeedStep_keeps {s : State} (h : Keeps s₀ s) : KeepsR s₀ (execFeedStep s) := by
  unfold execFeedStep
  with_reducible repeat' first | assumption | intro _ | apply feedKind_keeps | apply KeepsR.ite | apply KeepsR.next

theorem execFeedHold_keeps {s : State} (h : Keeps s₀ s) : KeepsR s₀ (execFeedHold s) := by
  unfold execFeedHold
  with_reducible repeat' first | assumption | intro _ | apply feedKind_keeps | apply KeepsR.ite | apply KeepsR.next

theorem execFeedSet_keeps {s : State} (h : Keeps s₀ s) : KeepsR s₀ (execFeedSet s) := by
  unfold execFeedSet
  with_reducible repeat' first | assumption | intro _ | apply feedKind_keeps | apply KeepsR.ite | apply KeepsR.next

theorem State.pulseKeep_keeps {s : State} (h : Keeps s₀ s) (n gap : Nat) : Keeps s₀ (State.pulseKeep s n gap) := by
  unfold State.pulseKeep
  with_reducible repeat'
    first | assumption | intro _ | apply Keeps.ite | split | refine Keeps.ofEq (by assumption) ?_ | refine Keeps.ofSome (by assumption) ?_
          | dsimp only | apply Keeps.upd

theorem State.pulseJump_keeps {s : State} (h : Keeps s₀ s) : Keeps s₀ (State.pulseJump s) := by
  unfold State.pulseJump
  with_reducible repeat'
    first | assumption | intro _ | apply pulseKeep_keeps | apply Keeps.foldl | apply Keeps.foldlP | apply Keeps.ite | split

theorem State.loadSite_keeps {s : State} (h : Keeps s₀ s) (t : Nat) : Keeps s₀ (State.loadSite s t) := by
  unfold State.loadSite
  with_reducible repeat'
    first | (intro x; refine (fun (hx : Keeps s₀ x) => ?_) ?_; (on_goal 1 => clear_value x); (on_goal 2 => subst x))
          | (intro x; clear_value x) | lift_lets | assumption | intro _ | apply set_keeps | apply bump_keeps | apply servoFollow_keeps
          | apply feedOne_keeps | apply pulseJump_keeps | apply Keeps.ite | split | refine Keeps.ofEq (by assumption) ?_
          | refine Keeps.ofSome (by assumption) ?_ | apply Keeps.upd

theorem State.setLoad_keeps {s : State} (h : Keeps s₀ s) : Keeps s₀ s.setLoad := by
  unfold State.setLoad
  split
  · exact h
  · exact Keeps.elim h (State.reachSite_keeps h _) fun t ht => State.loadSite_keeps ht _

theorem execSetLoad_keeps {s : State} (h : Keeps s₀ s) : KeepsR s₀ (execSetLoad s) := by
  unfold execSetLoad
  with_reducible repeat' first | assumption | intro _ | apply setLoad_keeps | apply KeepsR.ite | apply KeepsR.next

theorem execFeedTimeout_keeps {s : State} (h : Keeps s₀ s) : KeepsR s₀ (execFeedTimeout s) := by
  unfold execFeedTimeout
  with_reducible repeat'
    first | assumption | refine reachUs_keeps ?_ _ | intro _ | apply set_keeps | apply raise_keeps | apply servoFollow_keeps
          | apply KeepsR.ite | apply KeepsR.next | apply Keeps.ite | split | refine Keeps.ofEq (by assumption) ?_
          | refine Keeps.ofSome (by assumption) ?_

theorem execSlewComplete_keeps {s : State} (h : Keeps s₀ s) : KeepsR s₀ (execSlewComplete s) := by
  unfold execSlewComplete
  with_reducible repeat'
    first | assumption | refine reach_keeps ?_ _ | intro _ | apply servoFollow_keeps | apply KeepsR.ite | apply KeepsR.next
          | apply Keeps.ite | split | refine Keeps.ofEq (by assumption) ?_ | refine Keeps.ofSome (by assumption) ?_ | dsimp only
          | apply Keeps.upd

theorem State.timeSnap_keeps {s : State} (h : Keeps s₀ s) : Keeps s₀ (State.timeSnap s) := by
  unfold State.timeSnap
  with_reducible repeat' first | assumption | intro _ | apply set_keeps

theorem execTimeSnap_keeps {s : State} (h : Keeps s₀ s) : KeepsR s₀ (execTimeSnap s) := by
  unfold execTimeSnap
  with_reducible repeat' first | assumption | intro _ | apply timeSnap_keeps | apply KeepsR.ite | apply KeepsR.next

theorem State.takeStep_keeps {s : State} (h : Keeps s₀ s) (x : Int) : Keeps s₀ (State.takeStep s x) := by
  unfold State.takeStep
  with_reducible repeat'
    first | assumption | intro _ | apply bump_keeps | apply raise_keeps | apply servoFollow_keeps | apply pulseJump_keeps
          | apply Keeps.ite | split | refine Keeps.ofEq (by assumption) ?_ | refine Keeps.ofSome (by assumption) ?_ | dsimp only
          | apply Keeps.upd

theorem State.timeApplied_keeps {s : State} (h : Keeps s₀ s) (old : State) : Keeps s₀ (State.timeApplied s old) := by
  unfold State.timeApplied
  with_reducible repeat'
    first | assumption | intro _ | apply set_keeps | apply servoFollow_keeps | apply Keeps.foldl | apply Keeps.foldlP | apply Keeps.ite
          | split | refine Keeps.ofEq (by assumption) ?_ | refine Keeps.ofSome (by assumption) ?_ | dsimp only | apply Keeps.upd

/-! ### Clock -/

theorem State.clockGood_keeps {s : State} (h : Keeps s₀ s) (v : ClockSol) : Keeps s₀ (State.clockGood s v) := by
  unfold State.clockGood
  with_reducible repeat'
    first | (intro x; refine (fun (hx : Keeps s₀ x) => ?_) ?_; (on_goal 1 => clear_value x); (on_goal 2 => subst x))
          | (intro x; clear_value x) | lift_lets | assumption | intro _ | apply draw_keeps | apply feedOne_keeps | apply Keeps.ite | split
          | refine Keeps.ofEq (by assumption) ?_ | refine Keeps.ofSome (by assumption) ?_ | apply Keeps.upd

theorem State.clockBad_keeps {s : State} (h : Keeps s₀ s) : Keeps s₀ (State.clockBad s) := by
  unfold State.clockBad
  with_reducible repeat'
    first | assumption | intro _ | apply draw_keeps | apply Keeps.ite | split | refine Keeps.ofEq (by assumption) ?_
          | refine Keeps.ofSome (by assumption) ?_ | dsimp only | apply Keeps.upd

theorem execClockSolution_keeps {s : State} (h : Keeps s₀ s) (tsb : List Byte) (sol : ClockSol) :
    KeepsR s₀ (execClockSolution tsb sol s) := by
  unfold execClockSolution
  with_reducible repeat'
    first | (intro x; refine (fun (hx : Keeps s₀ x) => ?_) ?_; (on_goal 1 => clear_value x); (on_goal 2 => subst x))
          | (intro x; clear_value x) | lift_lets | assumption | intro _ | apply clockGood_keeps | apply clockBad_keeps | apply KeepsR.ite
          | apply KeepsR.next | apply Keeps.ite | split | refine Keeps.ofEq (by assumption) ?_ | refine Keeps.ofSome (by assumption) ?_
          | apply Keeps.upd

theorem execHoldoverEnter_keeps {s : State} (h : Keeps s₀ s) : KeepsR s₀ (execHoldoverEnter s) := by
  unfold execHoldoverEnter
  with_reducible repeat'
    first | assumption | intro _ | apply feedOne_keeps | apply KeepsR.ite | apply KeepsR.next | apply Keeps.ite | split
          | refine Keeps.ofEq (by assumption) ?_ | refine Keeps.ofSome (by assumption) ?_ | dsimp only | apply Keeps.upd

theorem execHoldoverOutOfLimit_keeps {s : State} (h : Keeps s₀ s) : KeepsR s₀ (execHoldoverOutOfLimit s) := by
  unfold execHoldoverOutOfLimit
  with_reducible repeat'
    first | assumption | intro _ | apply KeepsR.ite | apply KeepsR.next | apply Keeps.ite | split | refine Keeps.ofEq (by assumption) ?_
          | refine Keeps.ofSome (by assumption) ?_ | dsimp only | apply Keeps.upd

theorem execReacquireDecision_keeps {s : State} (h : Keeps s₀ s) : KeepsR s₀ (execReacquireDecision s) := by
  unfold execReacquireDecision
  with_reducible repeat'
    first | assumption | intro _ | apply feedOne_keeps | apply KeepsR.ite | apply KeepsR.next | apply Keeps.ite | split
          | refine Keeps.ofEq (by assumption) ?_ | refine Keeps.ofSome (by assumption) ?_ | dsimp only | apply Keeps.upd

theorem execFirstDecision_keeps {s : State} (h : Keeps s₀ s) : KeepsR s₀ (execFirstDecision s) := by
  unfold execFirstDecision
  with_reducible repeat'
    first | assumption | intro _ | apply feedOne_keeps | apply KeepsR.ite | apply KeepsR.next | apply Keeps.ite | split
          | refine Keeps.ofEq (by assumption) ?_ | refine Keeps.ofSome (by assumption) ?_ | dsimp only | apply Keeps.upd

theorem execTrackingEnter_keeps {s : State} (h : Keeps s₀ s) : KeepsR s₀ (execTrackingEnter s) := by
  unfold execTrackingEnter
  with_reducible repeat'
    first | assumption | intro _ | apply KeepsR.ite | apply KeepsR.next | apply Keeps.ite | split | refine Keeps.ofEq (by assumption) ?_
          | refine Keeps.ofSome (by assumption) ?_ | dsimp only | apply Keeps.upd

theorem execCorrOkSet_keeps {s : State} (h : Keeps s₀ s) : KeepsR s₀ (execCorrOkSet s) := by
  unfold execCorrOkSet
  with_reducible repeat'
    first | assumption | intro _ | apply KeepsR.ite | apply KeepsR.next | apply Keeps.ite | split | refine Keeps.ofEq (by assumption) ?_
          | refine Keeps.ofSome (by assumption) ?_ | dsimp only | apply Keeps.upd

/-! ### CorrCells -/

theorem State.graphPush_keeps {s : State} (h : Keeps s₀ s) (q : Nat) (body : List Byte) : Keeps s₀ (State.graphPush s q body) := by
  unfold State.graphPush
  with_reducible repeat' first | assumption | intro _ | apply qPush_keeps | apply Keeps.ite

theorem State.corrPost_keeps {s : State} (h : Keeps s₀ s) (code value : Nat) : Keeps s₀ (State.corrPost s code value) := by
  unfold State.corrPost
  with_reducible repeat' first | assumption | intro _ | apply graphPush_keeps

theorem State.corrEvent_keeps {s : State} (h : Keeps s₀ s) (code : Nat) : Keeps s₀ (State.corrEvent s code) := by
  unfold State.corrEvent
  with_reducible repeat' first | assumption | intro _ | apply draw_keeps | apply corrPost_keeps

theorem State.recordsTouch_keeps {s : State} (h : Keeps s₀ s) : Keeps s₀ (State.recordsTouch s) := by
  unfold State.recordsTouch
  with_reducible repeat' first | assumption | intro _ | apply touch_keeps | apply Keeps.foldl | apply Keeps.foldlP | apply Keeps.ite

theorem State.corrSlips_keeps {s : State} (h : Keeps s₀ s) : Keeps s₀ (State.corrSlips s) := by
  unfold State.corrSlips
  with_reducible repeat'
    first | assumption | intro _ | apply Keeps.ite | split | refine Keeps.ofEq (by assumption) ?_ | refine Keeps.ofSome (by assumption) ?_
          | dsimp only | apply Keeps.upd

theorem State.circMedian_keeps {s : State} (h : Keeps s₀ s) (l : List Int) : Keeps s₀ (State.circMedian s l).2 := by
  unfold State.circMedian
  with_reducible repeat' first | assumption | intro _ | apply draw_keeps

theorem State.alignGroup_keeps {s : State} (h : Keeps s₀ s) (g : Nat) (dt : Int) (old : List CorrCell) (l : List CellNow) :
    Keeps s₀ (State.alignGroup s g dt old l).2 := by
  unfold State.alignGroup
  with_reducible repeat' first | assumption | intro _ | apply bump_keeps | apply circMedian_keeps

/-! ### Corr -/

theorem State.setCell_keeps {s : State} (h : Keeps s₀ s) (c : Nat) (x : MapCell) : Keeps s₀ (State.setCell s c x) := by
  unfold State.setCell
  with_reducible repeat'
    first | assumption | intro _ | apply store_keeps | apply Keeps.ite | split | refine Keeps.ofEq (by assumption) ?_
          | refine Keeps.ofSome (by assumption) ?_ | dsimp only | apply Keeps.upd

theorem State.corrSave_keeps {s : State} (h : Keeps s₀ s) : Keeps s₀ (State.corrSave s) := by
  unfold State.corrSave
  with_reducible repeat' first | assumption | intro _ | apply store_keeps

theorem State.corrRestore_keeps {s : State} (h : Keeps s₀ s) : Keeps s₀ (State.corrRestore s) := by
  unfold State.corrRestore
  with_reducible repeat'
    first | assumption | intro _ | apply Keeps.ite | split | refine Keeps.ofEq (by assumption) ?_ | refine Keeps.ofSome (by assumption) ?_
          | dsimp only | apply Keeps.upd

theorem State.clearZone_keeps {s : State} (h : Keeps s₀ s) (z : Nat) : Keeps s₀ (State.clearZone s z) := by
  unfold State.clearZone
  with_reducible repeat'
    first | assumption | intro _ | apply store_keeps | apply Keeps.ite | split | refine Keeps.ofEq (by assumption) ?_
          | refine Keeps.ofSome (by assumption) ?_ | dsimp only | apply Keeps.upd

theorem State.mapClear_keeps {s : State} (h : Keeps s₀ s) (zones : Nat) : Keeps s₀ (State.mapClear s zones) := by
  unfold State.mapClear
  with_reducible repeat' first | assumption | intro _ | apply clearZone_keeps | apply Keeps.foldl | apply Keeps.foldlP | apply Keeps.ite

theorem State.corrStop_keeps {s : State} (h : Keeps s₀ s) : Keeps s₀ (State.corrStop s) := by
  unfold State.corrStop
  with_reducible repeat'
    first | assumption | intro _ | apply corrEvent_keeps | apply Keeps.ite | split | refine Keeps.ofEq (by assumption) ?_
          | refine Keeps.ofSome (by assumption) ?_ | dsimp only | apply Keeps.upd

theorem State.csbCheck_keeps {s : State} (h : Keeps s₀ s) : Keeps s₀ (State.csbCheck s) := by
  unfold State.csbCheck
  with_reducible repeat'
    first | assumption | intro _ | apply draw_keeps | apply touch_keeps | apply graphPush_keeps | apply mapClear_keeps
          | apply corrStop_keeps | apply Keeps.ite | split | refine Keeps.ofEq (by assumption) ?_ | refine Keeps.ofSome (by assumption) ?_
          | dsimp only | apply Keeps.upd

theorem State.fullFrame_keeps {s : State} (h : Keeps s₀ s) (tow : Nat) (cells : List CellNow) :
    Keeps s₀ (State.fullFrame s tow cells).2 := by
  unfold State.fullFrame
  with_reducible repeat'
    first | assumption | intro _ | apply corrEvent_keeps | apply Keeps.foldl | apply Keeps.foldlP | apply Keeps.ite | apply Keeps.iteP
          | split | refine Keeps.ofEq (by assumption) ?_ | refine Keeps.ofSome (by assumption) ?_ | dsimp only | apply Keeps.upd

theorem State.deltaFrame_keeps {s : State} (h : Keeps s₀ s) (tow : Nat) (cells : List CellNow) :
    Keeps s₀ (State.deltaFrame s tow cells).2 := by
  unfold State.deltaFrame
  with_reducible repeat'
    first | assumption | intro _ | apply Keeps.ite | apply Keeps.iteP | split | refine Keeps.ofEq (by assumption) ?_
          | refine Keeps.ofSome (by assumption) ?_ | dsimp only | apply Keeps.upd

theorem State.mapFrame_keeps {s : State} (h : Keeps s₀ s) (tow slots : Nat) : Keeps s₀ (State.mapFrame s tow slots).2 := by
  unfold State.mapFrame
  with_reducible repeat'
    first | assumption | intro _ | apply Keeps.ite | apply Keeps.iteP | split | refine Keeps.ofEq (by assumption) ?_
          | refine Keeps.ofSome (by assumption) ?_ | dsimp only | apply Keeps.upd

theorem State.setPort_keeps {s : State} (h : Keeps s₀ s) (n : Nat) (p : RadioPort) : Keeps s₀ (State.setPort s n p) := by
  unfold State.setPort
  with_reducible repeat'
    first | assumption | intro _ | apply Keeps.ite | split | refine Keeps.ofEq (by assumption) ?_ | refine Keeps.ofSome (by assumption) ?_
          | dsimp only | apply Keeps.upd

theorem State.corrOutput_keeps {s : State} (h : Keeps s₀ s) (tow : Nat) (cells : List CellNow) :
    Keeps s₀ (State.corrOutput s tow cells) := by
  unfold State.corrOutput
  with_reducible repeat'
    first | assumption | intro _ | apply graphPush_keeps | apply fullFrame_keeps | apply deltaFrame_keeps | apply mapFrame_keeps
          | apply Keeps.foldl | apply Keeps.foldlP | apply Keeps.ite | split | refine Keeps.ofEq (by assumption) ?_
          | refine Keeps.ofSome (by assumption) ?_ | dsimp only | apply Keeps.upd

theorem State.surveyEpoch_keeps {s : State} (h : Keeps s₀ s) (sats : List CorrSat) (l : List Rec) (fix : Option Ecef) :
    Keeps s₀ (State.surveyEpoch s sats l fix) := by
  unfold State.surveyEpoch
  with_reducible repeat'
    first | assumption | intro _ | apply Keeps.ite | split | refine Keeps.ofEq (by assumption) ?_ | refine Keeps.ofSome (by assumption) ?_
          | dsimp only | apply Keeps.upd

theorem State.corrAlign_keeps {s : State} (h : Keeps s₀ s) (tow : Nat) (cells : List CellNow) :
    Keeps s₀ (State.corrAlign s tow cells).2 := by
  unfold State.corrAlign
  with_reducible repeat' first | assumption | intro _ | apply alignGroup_keeps | apply Keeps.foldl | apply Keeps.foldlP

theorem State.corrCompute_keeps {s : State} (h : Keeps s₀ s) (sats : List CorrSat) (fix : Option Ecef) :
    Keeps s₀ (State.corrCompute s sats fix) := by
  unfold State.corrCompute
  with_reducible repeat'
    first | assumption | intro _ | apply bump_keeps | apply recordsTouch_keeps | apply corrOutput_keeps | apply surveyEpoch_keeps
          | apply corrAlign_keeps | apply Keeps.ite | split | refine Keeps.ofEq (by assumption) ?_
          | refine Keeps.ofSome (by assumption) ?_ | dsimp only | apply Keeps.upd

theorem State.correctionEpoch_keeps {s : State} (h : Keeps s₀ s) (sats : List CorrSat) (fix : Option Ecef) :
    Keeps s₀ (State.correctionEpoch s sats fix) := by
  unfold State.correctionEpoch
  with_reducible repeat'
    first | assumption | intro _ | apply corrEvent_keeps | apply corrSave_keeps | apply csbCheck_keeps | apply corrCompute_keeps
          | apply Keeps.ite | split | refine Keeps.ofEq (by assumption) ?_ | refine Keeps.ofSome (by assumption) ?_ | dsimp only
          | apply Keeps.upd

theorem execCorrectionEpoch_keeps {s : State} (h : Keeps s₀ s) (sats : List CorrSat) (fix : Option Ecef) :
    KeepsR s₀ (execCorrectionEpoch sats fix s) := by
  unfold execCorrectionEpoch
  with_reducible repeat' first | assumption | intro _ | apply correctionEpoch_keeps | apply KeepsR.ite | apply KeepsR.next

theorem State.corrDiscard_keeps {s : State} (h : Keeps s₀ s) (n : Nat) : Keeps s₀ (State.corrDiscard s n) := by
  unfold State.corrDiscard
  with_reducible repeat' first | assumption | intro _ | apply corrEvent_keeps | apply Keeps.foldl

theorem State.offerFrags_keeps {s : State} (h : Keeps s₀ s) : Keeps s₀ (State.offerFrags s) := by
  unfold State.offerFrags
  with_reducible repeat'
    first | assumption | intro _ | apply corrDiscard_keeps | apply Keeps.foldl | apply Keeps.foldlP | apply Keeps.ite | split
          | refine Keeps.ofEq (by assumption) ?_ | refine Keeps.ofSome (by assumption) ?_ | dsimp only | apply Keeps.upd

theorem State.corrReleased_keeps {s : State} (h : Keeps s₀ s) (opened : Bool) : Keeps s₀ (State.corrReleased s opened) := by
  unfold State.corrReleased
  with_reducible repeat'
    first | assumption | intro _ | apply setCell_keeps | apply corrSave_keeps | apply Keeps.foldl | apply Keeps.foldlP | apply Keeps.ite
          | split | refine Keeps.ofEq (by assumption) ?_ | refine Keeps.ofSome (by assumption) ?_ | dsimp only | apply Keeps.upd

theorem execSurveyDone_keeps {s : State} (h : Keeps s₀ s) (sigma : Nat) : KeepsR s₀ (execSurveyDone sigma s) := by
  unfold execSurveyDone
  with_reducible repeat'
    first | assumption | intro _ | apply corrPost_keeps | apply corrSave_keeps | apply corrStop_keeps | apply KeepsR.ite
          | apply KeepsR.next | apply Keeps.ite | split | refine Keeps.ofEq (by assumption) ?_ | refine Keeps.ofSome (by assumption) ?_
          | dsimp only | apply Keeps.upd

theorem execCorrStale_keeps {s : State} (h : Keeps s₀ s) : KeepsR s₀ (execCorrStale s) := by
  unfold execCorrStale
  with_reducible repeat'
    first | assumption | intro _ | apply corrEvent_keeps | apply corrSave_keeps | apply KeepsR.ite | apply KeepsR.next | apply Keeps.ite
          | split | refine Keeps.ofEq (by assumption) ?_ | refine Keeps.ofSome (by assumption) ?_ | dsimp only | apply Keeps.upd

theorem execCorrStopped_keeps {s : State} (h : Keeps s₀ s) : KeepsR s₀ (execCorrStopped s) := by
  unfold execCorrStopped
  with_reducible repeat'
    first | assumption | intro _ | apply corrSave_keeps | apply corrStop_keeps | apply KeepsR.ite | apply KeepsR.next | apply Keeps.ite

theorem execCorrResumed_keeps {s : State} (h : Keeps s₀ s) : KeepsR s₀ (execCorrResumed s) := by
  unfold execCorrResumed
  with_reducible repeat'
    first | assumption | intro _ | apply corrEvent_keeps | apply corrSave_keeps | apply KeepsR.ite | apply KeepsR.next | apply Keeps.ite
          | split | refine Keeps.ofEq (by assumption) ?_ | refine Keeps.ofSome (by assumption) ?_ | dsimp only | apply Keeps.upd

theorem State.residualReport_keeps {s : State} (h : Keeps s₀ s) (b : List Byte) : Keeps s₀ (State.residualReport s b) := by
  unfold State.residualReport
  with_reducible repeat'
    first | assumption | intro _ | apply corrEvent_keeps | apply corrSave_keeps | apply Keeps.ite | split
          | refine Keeps.ofEq (by assumption) ?_ | refine Keeps.ofSome (by assumption) ?_ | dsimp only | apply Keeps.upd

theorem execResidualReport_keeps {s : State} (h : Keeps s₀ s) (payload : List Byte) : KeepsR s₀ (execResidualReport payload s) := by
  unfold execResidualReport
  with_reducible repeat' first | assumption | intro _ | apply residualReport_keeps | apply KeepsR.ite | apply KeepsR.next

theorem State.corrSecond_keeps {s : State} (h : Keeps s₀ s) : Keeps s₀ (State.corrSecond s) := by
  unfold State.corrSecond
  with_reducible repeat'
    first | assumption | intro _ | apply Keeps.ite | split | refine Keeps.ofEq (by assumption) ?_ | refine Keeps.ofSome (by assumption) ?_
          | dsimp only | apply Keeps.upd

theorem State.mapBatch_keeps {s : State} (h : Keeps s₀ s) (l : List Residual) : Keeps s₀ (s.mapBatch l).1 := by
  unfold State.mapBatch
  generalize residCells l = cs
  suffices H : ∀ a : State × Bool, Keeps s₀ a.1 → Keeps s₀ (cs.foldl (fun (a : State × Bool) c =>
      let x := Map.getD a.1.corr.map c {}
      let y := s.mapUpdate x (l.filter fun r => r.cell = c)
      if x = y then a else (a.1.setCell c y, a.2 || (y.dirty && !x.dirty))) a).1 from H (s, false) h
  induction cs with
  | nil => exact fun _ ha => ha
  | cons c cs ih =>
    intro a ha
    refine ih _ ?_
    dsimp only
    split
    · exact ha
    · dsimp only; exact State.setCell_keeps ha ..

theorem execMapBatch_keeps {s : State} (h : Keeps s₀ s) : KeepsR s₀ (execMapBatch s) := by
  unfold execMapBatch
  split
  · exact KeepsR.next h
  · rename_i l rest _
    refine KeepsR.ite (KeepsR.next h) ?_
    extract_lets r t
    have ht : Keeps s₀ t := State.mapBatch_keeps h l
    clear_value t
    exact KeepsR.next (State.corrSave_keeps (Keeps.upd ht ..))

end Sys2Proof.Machine
end

