-- ==== Sys2Proof/Laws/KeepsRadio.lean ====
section
/-! SUPPORT. That the radio ports and the Bell on the air keep the invariant and the queue (`Keeps`), one lemma per function. -/

namespace Sys2Proof.Machine

open State

variable {s₀ : State}

/-! ### Radio -/

theorem State.radioApplied_keeps {s : State} (h : Keeps s₀ s) (old : State) : Keeps s₀ (State.radioApplied s old) := by
  unfold State.radioApplied
  with_reducible repeat' first | assumption | intro _ | apply setPort_keeps | apply Keeps.foldl | apply Keeps.foldlP | apply Keeps.ite

theorem execPortSetch_keeps {s : State} (h : Keeps s₀ s) (n : Fin 4) (dest : Option (Fin 1024)) (next : Bool) :
    KeepsR s₀ (execPortSetch n dest next s) := by
  unfold execPortSetch
  with_reducible repeat' first | assumption | intro _ | apply setPort_keeps | apply KeepsR.ite | apply KeepsR.next

theorem State.portEvent_keeps {s : State} (h : Keeps s₀ s) (n bit : Nat) : Keeps s₀ (State.portEvent s n bit) := by
  unfold State.portEvent
  with_reducible repeat' first | assumption | intro _ | apply setSeq_keeps

theorem State.radioRun_keeps {s : State} (h : Keeps s₀ s) (n discards : Nat) : Keeps s₀ (State.radioRun s n discards) := by
  unfold State.radioRun
  with_reducible repeat'
    first | assumption | intro _ | apply set_keeps | apply raise_keeps | apply unitStart_keeps | apply setPort_keeps | apply Keeps.ite

theorem execRadioRun_keeps {s : State} (h : Keeps s₀ s) (n : Fin 4) (discards : BitVec 8) : KeepsR s₀ (execRadioRun n discards s) := by
  unfold execRadioRun
  with_reducible repeat' first | assumption | intro _ | apply radioRun_keeps | apply KeepsR.ite | apply KeepsR.next

theorem execXcvrNoResponse_keeps {s : State} (h : Keeps s₀ s) (n : Fin 4) : KeepsR s₀ (execXcvrNoResponse n s) := by
  unfold execXcvrNoResponse
  with_reducible repeat'
    first | assumption | intro _ | apply set_keeps | apply raise_keeps | apply KeepsR.ite | apply KeepsR.next | apply Keeps.ite

theorem State.radioStop_keeps {s : State} (h : Keeps s₀ s) (n : Nat) : Keeps s₀ (State.radioStop s n) := by
  unfold State.radioStop
  with_reducible repeat' first | assumption | intro _ | apply setPort_keeps | apply Keeps.ite

theorem execRadioStop_keeps {s : State} (h : Keeps s₀ s) (n : Fin 4) : KeepsR s₀ (execRadioStop n s) := by
  unfold execRadioStop
  with_reducible repeat' first | assumption | intro _ | apply radioStop_keeps | apply KeepsR.ite | apply KeepsR.next

theorem State.portStops_keeps {s : State} (h : Keeps s₀ s) (n : Nat) : Keeps s₀ (State.portStops s n) := by
  unfold State.portStops
  with_reducible repeat' first | assumption | intro _ | apply set_keeps | apply setSeq_keeps | apply unitStop_keeps | apply setPort_keeps

theorem State.txCross_keeps {s : State} (h : Keeps s₀ s) (n : Nat) (f : List Byte) : Keeps s₀ (State.txCross s n f).2 := by
  unfold State.txCross
  with_reducible repeat'
    first | assumption | intro _ | apply qCross_keeps | apply setPort_keeps | apply Keeps.ite | apply Keeps.iteP | split
          | refine Keeps.ofEq (by assumption) ?_

theorem execPortTxload_keeps {s : State} (h : Keeps s₀ s) (n : Fin 4) (buf : Fin 4) : KeepsR s₀ (execPortTxload n buf s) := by
  unfold execPortTxload
  with_reducible repeat' first | assumption | intro _ | apply txCross_keeps | apply KeepsR.ite | apply KeepsR.next

theorem State.useAir_keeps {s : State} (h : Keeps s₀ s) (n len : Nat) : Keeps s₀ (State.useAir s n len) := by
  unfold State.useAir
  with_reducible repeat' first | assumption | intro _ | apply set_keeps | apply setPort_keeps

theorem State.txOutcome_keeps {s : State} (h : Keeps s₀ s) (n : Nat) (w : TxWait) (flags : Nat) :
    Keeps s₀ (State.txOutcome s n w flags) := by
  unfold State.txOutcome
  with_reducible repeat' first | assumption | intro _ | apply setPort_keeps

theorem State.txStart_keeps {s : State} (h : Keeps s₀ s) (n : Nat) (w : TxWait) : Keeps s₀ (State.txStart s n w) := by
  unfold State.txStart
  with_reducible repeat'
    first | assumption | intro _ | apply set_keeps | apply setSeq_keeps | apply setPort_keeps | apply txCross_keeps | apply useAir_keeps
          | apply txOutcome_keeps | apply Keeps.ite | split | refine Keeps.ofEq (by assumption) ?_
          | refine Keeps.ofSome (by assumption) ?_ | dsimp only

theorem State.txAttempt_keeps {s : State} (h : Keeps s₀ s) (n : Nat) (w : TxWait) (rssi : Int) : Keeps s₀ (State.txAttempt s n w rssi) := by
  unfold State.txAttempt
  with_reducible repeat'
    first | assumption | intro _ | apply draw_keeps | apply bump_keeps | apply warnOnce_keeps | apply setPort_keeps
          | apply portEvent_keeps | apply txOutcome_keeps | apply txStart_keeps | apply Keeps.ite

theorem execLbtRetry_keeps {s : State} (h : Keeps s₀ s) (n : Fin 4) (rssi : Int) : KeepsR s₀ (execLbtRetry n rssi s) := by
  unfold execLbtRetry
  with_reducible repeat'
    first | assumption | intro _ | apply txAttempt_keeps | apply KeepsR.ite | apply KeepsR.next | apply Keeps.ite | split

theorem State.withheldAction_keeps {s : State} (h : Keeps s₀ s) (n : Nat) (a : Action) (rssi : Int) :
    Keeps s₀ (State.withheldAction s n a rssi) := by
  unfold State.withheldAction
  with_reducible repeat'
    first | assumption | intro _ | apply portEvent_keeps | apply txOutcome_keeps | apply txAttempt_keeps | apply Keeps.ite

theorem State.txFire_keeps {s : State} (h : Keeps s₀ s) (n : Nat) (a : Action) (rssi : Int) : Keeps s₀ (State.txFire s n a rssi) := by
  unfold State.txFire
  with_reducible repeat' first | assumption | intro _ | apply txAttempt_keeps

theorem State.actionEffect_keeps {s : State} (h : Keeps s₀ s) (q : Nat) (a : Action) : Keeps s₀ (State.actionEffect s q a) := by
  unfold State.actionEffect
  with_reducible repeat'
    first | assumption | intro _ | apply latchEntry_keeps | apply chanDump_keeps | apply setPort_keeps | apply portEvent_keeps
          | apply Keeps.ite

theorem State.fireAction_keeps {s : State} (h : Keeps s₀ s) (q slot : Nat) (a : Action) (rssi : Int) :
    Keeps s₀ (State.fireAction s q slot a rssi) := by
  unfold State.fireAction
  with_reducible repeat'
    first | assumption | intro _ | apply setSeq_keeps | apply passInCycle_keeps | apply withheldAction_keeps | apply txFire_keeps
          | apply actionEffect_keeps | apply Keeps.ite

theorem execActionFire_keeps {s : State} (h : Keeps s₀ s) (q : Fin 8) (slot : Fin 8) (rssi : Int) :
    KeepsR s₀ (execActionFire q slot rssi s) := by
  unfold execActionFire
  with_reducible repeat'
    first | assumption | intro _ | apply fireAction_keeps | apply KeepsR.ite | apply KeepsR.next | apply Keeps.ite | split

theorem execTxload_keeps {s : State} (h : Keeps s₀ s) (e : Engine) (d a b c : Reg) : KeepsR s₀ (execTxload e d a b c s) := by
  unfold execTxload
  with_reducible repeat'
    first | assumption | intro _ | apply setSeq_keeps | apply engFault_keeps | apply onSeq_keeps | apply seqInsn_keeps
          | apply seqDone_keeps | apply KeepsR.ite | apply KeepsR.next | apply Keeps.ite

theorem execRxget_keeps {s : State} (h : Keeps s₀ s) (e : Engine) (d a : Reg) : KeepsR s₀ (execRxget e d a s) := by
  unfold execRxget
  with_reducible repeat'
    first | assumption | intro _ | apply setSeq_keeps | apply engFault_keeps | apply onSeq_keeps | apply seqInsn_keeps
          | apply seqDone_keeps | apply KeepsR.ite | apply KeepsR.next | apply Keeps.ite | split

/-! ### RadioImage -/

theorem State.nbrPut_keeps {s : State} (h : Keeps s₀ s) (i o : Nat) (bs : List Byte) : Keeps s₀ (State.nbrPut s i o bs) := by
  unfold State.nbrPut
  with_reducible repeat' first | assumption | intro _ | apply store_keeps

theorem State.nbrSetState_keeps {s : State} (h : Keeps s₀ s) (i st : Nat) : Keeps s₀ (State.nbrSetState s i st) := by
  unfold State.nbrSetState
  with_reducible repeat' first | assumption | intro _ | apply nbrPut_keeps

theorem State.occSet_keeps {s : State} (h : Keeps s₀ s) (v : Bool) (b : Nat) : Keeps s₀ (State.occSet s v b) := by
  unfold State.occSet
  with_reducible repeat' first | assumption | intro _ | apply store_keeps

theorem State.nbrGo_keeps {s : State} (h : Keeps s₀ s) (index line : Nat) : Keeps s₀ (State.nbrGo s index line) := by
  unfold State.nbrGo
  with_reducible repeat'
    first | assumption | intro _ | apply set_keeps | apply Keeps.ite | split | refine Keeps.ofEq (by assumption) ?_
          | refine Keeps.ofSome (by assumption) ?_ | dsimp only | apply Keeps.upd

theorem State.countNbrs_keeps {s : State} (h : Keeps s₀ s) : Keeps s₀ (State.countNbrs s) := by
  unfold State.countNbrs
  with_reducible repeat' first | assumption | intro _ | apply set_keeps

theorem State.nbrApply_keeps {s : State} (h : Keeps s₀ s) : Keeps s₀ (State.nbrApply s) := by
  unfold State.nbrApply
  with_reducible repeat'
    first | assumption | intro _ | apply set_keeps | apply touch_keeps | apply setOwed_keeps | apply countAcks_keeps | apply nbrPut_keeps
          | apply occSet_keeps | apply countNbrs_keeps | apply Keeps.foldl | apply Keeps.foldlP | apply Keeps.ite | split
          | refine Keeps.ofEq (by assumption) ?_ | refine Keeps.ofSome (by assumption) ?_ | dsimp only | apply Keeps.upd

theorem State.nbrSet_keeps {s : State} (h : Keeps s₀ s) (index line : Nat) : Keeps s₀ (State.nbrSet s index line) := by
  unfold State.nbrSet
  with_reducible repeat' first | assumption | intro _ | apply nbrGo_keeps | apply nbrApply_keeps | apply Keeps.ite

theorem execNbrset_keeps {s : State} (h : Keeps s₀ s) (index : Fin 1024) (line : Fin 8) : KeepsR s₀ (execNbrset index line s) := by
  unfold execNbrset
  with_reducible repeat' first | assumption | intro _ | apply nbrSet_keeps | apply KeepsR.ite | apply KeepsR.next

theorem execNbrsetApply_keeps {s : State} (h : Keeps s₀ s) : KeepsR s₀ (execNbrsetApply s) := by
  unfold execNbrsetApply
  with_reducible repeat' first | assumption | intro _ | apply nbrApply_keeps | apply KeepsR.ite | apply KeepsR.next

theorem State.pendInstant_keeps {s : State} (h : Keeps s₀ s) (i : Nat) : Keeps s₀ (State.pendInstant s i) := by
  unfold State.pendInstant
  with_reducible repeat'
    first | assumption | intro _ | apply pend_keeps | apply countAcks_keeps | apply nbrPut_keeps | apply nbrSetState_keeps
          | apply occSet_keeps | apply Keeps.foldl | apply Keeps.foldlP | apply Keeps.ite

theorem execSupervisionLost_keeps {s : State} (h : Keeps s₀ s) (i : Fin 1024) : KeepsR s₀ (execSupervisionLost i s) := by
  unfold execSupervisionLost
  with_reducible repeat'
    first | assumption | intro _ | apply warnOnce_keeps | apply countAcks_keeps | apply nbrSetState_keeps | apply KeepsR.ite
          | apply KeepsR.next | apply Keeps.ite

theorem State.setRimg_keeps {s : State} (h : Keeps s₀ s) (n : Nat) (x : RadioImage) : Keeps s₀ (State.setRimg s n x) := by
  unfold State.setRimg
  with_reducible repeat'
    first | assumption | intro _ | apply Keeps.ite | split | refine Keeps.ofEq (by assumption) ?_ | refine Keeps.ofSome (by assumption) ?_
          | dsimp only | apply Keeps.upd

theorem State.imgPush_keeps {s : State} (h : Keeps s₀ s) (n q : Nat) (body : List Byte) : Keeps s₀ (State.imgPush s n q body) := by
  unfold State.imgPush
  with_reducible repeat' first | assumption | intro _ | apply qPush_keeps | apply seqHalt_keeps | apply Keeps.ite

theorem State.imgEvent_keeps {s : State} (h : Keeps s₀ s) (n : Nat) : Keeps s₀ (State.imgEvent s n) := by
  unfold State.imgEvent
  with_reducible repeat' first | assumption | intro _ | apply drawBytes_keeps | apply setRimg_keeps | apply imgPush_keeps

theorem State.roleTakeover_keeps {s : State} (h : Keeps s₀ s) (n : Nat) : Keeps s₀ (State.roleTakeover s n) := by
  unfold State.roleTakeover
  with_reducible repeat'
    first | assumption | intro _ | apply nbrPut_keeps | apply setRimg_keeps | apply Keeps.foldl | apply Keeps.foldlP | apply Keeps.ite

theorem State.rcbCheck_keeps {s : State} (h : Keeps s₀ s) (n : Nat) : Keeps s₀ (State.rcbCheck s n) := by
  unfold State.rcbCheck
  with_reducible repeat'
    first | assumption | intro _ | apply drawBytes_keeps | apply touch_keeps | apply setRimg_keeps | apply imgPush_keeps
          | apply imgEvent_keeps | apply roleTakeover_keeps | apply Keeps.ite

theorem State.imgArm_keeps {s : State} (h : Keeps s₀ s) (n : Nat) (a : Action) : Keeps s₀ (State.imgArm s n a) := by
  unfold State.imgArm
  with_reducible repeat'
    first | assumption | intro _ | apply setSeq_keeps | apply Keeps.ite | split | refine Keeps.ofEq (by assumption) ?_
          | refine Keeps.ofSome (by assumption) ?_ | dsimp only

theorem State.txLoad_keeps {s : State} (h : Keeps s₀ s) (n buf : Nat) (b : List Byte) : Keeps s₀ (State.txLoad s n buf b) := by
  unfold State.txLoad
  with_reducible repeat' first | assumption | intro _ | apply setSeq_keeps

theorem State.armFrame_keeps {s : State} (h : Keeps s₀ s) (n : Nat) (f : ListFrame) : Keeps s₀ (State.armFrame s n f) := by
  unfold State.armFrame
  with_reducible repeat'
    first | assumption | intro _ | apply warnOnce_keeps | apply imgArm_keeps | apply txLoad_keeps | apply Keeps.ite | split

theorem State.armFrames_keeps {s : State} (h : Keeps s₀ s) (n : Nat) (l : List ListFrame) : Keeps s₀ (s.armFrames n l).2 := by
  induction l generalizing s with
  | nil => exact h
  | cons f t ih => exact Keeps.iteP (ih (State.armFrame_keeps h n f)) h

theorem State.chainArm_keeps {s : State} (h : Keeps s₀ s) (n : Nat) : Keeps s₀ (State.chainArm s n) := by
  unfold State.chainArm
  with_reducible repeat' first | assumption | intro _ | apply setRimg_keeps | apply armFrames_keeps | apply Keeps.ite

theorem State.holdFrame_keeps {s : State} (h : Keeps s₀ s) (n : Nat) (h : HeldFrame) : Keeps s₀ (State.holdFrame s n h) := by
  unfold State.holdFrame
  with_reducible repeat' first | assumption | intro _ | apply setRimg_keeps | apply imgEvent_keeps | apply Keeps.ite

theorem execHeldFrameExpire_keeps {s : State} (h : Keeps s₀ s) (n : Fin 4) (i : Nat) : KeepsR s₀ (execHeldFrameExpire n i s) := by
  unfold execHeldFrameExpire
  with_reducible repeat'
    first | assumption | intro _ | apply setRimg_keeps | apply imgEvent_keeps | apply KeepsR.ite | apply KeepsR.next | apply Keeps.ite
          | split | refine Keeps.ofEq (by assumption) ?_ | refine Keeps.ofSome (by assumption) ?_ | dsimp only

theorem execTxComplete_keeps {s : State} (h : Keeps s₀ s) (n : Fin 4) : KeepsR s₀ (execTxComplete n s) := by
  unfold execTxComplete
  with_reducible repeat'
    first | assumption | intro _ | apply bump_keeps | apply setSeq_keeps | apply setPort_keeps | apply setRimg_keeps
          | apply chainArm_keeps | apply holdFrame_keeps | apply Keeps.foldl | apply Keeps.foldlP | apply KeepsR.ite | apply KeepsR.next
          | apply Keeps.ite | split | refine Keeps.ofEq (by assumption) ?_ | refine Keeps.ofSome (by assumption) ?_ | dsimp only

theorem State.txTouch_keeps {s : State} (h : Keeps s₀ s) (n cyc : Nat) : Keeps s₀ (State.txTouch s n cyc) := by
  unfold State.txTouch
  with_reducible repeat' first | assumption | intro _ | apply touch_keeps | apply Keeps.foldl

theorem State.holdReload_keeps {s : State} (h : Keeps s₀ s) (n : Nat) : Keeps s₀ (State.holdReload s n) := by
  unfold State.holdReload
  with_reducible repeat' first | assumption | intro _ | apply txLoad_keeps | apply Keeps.ite

theorem State.beaconReleased_keeps {s : State} (h : Keeps s₀ s) (n : Nat) : Keeps s₀ (State.beaconReleased s n) := by
  unfold State.beaconReleased
  with_reducible repeat' first | assumption | intro _ | apply setRimg_keeps | apply Keeps.ite

theorem State.standbyHold_keeps {s : State} (h : Keeps s₀ s) (n : Nat) : Keeps s₀ (State.standbyHold s n) := by
  unfold State.standbyHold
  with_reducible repeat'
    first | assumption | intro _ | apply setRimg_keeps | apply imgArm_keeps | apply txTouch_keeps | apply holdReload_keeps
          | apply Keeps.ite | split

theorem State.releaseArm_keeps {s : State} (h : Keeps s₀ s) (n : Nat) : Keeps s₀ (State.releaseArm s n) := by
  unfold State.releaseArm
  with_reducible repeat'
    first | assumption | intro _ | apply warnOnce_keeps | apply setRimg_keeps | apply imgEvent_keeps | apply rcbCheck_keeps
          | apply imgArm_keeps | apply txLoad_keeps | apply txTouch_keeps | apply holdReload_keeps | apply Keeps.foldl
          | apply Keeps.foldlP | apply Keeps.ite | split | refine Keeps.ofEq (by assumption) ?_ | refine Keeps.ofSome (by assumption) ?_
          | dsimp only

theorem State.radioRelease_keeps {s : State} (h : Keeps s₀ s) : Keeps s₀ (State.radioRelease s) := by
  unfold State.radioRelease
  with_reducible repeat' first | assumption | intro _ | apply releaseArm_keeps | apply Keeps.foldl | apply Keeps.foldlP | apply Keeps.ite

theorem State.radioIngest_keeps {s : State} (h : Keeps s₀ s) : Keeps s₀ (State.radioIngest s) := by
  unfold State.radioIngest
  with_reducible repeat' first | assumption | intro _ | apply setRimg_keeps | apply Keeps.foldl | apply Keeps.foldlP | apply Keeps.ite

theorem State.beaconMissed_keeps {s : State} (h : Keeps s₀ s) (n : Nat) : Keeps s₀ (State.beaconMissed s n) := by
  unfold State.beaconMissed
  with_reducible repeat' first | assumption | intro _ | apply set_keeps | apply warnOnce_keeps | apply Keeps.ite

theorem State.statusRead_keeps {s : State} (h : Keeps s₀ s) (n d : Nat) : Keeps s₀ (State.statusRead s n d) := by
  unfold State.statusRead
  with_reducible repeat' first | assumption | intro _ | apply bump_keeps | apply warnOnce_keeps | apply setPort_keeps | apply Keeps.ite

theorem State.portBoundary_keeps {s : State} (h : Keeps s₀ s) (n : Nat) (d : Option Nat) : Keeps s₀ (State.portBoundary s n d) := by
  unfold State.portBoundary
  with_reducible repeat'
    first | assumption | intro _ | apply set_keeps | apply setPort_keeps | apply portStops_keeps | apply setRimg_keeps
          | apply rcbCheck_keeps | apply chainArm_keeps | apply beaconReleased_keeps | apply standbyHold_keeps | apply beaconMissed_keeps
          | apply statusRead_keeps | apply Keeps.ite | split

theorem State.radioBoundary_keeps {s : State} (h : Keeps s₀ s) (discards : List Nat) : Keeps s₀ (State.radioBoundary s discards) := by
  unfold State.radioBoundary
  with_reducible repeat'
    first | assumption | intro _ | apply pendInstant_keeps | apply portBoundary_keeps | apply Keeps.foldl | apply Keeps.foldlP
          | apply Keeps.ite

theorem execRxtsRise_keeps {s : State} (h : Keeps s₀ s) (n : Fin 4) (off : Nat) : KeepsR s₀ (execRxtsRise n off s) := by
  unfold execRxtsRise
  with_reducible repeat' first | assumption | intro _ | apply passInCycle_keeps | apply setPort_keeps | apply KeepsR.ite | apply KeepsR.next

theorem State.rxRead_keeps {s : State} (h : Keeps s₀ s) (k n : Nat) : Keeps s₀ (State.rxRead k n s) := by
  induction k generalizing s with
  | zero => exact h
  | succ k ih =>
    unfold State.rxRead
    dsimp only
    split
    · exact h
    · refine Keeps.ite h ?_
      have q := fun b r => State.qPush_keeps (State.setPort_keeps h n { s.port n with parked := r }) (12 + n) b
      split
      · rename_i e; exact ih (State.setPort_keeps (Keeps.ofEq e (q _ _)) _ _)
      · rename_i e; exact ih (Keeps.ofEq e (q _ _))

theorem execRxtsFall_keeps {s : State} (h : Keeps s₀ s) (n : Fin 4) (frame : List Byte) (rssi : BitVec 8) (fcs : Bool) :
    KeepsR s₀ (execRxtsFall n frame rssi fcs s) := by
  unfold execRxtsFall
  with_reducible repeat'
    first | assumption | intro _ | apply setPort_keeps | apply rxRead_keeps | apply KeepsR.ite | apply KeepsR.next | apply Keeps.ite
          | split | refine Keeps.ofEq (by assumption) ?_ | refine Keeps.ofSome (by assumption) ?_ | dsimp only

theorem State.takeBack_keeps {s : State} (h : Keeps s₀ s) (n : Nat) : Keeps s₀ (State.takeBack s n) := by
  unfold State.takeBack
  with_reducible repeat'
    first | assumption | intro _ | apply setSeq_keeps | apply setRimg_keeps | apply Keeps.ite | split
          | refine Keeps.ofEq (by assumption) ?_ | refine Keeps.ofSome (by assumption) ?_ | dsimp only

theorem State.sendAt_keeps {s : State} (h : Keeps s₀ s) (n off : Nat) (body : List Byte) : Keeps s₀ (State.sendAt s n off body) := by
  unfold State.sendAt
  with_reducible repeat'
    first | assumption | intro _ | apply setRimg_keeps | apply imgArm_keeps | apply txLoad_keeps | apply takeBack_keeps | apply Keeps.ite
          | split | refine Keeps.ofEq (by assumption) ?_ | refine Keeps.ofSome (by assumption) ?_ | dsimp only

theorem State.heldSend_keeps {s : State} (h : Keeps s₀ s) (n : Nat) (h : HeldFrame) (p : Nat × Nat × Bool) :
    Keeps s₀ (State.heldSend s n h p) := by
  unfold State.heldSend
  with_reducible repeat' first | assumption | intro _ | apply setRimg_keeps | apply chainArm_keeps | apply Keeps.ite

theorem State.pollAnswer_keeps {s : State} (h : Keeps s₀ s) (n i : Nat) (sp : RxSpan) : Keeps s₀ (State.pollAnswer s n i sp) := by
  unfold State.pollAnswer
  with_reducible repeat'
    first | assumption | intro _ | apply setRimg_keeps | apply sendAt_keeps | apply heldSend_keeps | apply Keeps.ite | split
          | refine Keeps.ofEq (by assumption) ?_ | refine Keeps.ofSome (by assumption) ?_ | dsimp only

theorem State.rxDeliver_keeps {s : State} (h : Keeps s₀ s) (n i k v : Nat) (f : List Byte) (st : RxStamp) (rssi : Byte) (sp : RxSpan) (dup : Bool) :
    Keeps s₀ (State.rxDeliver s n i k v f st rssi sp dup) := by
  unfold State.rxDeliver
  with_reducible repeat'
    first | assumption | intro _ | apply setSeq_keeps | apply setRimg_keeps | apply imgPush_keeps | apply pollAnswer_keeps
          | apply Keeps.ite

theorem State.frameReceive_keeps {s : State} (h : Keeps s₀ s) (n : Nat) : Keeps s₀ (State.frameReceive s n) := by
  unfold State.frameReceive
  with_reducible repeat'
    first | assumption | intro _ | apply bump_keeps | apply warnOnce_keeps | apply qPop_keeps | apply setPort_keeps | apply nbrPut_keeps
          | apply nbrSetState_keeps | apply rxDeliver_keeps | apply Keeps.ite | split | refine Keeps.ofEq (by assumption) ?_

theorem execFrameReceive_keeps {s : State} (h : Keeps s₀ s) (n : Fin 4) : KeepsR s₀ (execFrameReceive n s) := by
  unfold execFrameReceive
  with_reducible repeat' first | assumption | intro _ | apply rxRead_keeps | apply frameReceive_keeps | apply KeepsR.ite | apply KeepsR.next

/-! ### BellAir -/

theorem State.boundCheck_keeps {s : State} (h : Keeps s₀ s) : Keeps s₀ (State.boundCheck s) := by
  unfold State.boundCheck
  with_reducible repeat' first | assumption | intro _ | apply setB_keeps | apply raise_keeps | apply Keeps.ite

theorem State.bellFit_keeps {s : State} (h : Keeps s₀ s) (radio : Bool) : Keeps s₀ (State.bellFit s radio) := by
  unfold State.bellFit
  with_reducible repeat'
    first | assumption | intro _ | apply setMask_keeps | apply raise_keeps | apply boundCheck_keeps | apply Keeps.foldl
          | apply Keeps.foldlP | apply Keeps.ite

theorem State.bellApplied_keeps {s : State} (h : Keeps s₀ s) (old : State) : Keeps s₀ (State.bellApplied s old) := by
  unfold State.bellApplied
  with_reducible repeat'
    first | assumption | intro _ | apply set_keeps | apply bellUpdate_keeps | apply followCond_keeps | apply estLatch_keeps
          | apply discFollow_keeps | apply testStart_keeps | apply bellReserve_keeps | apply bellFit_keeps | apply Keeps.foldl
          | apply Keeps.foldlP | apply Keeps.ite

theorem State.releasingDone_keeps {s : State} (h : Keeps s₀ s) : Keeps s₀ (State.releasingDone s) := by
  unfold State.releasingDone
  with_reducible repeat' first | assumption | intro _ | apply putBell_keeps | apply bellUpdate_keeps | apply Keeps.ite

theorem State.bellCount_keeps {s : State} (h : Keeps s₀ s) : Keeps s₀ (State.bellCount s) := by
  unfold State.bellCount
  with_reducible repeat'
    first | assumption | intro _ | apply set_keeps | apply raise_keeps | apply bellReserve_keeps | apply Keeps.ite | split
          | refine Keeps.ofEq (by assumption) ?_ | refine Keeps.ofSome (by assumption) ?_ | dsimp only | apply Keeps.upd

theorem State.bellGiveUp_keeps {s : State} (h : Keeps s₀ s) (p : Nat) : Keeps s₀ (State.bellGiveUp s p) := by
  unfold State.bellGiveUp
  with_reducible repeat' first | assumption | intro _ | apply setPort_keeps

theorem State.bellSend_keeps {s : State} (h : Keeps s₀ s) (p : Nat) (f : BellFrame) (voice off : Nat) :
    Keeps s₀ (State.bellSend s p f voice off) := by
  unfold State.bellSend
  with_reducible repeat'
    first | assumption | intro _ | apply set_keeps | apply bump_keeps | apply raise_keeps | apply setPort_keeps | apply txCross_keeps
          | apply useAir_keeps | apply bellCount_keeps | apply bellGiveUp_keeps | apply Keeps.ite | split
          | refine Keeps.ofEq (by assumption) ?_ | refine Keeps.ofSome (by assumption) ?_ | dsimp only | apply Keeps.upd

theorem State.bellDeferred_keeps {s : State} (h : Keeps s₀ s) (p : Nat) : Keeps s₀ (State.bellDeferred s p) := by
  unfold State.bellDeferred
  with_reducible repeat' first | assumption | intro _ | apply bump_keeps | apply raise_keeps | apply bellGiveUp_keeps

theorem State.bellTry_keeps {s : State} (h : Keeps s₀ s) (p off : Nat) (rssi : Int) : Keeps s₀ (State.bellTry s p off rssi) := by
  unfold State.bellTry
  with_reducible repeat'
    first | assumption | intro _ | apply bellSend_keeps | apply bellDeferred_keeps | apply Keeps.ite | split
          | refine Keeps.ofEq (by assumption) ?_ | refine Keeps.ofSome (by assumption) ?_ | dsimp only | apply Keeps.upd

theorem execBellWindow_keeps {s : State} (h : Keeps s₀ s) (k : Fin 5) (rssi : List Int) : KeepsR s₀ (execBellWindow k rssi s) := by
  unfold execBellWindow
  with_reducible repeat'
    first | assumption | intro _ | apply moveTo_keeps | apply setPort_keeps | apply releasingDone_keeps | apply bellTry_keeps
          | apply Keeps.foldl | apply Keeps.foldlP | apply KeepsR.ite | apply KeepsR.next | apply Keeps.ite | split
          | refine Keeps.ofEq (by assumption) ?_ | refine Keeps.ofSome (by assumption) ?_ | dsimp only | apply Keeps.upd

theorem execBellCcaRetry_keeps {s : State} (h : Keeps s₀ s) (port : Fin 4) (rssi : Int) : KeepsR s₀ (execBellCcaRetry port rssi s) := by
  unfold execBellCcaRetry
  with_reducible repeat'
    first | assumption | intro _ | apply moveTo_keeps | apply releasingDone_keeps | apply bellTry_keeps | apply KeepsR.ite
          | apply KeepsR.next | apply Keeps.ite | split

theorem execSecondVoice_keeps {s : State} (h : Keeps s₀ s) (port : Fin 4) (rssi : Int) (heard : List Byte) :
    KeepsR s₀ (execSecondVoice port rssi heard s) := by
  unfold execSecondVoice
  with_reducible repeat'
    first | assumption | intro _ | apply moveTo_keeps | apply releasingDone_keeps | apply bellSend_keeps | apply bellDeferred_keeps
          | apply KeepsR.ite | apply KeepsR.next

theorem execBellAck_keeps {s : State} (h : Keeps s₀ s) (port : Fin 4) (frame : List Byte) (off : Nat) :
    KeepsR s₀ (execBellAck port frame off s) := by
  unfold execBellAck
  with_reducible repeat'
    first | assumption | intro _ | apply setOwed_keeps | apply countAcks_keeps | apply KeepsR.ite | apply KeepsR.next | apply Keeps.ite
          | split

theorem execAckOverdue_keeps {s : State} (h : Keeps s₀ s) : KeepsR s₀ (execAckOverdue s) := by
  unfold execAckOverdue
  with_reducible repeat'
    first | assumption | refine reachUs_keeps ?_ _ | intro _ | apply raise_keeps | apply KeepsR.ite | apply KeepsR.next | apply Keeps.ite
          | split | refine Keeps.ofEq (by assumption) ?_ | refine Keeps.ofSome (by assumption) ?_ | dsimp only | apply Keeps.upd

end Sys2Proof.Machine
end

