-- ==== Sys2Proof/Laws/KeepsSystem.lean ====
section
/-! SUPPORT. That the Keywell, boot, the network, the Kettle, the cycle and the control words keep the invariant and the queue (`Keeps`), one lemma per function. -/

namespace Sys2Proof.Machine

open State

variable {s₀ : State}

/-! ### Keywell -/

theorem State.putSlot_keeps {s : State} (h : Keeps s₀ s) (n : Nat) (k : KeySlot) : Keeps s₀ (State.putSlot s n k) := by
  unfold State.putSlot
  with_reducible repeat'
    first | assumption | intro _ | apply Keeps.ite | split | refine Keeps.ofEq (by assumption) ?_ | refine Keeps.ofSome (by assumption) ?_
          | dsimp only | apply Keeps.upd

theorem State.emptySlot_keeps {s : State} (h : Keeps s₀ s) (n : Nat) : Keeps s₀ (State.emptySlot s n) := by
  unfold State.emptySlot
  with_reducible repeat'
    first | assumption | intro _ | apply Keeps.ite | split | refine Keeps.ofEq (by assumption) ?_ | refine Keeps.ofSome (by assumption) ?_
          | dsimp only | apply Keeps.upd

theorem State.emptySlots_keeps {s : State} (h : Keeps s₀ s) (p : Nat → KeySlot → Bool) : Keeps s₀ (State.emptySlots s p) := by
  unfold State.emptySlots
  with_reducible repeat'
    first | assumption | intro _ | apply Keeps.ite | split | refine Keeps.ofEq (by assumption) ?_ | refine Keeps.ofSome (by assumption) ?_
          | dsimp only | apply Keeps.upd

theorem State.orphanSettle_keeps {s : State} (h : Keeps s₀ s) (news : Bool) : Keeps s₀ (State.orphanSettle s news) := by
  unfold State.orphanSettle
  with_reducible repeat'
    first | assumption | intro _ | apply setB_keeps | apply raise_keeps | apply emptySlots_keeps | apply Keeps.ite | split
          | refine Keeps.ofEq (by assumption) ?_ | refine Keeps.ofSome (by assumption) ?_ | dsimp only | apply Keeps.upd

theorem State.bootSync_keeps {s : State} (h : Keeps s₀ s) : Keeps s₀ (State.bootSync s) := by
  unfold State.bootSync
  with_reducible repeat' first | assumption | intro _ | apply set_keeps | apply setB_keeps

theorem State.startUpdate_keeps {s : State} (h : Keeps s₀ s) (u : KwUpdate) (kind : Nat) (fuse : Option Nat) (wipe : Bool) (ts : List (Nat × Word)) :
    Keeps s₀ (State.startUpdate s u kind fuse wipe ts) := by
  unfold State.startUpdate
  with_reducible repeat'
    first | assumption | intro _ | apply Keeps.ite | split | refine Keeps.ofEq (by assumption) ?_ | refine Keeps.ofSome (by assumption) ?_
          | dsimp only | apply Keeps.upd

theorem State.kwStep_keeps {s : State} (h : Keeps s₀ s) (k : KwStep) : Keeps s₀ (s.kwStep k) := by
  cases k
  · exact Keeps.upd h ..
  · exact Keeps.upd h ..

theorem State.kgenSlots_keeps {s : State} (h : Keeps s₀ s) (g : Nat) (doomed : List Nat) : Keeps s₀ (State.kgenSlots s g doomed) := by
  unfold State.kgenSlots
  with_reducible repeat'
    first | assumption | intro _ | apply emptySlots_keeps | apply Keeps.ite | split | refine Keeps.ofEq (by assumption) ?_
          | refine Keeps.ofSome (by assumption) ?_ | dsimp only | apply Keeps.upd

theorem State.toPartner_keeps {s : State} (h : Keeps s₀ s) (ts : List (Nat × Word)) : Keeps s₀ (State.toPartner s ts) := by
  unfold State.toPartner
  with_reducible repeat'
    first | assumption | intro _ | apply Keeps.ite | split | refine Keeps.ofEq (by assumption) ?_ | refine Keeps.ofSome (by assumption) ?_
          | dsimp only | apply Keeps.upd

theorem State.kgenResult_keeps {s : State} (h : Keeps s₀ s) (r : Nat) : Keeps s₀ (State.kgenResult s r) := by
  unfold State.kgenResult
  with_reducible repeat'
    first | assumption | intro _ | apply Keeps.ite | split | refine Keeps.ofEq (by assumption) ?_ | refine Keeps.ofSome (by assumption) ?_
          | dsimp only | apply Keeps.upd

theorem State.updateDone_keeps {s : State} (h : Keeps s₀ s) (u : KwUpdate) : Keeps s₀ (State.updateDone s u) := by
  unfold State.updateDone
  with_reducible repeat'
    first | assumption | intro _ | apply orphanSettle_keeps | apply bootSync_keeps | apply kgenSlots_keeps | apply toPartner_keeps
          | apply kgenResult_keeps | apply Keeps.ite | split | refine Keeps.ofEq (by assumption) ?_
          | refine Keeps.ofSome (by assumption) ?_ | dsimp only | apply Keeps.upd

theorem State.partnerNext_keeps {s : State} (h : Keeps s₀ s) : Keeps s₀ (State.partnerNext s) := by
  unfold State.partnerNext
  with_reducible repeat'
    first | assumption | intro _ | apply startUpdate_keeps | apply Keeps.ite | split | refine Keeps.ofEq (by assumption) ?_
          | refine Keeps.ofSome (by assumption) ?_ | dsimp only | apply Keeps.upd

theorem State.kwWrite_keeps {s : State} (h : Keeps s₀ s) : Keeps s₀ (State.kwWrite s) := by
  unfold State.kwWrite
  with_reducible repeat'
    first | assumption | intro _ | apply kwStep_keeps | apply updateDone_keeps | apply partnerNext_keeps | apply Keeps.ite | split
          | refine Keeps.ofEq (by assumption) ?_ | refine Keeps.ofSome (by assumption) ?_ | dsimp only | apply Keeps.upd

theorem execChestWriteDurable_keeps {s : State} (h : Keeps s₀ s) (c : Core) : KeepsR s₀ (execChestWriteDurable c s) := by
  unfold execChestWriteDurable
  refine KeepsR.ite (KeepsR.next (State.kwWrite_keeps h)) (KeepsR.ite (KeepsR.next (Keeps.upd (State.chestSet_keeps h _ _) ..)) ?_)
  split
  · exact KeepsR.next (Keeps.upd (State.chestSet_keeps h _ _) ..)
  · split
    · rename_i p rest e
      refine KeepsR.next (State.setCore_keeps (State.chestSet_keeps h _ _) c _ fun i => ?_)
      have k := core_ok i c
      refine ⟨k.pc, k.epc, k.status, k.evec, k.g0, ?_⟩
      have hl := k.chest
      have : ∀ l v, ((s.chestSet l v).core c).chestQ = (s.core c).chestQ := fun l v => by cases c <;> rfl
      rw [this, e] at hl
      simp only [List.length_cons] at hl
      show rest.length ≤ 16
      omega
    · exact KeepsR.next h

theorem State.drbgSeed_keeps {s : State} (h : Keeps s₀ s) : Keeps s₀ (State.drbgSeed s) := by
  unfold State.drbgSeed
  with_reducible repeat'
    first | assumption | intro _ | apply Keeps.ite | split | refine Keeps.ofEq (by assumption) ?_ | refine Keeps.ofSome (by assumption) ?_
          | dsimp only | apply Keeps.upd

theorem State.drbgUse_keeps {s : State} (h : Keeps s₀ s) (pr : Bool) : Keeps s₀ (State.drbgUse s pr) := by
  unfold State.drbgUse
  with_reducible repeat'
    first | assumption | intro _ | apply drbgSeed_keeps | apply Keeps.ite | split | refine Keeps.ofEq (by assumption) ?_
          | refine Keeps.ofSome (by assumption) ?_ | dsimp only | apply Keeps.upd

theorem State.drbgBytes_keeps {s : State} (h : Keeps s₀ s) (n : Nat) (pr : Bool) : Keeps s₀ (State.drbgBytes s n pr).2 := by
  unfold State.drbgBytes
  with_reducible repeat' first | assumption | intro _ | apply drawBytes_keeps | apply drbgUse_keeps

theorem State.jobFail_keeps {s : State} (h : Keeps s₀ s) (code : Nat) : KeepsE s₀ (State.jobFail s code) := by
  unfold State.jobFail
  with_reducible repeat'
    first | assumption | intro _ | apply Keeps.ite | apply KeepsE.ite | split | refine Keeps.ofEq (by assumption) ?_
          | refine Keeps.ofSome (by assumption) ?_ | dsimp only | apply KeepsE.mk

theorem State.jobOut_keeps {s : State} (h : Keeps s₀ s) (dst : Nat) (out : List Byte) : KeepsE s₀ (State.jobOut s dst out) := by
  unfold State.jobOut
  with_reducible repeat'
    first | assumption | intro _ | apply store_keeps | apply Keeps.ite | apply KeepsE.ite | split | refine Keeps.ofEq (by assumption) ?_
          | refine Keeps.ofSome (by assumption) ?_ | dsimp only | apply KeepsE.mk

theorem State.jobKey_keeps {s : State} (h : Keeps s₀ s) (n bit : Nat) (types : List Nat) (f : KeySlot → JobEnd) (hf : ∀ x0, KeepsE s₀ (f x0)) :
    KeepsE s₀ (State.jobKey s n bit types f) := by
  unfold State.jobKey
  with_reducible repeat' first | assumption | intro _ | apply jobFail_keeps | apply hf | apply Keeps.ite | apply KeepsE.ite | split

theorem State.jobAes_keeps {s : State} (h : Keeps s₀ s) (j : KwJob) (dec : Bool) : KeepsE s₀ (s.jobAes j dec) := by
  unfold State.jobAes
  refine State.jobKey_keeps h _ _ _ _ fun k => ?_
  have hf := fun c => State.jobFail_keeps h c
  have ho := fun d o => State.jobOut_keeps h d o
  extract_lets need gcm aad inp key out
  clear_value out key inp aad need
  refine KeepsE.ite (hf _) (KeepsE.ite (hf _) (KeepsE.ite (hf _) (KeepsE.ite (hf _) (KeepsE.ite (KeepsE.ite ?_ (ho _ _)) ?_))))
  · exact State.store_keeps h ..
  · exact Keeps.ite (State.store_keeps (ho _ _) ..) (ho _ _)

theorem State.jobMac_keeps {s : State} (h : Keeps s₀ s) (j : KwJob) (verify : Bool) : KeepsE s₀ (State.jobMac s j verify) := by
  unfold State.jobMac
  with_reducible repeat'
    first | assumption | intro _ | apply jobFail_keeps | apply jobOut_keeps | apply jobKey_keeps | apply Keeps.ite | apply KeepsE.ite
          | split | refine Keeps.ofEq (by assumption) ?_ | refine Keeps.ofSome (by assumption) ?_ | dsimp only | apply KeepsE.mk

theorem State.jobHash_keeps {s : State} (h : Keeps s₀ s) (j : KwJob) : KeepsE s₀ (State.jobHash s j) := by
  unfold State.jobHash
  with_reducible repeat' first | assumption | intro _ | apply jobFail_keeps | apply jobOut_keeps | apply Keeps.ite | apply KeepsE.ite

theorem State.jobSign_keeps {s : State} (h : Keeps s₀ s) (j : KwJob) : KeepsE s₀ (State.jobSign s j) := by
  unfold State.jobSign
  with_reducible repeat'
    first | assumption | intro _ | apply drbgBytes_keeps | apply jobFail_keeps | apply jobOut_keeps | apply jobKey_keeps | apply Keeps.ite
          | apply KeepsE.ite

theorem State.jobVerify_keeps {s : State} (h : Keeps s₀ s) (j : KwJob) : KeepsE s₀ (State.jobVerify s j) := by
  unfold State.jobVerify
  with_reducible repeat'
    first | assumption | intro _ | apply jobFail_keeps | apply Keeps.ite | apply KeepsE.ite | split | refine Keeps.ofEq (by assumption) ?_
          | refine Keeps.ofSome (by assumption) ?_ | dsimp only | apply KeepsE.mk

theorem State.jobEcdh_keeps {s : State} (h : Keeps s₀ s) (j : KwJob) : KeepsE s₀ (State.jobEcdh s j) := by
  unfold State.jobEcdh
  with_reducible repeat'
    first | assumption | intro _ | apply draw_keeps | apply putSlot_keeps | apply jobFail_keeps | apply jobKey_keeps | apply Keeps.ite
          | apply KeepsE.ite | split | refine Keeps.ofEq (by assumption) ?_ | refine Keeps.ofSome (by assumption) ?_ | dsimp only
          | apply KeepsE.mk

theorem State.jobNewKey_keeps {s : State} (h : Keeps s₀ s) (j : KwJob) (parent gix : Nat) (k : KeySlot) :
    KeepsE s₀ (State.jobNewKey s j parent gix k) := by
  unfold State.jobNewKey
  with_reducible repeat'
    first | assumption | intro _ | apply chestSet_keeps | apply putSlot_keeps | apply toPartner_keeps | apply jobFail_keeps
          | apply jobOut_keeps | apply Keeps.ite | apply KeepsE.ite | split

theorem State.jobGenerate_keeps {s : State} (h : Keeps s₀ s) (j : KwJob) (pairwiseOk : Bool) :
    KeepsE s₀ (State.jobGenerate s j pairwiseOk) := by
  unfold State.jobGenerate
  with_reducible repeat'
    first | assumption | intro _ | apply draw_keeps | apply setB_keeps | apply emptySlots_keeps | apply drbgBytes_keeps
          | apply jobFail_keeps | apply jobNewKey_keeps | apply Keeps.ite | apply KeepsE.ite | split

theorem State.jobWrap_keeps {s : State} (h : Keeps s₀ s) (j : KwJob) : KeepsE s₀ (State.jobWrap s j) := by
  unfold State.jobWrap
  with_reducible repeat'
    first | assumption | intro _ | apply chestSet_keeps | apply putSlot_keeps | apply jobFail_keeps | apply jobOut_keeps | apply Keeps.ite
          | apply KeepsE.ite | split

theorem State.jobImport_keeps {s : State} (h : Keeps s₀ s) (j : KwJob) : KeepsE s₀ (State.jobImport s j) := by
  unfold State.jobImport
  with_reducible repeat'
    first | assumption | intro _ | apply jobFail_keeps | apply jobNewKey_keeps | apply Keeps.ite | apply KeepsE.ite | split
          | refine Keeps.ofEq (by assumption) ?_ | refine Keeps.ofSome (by assumption) ?_ | dsimp only | apply KeepsE.mk

theorem State.jobPubkey_keeps {s : State} (h : Keeps s₀ s) (j : KwJob) : KeepsE s₀ (State.jobPubkey s j) := by
  unfold State.jobPubkey
  with_reducible repeat'
    first | assumption | intro _ | apply jobFail_keeps | apply jobOut_keeps | apply Keeps.ite | apply KeepsE.ite | split

theorem State.jobRand_keeps {s : State} (h : Keeps s₀ s) (j : KwJob) : KeepsE s₀ (State.jobRand s j) := by
  unfold State.jobRand
  with_reducible repeat'
    first | assumption | intro _ | apply drbgBytes_keeps | apply jobFail_keeps | apply jobOut_keeps | apply Keeps.ite | apply KeepsE.ite

theorem State.jobNonce_keeps {s : State} (h : Keeps s₀ s) (j : KwJob) : KeepsE s₀ (State.jobNonce s j) := by
  unfold State.jobNonce
  with_reducible repeat'
    first | assumption | intro _ | apply drbgBytes_keeps | apply jobFail_keeps | apply jobOut_keeps | apply Keeps.ite | apply KeepsE.ite
          | split | refine Keeps.ofEq (by assumption) ?_ | refine Keeps.ofSome (by assumption) ?_ | dsimp only | apply KeepsE.mk
          | apply Keeps.upd

theorem State.writeRecord_keeps {s : State} (h : Keeps s₀ s) (b : List Byte) : Keeps s₀ (State.writeRecord s b) := by
  unfold State.writeRecord
  with_reducible repeat' first | assumption | intro _ | apply writeRaw_keeps

theorem State.jobLcstep_keeps {s : State} (h : Keeps s₀ s) (j : KwJob) : KeepsJ s₀ (State.jobLcstep s j) := by
  unfold State.jobLcstep
  with_reducible repeat'
    first | exact fun i => (core_ok i _).congr rfl rfl rfl rfl rfl rfl
          | exact fun i => have k := core_ok i _; ⟨pcFit_fit _, k.epc, k.status, k.evec, k.g0, k.chest⟩
          | exact fun i => (core_ok i _).stop | assumption | intro _ | apply startUpdate_keeps | apply drbgBytes_keeps
          | apply jobFail_keeps | apply writeRecord_keeps | apply Keeps.ite | apply KeepsJ.ite | apply KeepsJ.inl | apply KeepsJ.inr
          | split | refine Keeps.ofEq (by assumption) ?_ | refine Keeps.ofSome (by assumption) ?_ | dsimp only | apply KeepsE.mk
          | apply Keeps.upd

theorem State.jobOwner_keeps {s : State} (h : Keeps s₀ s) (j : KwJob) : KeepsJ s₀ (State.jobOwner s j) := by
  unfold State.jobOwner
  with_reducible repeat'
    first | assumption | intro _ | apply startUpdate_keeps | apply jobFail_keeps | apply writeRecord_keeps | apply Keeps.ite
          | apply KeepsJ.ite | apply KeepsJ.inl | apply KeepsJ.inr

theorem JobEnd.keep_keeps {e : JobEnd} (h : KeepsE s₀ e) : Keeps s₀ e.keep := by
  obtain ⟨c, n, s⟩ := e
  unfold JobEnd.keep
  with_reducible apply Keeps.upd
  exact Keeps.ite h (State.raise_keeps h ..)

theorem State.jobTouch_keeps {s : State} (h : Keeps s₀ s) (j : KwJob) : Keeps s₀ (State.jobTouch s j) := by
  unfold State.jobTouch
  with_reducible repeat' first | assumption | intro _ | apply touch_keeps | apply Keeps.ite

theorem State.runJob_keeps {s : State} {f : State → KwJob → JobStart} (h : Keeps s₀ s) (op : Nat)
    (hf : ∀ t j, Keeps s₀ t → KeepsJ s₀ (f t j)) : Keeps s₀ (s.runJob op f) := by
  unfold State.runJob
  split
  · rename_i j _ _
    have k := fun c => JobEnd.keep_keeps (State.jobFail_keeps h c)
    refine Keeps.ite h (Keeps.ite (k _) (Keeps.ite (k _) (Keeps.ite (k _) ?_)))
    have kt := hf (s.jobTouch j) j (State.jobTouch_keeps h j)
    have kf := hf s j h
    split
    · rename_i e; rw [e] at kt
      refine Keeps.ite (JobEnd.keep_keeps kt) ?_
      split
      · rename_i e; rw [e] at kf; exact JobEnd.keep_keeps kf
      · rename_i e; rw [e] at kf; exact kf
    · rename_i e; rw [e] at kt; exact kt
  · exact h

theorem execEncrypt_keeps {s : State} (h : Keeps s₀ s) : KeepsR s₀ (execEncrypt s) := by
  unfold execEncrypt
  with_reducible repeat'
    first | assumption | intro _ | apply jobAes_keeps | apply runJob_keeps | apply KeepsJ.inl | apply KeepsR.ite | apply KeepsR.next

theorem execDecrypt_keeps {s : State} (h : Keeps s₀ s) : KeepsR s₀ (execDecrypt s) := by
  unfold execDecrypt
  with_reducible repeat'
    first | assumption | intro _ | apply jobAes_keeps | apply runJob_keeps | apply KeepsJ.inl | apply KeepsR.ite | apply KeepsR.next

theorem execMac_keeps {s : State} (h : Keeps s₀ s) : KeepsR s₀ (execMac s) := by
  unfold execMac
  with_reducible repeat'
    first | assumption | intro _ | apply jobMac_keeps | apply runJob_keeps | apply KeepsJ.inl | apply KeepsR.ite | apply KeepsR.next

theorem execMacverify_keeps {s : State} (h : Keeps s₀ s) : KeepsR s₀ (execMacverify s) := by
  unfold execMacverify
  with_reducible repeat'
    first | assumption | intro _ | apply jobMac_keeps | apply runJob_keeps | apply KeepsJ.inl | apply KeepsR.ite | apply KeepsR.next

theorem execHash_keeps {s : State} (h : Keeps s₀ s) : KeepsR s₀ (execHash s) := by
  unfold execHash
  with_reducible repeat'
    first | assumption | intro _ | apply jobHash_keeps | apply runJob_keeps | apply KeepsJ.inl | apply KeepsR.ite | apply KeepsR.next

theorem execSign_keeps {s : State} (h : Keeps s₀ s) : KeepsR s₀ (execSign s) := by
  unfold execSign
  with_reducible repeat'
    first | assumption | intro _ | apply jobSign_keeps | apply runJob_keeps | apply KeepsJ.inl | apply KeepsR.ite | apply KeepsR.next

theorem execVerify_keeps {s : State} (h : Keeps s₀ s) : KeepsR s₀ (execVerify s) := by
  unfold execVerify
  with_reducible repeat'
    first | assumption | intro _ | apply jobVerify_keeps | apply runJob_keeps | apply KeepsJ.inl | apply KeepsR.ite | apply KeepsR.next

theorem execEcdh_keeps {s : State} (h : Keeps s₀ s) : KeepsR s₀ (execEcdh s) := by
  unfold execEcdh
  with_reducible repeat'
    first | assumption | intro _ | apply jobEcdh_keeps | apply runJob_keeps | apply KeepsJ.inl | apply KeepsR.ite | apply KeepsR.next

theorem execGenerate_keeps {s : State} (h : Keeps s₀ s) (pairwiseOk : Bool) : KeepsR s₀ (execGenerate pairwiseOk s) := by
  unfold execGenerate
  with_reducible repeat'
    first | assumption | intro _ | apply jobGenerate_keeps | apply runJob_keeps | apply KeepsJ.inl | apply KeepsR.ite | apply KeepsR.next

theorem execWrap_keeps {s : State} (h : Keeps s₀ s) : KeepsR s₀ (execWrap s) := by
  unfold execWrap
  with_reducible repeat'
    first | assumption | intro _ | apply jobWrap_keeps | apply runJob_keeps | apply KeepsJ.inl | apply KeepsR.ite | apply KeepsR.next

theorem execImport_keeps {s : State} (h : Keeps s₀ s) : KeepsR s₀ (execImport s) := by
  unfold execImport
  with_reducible repeat'
    first | assumption | intro _ | apply jobImport_keeps | apply runJob_keeps | apply KeepsJ.inl | apply KeepsR.ite | apply KeepsR.next

theorem execPubkey_keeps {s : State} (h : Keeps s₀ s) : KeepsR s₀ (execPubkey s) := by
  unfold execPubkey
  with_reducible repeat'
    first | assumption | intro _ | apply jobPubkey_keeps | apply runJob_keeps | apply KeepsJ.inl | apply KeepsR.ite | apply KeepsR.next

theorem execRand_keeps {s : State} (h : Keeps s₀ s) : KeepsR s₀ (execRand s) := by
  unfold execRand
  with_reducible repeat'
    first | assumption | intro _ | apply jobRand_keeps | apply runJob_keeps | apply KeepsJ.inl | apply KeepsR.ite | apply KeepsR.next

theorem execLcnonce_keeps {s : State} (h : Keeps s₀ s) : KeepsR s₀ (execLcnonce s) := by
  unfold execLcnonce
  with_reducible repeat'
    first | assumption | intro _ | apply jobNonce_keeps | apply runJob_keeps | apply KeepsJ.inl | apply KeepsR.ite | apply KeepsR.next

theorem execLcstep_keeps {s : State} (h : Keeps s₀ s) : KeepsR s₀ (execLcstep s) := by
  unfold execLcstep
  with_reducible repeat'
    first | assumption | intro _ | apply jobLcstep_keeps | apply runJob_keeps | apply KeepsJ.inl | apply KeepsR.ite | apply KeepsR.next

theorem execOwner_keeps {s : State} (h : Keeps s₀ s) : KeepsR s₀ (execOwner s) := by
  unfold execOwner
  with_reducible repeat'
    first | assumption | intro _ | apply jobOwner_keeps | apply runJob_keeps | apply KeepsJ.inl | apply KeepsR.ite | apply KeepsR.next

theorem execKwJobDone_keeps {s : State} (h : Keeps s₀ s) : KeepsR s₀ (execKwJobDone s) := by
  unfold execKwJobDone
  with_reducible repeat'
    first | assumption | intro _ | apply bump_keeps | apply jobFail_keeps | apply runJob_keeps | apply KeepsJ.inl | apply KeepsR.ite
          | apply KeepsR.next | apply Keeps.ite | split | refine Keeps.ofEq (by assumption) ?_ | refine Keeps.ofSome (by assumption) ?_
          | dsimp only | apply Keeps.upd

theorem execKload_keeps {s : State} (h : Keeps s₀ s) (e : Engine) (d a b : Reg) : KeepsR s₀ (execKload e d a b s) := by
  unfold execKload
  with_reducible repeat'
    first | assumption | intro _ | apply raise_keeps | apply block_keeps | apply hubFault_keeps | apply onHub_keeps | apply noteEcc_keeps
          | apply topInsn_keeps | apply done_keeps | apply rangeRead_keeps | apply putSlot_keeps | apply KeepsR.ite | apply KeepsR.next
          | apply Keeps.ite | split | refine Keeps.ofEq (by assumption) ?_ | refine Keeps.ofSome (by assumption) ?_ | dsimp only

theorem execKop_keeps {s : State} (h : Keeps s₀ s) (e : Engine) (d a : Reg) : KeepsR s₀ (execKop e d a s) := by
  unfold execKop
  with_reducible repeat'
    first | assumption | intro _ | apply hubFault_keeps | apply onHub_keeps | apply noteEcc_keeps | apply topInsn_keeps | apply done_keeps
          | apply rangeRead_keeps | apply KeepsR.ite | apply KeepsR.next | apply Keeps.ite | split | refine Keeps.ofEq (by assumption) ?_
          | refine Keeps.ofSome (by assumption) ?_ | dsimp only | apply Keeps.upd

theorem execKwait_keeps {s : State} (h : Keeps s₀ s) (e : Engine) (d a : Reg) : KeepsR s₀ (execKwait e d a s) := by
  unfold execKwait
  with_reducible repeat'
    first | assumption | intro _ | apply raise_keeps | apply block_keeps | apply onHub_keeps | apply topInsn_keeps | apply done_keeps
          | apply KeepsR.ite | apply KeepsR.next | apply Keeps.ite | split

theorem execKrand_keeps {s : State} (h : Keeps s₀ s) (e : Engine) (d : Reg) : KeepsR s₀ (execKrand e d s) := by
  unfold execKrand
  with_reducible repeat'
    first | assumption | intro _ | apply draw_keeps | apply onHub_keeps | apply topInsn_keeps | apply done_keeps | apply drbgUse_keeps
          | apply KeepsR.ite | apply KeepsR.next | apply Keeps.ite

theorem execKfree_keeps {s : State} (h : Keeps s₀ s) (e : Engine) (a : Reg) : KeepsR s₀ (execKfree e a s) := by
  unfold execKfree
  with_reducible repeat'
    first | assumption | intro _ | apply raise_keeps | apply adv_keeps | apply block_keeps | apply unblock_keeps | apply onHub_keeps
          | apply topInsn_keeps | apply emptySlot_keeps | apply KeepsR.ite | apply KeepsR.next | apply Keeps.ite

theorem execKgen_keeps {s : State} (h : Keeps s₀ s) (e : Engine) (d a : Reg) : KeepsR s₀ (execKgen e d a s) := by
  unfold execKgen
  with_reducible repeat'
    first | assumption | intro _ | apply raise_keeps | apply block_keeps | apply onHub_keeps | apply kernelInsn_keeps | apply done_keeps
          | apply startUpdate_keeps | apply KeepsR.ite | apply KeepsR.next | apply Keeps.ite | split
          | refine Keeps.ofEq (by assumption) ?_ | refine Keeps.ofSome (by assumption) ?_ | dsimp only | apply Keeps.upd

theorem execKwPartnerAck_keeps {s : State} (h : Keeps s₀ s) : KeepsR s₀ (execKwPartnerAck s) := by
  unfold execKwPartnerAck
  with_reducible repeat'
    first | assumption | intro _ | apply kgenResult_keeps | apply KeepsR.ite | apply KeepsR.next | apply Keeps.ite | split
          | refine Keeps.ofEq (by assumption) ?_ | refine Keeps.ofSome (by assumption) ?_ | dsimp only | apply Keeps.upd

theorem execKwPartnerTimeout_keeps {s : State} (h : Keeps s₀ s) : KeepsR s₀ (execKwPartnerTimeout s) := by
  unfold execKwPartnerTimeout
  with_reducible repeat'
    first | assumption | refine reachUs_keeps ?_ _ | intro _ | apply raise_keeps | apply kgenResult_keeps | apply KeepsR.ite
          | apply KeepsR.next | apply Keeps.ite | split | refine Keeps.ofEq (by assumption) ?_ | refine Keeps.ofSome (by assumption) ?_

theorem execKwPartnerUpdate_keeps {s : State} (h : Keeps s₀ s) (msg : List Byte) (mic : List Byte) (targets : List (Nat × Word)) :
    KeepsR s₀ (execKwPartnerUpdate msg mic targets s) := by
  unfold execKwPartnerUpdate
  with_reducible repeat'
    first | assumption | intro _ | apply partnerNext_keeps | apply KeepsR.ite | apply KeepsR.next | apply Keeps.ite | split
          | refine Keeps.ofEq (by assumption) ?_ | refine Keeps.ofSome (by assumption) ?_ | dsimp only | apply Keeps.upd

theorem State.mergeEntry_keeps {s : State} (h : Keeps s₀ s) (g : Nat) (v : Word) : Keeps s₀ (State.mergeEntry s g v) := by
  unfold State.mergeEntry
  with_reducible repeat' first | assumption | intro _ | apply raise_keeps | apply chestSet_keeps | apply Keeps.ite

theorem execKwMerge_keeps {s : State} (h : Keeps s₀ s) (theirs : List (Nat × Word)) : KeepsR s₀ (execKwMerge theirs s) := by
  unfold execKwMerge
  with_reducible repeat'
    first | assumption | intro _ | apply setB_keeps | apply orphanSettle_keeps | apply mergeEntry_keeps | apply Keeps.foldl
          | apply Keeps.foldlP | apply KeepsR.ite | apply KeepsR.next | apply Keeps.ite | split | refine Keeps.ofEq (by assumption) ?_
          | refine Keeps.ofSome (by assumption) ?_ | dsimp only | apply Keeps.upd

theorem execKwEntropy_keeps {s : State} (h : Keeps s₀ s) : KeepsR s₀ (execKwEntropy s) := by
  unfold execKwEntropy
  with_reducible repeat'
    first | assumption | intro _ | apply setB_keeps | apply raise_keeps | apply KeepsR.ite | apply KeepsR.next | apply Keeps.ite | split
          | refine Keeps.ofEq (by assumption) ?_ | refine Keeps.ofSome (by assumption) ?_ | dsimp only | apply Keeps.upd

theorem execEntropyRetest_keeps {s : State} (h : Keeps s₀ s) (ok : Bool) : KeepsR s₀ (execEntropyRetest ok s) := by
  unfold execEntropyRetest
  with_reducible repeat'
    first | assumption | refine reachUs_keeps ?_ _ | intro _ | apply setB_keeps | apply drbgSeed_keeps | apply KeepsR.ite
          | apply KeepsR.next | apply Keeps.ite | split | refine Keeps.ofEq (by assumption) ?_ | refine Keeps.ofSome (by assumption) ?_
          | dsimp only | apply Keeps.upd

theorem execDrbgReseed_keeps {s : State} (h : Keeps s₀ s) : KeepsR s₀ (execDrbgReseed s) := by
  unfold execDrbgReseed
  with_reducible repeat'
    first | assumption | refine reachUs_keeps ?_ _ | intro _ | apply drbgSeed_keeps | apply KeepsR.ite | apply KeepsR.next
          | apply Keeps.ite | split | refine Keeps.ofEq (by assumption) ?_ | refine Keeps.ofSome (by assumption) ?_

theorem State.kwSelftest_keeps {s : State} (h : Keeps s₀ s) (ok : Bool) : Keeps s₀ (State.kwSelftest s ok) := by
  unfold State.kwSelftest
  with_reducible repeat' first | assumption | intro _ | apply setB_keeps | apply raise_keeps | apply emptySlots_keeps | apply Keeps.ite

theorem execKwSelftest_keeps {s : State} (h : Keeps s₀ s) (ok : Bool) : KeepsR s₀ (execKwSelftest ok s) := by
  unfold execKwSelftest
  with_reducible repeat' first | assumption | intro _ | apply kwSelftest_keeps | apply KeepsR.ite | apply KeepsR.next

theorem execDebugUnlock_keeps {s : State} (h : Keeps s₀ s) (token : List Byte) : KeepsR s₀ (execDebugUnlock token s) := by
  unfold execDebugUnlock
  with_reducible repeat'
    first | assumption | intro _ | apply drawBytes_keeps | apply setB_keeps | apply raise_keeps | apply emptySlots_keeps
          | apply KeepsR.ite | apply KeepsR.next | apply Keeps.ite | split | refine Keeps.ofEq (by assumption) ?_
          | refine Keeps.ofSome (by assumption) ?_ | dsimp only | apply Keeps.upd

theorem State.debugClose_keeps {s : State} (h : Keeps s₀ s) : Keeps s₀ (State.debugClose s) := by
  unfold State.debugClose
  with_reducible repeat'
    first | assumption | intro _ | apply setB_keeps | apply Keeps.ite | split | refine Keeps.ofEq (by assumption) ?_
          | refine Keeps.ofSome (by assumption) ?_ | dsimp only | apply Keeps.upd

theorem execDebugClose_keeps {s : State} (h : Keeps s₀ s) : KeepsR s₀ (execDebugClose s) := by
  unfold execDebugClose
  with_reducible repeat' first | assumption | intro _ | apply debugClose_keeps | apply KeepsR.ite | apply KeepsR.next

theorem State.keywellSync_keeps {s : State} (h : Keeps s₀ s) (index : Nat) : Keeps s₀ (State.keywellSync s index) := by
  unfold State.keywellSync
  with_reducible repeat' first | assumption | intro _ | apply set_keeps | apply setB_keeps | apply Keeps.ite

/-! ### Boot -/

theorem State.bootRead_keeps {s : State} (h : Keeps s₀ s) (a n : Nat) : Keeps s₀ (State.bootRead s a n).2 := by
  unfold State.bootRead
  with_reducible repeat' first | assumption | intro _ | apply touch_keeps

theorem State.flashWrite_keeps {s : State} (h : Keeps s₀ s) (off : Nat) (bs : List Byte) : Keeps s₀ (State.flashWrite s off bs) := by
  unfold State.flashWrite
  with_reducible repeat' first | assumption | intro _ | apply writeRaw_keeps

theorem State.flashErase_keeps {s : State} (h : Keeps s₀ s) (off n : Nat) : Keeps s₀ (State.flashErase s off n) := by
  unfold State.flashErase
  with_reducible repeat' first | assumption | intro _ | apply flashWrite_keeps

theorem State.setRec_keeps {s : State} (h : Keeps s₀ s) (st trials : Nat) : Keeps s₀ (State.setRec s st trials) := by
  unfold State.setRec
  with_reducible repeat' first | assumption | intro _ | apply chestSet_keeps | apply bootSync_keeps

theorem State.setRecBit_keeps {s : State} (h : Keeps s₀ s) (n : Nat) (b : Bool) : Keeps s₀ (State.setRecBit s n b) := by
  unfold State.setRecBit
  with_reducible repeat' first | assumption | intro _ | apply chestSet_keeps | apply bootSync_keeps

theorem State.countFallback_keeps {s : State} (h : Keeps s₀ s) : Keeps s₀ (State.countFallback s) := by
  unfold State.countFallback
  with_reducible repeat' first | assumption | intro _ | apply chestSet_keeps

theorem State.countStart_keeps {s : State} (h : Keeps s₀ s) : Keeps s₀ (State.countStart s) := by
  unfold State.countStart
  with_reducible repeat' first | assumption | intro _ | apply chestSet_keeps

theorem State.loadHub_keeps {s : State} (h : Keeps s₀ s) (b : List Byte) : Keeps s₀ (State.loadHub s b) := by
  unfold State.loadHub
  with_reducible repeat'
    first | assumption | intro _ | apply writeRaw_keeps | apply load_keeps | apply Keeps.foldl | apply Keeps.foldlP | apply Keeps.ite

theorem State.enterKernel_keeps {s : State} (h : Keeps s₀ s) (pc : Nat) : Keeps s₀ (s.enterKernel pc) := by
  unfold State.enterKernel
  refine ⟨fun i => ?_, h.queue⟩
  have j := h.inv i
  exact ⟨j.mem, CoreOk.start (pcFit_fit _) rfl rfl rfl rfl (Nat.zero_le _), j.core2, j.core3⟩

theorem State.enterRecovery_keeps {s : State} (h : Keeps s₀ s) : Keeps s₀ (State.enterRecovery s) := by
  unfold State.enterRecovery
  with_reducible repeat'
    first | assumption | intro _ | apply Keeps.ite | split | refine Keeps.ofEq (by assumption) ?_ | refine Keeps.ofSome (by assumption) ?_
          | dsimp only | apply Keeps.upd

theorem State.startSlot_keeps {s : State} (h : Keeps s₀ s) (slot off : Nat) : Keeps s₀ (State.startSlot s slot off) := by
  unfold State.startSlot
  with_reducible repeat'
    first | assumption | intro _ | apply set_keeps | apply loadHub_keeps | apply enterKernel_keeps | apply Keeps.ite | split
          | refine Keeps.ofEq (by assumption) ?_ | refine Keeps.ofSome (by assumption) ?_ | dsimp only | apply Keeps.upd

theorem State.startGolden_keeps {s : State} (h : Keeps s₀ s) : Keeps s₀ (State.startGolden s) := by
  unfold State.startGolden
  with_reducible repeat'
    first | assumption | intro _ | apply raise_keeps | apply enterRecovery_keeps | apply startSlot_keeps | apply Keeps.ite | split

theorem State.startActive_keeps {s : State} (h : Keeps s₀ s) : Keeps s₀ (State.startActive s) := by
  unfold State.startActive
  with_reducible repeat'
    first | assumption | intro _ | apply raise_keeps | apply setRec_keeps | apply countFallback_keeps | apply startSlot_keeps
          | apply startGolden_keeps | apply Keeps.ite | split

theorem State.copyStage_keeps {s : State} (h : Keeps s₀ s) (copyOk : Bool) : Keeps s₀ (State.copyStage s copyOk) := by
  unfold State.copyStage
  with_reducible repeat'
    first | assumption | intro _ | apply raise_keeps | apply flashWrite_keeps | apply flashErase_keeps | apply setRec_keeps
          | apply startGolden_keeps | apply startActive_keeps | apply Keeps.ite

theorem State.actRec_keeps {s : State} (h : Keeps s₀ s) (copyOk : Bool) : Keeps s₀ (State.actRec s copyOk) := by
  unfold State.actRec
  with_reducible repeat'
    first | assumption | intro _ | apply raise_keeps | apply setRec_keeps | apply countFallback_keeps | apply startGolden_keeps
          | apply startActive_keeps | apply copyStage_keeps | apply Keeps.ite | split

theorem State.bootAct_keeps {s : State} (h : Keeps s₀ s) (copyOk : Bool) : Keeps s₀ (State.bootAct s copyOk) := by
  unfold State.bootAct
  with_reducible repeat' first | assumption | intro _ | apply raise_keeps | apply setRec_keeps | apply actRec_keeps | apply Keeps.ite

theorem State.wipeTable_keeps {s : State} (h : Keeps s₀ s) : Keeps s₀ (State.wipeTable s) := by
  unfold State.wipeTable
  with_reducible repeat'
    first | assumption | intro _ | apply Keeps.ite | split | refine Keeps.ofEq (by assumption) ?_ | refine Keeps.ofSome (by assumption) ?_
          | dsimp only | apply Keeps.upd

theorem State.journalResolve_keeps {s : State} (h : Keeps s₀ s) : Keeps s₀ (State.journalResolve s) := by
  unfold State.journalResolve
  with_reducible repeat'
    first | assumption | intro _ | apply raise_keeps | apply chestSet_keeps | apply kwStep_keeps | apply wipeTable_keeps
          | apply Keeps.foldl | apply Keeps.foldlP | apply Keeps.ite | split

theorem State.fuseCheck_keeps {s : State} (h : Keeps s₀ s) (partialFuse : Bool) : Keeps s₀ (State.fuseCheck s partialFuse) := by
  unfold State.fuseCheck
  with_reducible repeat' first | assumption | intro _ | apply kwStep_keeps | apply Keeps.ite

theorem State.startWords_keeps {s : State} (h : Keeps s₀ s) : Keeps s₀ (State.startWords s) := by
  unfold State.startWords
  with_reducible repeat' first | assumption | intro _ | apply set_keeps | apply setB_keeps | apply bootSync_keeps

theorem State.startSequence_keeps {s : State} (h : Keeps s₀ s) (ok partialFuse copyOk : Bool) :
    Keeps s₀ (State.startSequence s ok partialFuse copyOk) := by
  unfold State.startSequence
  with_reducible repeat'
    first | assumption | intro _ | apply raise_keeps | apply kwSelftest_keeps | apply countStart_keeps | apply enterRecovery_keeps
          | apply bootAct_keeps | apply journalResolve_keeps | apply fuseCheck_keeps | apply startWords_keeps | apply Keeps.ite | split
          | refine Keeps.ofEq (by assumption) ?_ | refine Keeps.ofSome (by assumption) ?_ | dsimp only | apply Keeps.upd

theorem State.commitStage_keeps {s : State} (h : Keeps s₀ s) : Keeps s₀ (State.commitStage s).2 := by
  unfold State.commitStage
  with_reducible repeat'
    first | assumption | intro _ | apply chestSet_keeps | apply setRec_keeps | apply setRecBit_keeps | apply Keeps.foldl
          | apply Keeps.foldlP | apply Keeps.ite | apply Keeps.iteP | split

theorem State.eraseStage_keeps {s : State} (h : Keeps s₀ s) (off len : Nat) : Keeps s₀ (State.eraseStage s off len) := by
  unfold State.eraseStage
  with_reducible repeat'
    first | assumption | intro _ | apply flashErase_keeps | apply Keeps.foldl | apply Keeps.foldlP | apply Keeps.ite | split
          | refine Keeps.ofEq (by assumption) ?_ | refine Keeps.ofSome (by assumption) ?_ | dsimp only | apply Keeps.upd

theorem State.writeStage_keeps {s : State} (h : Keeps s₀ s) (off : Nat) (bs : List Byte) : Keeps s₀ (State.writeStage s off bs) := by
  unfold State.writeStage
  with_reducible repeat'
    first | assumption | intro _ | apply flashWrite_keeps | apply Keeps.ite | split | refine Keeps.ofEq (by assumption) ?_
          | refine Keeps.ofSome (by assumption) ?_ | dsimp only | apply Keeps.upd

theorem State.slotOp_keeps {s : State} (h : Keeps s₀ s) (d : List Byte) : Keeps s₀ (State.slotOp s d).2 := by
  unfold State.slotOp
  with_reducible repeat'
    first | assumption | intro _ | apply draw_keeps | apply chestSet_keeps | apply bootSync_keeps | apply bootRead_keeps
          | apply flashWrite_keeps | apply setRec_keeps | apply setRecBit_keeps | apply commitStage_keeps | apply eraseStage_keeps
          | apply writeStage_keeps | apply Keeps.ite | apply Keeps.iteP | split | refine Keeps.ofEq (by assumption) ?_
          | refine Keeps.ofSome (by assumption) ?_ | dsimp only | apply Keeps.upd

theorem State.loadSeq_keeps {s : State} (h : Keeps s₀ s) (q : Nat) (b : List Byte) : Keeps s₀ (State.loadSeq s q b) := by
  unfold State.loadSeq
  with_reducible repeat' first | assumption | intro _ | apply set_keeps | apply setSeq_keeps | apply Keeps.ite

theorem State.startRadioSeq_keeps {s : State} (h : Keeps s₀ s) (n : Nat) : Keeps s₀ (State.startRadioSeq s n) := by
  unfold State.startRadioSeq
  with_reducible repeat' first | assumption | intro _ | apply setSeq_keeps | apply setRimg_keeps | apply rcbCheck_keeps

theorem State.loadLibrary_keeps {s : State} (h : Keeps s₀ s) (b : List Byte) : Keeps s₀ (State.loadLibrary s b) := by
  unfold State.loadLibrary
  with_reducible repeat'
    first | assumption | intro _ | apply store_keeps | apply zeroFill_keeps | apply load_keeps | apply Keeps.foldl | apply Keeps.foldlP
          | apply Keeps.ite | split | refine Keeps.ofEq (by assumption) ?_ | refine Keeps.ofSome (by assumption) ?_ | dsimp only
          | apply Keeps.upd

theorem State.loadTargets_keeps {s : State} (h : Keeps s₀ s) (b : List Byte) (profile target entry : Nat) :
    Keeps s₀ (State.loadTargets s b profile target entry) := by
  unfold State.loadTargets
  with_reducible repeat'
    first | assumption | intro _ | apply store_keeps | apply zeroFill_keeps | apply load_keeps | apply loadSeq_keeps
          | apply startRadioSeq_keeps | apply loadLibrary_keeps | apply Keeps.foldl | apply Keeps.foldlP | apply Keeps.ite | split
          | refine Keeps.ofEq (by assumption) ?_ | refine Keeps.ofSome (by assumption) ?_ | dsimp only | apply Keeps.upd

theorem State.imgLoad_keeps {s : State} (h : Keeps s₀ s) (d : List Byte) : Keeps s₀ (State.imgLoad s d).2 := by
  unfold State.imgLoad
  with_reducible repeat'
    first | assumption | intro _ | apply draw_keeps | apply bootRead_keeps | apply loadTargets_keeps | apply Keeps.ite | apply Keeps.iteP
          | split | refine Keeps.ofEq (by assumption) ?_

theorem State.bootRun_keeps {s : State} (h : Keeps s₀ s) : Keeps s₀ (State.bootRun s) := by
  unfold State.bootRun
  with_reducible repeat'
    first | assumption | intro _ | apply raise_keeps | apply slotOp_keeps | apply imgLoad_keeps | apply Keeps.ite | split
          | refine Keeps.ofEq (by assumption) ?_ | refine Keeps.ofSome (by assumption) ?_ | dsimp only | apply Keeps.upd

theorem State.bootInsn_keeps {s : State} (h : Keeps s₀ s) (c : Core) (d a : Reg) (op : Nat) : Keeps s₀ (State.bootInsn s c d a op) := by
  unfold State.bootInsn
  with_reducible repeat'
    first | assumption | intro _ | apply set_keeps | apply hubFault_keeps | apply noteEcc_keeps | apply done_keeps | apply rangeRead_keeps
          | apply bootRun_keeps | apply Keeps.ite | split | refine Keeps.ofEq (by assumption) ?_ | refine Keeps.ofSome (by assumption) ?_
          | dsimp only | apply Keeps.upd

theorem execImgload_keeps {s : State} (h : Keeps s₀ s) (e : Engine) (d a : Reg) : KeepsR s₀ (execImgload e d a s) := by
  unfold execImgload
  with_reducible repeat' first | assumption | intro _ | apply onHub_keeps | apply bootInsn_keeps | apply KeepsR.ite | apply KeepsR.next

theorem execErase_keeps {s : State} (h : Keeps s₀ s) (e : Engine) (d a : Reg) : KeepsR s₀ (execErase e d a s) := by
  unfold execErase
  with_reducible repeat' first | assumption | intro _ | apply onHub_keeps | apply bootInsn_keeps | apply KeepsR.ite | apply KeepsR.next

theorem execWrite_keeps {s : State} (h : Keeps s₀ s) (e : Engine) (d a : Reg) : KeepsR s₀ (execWrite e d a s) := by
  unfold execWrite
  with_reducible repeat' first | assumption | intro _ | apply onHub_keeps | apply bootInsn_keeps | apply KeepsR.ite | apply KeepsR.next

theorem execCommit_keeps {s : State} (h : Keeps s₀ s) (e : Engine) (d a : Reg) : KeepsR s₀ (execCommit e d a s) := by
  unfold execCommit
  with_reducible repeat' first | assumption | intro _ | apply onHub_keeps | apply bootInsn_keeps | apply KeepsR.ite | apply KeepsR.next

theorem execUncommit_keeps {s : State} (h : Keeps s₀ s) (e : Engine) (d a : Reg) : KeepsR s₀ (execUncommit e d a s) := by
  unfold execUncommit
  with_reducible repeat' first | assumption | intro _ | apply onHub_keeps | apply bootInsn_keeps | apply KeepsR.ite | apply KeepsR.next

theorem execWrgold_keeps {s : State} (h : Keeps s₀ s) (e : Engine) (d a : Reg) : KeepsR s₀ (execWrgold e d a s) := by
  unfold execWrgold
  with_reducible repeat' first | assumption | intro _ | apply onHub_keeps | apply bootInsn_keeps | apply KeepsR.ite | apply KeepsR.next

theorem execLockgold_keeps {s : State} (h : Keeps s₀ s) (e : Engine) (d a : Reg) : KeepsR s₀ (execLockgold e d a s) := by
  unfold execLockgold
  with_reducible repeat' first | assumption | intro _ | apply onHub_keeps | apply bootInsn_keeps | apply KeepsR.ite | apply KeepsR.next

theorem execData_keeps {s : State} (h : Keeps s₀ s) (e : Engine) (d a : Reg) : KeepsR s₀ (execData e d a s) := by
  unfold execData
  with_reducible repeat' first | assumption | intro _ | apply onHub_keeps | apply bootInsn_keeps | apply KeepsR.ite | apply KeepsR.next

theorem execIdent_keeps {s : State} (h : Keeps s₀ s) (e : Engine) (d a : Reg) : KeepsR s₀ (execIdent e d a s) := by
  unfold execIdent
  with_reducible repeat' first | assumption | intro _ | apply onHub_keeps | apply bootInsn_keeps | apply KeepsR.ite | apply KeepsR.next

theorem execBootReqDone_keeps {s : State} (h : Keeps s₀ s) : KeepsR s₀ (execBootReqDone s) := by
  unfold execBootReqDone
  with_reducible repeat'
    first | assumption | intro _ | apply set_keeps | apply pend_keeps | apply bootRun_keeps | apply KeepsR.ite | apply KeepsR.next
          | apply Keeps.ite | split | refine Keeps.ofEq (by assumption) ?_ | refine Keeps.ofSome (by assumption) ?_ | dsimp only
          | apply Keeps.upd

theorem execXcvrLoadFail_keeps {s : State} (h : Keeps s₀ s) (n : Fin 4) : KeepsR s₀ (execXcvrLoadFail n s) := by
  unfold execXcvrLoadFail
  with_reducible repeat'
    first | assumption | refine reachUs_keeps ?_ _ | intro _ | apply raise_keeps | apply KeepsR.ite | apply KeepsR.next | apply Keeps.ite
          | split | refine Keeps.ofEq (by assumption) ?_ | refine Keeps.ofSome (by assumption) ?_ | dsimp only | apply Keeps.upd

theorem execRecoveryMessage_keeps {s : State} (h : Keeps s₀ s) (msg : List Byte) : KeepsR s₀ (execRecoveryMessage msg s) := by
  unfold execRecoveryMessage
  with_reducible repeat'
    first | assumption | intro _ | apply raise_keeps | apply deviceReset_keeps | apply flashWrite_keeps | apply commitStage_keeps
          | apply eraseStage_keeps | apply Keeps.foldl | apply Keeps.foldlP | apply KeepsR.ite | apply KeepsR.next | apply Keeps.ite
          | split | refine Keeps.ofEq (by assumption) ?_ | refine Keeps.ofSome (by assumption) ?_ | dsimp only | apply Keeps.upd

theorem State.cycStart_keeps {s : State} (h : Keeps s₀ s) : Keeps s₀ (State.cycStart s) := by
  unfold State.cycStart
  with_reducible repeat'
    first | assumption | intro _ | apply raise_keeps | apply Keeps.ite | split | refine Keeps.ofEq (by assumption) ?_
          | refine Keeps.ofSome (by assumption) ?_ | dsimp only | apply Keeps.upd

theorem execCycstart_keeps {s : State} (h : Keeps s₀ s) : KeepsR s₀ (execCycstart s) := by
  unfold execCycstart
  with_reducible repeat' first | assumption | intro _ | apply cycStart_keeps | apply KeepsR.ite | apply KeepsR.next

theorem State.cyclesBegin_keeps {s : State} (h : Keeps s₀ s) : Keeps s₀ (State.cyclesBegin s) := by
  unfold State.cyclesBegin
  with_reducible repeat'
    first | assumption | intro _ | apply setB_keeps | apply cycStart_keeps | apply Keeps.ite | split
          | refine Keeps.ofEq (by assumption) ?_ | refine Keeps.ofSome (by assumption) ?_ | dsimp only | apply Keeps.upd

theorem execCycleStart_keeps {s : State} (h : Keeps s₀ s) : KeepsR s₀ (execCycleStart s) := by
  unfold execCycleStart
  with_reducible repeat' first | assumption | intro _ | apply cyclesBegin_keeps | apply KeepsR.ite | apply KeepsR.next

theorem State.planRestart_keeps {s : State} (h : Keeps s₀ s) (cause : Nat) : Keeps s₀ (State.planRestart s cause) := by
  unfold State.planRestart
  with_reducible repeat'
    first | assumption | intro _ | apply deviceReset_keeps | apply yieldPair_keeps | apply Keeps.ite | split
          | refine Keeps.ofEq (by assumption) ?_ | refine Keeps.ofSome (by assumption) ?_ | dsimp only | apply Keeps.upd

theorem execBootReset_keeps {s : State} (h : Keeps s₀ s) : KeepsR s₀ (execBootReset s) := by
  unfold execBootReset
  with_reducible repeat' first | assumption | intro _ | apply planRestart_keeps | apply KeepsR.ite | apply KeepsR.next

theorem State.restartYield_keeps {s : State} (h : Keeps s₀ s) : Keeps s₀ (State.restartYield s) := by
  unfold State.restartYield
  with_reducible repeat' first | assumption | intro _ | apply deviceReset_keeps | apply yieldPair_keeps | apply Keeps.ite | split

theorem execJournalReceived_keeps {s : State} (h : Keeps s₀ s) (raw : List Byte) (part : Bool) :
    KeepsR s₀ (execJournalReceived raw part s) := by
  unfold execJournalReceived
  with_reducible repeat'
    first | assumption | intro _ | apply deviceReset_keeps | apply sendLeave_keeps | apply journalReceived_keeps | apply KeepsR.ite
          | apply KeepsR.next | apply Keeps.ite | split | refine Keeps.ofEq (by assumption) ?_ | refine Keeps.ofSome (by assumption) ?_
          | dsimp only

theorem execJournalAckReceived_keeps {s : State} (h : Keeps s₀ s) (m : CtlMsg) : KeepsR s₀ (execJournalAckReceived m s) := by
  unfold execJournalAckReceived
  with_reducible repeat'
    first | assumption | intro _ | apply journalAck_keeps | apply restartYield_keeps | apply KeepsR.ite | apply KeepsR.next

theorem State.yieldOver_keeps {s : State} (h : Keeps s₀ s) (t : Nat) : ∀ u, s.yieldOver t = some u → Keeps s₀ u := by
  intro u e
  unfold State.yieldOver at e
  split at e
  · split at e
    · cases e; exact h
    · exact State.reachUs_keeps h _ _ e
  · exact State.reachUs_keeps h _ _ e

theorem execYieldEnd_keeps {s : State} (h : Keeps s₀ s) : KeepsR s₀ (execYieldEnd s) := by
  unfold execYieldEnd
  with_reducible repeat'
    first | assumption | refine yieldOver_keeps ?_ _ | intro _ | apply deviceReset_keeps | apply KeepsR.ite | apply KeepsR.next
          | apply Keeps.ite | split | refine Keeps.ofEq (by assumption) ?_ | refine Keeps.ofSome (by assumption) ?_ | dsimp only
          | apply Keeps.upd

theorem execTrialExpired_keeps {s : State} (h : Keeps s₀ s) : KeepsR s₀ (execTrialExpired s) := by
  unfold execTrialExpired
  with_reducible repeat'
    first | assumption | refine reachUs_keeps ?_ _ | intro _ | apply raise_keeps | apply planRestart_keeps | apply KeepsR.ite
          | apply KeepsR.next | apply Keeps.ite | split | refine Keeps.ofEq (by assumption) ?_ | refine Keeps.ofSome (by assumption) ?_
          | dsimp only

theorem execHealthConfirm_keeps {s : State} (h : Keeps s₀ s) (e : Engine) (d : Reg) : KeepsR s₀ (execHealthConfirm e d s) := by
  unfold execHealthConfirm
  with_reducible repeat'
    first | assumption | intro _ | apply raise_keeps | apply chestSet_keeps | apply onHub_keeps | apply kernelInsn_keeps
          | apply done_keeps | apply setRec_keeps | apply KeepsR.ite | apply KeepsR.next | apply Keeps.ite

theorem State.serviceSecond_keeps {s : State} (h : Keeps s₀ s) : Keeps s₀ (State.serviceSecond s) := by
  unfold State.serviceSecond
  with_reducible repeat'
    first | assumption | intro _ | apply bump_keeps | apply Keeps.ite | split | refine Keeps.ofEq (by assumption) ?_
          | refine Keeps.ofSome (by assumption) ?_ | dsimp only | apply Keeps.upd

theorem State.serviceCycle_keeps {s : State} (h : Keeps s₀ s) : Keeps s₀ (State.serviceCycle s) := by
  unfold State.serviceCycle
  with_reducible repeat'
    first | assumption | intro _ | apply Keeps.ite | split | refine Keeps.ofEq (by assumption) ?_ | refine Keeps.ofSome (by assumption) ?_
          | dsimp only | apply Keeps.upd

theorem State.bootReadSync_keeps {s : State} (h : Keeps s₀ s) : Keeps s₀ (State.bootReadSync s) := by
  unfold State.bootReadSync
  with_reducible repeat' first | assumption | intro _ | apply set_keeps | apply bootSync_keeps

/-! ### Net -/

theorem State.netRun_keeps {s : State} (h : Keeps s₀ s) (k : Nat) : Keeps s₀ (State.netRun s k) := by
  unfold State.netRun
  with_reducible repeat'
    first | assumption | intro _ | apply set_keeps | apply setB_keeps | apply raise_keeps | apply askIsland_keeps | apply unitStart_keeps
          | apply Keeps.ite | split | refine Keeps.ofEq (by assumption) ?_ | refine Keeps.ofSome (by assumption) ?_ | dsimp only
          | apply Keeps.upd

theorem execNetRun_keeps {s : State} (h : Keeps s₀ s) (k : Fin 4) : KeepsR s₀ (execNetRun k s) := by
  unfold execNetRun
  with_reducible repeat' first | assumption | intro _ | apply netRun_keeps | apply KeepsR.ite | apply KeepsR.next

theorem execSerdesNoLock_keeps {s : State} (h : Keeps s₀ s) (k : Fin 4) : KeepsR s₀ (execSerdesNoLock k s) := by
  unfold execSerdesNoLock
  with_reducible repeat'
    first | assumption | refine reachUs_keeps ?_ _ | intro _ | apply set_keeps | apply raise_keeps | apply KeepsR.ite | apply KeepsR.next
          | apply Keeps.ite | split | refine Keeps.ofEq (by assumption) ?_ | refine Keeps.ofSome (by assumption) ?_

theorem execLinkUp_keeps {s : State} (h : Keeps s₀ s) (k : Fin 4) (speed : Fin 4) : KeepsR s₀ (execLinkUp k speed s) := by
  unfold execLinkUp
  with_reducible repeat'
    first | assumption | intro _ | apply set_keeps | apply setB_keeps | apply KeepsR.ite | apply KeepsR.next | apply Keeps.ite | split
          | refine Keeps.ofEq (by assumption) ?_ | refine Keeps.ofSome (by assumption) ?_ | dsimp only | apply Keeps.upd

theorem execLinkDown_keeps {s : State} (h : Keeps s₀ s) (k : Fin 4) : KeepsR s₀ (execLinkDown k s) := by
  unfold execLinkDown
  with_reducible repeat'
    first | assumption | intro _ | apply set_keeps | apply setB_keeps | apply raise_keeps | apply KeepsR.ite | apply KeepsR.next

theorem State.netStop_keeps {s : State} (h : Keeps s₀ s) (k : Nat) : Keeps s₀ (State.netStop s k) := by
  unfold State.netStop
  with_reducible repeat' first | assumption | intro _ | apply set_keeps | apply setB_keeps | apply unitStop_keeps | apply Keeps.ite

theorem execNetStop_keeps {s : State} (h : Keeps s₀ s) (k : Fin 4) : KeepsR s₀ (execNetStop k s) := by
  unfold execNetStop
  with_reducible repeat' first | assumption | intro _ | apply netStop_keeps | apply KeepsR.ite | apply KeepsR.next

theorem State.pushIn_keeps {s : State} (h : Keeps s₀ s) (body : List Byte) : Keeps s₀ (State.pushIn s body) := by
  unfold State.pushIn
  with_reducible repeat' first | assumption | intro _ | apply qPush_keeps | apply Keeps.ite

theorem State.learn_keeps {s : State} (h : Keeps s₀ s) (mac port : Nat) : Keeps s₀ (State.learn s mac port) := by
  unfold State.learn
  with_reducible repeat'
    first | assumption | intro _ | apply Keeps.ite | split | refine Keeps.ofEq (by assumption) ?_ | refine Keeps.ofSome (by assumption) ?_
          | dsimp only | apply Keeps.upd

theorem State.netSend_keeps {s : State} (h : Keeps s₀ s) (j : Nat) (f : List Byte) : Keeps s₀ (State.netSend s j f) := by
  unfold State.netSend
  with_reducible repeat'
    first | assumption | intro _ | apply bump_keeps | apply Keeps.ite | split | refine Keeps.ofEq (by assumption) ?_
          | refine Keeps.ofSome (by assumption) ?_ | dsimp only | apply Keeps.upd

theorem State.forward_keeps {s : State} (h : Keeps s₀ s) (r : RxFrame) (j : Nat) : Keeps s₀ (State.forward s r j) := by
  unfold State.forward
  with_reducible repeat' first | assumption | intro _ | apply bump_keeps | apply raise_keeps | apply netSend_keeps | apply Keeps.ite | split

theorem State.toHub_keeps {s : State} (h : Keeps s₀ s) (r : RxFrame) : Keeps s₀ (State.toHub s r) := by
  unfold State.toHub
  with_reducible repeat'
    first | assumption | intro _ | apply raise_keeps | apply pushIn_keeps | apply Keeps.ite | split | refine Keeps.ofEq (by assumption) ?_
          | refine Keeps.ofSome (by assumption) ?_ | dsimp only | apply Keeps.upd

theorem State.bellFrameRx_keeps {s : State} (h : Keeps s₀ s) (r : RxFrame) : Keeps s₀ (State.bellFrameRx s r) := by
  unfold State.bellFrameRx
  with_reducible repeat'
    first | assumption | intro _ | apply bump_keeps | apply raise_keeps | apply qPushHw_keeps | apply Keeps.ite | split
          | refine Keeps.ofEq (by assumption) ?_ | refine Keeps.ofSome (by assumption) ?_ | dsimp only | apply Keeps.upd

theorem State.ethFrame_keeps {s : State} (h : Keeps s₀ s) (r : RxFrame) : Keeps s₀ (State.ethFrame s r) := by
  unfold State.ethFrame
  with_reducible repeat'
    first | assumption | intro _ | apply bump_keeps | apply raise_keeps | apply learn_keeps | apply forward_keeps | apply toHub_keeps
          | apply bellFrameRx_keeps | apply Keeps.foldl | apply Keeps.foldlP | apply Keeps.ite | split

theorem execEthFrameRx_keeps {s : State} (h : Keeps s₀ s) (k : Fin 4) (frame : List Byte) (fcs : Bool) (sub : Nat) (res : List Nat) :
    KeepsR s₀ (execEthFrameRx k frame fcs sub res s) := by
  unfold execEthFrameRx
  with_reducible repeat'
    first | assumption | intro _ | apply qCross_keeps | apply ethFrame_keeps | apply KeepsR.ite | apply KeepsR.next | apply Keeps.ite
          | split | refine Keeps.ofEq (by assumption) ?_

theorem State.stepAnnounce_keeps {s : State} (h : Keeps s₀ s) (x : Int) : Keeps s₀ (State.stepAnnounce s x) := by
  unfold State.stepAnnounce
  with_reducible repeat'
    first | assumption | intro _ | apply qPush_keeps | apply Keeps.foldl | apply Keeps.foldlP | apply Keeps.ite | split
          | refine Keeps.ofEq (by assumption) ?_ | refine Keeps.ofSome (by assumption) ?_ | dsimp only | apply Keeps.upd

theorem State.hubSend_keeps {s : State} (h : Keeps s₀ s) (opts tag : Nat) (f : List Byte) (subs : List Nat) (j : Nat) :
    Keeps s₀ (State.hubSend s opts tag f subs j) := by
  unfold State.hubSend
  with_reducible repeat'
    first | assumption | intro _ | apply bump_keeps | apply netSend_keeps | apply Keeps.ite | split | refine Keeps.ofEq (by assumption) ?_
          | refine Keeps.ofSome (by assumption) ?_ | dsimp only | apply Keeps.upd

theorem execHubFrameTx_keeps {s : State} (h : Keeps s₀ s) (gated : Bool) (subs : List Nat) : KeepsR s₀ (execHubFrameTx gated subs s) := by
  unfold execHubFrameTx
  with_reducible repeat'
    first | assumption | intro _ | apply bump_keeps | apply qPop_keeps | apply hubSend_keeps | apply Keeps.foldl | apply Keeps.foldlP
          | apply KeepsR.ite | apply KeepsR.next | apply Keeps.ite | split | refine Keeps.ofEq (by assumption) ?_

theorem execTxTimestampReturn_keeps {s : State} (h : Keeps s₀ s) : KeepsR s₀ (execTxTimestampReturn s) := by
  unfold execTxTimestampReturn
  with_reducible repeat'
    first | assumption | intro _ | apply pushIn_keeps | apply KeepsR.ite | apply KeepsR.next | apply Keeps.ite | split
          | refine Keeps.ofEq (by assumption) ?_ | refine Keeps.ofSome (by assumption) ?_ | dsimp only | apply Keeps.upd

/-! ### Kettle -/

theorem State.railSet_keeps {s : State} (h : Keeps s₀ s) (j : Nat) (on : Bool) : Keeps s₀ (State.railSet s j on) := by
  unfold State.railSet
  with_reducible repeat'
    first | assumption | intro _ | apply Keeps.ite | split | refine Keeps.ofEq (by assumption) ?_ | refine Keeps.ofSome (by assumption) ?_
          | dsimp only | apply Keeps.upd

theorem State.railsBegin_keeps {s : State} (h : Keeps s₀ s) (steps : List Nat) : Keeps s₀ (State.railsBegin s steps) := by
  unfold State.railsBegin
  with_reducible repeat'
    first | assumption | intro _ | apply holdReset_keeps | apply Keeps.ite | split | refine Keeps.ofEq (by assumption) ?_
          | refine Keeps.ofSome (by assumption) ?_ | dsimp only | apply Keeps.upd

theorem State.railsOff_keeps {s : State} (h : Keeps s₀ s) (l : List Nat) : Keeps s₀ (State.railsOff s l) := by
  unfold State.railsOff
  with_reducible repeat'
    first | assumption | intro _ | apply railSet_keeps | apply Keeps.ite | split | refine Keeps.ofEq (by assumption) ?_
          | refine Keeps.ofSome (by assumption) ?_ | dsimp only | apply Keeps.upd

theorem execPowerSequenceStart_keeps {s : State} (h : Keeps s₀ s) : KeepsR s₀ (execPowerSequenceStart s) := by
  unfold execPowerSequenceStart
  with_reducible repeat' first | assumption | intro _ | apply railsBegin_keeps | apply KeepsR.ite | apply KeepsR.next

theorem execRailPowerGood_keeps {s : State} (h : Keeps s₀ s) : KeepsR s₀ (execRailPowerGood s) := by
  unfold execRailPowerGood
  with_reducible repeat'
    first | assumption | intro _ | apply freeReset_keeps | apply railSet_keeps | apply KeepsR.ite | apply KeepsR.next | apply Keeps.ite
          | split | refine Keeps.ofEq (by assumption) ?_ | refine Keeps.ofSome (by assumption) ?_ | dsimp only | apply Keeps.upd

theorem execRailStepTimeout_keeps {s : State} (h : Keeps s₀ s) : KeepsR s₀ (execRailStepTimeout s) := by
  unfold execRailStepTimeout
  with_reducible repeat'
    first | assumption | intro _ | apply raise_keeps | apply railSet_keeps | apply railsOff_keeps | apply KeepsR.ite | apply KeepsR.next
          | apply Keeps.ite | split | refine Keeps.ofEq (by assumption) ?_ | refine Keeps.ofSome (by assumption) ?_ | dsimp only
          | apply Keeps.upd

theorem execSequenceRetry_keeps {s : State} (h : Keeps s₀ s) : KeepsR s₀ (execSequenceRetry s) := by
  unfold execSequenceRetry
  with_reducible repeat' first | assumption | intro _ | apply railsBegin_keeps | apply KeepsR.ite | apply KeepsR.next

theorem execRailOffStep_keeps {s : State} (h : Keeps s₀ s) : KeepsR s₀ (execRailOffStep s) := by
  unfold execRailOffStep
  with_reducible repeat'
    first | assumption | intro _ | apply railsOff_keeps | apply KeepsR.ite | apply KeepsR.next | apply Keeps.ite | split

theorem State.pmbusPoll_keeps {s : State} (h : Keeps s₀ s) (polls : List RailPoll) : Keeps s₀ (State.pmbusPoll s polls) := by
  unfold State.pmbusPoll
  with_reducible repeat'
    first | assumption | intro _ | apply raise_keeps | apply Keeps.foldl | apply Keeps.foldlP | apply Keeps.ite | split
          | refine Keeps.ofEq (by assumption) ?_ | refine Keeps.ofSome (by assumption) ?_ | dsimp only | apply Keeps.upd

theorem execPmbusPoll_keeps {s : State} (h : Keeps s₀ s) (polls : List RailPoll) : KeepsR s₀ (execPmbusPoll polls s) := by
  unfold execPmbusPoll
  with_reducible repeat' first | assumption | intro _ | apply pmbusPoll_keeps | apply KeepsR.ite | apply KeepsR.next

theorem execPmalert_keeps {s : State} (h : Keeps s₀ s) (polls : List RailPoll) : KeepsR s₀ (execPmalert polls s) := by
  unfold execPmalert
  with_reducible repeat' first | assumption | intro _ | apply pmbusPoll_keeps | apply KeepsR.ite | apply KeepsR.next

theorem State.throttleFollow_keeps {s : State} (h : Keeps s₀ s) : Keeps s₀ (State.throttleFollow s) := by
  unfold State.throttleFollow
  with_reducible repeat' first | assumption | intro _ | apply setB_keeps

theorem State.avsStep_keeps {s : State} (h : Keeps s₀ s) (mv : Nat) : Keeps s₀ (State.avsStep s mv) := by
  unfold State.avsStep
  with_reducible repeat'
    first | exact fun i => (core_ok i _).congr rfl rfl rfl rfl rfl rfl
          | exact fun i => have k := core_ok i _; ⟨pcFit_fit _, k.epc, k.status, k.evec, k.g0, k.chest⟩
          | exact fun i => (core_ok i _).stop | assumption | refine reachUs_keeps ?_ _ | intro _ | apply set_keeps | apply Keeps.ite
          | split | refine Keeps.ofEq (by assumption) ?_ | refine Keeps.ofSome (by assumption) ?_ | dsimp only | apply Keeps.upd

theorem execAvsRead_keeps {s : State} (h : Keeps s₀ s) (codes : List (Option Nat)) : KeepsR s₀ (execAvsRead codes s) := by
  unfold execAvsRead
  with_reducible repeat'
    first | exact fun i => (core_ok i _).congr rfl rfl rfl rfl rfl rfl
          | exact fun i => have k := core_ok i _; ⟨pcFit_fit _, k.epc, k.status, k.evec, k.g0, k.chest⟩
          | exact fun i => (core_ok i _).stop | assumption | intro _ | apply set_keeps | apply setB_keeps | apply raise_keeps
          | apply throttleFollow_keeps | apply avsStep_keeps | apply KeepsR.ite | apply KeepsR.next | apply Keeps.ite | split
          | refine Keeps.ofEq (by assumption) ?_ | refine Keeps.ofSome (by assumption) ?_ | dsimp only | apply Keeps.upd

theorem State.chestCut_keeps {s : State} (h : Keeps s₀ s) (l : List (Nat × Word)) (most : Nat) : Keeps s₀ (State.chestCut s l most) := by
  unfold State.chestCut
  with_reducible repeat' first | assumption | intro _ | apply draw_keeps | apply chestSet_keeps | apply Keeps.foldl

theorem State.chestHeads_keeps {s : State} (h : Keeps s₀ s) : Keeps s₀ (State.chestHeads s).2 := by
  unfold State.chestHeads
  with_reducible repeat'
    first | exact fun i => (core_ok i _).congr rfl rfl rfl rfl rfl rfl
          | exact fun i => have k := core_ok i _; ⟨pcFit_fit _, k.epc, k.status, k.evec, k.g0, k.chest⟩
          | exact fun i => (core_ok i _).stop | assumption | intro _ | apply draw_keeps

theorem execRefclkLost_keeps {s : State} (h : Keeps s₀ s) : KeepsR s₀ (execRefclkLost s) := by
  unfold execRefclkLost
  with_reducible repeat'
    first | assumption | intro _ | apply holdReset_keeps | apply kettleReset_keeps | apply chestCut_keeps | apply chestHeads_keeps
          | apply KeepsR.ite | apply KeepsR.next

theorem execRefclkValid_keeps {s : State} (h : Keeps s₀ s) : KeepsR s₀ (execRefclkValid s) := by
  unfold execRefclkValid
  with_reducible repeat' first | assumption | intro _ | apply freeReset_keeps | apply KeepsR.ite | apply KeepsR.next

theorem execPllUnlock_keeps {s : State} (h : Keeps s₀ s) : KeepsR s₀ (execPllUnlock s) := by
  unfold execPllUnlock
  with_reducible repeat' first | assumption | intro _ | apply kettleReset_keeps | apply KeepsR.ite | apply KeepsR.next

theorem execIslandGrant_keeps {s : State} (h : Keeps s₀ s) : KeepsR s₀ (execIslandGrant s) := by
  unfold execIslandGrant
  with_reducible repeat'
    first | assumption | refine reachUs_keeps ?_ _ | intro _ | apply KeepsR.ite | apply KeepsR.next | apply Keeps.ite | split
          | refine Keeps.ofEq (by assumption) ?_ | refine Keeps.ofSome (by assumption) ?_ | dsimp only | apply Keeps.upd

theorem State.setSleep_keeps {s : State} (h : Keeps s₀ s) (i : Island) (v : IslandSleep) : Keeps s₀ (State.setSleep s i v) := by
  unfold State.setSleep
  with_reducible repeat'
    first | assumption | intro _ | apply setMask_keeps | apply Keeps.ite | split | refine Keeps.ofEq (by assumption) ?_
          | refine Keeps.ofSome (by assumption) ?_ | dsimp only | apply Keeps.upd

theorem execIslandReady_keeps {s : State} (h : Keeps s₀ s) (i : Island) : KeepsR s₀ (execIslandReady i s) := by
  unfold execIslandReady
  with_reducible repeat'
    first | assumption | intro _ | apply setMask_keeps | apply engineJoin_keeps | apply quadReady_keeps | apply setSleep_keeps
          | apply KeepsR.ite | apply KeepsR.next | apply Keeps.ite | split | refine Keeps.ofEq (by assumption) ?_
          | refine Keeps.ofSome (by assumption) ?_ | dsimp only | apply Keeps.upd

theorem execIslandFailed_keeps {s : State} (h : Keeps s₀ s) (i : Island) : KeepsR s₀ (execIslandFailed i s) := by
  unfold execIslandFailed
  with_reducible repeat'
    first | assumption | refine reachUs_keeps ?_ _ | intro _ | apply set_keeps | apply setMask_keeps | apply raise_keeps
          | apply engineFail_keeps | apply linkDown_keeps | apply correlStop_keeps | apply setSleep_keeps | apply KeepsR.ite
          | apply KeepsR.next | apply Keeps.ite | split | refine Keeps.ofEq (by assumption) ?_ | refine Keeps.ofSome (by assumption) ?_
          | dsimp only | apply Keeps.upd

theorem State.islfailClear_keeps {s : State} (h : Keeps s₀ s) (i : Island) : Keeps s₀ (State.islfailClear s i) := by
  unfold State.islfailClear
  with_reducible repeat' first | assumption | intro _ | apply setMask_keeps | apply askIsland_keeps | apply Keeps.ite

theorem execIslfailClear_keeps {s : State} (h : Keeps s₀ s) (i : Island) : KeepsR s₀ (execIslfailClear i s) := by
  unfold execIslfailClear
  with_reducible repeat' first | assumption | intro _ | apply islfailClear_keeps | apply KeepsR.ite | apply KeepsR.next

theorem State.setWake_keeps {s : State} (h : Keeps s₀ s) (i : Island) (v : IslandSleep) : Keeps s₀ (State.setWake s i v) := by
  unfold State.setWake
  with_reducible repeat'
    first | assumption | intro _ | apply Keeps.ite | split | refine Keeps.ofEq (by assumption) ?_ | refine Keeps.ofSome (by assumption) ?_
          | dsimp only | apply Keeps.upd

theorem execIslandSleep_keeps {s : State} (h : Keeps s₀ s) (i : Island) : KeepsR s₀ (execIslandSleep i s) := by
  unfold execIslandSleep
  with_reducible repeat'
    first | assumption | intro _ | apply bump_keeps | apply setSleep_keeps | apply setWake_keeps | apply KeepsR.ite | apply KeepsR.next
          | apply Keeps.ite

theorem execIslandWake_keeps {s : State} (h : Keeps s₀ s) (i : Island) : KeepsR s₀ (execIslandWake i s) := by
  unfold execIslandWake
  refine KeepsR.ite (KeepsR.next h) ?_
  split
  · exact KeepsR.next h
  · rename_i e
    obtain ⟨t, _, e⟩ := Option.bind_eq_some_iff.1 e
    exact KeepsR.next (State.setSleep_keeps (State.reachUs_keeps h _ _ e) ..)

theorem execDemandWake_keeps {s : State} (h : Keeps s₀ s) (i : Island) : KeepsR s₀ (execDemandWake i s) := by
  unfold execDemandWake
  with_reducible repeat'
    first | assumption | intro _ | apply bump_keeps | apply warnOnce_keeps | apply setSleep_keeps | apply KeepsR.ite | apply KeepsR.next
          | apply Keeps.ite | split | refine Keeps.ofEq (by assumption) ?_ | refine Keeps.ofSome (by assumption) ?_ | dsimp only
          | apply Keeps.upd

theorem execScrubPassComplete_keeps {s : State} (h : Keeps s₀ s) (us : Nat) : KeepsR s₀ (execScrubPassComplete us s) := by
  unfold execScrubPassComplete
  with_reducible repeat'
    first | assumption | intro _ | apply set_keeps | apply bump_keeps | apply eccFix_keeps | apply eccBad_keeps | apply KeepsR.ite
          | apply KeepsR.next | apply Keeps.ite | split | refine Keeps.ofEq (by assumption) ?_ | refine Keeps.ofSome (by assumption) ?_
          | dsimp only | apply Keeps.upd

theorem execScrubLate_keeps {s : State} (h : Keeps s₀ s) (bank : Fin 16) : KeepsR s₀ (execScrubLate bank s) := by
  unfold execScrubLate
  with_reducible repeat' first | assumption | intro _ | apply setB_keeps | apply raise_keeps | apply KeepsR.ite | apply KeepsR.next

theorem execScrubBankWake_keeps {s : State} (h : Keeps s₀ s) (bank : Fin 16) : KeepsR s₀ (execScrubBankWake bank s) := by
  unfold execScrubBankWake
  with_reducible repeat'
    first | assumption | intro _ | apply setSleep_keeps | apply KeepsR.ite | apply KeepsR.next | apply Keeps.ite | split
          | refine Keeps.ofEq (by assumption) ?_ | refine Keeps.ofSome (by assumption) ?_ | dsimp only | apply Keeps.upd

theorem State.sleepEnter_keeps {s : State} (h : Keeps s₀ s) (d : DeviceSleep) : Keeps s₀ (s.sleepEnter d) := by
  unfold State.sleepEnter
  extract_lets a b c₀ c d' e f g
  have ha : Keeps s₀ a := State.deviceReset_keeps h ..
  clear_value a
  have hb : Keeps s₀ b := by
    refine ⟨fun i => ?_, ha.queue⟩
    have j := ha.inv i
    refine ⟨?_, j.kernel, j.core2, j.core3⟩
    show Memory.wf (if d = .rest then s.mem else s.mem.filter _) = true
    split
    · exact (h.inv i).mem
    · exact Memory.wf_filter _ (h.inv i).mem
  clear_value b
  have hc : Keeps s₀ c := Keeps.upd hb ..
  clear_value c
  have hd : Keeps s₀ d' := State.set_keeps (State.set_keeps (State.set_keeps hc ..) ..) ..
  clear_value d'
  have hf : Keeps s₀ f := Keeps.upd hd ..
  clear_value f
  exact State.railsOff_keeps (State.holdReset_keeps (State.set_keeps hf ..) _) _

theorem State.sleepDevice_keeps {s : State} (h : Keeps s₀ s) : Keeps s₀ (State.sleepDevice s) := by
  unfold State.sleepDevice
  with_reducible repeat' first | assumption | intro _ | apply raise_keeps | apply sleepEnter_keeps | apply Keeps.ite

theorem execSleep_keeps {s : State} (h : Keeps s₀ s) : KeepsR s₀ (execSleep s) := by
  unfold execSleep
  with_reducible repeat' first | assumption | intro _ | apply sleepDevice_keeps | apply KeepsR.ite | apply KeepsR.next

theorem State.wakeDevice_keeps {s : State} (h : Keeps s₀ s) : Keeps s₀ (State.wakeDevice s) := by
  unfold State.wakeDevice
  with_reducible repeat'
    first | assumption | intro _ | apply set_keeps | apply setB_keeps | apply freeReset_keeps | apply railsBegin_keeps | apply Keeps.ite
          | split | refine Keeps.ofEq (by assumption) ?_ | refine Keeps.ofSome (by assumption) ?_ | dsimp only | apply Keeps.upd

theorem execDeviceWake_keeps {s : State} (h : Keeps s₀ s) : KeepsR s₀ (execDeviceWake s) := by
  unfold execDeviceWake
  with_reducible repeat'
    first | assumption | intro _ | apply wakeDevice_keeps | apply KeepsR.ite | apply KeepsR.next | apply Keeps.ite | split
          | refine Keeps.ofEq (by assumption) ?_ | refine Keeps.ofSome (by assumption) ?_ | dsimp only | apply Keeps.upd

theorem execWakeGpio_keeps {s : State} (h : Keeps s₀ s) (pin : Fin 8) : KeepsR s₀ (execWakeGpio pin s) := by
  unfold execWakeGpio
  with_reducible repeat'
    first | assumption | intro _ | apply draw_keeps | apply wakeDevice_keeps | apply KeepsR.ite | apply KeepsR.next | apply Keeps.ite
          | split | refine Keeps.ofEq (by assumption) ?_ | refine Keeps.ofSome (by assumption) ?_ | dsimp only | apply Keeps.upd

theorem execResetAssert_keeps {s : State} (h : Keeps s₀ s) : KeepsR s₀ (execResetAssert s) := by
  unfold execResetAssert
  with_reducible repeat'
    first | assumption | intro _ | apply deviceReset_keeps | apply holdReset_keeps | apply freeReset_keeps | apply railsBegin_keeps
          | apply KeepsR.ite | apply KeepsR.next | apply Keeps.ite

theorem execResetRelease_keeps {s : State} (h : Keeps s₀ s) (lockstep ok partialFuse copyOk : Bool) :
    KeepsR s₀ (execResetRelease lockstep ok partialFuse copyOk s) := by
  unfold execResetRelease
  with_reducible repeat'
    first | assumption | intro _ | apply freeReset_keeps | apply lstepSelftest_keeps | apply kwSelftest_keeps | apply enterKernel_keeps
          | apply startWords_keeps | apply startSequence_keeps | apply KeepsR.ite | apply KeepsR.next | apply Keeps.ite

theorem State.tempWords_keeps {s : State} (h : Keeps s₀ s) (temps : List (BitVec 16)) : Keeps s₀ (State.tempWords s temps) := by
  unfold State.tempWords
  with_reducible repeat' first | assumption | intro _ | apply set_keeps | apply Keeps.foldl

theorem execThermalSample_keeps {s : State} (h : Keeps s₀ s) (temps : List (BitVec 16)) : KeepsR s₀ (execThermalSample temps s) := by
  unfold execThermalSample
  with_reducible repeat'
    first | assumption | intro _ | apply raise_keeps | apply holdReset_keeps | apply freeReset_keeps | apply kettleReset_keeps
          | apply throttleFollow_keeps | apply tempWords_keeps | apply KeepsR.ite | apply KeepsR.next | apply Keeps.ite | split
          | refine Keeps.ofEq (by assumption) ?_ | refine Keeps.ofSome (by assumption) ?_ | dsimp only | apply Keeps.upd

theorem execCritHoldExpire_keeps {s : State} (h : Keeps s₀ s) : KeepsR s₀ (execCritHoldExpire s) := by
  unfold execCritHoldExpire
  with_reducible repeat'
    first | assumption | refine reachUs_keeps ?_ _ | intro _ | apply kettleReset_keeps | apply KeepsR.ite | apply KeepsR.next
          | apply Keeps.ite | split | refine Keeps.ofEq (by assumption) ?_ | refine Keeps.ofSome (by assumption) ?_

theorem State.railSample_keeps {s : State} (h : Keeps s₀ s) (j mv : Nat) : Keeps s₀ (State.railSample s j mv) := by
  unfold State.railSample
  with_reducible repeat'
    first | assumption | intro _ | apply set_keeps | apply setB_keeps | apply raise_keeps | apply Keeps.ite | split
          | refine Keeps.ofEq (by assumption) ?_ | refine Keeps.ofSome (by assumption) ?_ | dsimp only | apply Keeps.upd

theorem execRailSample_keeps {s : State} (h : Keeps s₀ s) (mv : List Nat) : KeepsR s₀ (execRailSample mv s) := by
  unfold execRailSample
  with_reducible repeat'
    first | assumption | intro _ | apply holdReset_keeps | apply freeReset_keeps | apply kettleReset_keeps | apply railsBegin_keeps
          | apply railSample_keeps | apply Keeps.foldl | apply Keeps.foldlP | apply KeepsR.ite | apply KeepsR.next | apply Keeps.ite
          | split | refine Keeps.ofEq (by assumption) ?_ | refine Keeps.ofSome (by assumption) ?_ | dsimp only

theorem execPfwAssert_keeps {s : State} (h : Keeps s₀ s) : KeepsR s₀ (execPfwAssert s) := by
  unfold execPfwAssert
  refine KeepsR.ite (KeepsR.next h) ?_
  extract_lets a drop b
  have ha : Keeps s₀ a := State.tallyFlush_keeps (State.setB_keeps h ..)
  have hb : Keeps s₀ b := Keeps.cores ha drop fun x k => ⟨k.pc, k.epc, k.status, k.evec, k.g0, Nat.zero_le _⟩
  clear_value b
  exact KeepsR.next (State.raise_keeps (Keeps.upd hb ..) ..)

theorem execPfwRelease_keeps {s : State} (h : Keeps s₀ s) : KeepsR s₀ (execPfwRelease s) := by
  unfold execPfwRelease
  with_reducible repeat'
    first | assumption | intro _ | apply setB_keeps | apply tallyResume_keeps | apply KeepsR.ite | apply KeepsR.next | apply Keeps.ite

theorem execPfwReset_keeps {s : State} (h : Keeps s₀ s) : KeepsR s₀ (execPfwReset s) := by
  unfold execPfwReset
  with_reducible repeat'
    first | assumption | refine reachUs_keeps ?_ _ | intro _ | apply setB_keeps | apply holdReset_keeps | apply kettleReset_keeps
          | apply KeepsR.ite | apply KeepsR.next | apply Keeps.ite | split | refine Keeps.ofEq (by assumption) ?_
          | refine Keeps.ofSome (by assumption) ?_

theorem execPfwResetHoldEnd_keeps {s : State} (h : Keeps s₀ s) : KeepsR s₀ (execPfwResetHoldEnd s) := by
  unfold execPfwResetHoldEnd
  with_reducible repeat' first | assumption | intro _ | apply freeReset_keeps | apply KeepsR.ite | apply KeepsR.next | apply Keeps.ite

theorem execPowerLoss_keeps {s : State} (h : Keeps s₀ s) : KeepsR s₀ (execPowerLoss s) := by
  unfold execPowerLoss
  split
  rename_i l s1 e
  have h1 : Keeps s₀ s1 := Keeps.ofEq e (State.chestHeads_keeps h)
  extract_lets a b t u
  have hb : Keeps s₀ b := State.chestCut_keeps (State.chestCut_keeps h1 ..) ..
  have ht : Keeps s₀ t := State.deviceReset_keeps hb ..
  clear_value t
  have hu : Keeps s₀ u := ⟨fun i => have j := ht.inv i; ⟨Memory.wf_filter _ j.mem, j.kernel, j.core2, j.core3⟩, ht.queue⟩
  clear_value u
  exact KeepsR.next (State.holdReset_keeps (State.set_keeps (Keeps.upd hu ..) ..) _)

/-! ### Cycle -/

theorem State.toBoundary_keeps {s : State} (h : Keeps s₀ s) : Keeps s₀ (State.toBoundary s) := by
  unfold State.toBoundary
  with_reducible repeat' first | assumption | intro _ | apply pass_keeps

theorem State.stepRunning_keeps {s : State} (h : Keeps s₀ s) (x : Int) : Keeps s₀ (State.stepRunning s x) := by
  unfold State.stepRunning
  with_reducible repeat'
    first | assumption | intro _ | apply passInCycle_keeps | apply takeStep_keeps | apply Keeps.ite | split
          | refine Keeps.ofEq (by assumption) ?_ | refine Keeps.ofSome (by assumption) ?_ | dsimp only | apply Keeps.upd

theorem State.stepPrecycle_keeps {s : State} (h : Keeps s₀ s) (x : Int) : Keeps s₀ (State.stepPrecycle s x) := by
  unfold State.stepPrecycle
  with_reducible repeat'
    first | assumption | intro _ | apply set_keeps | apply pass_keeps | apply takeStep_keeps | apply Keeps.ite | split
          | refine Keeps.ofEq (by assumption) ?_ | refine Keeps.ofSome (by assumption) ?_ | dsimp only | apply Keeps.upd

theorem execSiteTimeStep_keeps {s : State} (h : Keeps s₀ s) : KeepsR s₀ (execSiteTimeStep s) := by
  unfold execSiteTimeStep
  with_reducible repeat'
    first | assumption | intro _ | apply stepAnnounce_keeps | apply stepRunning_keeps | apply stepPrecycle_keeps | apply KeepsR.ite
          | apply KeepsR.next | apply Keeps.ite

theorem State.seqBoundary_keeps {s : State} (h : Keeps s₀ s) : Keeps s₀ (State.seqBoundary s) := by
  unfold State.seqBoundary
  with_reducible repeat' first | assumption | intro _ | apply setSeq_keeps | apply Keeps.foldl

theorem State.newCycle_keeps {s : State} (h : Keeps s₀ s) : Keeps s₀ (State.newCycle s) := by
  unfold State.newCycle
  with_reducible repeat'
    first | assumption | intro _ | apply set_keeps | apply setB_keeps | apply pendAll_keeps | apply unpendAll_keeps | apply Keeps.ite
          | split | refine Keeps.ofEq (by assumption) ?_ | refine Keeps.ofSome (by assumption) ?_ | dsimp only | apply Keeps.upd

theorem State.stationBoundary_keeps {s : State} (h : Keeps s₀ s) : Keeps s₀ (State.stationBoundary s) := by
  unfold State.stationBoundary
  with_reducible repeat'
    first | assumption | intro _ | apply newEpisode_keeps | apply pairBoundary_keeps | apply corrRestore_keeps | apply Keeps.ite

theorem State.secondBoundary_keeps {s : State} (h : Keeps s₀ s) : Keeps s₀ (State.secondBoundary s) := by
  unfold State.secondBoundary
  with_reducible repeat'
    first | assumption | intro _ | apply calSecond_keeps | apply corrSecond_keeps | apply cyclesBegin_keeps | apply serviceSecond_keeps
          | apply serviceCycle_keeps | apply Keeps.ite

theorem State.cycleBoundary_keeps {s : State} (h : Keeps s₀ s) (late : BitVec 4) (discards : List Nat) :
    Keeps s₀ (State.cycleBoundary s late discards) := by
  unfold State.cycleBoundary
  with_reducible repeat'
    first | assumption | intro _ | apply gatedRelease_keeps | apply reeveBoundary_keeps | apply mboxRelease_keeps | apply epochLatch_keeps
          | apply trackBoundary_keeps | apply corrSlips_keeps | apply corrReleased_keeps | apply radioBoundary_keeps
          | apply toBoundary_keeps | apply seqBoundary_keeps | apply newCycle_keeps | apply stationBoundary_keeps
          | apply secondBoundary_keeps | apply Keeps.ite | split | refine Keeps.ofEq (by assumption) ?_
          | refine Keeps.ofSome (by assumption) ?_ | dsimp only | apply Keeps.upd

theorem execCycleBoundary_keeps {s : State} (h : Keeps s₀ s) (late : BitVec 4) (discards : List Nat) :
    KeepsR s₀ (execCycleBoundary late discards s) := by
  unfold execCycleBoundary
  with_reducible repeat' first | assumption | intro _ | apply cycleBoundary_keeps | apply KeepsR.ite | apply KeepsR.next

theorem State.phaseStart_keeps {s : State} (h : Keeps s₀ s) (phase off : Nat) : Keeps s₀ (State.phaseStart s phase off) := by
  unfold State.phaseStart
  with_reducible repeat' first | assumption | intro _ | apply set_keeps | apply pendAll_keeps | apply unpendAll_keeps | apply moveTo_keeps

theorem execIngestClose_keeps {s : State} (h : Keeps s₀ s) : KeepsR s₀ (execIngestClose s) := by
  unfold execIngestClose
  with_reducible repeat'
    first | assumption | intro _ | apply reeveComputeStart_keeps | apply radioIngest_keeps | apply phaseStart_keeps | apply KeepsR.ite
          | apply KeepsR.next

theorem State.computeOverrun_keeps {s : State} (h : Keeps s₀ s) : Keeps s₀ (State.computeOverrun s) := by
  unfold State.computeOverrun
  with_reducible repeat'
    first | assumption | intro _ | apply bump_keeps | apply raise_keeps | apply Keeps.ite | split | refine Keeps.ofEq (by assumption) ?_
          | refine Keeps.ofSome (by assumption) ?_ | dsimp only | apply Keeps.upd

theorem execFreeze_keeps {s : State} (h : Keeps s₀ s) : KeepsR s₀ (execFreeze s) := by
  unfold execFreeze
  with_reducible repeat'
    first | assumption | intro _ | apply millFreeze_keeps | apply reeveClose_keeps | apply decantFreeze_keeps | apply phaseStart_keeps
          | apply computeOverrun_keeps | apply KeepsR.ite | apply KeepsR.next

theorem execReleasePhaseStart_keeps {s : State} (h : Keeps s₀ s) : KeepsR s₀ (execReleasePhaseStart s) := by
  unfold execReleasePhaseStart
  with_reducible repeat'
    first | assumption | intro _ | apply openGate_keeps | apply decantCopied_keeps | apply offerFrags_keeps | apply radioRelease_keeps
          | apply restartYield_keeps | apply phaseStart_keeps | apply KeepsR.ite | apply KeepsR.next | apply Keeps.ite

theorem State.withhold_keeps {s : State} (h : Keeps s₀ s) : Keeps s₀ (State.withhold s) := by
  unfold State.withhold
  with_reducible repeat'
    first | assumption | intro _ | apply set_keeps | apply bump_keeps | apply pendAll_keeps | apply raise_keeps | apply Keeps.ite | split
          | refine Keeps.ofEq (by assumption) ?_ | refine Keeps.ofSome (by assumption) ?_ | dsimp only | apply Keeps.upd

theorem execGateDeadline_keeps {s : State} (h : Keeps s₀ s) : KeepsR s₀ (execGateDeadline s) := by
  unfold execGateDeadline
  with_reducible repeat'
    first | assumption | intro _ | apply moveTo_keeps | apply withhold_keeps | apply KeepsR.ite | apply KeepsR.next | apply Keeps.ite

/-! ### ControlWords -/

theorem State.eachBit_keeps {s : State} (h : Keeps s₀ s) (v n : Nat) (g : State → Nat → State) (hg : ∀ x0 x1, Keeps s₀ x0 → Keeps s₀ (g x0 x1)) :
    Keeps s₀ (State.eachBit s v n g) := by
  unfold State.eachBit
  with_reducible repeat' first | assumption | intro _ | apply Keeps.foldl | apply Keeps.foldlP | apply hg | apply Keeps.ite

theorem State.triggerHub_keeps {s : State} (h : Keeps s₀ s) (f : Fld) : Keeps s₀ (State.triggerHub s f) := by
  unfold State.triggerHub
  with_reducible repeat'
    first | exact fun i => (core_ok i _).congr rfl rfl rfl rfl rfl rfl
          | exact fun i => have k := core_ok i _; ⟨pcFit_fit _, k.epc, k.status, k.evec, k.g0, k.chest⟩
          | exact fun i => (core_ok i _).stop | assumption | intro _ | apply draw_keeps | apply injectDoorbell_keeps | apply millRun_keeps
          | apply millStop_keeps | apply millHwreset_keeps | apply millRestore_keeps | apply reeveLoad_keeps | apply reeveClear_keeps
          | apply reeveRestore_keeps | apply reeveRun_keeps | apply reeveStop_keeps | apply lstepSelftest_keeps | apply coreStart_keeps
          | apply coreHalt_keeps | apply cycStart_keeps | apply planRestart_keeps | apply Keeps.ite

theorem State.triggerGnss_keeps {s : State} (h : Keeps s₀ s) (f : Fld) (i v : Nat) : Keeps s₀ (State.triggerGnss s f i v) := by
  unfold State.triggerGnss
  with_reducible repeat'
    first | assumption | intro _ | apply antAlign_keeps | apply antRun_keeps | apply antStop_keeps | apply agcLearn_keeps
          | apply grRun_keeps | apply grStop_keeps | apply grDoorbell_keeps | apply correlRun_keeps | apply correlStop_keeps
          | apply calNow_keeps | apply gseqStart_keeps | apply gseqHalt_keeps | apply eachBit_keeps | apply Keeps.ite

theorem State.triggerNet_keeps {s : State} (h : Keeps s₀ s) (f : Fld) (i v w : Nat) : Keeps s₀ (State.triggerNet s f i v w) := by
  unfold State.triggerNet
  with_reducible repeat'
    first | assumption | intro _ | apply draw_keeps | apply queueEnable_keeps | apply queueDisable_keeps | apply queueFlush_keeps
          | apply bellRun_keeps | apply timeFeed_keeps | apply timeSnap_keeps | apply radioRun_keeps | apply radioStop_keeps
          | apply nbrSet_keeps | apply netRun_keeps | apply netStop_keeps | apply eachBit_keeps | apply Keeps.ite

theorem State.triggerCtrl_keeps {s : State} (h : Keeps s₀ s) (f : Fld) (v : Nat) : Keeps s₀ (State.triggerCtrl s f v) := by
  unfold State.triggerCtrl
  with_reducible repeat'
    first | assumption | intro _ | apply draw_keeps | apply tallyRun_keeps | apply tallyStop_keeps | apply tallyClear_keeps
          | apply tallySnap_keeps | apply loopRun_keeps | apply loopStop_keeps | apply loopRestore_keeps | apply qstop_keeps
          | apply axisRun_keeps | apply axisBlockStop_keeps | apply axisRestore_keeps | apply releaseStage_keeps | apply claimHold_keeps
          | apply plinkRun_keeps | apply linkDown_keeps | apply plinkAlive_keeps | apply yieldPair_keeps | apply kwSelftest_keeps
          | apply debugClose_keeps | apply sleepDevice_keeps | apply eachBit_keeps | apply Keeps.ite

theorem State.trigger_keeps {s : State} (h : Keeps s₀ s) (f : Fld) (i v w : Nat) : Keeps s₀ (State.trigger s f i v w) := by
  unfold State.trigger
  with_reducible repeat'
    first | assumption | intro _ | apply block_keeps | apply triggerHub_keeps | apply triggerGnss_keeps | apply triggerNet_keeps
          | apply triggerCtrl_keeps | apply Keeps.ite

theorem State.clearBits_keeps {s : State} (h : Keeps s₀ s) (f : Fld) (i v : Nat) : Keeps s₀ (State.clearBits s f i v) := by
  unfold State.clearBits
  with_reducible repeat'
    first | assumption | intro _ | apply set_keeps | apply unpendAll_keeps | apply eststatClear_keeps | apply engfailClear_keeps
          | apply block_keeps | apply islfailClear_keeps | apply Keeps.foldl | apply Keeps.foldlP | apply Keeps.ite

theorem State.noteWrite_keeps {s : State} (h : Keeps s₀ s) (f : Fld) (i : Nat) : Keeps s₀ (State.noteWrite s f i) := by
  unfold State.noteWrite
  with_reducible repeat'
    first | assumption | intro _ | apply setAxis_keeps | apply Keeps.ite | split | refine Keeps.ofEq (by assumption) ?_
          | refine Keeps.ofSome (by assumption) ?_ | dsimp only | apply Keeps.upd

theorem State.writeField_keeps {s : State} (h : Keeps s₀ s) (f : Fld) (i j v w : Nat) : Keeps s₀ (State.writeField s f i j v w) := by
  unfold State.writeField
  with_reducible repeat'
    first | assumption | intro _ | apply setStaged_keeps | apply trigger_keeps | apply clearBits_keeps | apply noteWrite_keeps
          | apply Keeps.ite | split

theorem State.writeWord_keeps {s : State} (h : Keeps s₀ s) (b index w : Nat) : Keeps s₀ (State.writeWord s b index w) := by
  unfold State.writeWord
  with_reducible repeat' first | assumption | intro _ | apply writeField_keeps | apply Keeps.foldl

theorem State.readSync_keeps {s : State} (h : Keeps s₀ s) (b index : Nat) : Keeps s₀ (State.readSync s b index) := by
  unfold State.readSync
  with_reducible repeat'
    first | assumption | intro _ | apply hubSync_keeps | apply keywellSync_keeps | apply bootReadSync_keeps | apply Keeps.ite

theorem State.cwFault_keeps {s : State} (h : Keeps s₀ s) (c : Core) (d : Reg) (code : Nat) : Keeps s₀ (State.cwFault s c d code) := by
  unfold State.cwFault
  with_reducible repeat' first | assumption | intro _ | apply wg_keeps | apply hubFaultDone_keeps

theorem State.coreRetire_keeps {s : State} (h : Keeps s₀ s) (c : Core) : Keeps s₀ (State.coreRetire s c) := by
  unfold State.coreRetire
  with_reducible repeat' first | assumption | intro _ | apply adv_keeps | apply unblock_keeps | apply Keeps.ite

theorem State.causeRead_keeps {s : State} (h : Keeps s₀ s) (c : Core) (b index : Nat) : Keeps s₀ (State.causeRead s c b index) := by
  unfold State.causeRead
  with_reducible repeat' first | assumption | intro _ | apply unpend_keeps | apply Keeps.ite | split

theorem State.cwRead_keeps {s : State} (h : Keeps s₀ s) (c : Core) (d : Reg) (b index : Nat) (live : Bool) :
    Keeps s₀ (State.cwRead s c d b index live) := by
  unfold State.cwRead
  with_reducible repeat'
    first | assumption | intro _ | apply done_keeps | apply readSync_keeps | apply cwFault_keeps | apply causeRead_keeps | apply Keeps.ite

theorem State.cwWrite_keeps {s : State} (h : Keeps s₀ s) (c : Core) (b index w : Nat) : Keeps s₀ (State.cwWrite s c b index w) := by
  unfold State.cwWrite
  with_reducible repeat'
    first | exact fun i => (core_ok i _).congr rfl rfl rfl rfl rfl rfl
          | exact fun i => have k := core_ok i _; ⟨pcFit_fit _, k.epc, k.status, k.evec, k.g0, k.chest⟩
          | exact fun i => (core_ok i _).stop | assumption | intro _ | apply hubFaultDone_keeps | apply writeWord_keeps
          | apply coreRetire_keeps | apply Keeps.ite | split

theorem execCwr_keeps {s : State} (h : Keeps s₀ s) (e : Engine) (d : Reg) (block : BitVec 8) (index : BitVec 12) :
    KeepsR s₀ (execCwr e d block index s) := by
  unfold execCwr
  with_reducible repeat'
    first | assumption | intro _ | apply block_keeps | apply onHub_keeps | apply topInsn_keeps | apply cwRead_keeps | apply KeepsR.ite
          | apply KeepsR.next

theorem execCwrl_keeps {s : State} (h : Keeps s₀ s) (e : Engine) (d : Reg) (block : BitVec 8) (index : BitVec 12) :
    KeepsR s₀ (execCwrl e d block index s) := by
  unfold execCwrl
  with_reducible repeat'
    first | assumption | intro _ | apply block_keeps | apply onHub_keeps | apply topInsn_keeps | apply cwRead_keeps | apply KeepsR.ite
          | apply KeepsR.next

theorem execCws_keeps {s : State} (h : Keeps s₀ s) (e : Engine) (r : Reg) (block : BitVec 8) (index : BitVec 12) :
    KeepsR s₀ (execCws e r block index s) := by
  unfold execCws
  with_reducible repeat'
    first | assumption | intro _ | apply block_keeps | apply onHub_keeps | apply topInsn_keeps | apply cwWrite_keeps | apply KeepsR.ite
          | apply KeepsR.next

theorem execCwrx_keeps {s : State} (h : Keeps s₀ s) (e : Engine) (d a : Reg) : KeepsR s₀ (execCwrx e d a s) := by
  unfold execCwrx
  with_reducible repeat'
    first | assumption | intro _ | apply onHub_keeps | apply topInsn_keeps | apply cwRead_keeps | apply KeepsR.ite | apply KeepsR.next

theorem execCwrlx_keeps {s : State} (h : Keeps s₀ s) (e : Engine) (d a : Reg) : KeepsR s₀ (execCwrlx e d a s) := by
  unfold execCwrlx
  with_reducible repeat'
    first | assumption | intro _ | apply onHub_keeps | apply topInsn_keeps | apply cwRead_keeps | apply KeepsR.ite | apply KeepsR.next

theorem execCwsx_keeps {s : State} (h : Keeps s₀ s) (e : Engine) (a b : Reg) : KeepsR s₀ (execCwsx e a b s) := by
  unfold execCwsx
  with_reducible repeat'
    first | assumption | intro _ | apply onHub_keeps | apply topInsn_keeps | apply cwWrite_keeps | apply KeepsR.ite | apply KeepsR.next

theorem execCwWrite_keeps {s : State} (h : Keeps s₀ s) (c : Core) (block : BitVec 8) (index : BitVec 12) (value : Word32) :
    KeepsR s₀ (execCwWrite c block index value s) := by
  unfold execCwWrite
  with_reducible repeat'
    first | assumption | intro _ | apply block_keeps | apply writeWord_keeps | apply KeepsR.ite | apply KeepsR.next | apply Keeps.ite
          | split

theorem State.requestApply_keeps {s : State} (h : Keeps s₀ s) (b : Nat) : Keeps s₀ (State.requestApply s b) := by
  unfold State.requestApply
  with_reducible repeat'
    first | assumption | intro _ | apply setApplies_keeps | apply Keeps.ite | split | refine Keeps.ofEq (by assumption) ?_
          | refine Keeps.ofSome (by assumption) ?_ | dsimp only

theorem execCwapply_keeps {s : State} (h : Keeps s₀ s) (e : Engine) (d a : Reg) : KeepsR s₀ (execCwapply e d a s) := by
  unfold execCwapply
  with_reducible repeat'
    first | assumption | intro _ | apply onHub_keeps | apply topInsn_keeps | apply done_keeps | apply cwFault_keeps
          | apply requestApply_keeps | apply KeepsR.ite | apply KeepsR.next | apply Keeps.ite | split
          | refine Keeps.ofEq (by assumption) ?_ | refine Keeps.ofSome (by assumption) ?_ | dsimp only

theorem execCwwait_keeps {s : State} (h : Keeps s₀ s) (e : Engine) (d a b : Reg) : KeepsR s₀ (execCwwait e d a b s) := by
  unfold execCwwait
  with_reducible repeat'
    first | assumption | intro _ | apply unpend_keeps | apply block_keeps | apply onHub_keeps | apply topInsn_keeps | apply done_keeps
          | apply cwFault_keeps | apply KeepsR.ite | apply KeepsR.next | apply Keeps.ite | split

theorem execCwstat_keeps {s : State} (h : Keeps s₀ s) (e : Engine) (d a : Reg) : KeepsR s₀ (execCwstat e d a s) := by
  unfold execCwstat
  with_reducible repeat'
    first | assumption | intro _ | apply unpend_keeps | apply onHub_keeps | apply topInsn_keeps | apply done_keeps | apply cwFault_keeps
          | apply KeepsR.ite | apply KeepsR.next | apply Keeps.ite

theorem State.setOwner_keeps {s : State} (h : Keeps s₀ s) (b code : Nat) : Keeps s₀ (State.setOwner s b code) := by
  unfold State.setOwner
  with_reducible repeat' first | assumption | intro _ | apply set_keeps | apply liveToStaged_keeps

theorem execCwown_keeps {s : State} (h : Keeps s₀ s) (e : Engine) (a : Reg) : KeepsR s₀ (execCwown e a s) := by
  unfold execCwown
  with_reducible repeat'
    first | exact fun i => (core_ok i _).congr rfl rfl rfl rfl rfl rfl
          | exact fun i => have k := core_ok i _; ⟨pcFit_fit _, k.epc, k.status, k.evec, k.g0, k.chest⟩
          | exact fun i => (core_ok i _).stop | assumption | intro _ | apply hubFaultDone_keeps | apply onHub_keeps | apply topInsn_keeps
          | apply coreRetire_keeps | apply setOwner_keeps | apply KeepsR.ite | apply KeepsR.next | apply Keeps.ite

theorem execCwdisown_keeps {s : State} (h : Keeps s₀ s) (e : Engine) (a : Reg) : KeepsR s₀ (execCwdisown e a s) := by
  unfold execCwdisown
  with_reducible repeat'
    first | exact fun i => (core_ok i _).congr rfl rfl rfl rfl rfl rfl
          | exact fun i => have k := core_ok i _; ⟨pcFit_fit _, k.epc, k.status, k.evec, k.g0, k.chest⟩
          | exact fun i => (core_ok i _).stop | assumption | intro _ | apply hubFaultDone_keeps | apply onHub_keeps | apply topInsn_keeps
          | apply coreRetire_keeps | apply setOwner_keeps | apply KeepsR.ite | apply KeepsR.next | apply Keeps.ite

theorem State.applyMade_keeps {s : State} (h : Keeps s₀ s) (old : State) (b : Nat) : Keeps s₀ (State.applyMade s old b) := by
  unfold State.applyMade
  with_reducible repeat'
    first | assumption | intro _ | apply loopApplied_keeps | apply axisApplied_keeps | apply millApplied_keeps | apply plinkApplied_keeps
          | apply gnssinApplied_keeps | apply timeApplied_keeps | apply radioApplied_keeps | apply bellFit_keeps | apply bellApplied_keeps
          | apply orphanSettle_keeps | apply Keeps.ite

theorem State.applyWithheld_keeps {s : State} (h : Keeps s₀ s) (b code : Nat) : Keeps s₀ (State.applyWithheld s b code) := by
  unfold State.applyWithheld
  with_reducible repeat'
    first | assumption | intro _ | apply setApplies_keeps | apply pend_keeps | apply raise_keeps | apply Keeps.ite | split
          | refine Keeps.ofEq (by assumption) ?_ | refine Keeps.ofSome (by assumption) ?_ | dsimp only

theorem State.applyBlock_keeps {s : State} (h : Keeps s₀ s) (b : Nat) : Keeps s₀ (State.applyBlock s b) := by
  unfold State.applyBlock
  with_reducible repeat'
    first | assumption | intro _ | apply makeApply_keeps | apply intervalEnd_keeps | apply axesSync_keeps | apply applyMade_keeps
          | apply Keeps.ite

theorem State.applyDisabled_keeps {s : State} (h : Keeps s₀ s) : Keeps s₀ (State.applyDisabled s) := by
  unfold State.applyDisabled
  with_reducible repeat'
    first | assumption | intro _ | apply stagedToLive_keeps | apply applyBlock_keeps | apply Keeps.foldl | apply Keeps.foldlP
          | apply Keeps.ite

theorem execApplyAtBoundary_keeps {s : State} (h : Keeps s₀ s) (block : BitVec 8) : KeepsR s₀ (execApplyAtBoundary block s) := by
  unfold execApplyAtBoundary
  with_reducible repeat'
    first | assumption | intro _ | apply block_keeps | apply applyWithheld_keeps | apply applyBlock_keeps | apply applyDisabled_keeps
          | apply KeepsR.ite | apply KeepsR.next | apply Keeps.ite | split | refine Keeps.ofEq (by assumption) ?_
          | refine Keeps.ofSome (by assumption) ?_ | dsimp only

end Sys2Proof.Machine
end

