-- ==== Sys2Proof/WellFormed.lean ====
section
/-! DEFINITION. Which commands are well formed: who executes an instruction (02 Table 2.5, 03 R71-R81), the registers it may name, and the bounds the
spec gives the measurements that an event carries.  The meanings answer for every command; nothing else reaches them on the device. -/

namespace Sys2Proof

/-- A sequencer has sixteen registers (03 R80). -/
def regsWf (e : Engine) (rs : List Reg) : Bool :=
  match e with
  | .seq _ => rs.all fun r => decide (r.toNat < 16)
  | _ => true

/-- Instructions that only hub cores and node engines execute (03 R73, R80). -/
def wideEngine : Engine → Bool
  | .seq _ => false
  | _ => true

/-- A shift amount lies below the register width (02 R46). -/
def shiftWf (e : Engine) (imm : BitVec 16) : Bool :=
  match e with
  | .seq _ => decide (imm.toNat < 32)
  | _ => decide (imm.toNat < 64)

/-- A power in dBm of 8 bits. -/
def dbmWf (v : Int) : Bool := decide (-128 ≤ v ∧ v ≤ 127)

/-- A control message's fields in their widths (13 Table 13.2). -/
def CtlMsg.wf (m : CtlMsg) : Bool :=
  decide (m.kind < 256 ∧ m.unit < 2 ∧ m.pair < 8 ∧ m.held < 2 ^ 32 ∧ m.seen < 2 ^ 32 ∧ m.cycle < 2 ^ 32 ∧ m.arg < 2 ^ 32)

/-- Whether a command is well formed. -/
def Instr.wf : Instr → Bool
  | .add e d a b | .sub e d a b | .and e d a b | .or e d a b | .xor e d a b | .sll e d a b | .srl e d a b | .sra e d a b | .slt e d a b
  | .sltu e d a b | .min e d a b | .max e d a b | .minu e d a b | .maxu e d a b | .addw e d a b | .subw e d a b | .mul e d a b
  | .mulh e d a b | .mulhu e d a b => regsWf e [d, a, b]
  | .clz e d a | .ctz e d a | .popc e d a | .bswap e d a => regsWf e [d, a]
  | .sel e d a b c | .madd e d a b c => regsWf e [d, a, b, c]
  | .mulw e _ _ _ | .div e _ _ _ | .divu e _ _ _ | .rem e _ _ _ | .remu e _ _ _ | .fadd e _ _ _ | .fsub e _ _ _ | .fmul e _ _ _
  | .fdiv e _ _ _ | .fmin e _ _ _ | .fmax e _ _ _ | .feq e _ _ _ | .flt e _ _ _ | .fle e _ _ _ | .scd e _ _ _ | .amoadd e _ _ _
  | .amoswp e _ _ _ => wideEngine e
  | .fmadd e _ _ _ _ | .fmsub e _ _ _ _ | .fnmadd e _ _ _ _ | .amocas e _ _ _ _ => wideEngine e
  | .fsqrt e _ _ | .fclass e _ _ | .fitod e _ _ | .futod e _ _ | .fdtoi e _ _ | .fdtou e _ _ | .fmvgf e _ _ | .fmvfg e _ _ | .fneg e _ _
  | .fabs e _ _ | .lld e _ _ => wideEngine e
  | .ld e _ _ _ | .lwu e _ _ _ | .fld e _ _ _ | .sd e _ _ _ | .fsd e _ _ _ => wideEngine e
  | .addi e d a _ | .andi e d a _ | .ori e d a _ | .xori e d a _ | .slti e d a _ | .sltui e d a _ | .lb e d a _ | .lh e d a _ | .lw e d a _
  | .lbu e d a _ | .lhu e d a _ | .sb e d a _ | .sh e d a _ | .sw e d a _ | .jalr e d a _ => regsWf e [d, a]
  | .beq e a b _ | .bne e a b _ | .blt e a b _ | .bge e a b _ | .bltu e a b _ | .bgeu e a b _ => regsWf e [a, b]
  | .slli e d a imm | .srli e d a imm | .srai e d a imm => regsWf e [d, a] && shiftWf e imm
  | .lui e d _ => regsWf e [d]
  | .qpush e d a b c => regsWf e [d, a, b, c]
  | .qpop e d a b => regsWf e [d, a, b]
  | .qstat e d a => regsWf e [d, a]
  | .mfc e d _ => regsWf e [d]
  | .mtc e a _ => regsWf e [a]
  | .arm e d a b | .waite e d a b | .adds e d a b | .subs e d a b | .shrr e d a b | .phase e d a b | .mag e d a b | .chcfg e d a b =>
    regsWf e [d, a, b]
  | .ncow e a b c => regsWf e [a, b, c]
  | .disarm e d a | .dump e d a | .rxget e d a => regsWf e [d, a]
  | .waitt e a | .xwait e a | .cancel e a => regsWf e [a]
  | .xget e d a b c | .xput e d a b c | .mulq e d a b c | .txload e d a b c | .rclaim e d a b c => regsWf e [d, a, b, c]
  | .take e d => regsWf e [d]
  | .emit e a b => regsWf e [a, b]
  | .coreStart c | .coreHalt c => decide (c ≠ .kernel)
  | .cycleBoundary _ discards => decide (discards.length = 4) && discards.all fun d => decide (d < 256)
  | .hostMailboxPut m bytes => decide (m.val < 8) && decide (bytes.length = 64)
  | .hostMailboxGet m => decide (8 ≤ m.val ∧ m.val < 16)
  | .actionFire _ _ rssi => dbmWf rssi
  | .alignDone _ _ eye => decide (eye < 256)
  | .msBoundary codes => decide (codes.length = 12)
  | .residualReport payload => decide (10 ≤ payload.length ∧ (payload.length - 10) % 6 = 0)
  | .lbtRetry _ rssi => dbmWf rssi
  | .bellWindow _ rssi => decide (rssi.length = 4) && rssi.all dbmWf
  | .bellCcaRetry _ rssi | .secondVoice _ rssi _ => dbmWf rssi
  | .heartbeatReceive m _ _ | .helloReceive m | .leave m | .handbackReq m | .handback m | .journalAckReceived m => m.wf
  | .sampleFrame _ item => match item with
    | .frame words => decide (1 ≤ words.length ∧ words.length ≤ 16)
    | .gap => true
  | .pmbusPoll polls | .pmalert polls => decide (polls.length = 7)
  | .avsRead codes => decide (codes.length = 24) && codes.all fun x => match x with
    | some c => decide (c < 1024)
    | none => true
  | .thermalSample temps => decide (temps.length = 16)
  | .railSample mv => decide (mv.length = 9) && mv.all fun v => decide (v < 65536)
  | _ => true

end Sys2Proof
end

