-- ==== Sys2Proof/Tests/Slice0.lean ====
section
/-! SUPPORT. Small checks of the model: ill-formed commands that the well-formedness check refuses, results that the spec itself gives, and for each
statement with hypotheses states and operands that meet them, clause by clause. -/

set_option maxRecDepth 100000

namespace Sys2Proof.Tests

open Sys2Proof Sys2Proof.Machine

/-! ### States the tests use -/

/-- The state after reset. -/
abbrev s0 : State := State.reset

/-- The kernel as an engine. -/
abbrev kern : Engine := .hub .kernel

/-- A general register of the kernel holds a value. -/
def withReg (s : State) (r : Reg) (v : Word) : State := s.wg kern r v

/-- A sequencer runs. -/
def seqOn (s : State) (q : Nat) : State := s.setSeq q { s.seq q with run := .running }

/-- A node engine has an item in service. -/
def nodeOn (s : State) (n : Nat) : State := s.setNode n { s.node n with run := .service }

/-- What a command leaves; the state itself where it does not go on. -/
def after (i : Instr) (s : State) : State :=
  match exec i s with
  | .next t => t
  | _ => s

/-- 19, worked example: a gap of 5.700 ms at 6.100 ms of the cycle puts an idle engine in NAP. -/
def napState : State :=
  let s := (nodeOn s0 4).setNode 4 { (nodeOn s0 4).node 4 with run := .taking }
  let s := (((s.set Fld.kettleNapNapMill 1).set Fld.kettleCalbGroup 1 1).set Fld.kettleCalbMask 0xFFF0 1).setB Fld.bootStateSysrun true
  let s := ((s.set Fld.kettleCalaStartUs 1800 1).set Fld.kettleCalaEndUs 6100 1).set Fld.sysPhaseOffsetUs 6100
  s.setMask Fld.kettleIslon0Engines 4 true

/-! ### Well-formedness -/

theorem wf_refuses_sequencer_register_16 : (Instr.add (.seq 0) 16 1 2).wf = false ∧ (Instr.add (.seq 0) 15 1 2).wf = true := by decide
theorem wf_refuses_float_on_sequencer : (Instr.fadd (.seq 0) 1 1 2).wf = false ∧ (Instr.fadd (.node 0) 31 1 2).wf = true := by decide
theorem wf_refuses_wide_shift : (Instr.slli kern 1 1 64).wf = false ∧ (Instr.slli kern 1 1 63).wf = true ∧
    (Instr.slli (.seq 0) 1 1 32).wf = false := by decide
theorem wf_refuses_sequencer_registers : (Instr.ncow (.seq 4) 16 1 1).wf = false ∧ (Instr.txload (.seq 3) 1 1 16 1).wf = false ∧
    (Instr.dump (.seq 3) 15 1).wf = true := by decide
theorem wf_refuses_kernel_start : (Instr.coreStart .kernel).wf = false ∧ (Instr.coreHalt .kernel).wf = false := by decide
theorem wf_refuses_discards : (Instr.cycleBoundary 0 [0, 0, 0]).wf = false ∧ (Instr.cycleBoundary 0 [0, 0, 0, 256]).wf = false := by decide
theorem wf_refuses_mailboxes : (Instr.hostMailboxPut 8 (List.replicate 64 0)).wf = false ∧ (Instr.hostMailboxPut 7 []).wf = false ∧
    (Instr.hostMailboxGet 7).wf = false := by decide
theorem wf_refuses_power : (Instr.lbtRetry 0 128).wf = false ∧ (Instr.actionFire 0 0 (-129)).wf = false ∧
    (Instr.bellWindow 0 [0, 0, 0]).wf = false ∧ (Instr.bellCcaRetry 0 128).wf = false := by decide
theorem wf_refuses_gnss : (Instr.alignDone 0 true 256).wf = false ∧ (Instr.msBoundary []).wf = false := by decide
theorem wf_refuses_lists : (Instr.residualReport [0]).wf = false ∧ (Instr.sampleFrame 0 (.frame [])).wf = false ∧
    (Instr.pmbusPoll []).wf = false ∧ (Instr.avsRead []).wf = false ∧ (Instr.thermalSample []).wf = false ∧
    (Instr.railSample []).wf = false := by decide
theorem wf_refuses_message : (Instr.leave ⟨256, 0, false, 0, false, false, 0, 0, 0, 0, 0, 0, 0, 0, 0⟩).wf = false := by decide

/-! ### Results the spec gives -/

theorem test_add_wraps : (after (.add kern 3 1 2) (withReg (withReg s0 1 0xFFFFFFFFFFFFFFFF) 2 1)).rg kern 3 = 0 := by decide
/-- 02 R48: division by 0 gives all ones; -2^63 by -1 gives -2^63. -/
theorem test_div_by_zero : (after (.div kern 3 1 2) (withReg s0 1 7)).rg kern 3 = 0xFFFFFFFFFFFFFFFF := by decide
theorem test_div_overflow : (after (.div kern 3 1 2) (withReg (withReg s0 1 0x8000000000000000) 2 0xFFFFFFFFFFFFFFFF)).rg kern 3 =
    0x8000000000000000 := by decide
/-- 02 Table 2.2: register 0 reads 0 and discards writes. -/
theorem test_register_zero : (after (.addi kern 0 0 5) s0).rg kern 0 = 0 ∧ (after (.addi kern 0 0 5) s0).core .kernel =
    { s0.core .kernel with pc := pcFit ((s0.core .kernel).pc + 4) } := by decide
/-- 19 Table 19.5: LEAD_US 20 after start, read by CWRL. -/
theorem test_cwrl_nap : (after (.cwrl (.hub .kernel) 3 0x3C 0x10) s0).rg kern 3 = 20 * 256 := by decide
/-- 02 R55, R56: core 2 may not write a kernel-only block. -/
theorem test_cws_privileged : ((after (.cws (.hub .core2) 1 0x3C 0x10) (s0.setCore .core2 { s0.core .core2 with run := .running })).core .core2).eval =
    0x0202 := by decide
theorem test_nap_example : (after (.islandSleep (.engine 4)) napState).sleepOf (.engine 4) = .nap := by decide
theorem test_awake_in_window : (after (.islandSleep (.engine 4)) (napState.set Fld.sysPhaseOffsetUs 6099)).sleepOf (.engine 4) = .awake := by decide
/-- 19 R444: VDD_CORE rises by 10 mV at once, and never above 0.85 V. -/
theorem test_avs_raise : (after (.avsRead [some 559]) (s0.set Fld.kettleVcoreMv 845)).get Fld.kettleVcoreMv = 850 := by decide

/-! ### The hypotheses of the statements can be met -/

theorem meets_IdleOnEmptyQueue : s0.pending = [] := by decide

theorem meets_StepKeepsInvariant : Inv { s0 with pending := [.islandGrant] } ∧ step { s0 with pending := [.islandGrant] } = .next s0 :=
  ⟨⟨by decide, ⟨by decide, by decide, by decide, by decide, by decide, by decide⟩, ⟨by decide, by decide, by decide, by decide, by decide, by decide⟩,
    ⟨by decide, by decide, by decide, by decide, by decide, by decide⟩⟩, by rfl⟩

/-- Registers 31 of a hub core and node engine and 15 of a sequencer; the largest shift amounts. -/
theorem meets_IntegerArithmetic : s0.runs kern = true ∧ regsOk kern [31, 31, 31] = true ∧ (nodeOn s0 23).runs (.node 23) = true ∧
    (seqOn s0 7).runs (.seq 7) = true ∧ regsOk (.seq 7) [15, 15, 15] = true ∧ shiftOk kern 63 = true ∧ shiftOk (.seq 7) 31 = true := by decide

theorem meets_BitsMultiplyAndDivide : s0.runs kern = true ∧ regsOk kern [31, 31, 31, 31] = true ∧ notSeq kern = true ∧
    regsOk (.seq 0) [15, 15, 15, 15] = true ∧ (seqOn s0 0).runs (.seq 0) = true := by decide

theorem meets_FloatingPoint : s0.runs kern = true ∧ notSeq kern = true ∧ (nodeOn s0 0).runs (.node 0) = true ∧ notSeq (.node 0) = true := by decide

/-- The last doubleword of the Granary, of a local store and the last word of a DMEM. -/
theorem meets_LoadsReadLittleEndian :
    (let s := withReg s0 1 0x4000000
     s.effAddr kern 1 0xFFF8 = 0x3FFFFF8 ∧ s.accessFault kern 0x3FFFFF8 8 false = none ∧ s.accessFault kern 0x3FFFFF8 1 false = none ∧
     s.accessFault kern 0x3FFFFF8 2 false = none ∧ s.accessFault kern 0x3FFFFF8 4 false = none ∧ regionOf 0x3FFFFF8 ≠ .host) ∧
    (let s := nodeOn s0 0
     s.runs (.node 0) = true ∧ s.effAddr (.node 0) 0 0xFFF8 = 0xFFFFFFFFFFFFFFF8 ∧ isLocal 0xFFFFFFFFFFFFFFF8 = true ∧
     s.accessFault (.node 0) 0xFFFFFFFFFFFFFFF8 8 false = none ∧ 0xFFFFFFFFFFFFFFF8 % 0x8000 + 8 ≤ 0x8000) ∧
    (let s := seqOn s0 0
     s.accessFault (.seq 0) 0x7FFC 4 false = none) ∧
    (let s : State := { withReg s0 1 0x40 with poisoned := [8], oneBit := [9] }
     s.effAddr kern 1 0 = 0x40 ∧ s.addrFault 0x40 false = none ∧ s.poisonAt 0x40 8 = true ∧ (s.core .kernel).status.getLsbD 2 = false ∧
     ¬ s.clean 0x48 8 ∧ s.clean 0x50 64) := by decide

/-- A read is quiet where the L2 is empty and no error is met, in a local store, and in a DMEM. -/
theorem meets_quiet_reads (s : State) (x : Nat) (n : Nat) (k : Fin 24) (q : Fin 8) : s0.quiet kern 0x3FFFFF8 8 ∧
    (isLocal x = true → s.quiet (.node k) x n) ∧ s.quiet (.seq q) x n ∧
    ({ withReg s0 1 0x40 with poisoned := [8] } : State).hubPoison 0x40 8 = true :=
  ⟨Or.inr ⟨by decide, by decide, by decide⟩, Or.inl, trivial, by decide⟩

/-- Of the host window, aligned to 8 bytes. -/
theorem meets_host_window_read :
    let s := withReg s0 1 0x2000000000
    s.runs kern = true ∧ regionOf (s.effAddr kern 1 8) = .host ∧ s.accessFault kern (s.effAddr kern 1 8) 8 false = none := by decide

/-- 01 R38: a read corrects the single-bit errors that it meets, here those of an L2 line, counts and reports them. -/
theorem test_ld_corrects :
    (let t := after (.ld kern 3 1 8) { withReg s0 1 0x40 with oneBit := [9, 10] }
     t.get Fld.granaryEccCorrected = 2 ∧ t.get Fld.granaryEccaddrWord = 10 ∧ t.oneBit = [] ∧ Map.find t.lastCode 8 = some 0x0881) := by decide

theorem meets_StoresWriteOnlyTheirBytes :
    (let s := withReg s0 1 0x4000000
     s.runs kern = true ∧ s.accessFault kern (s.effAddr kern 1 0xFFF8) 8 true = none ∧ s.storeMade kern 0x3FFFFF8 8 = true ∧
     s.engWf kern 0x3FFFFF8 = true) ∧
    (let s := nodeOn s0 0
     s.accessFault (.node 0) 0xFFFFFFFFFFFFFFF8 8 true = none ∧ s.storeMade (.node 0) 0xFFFFFFFFFFFFFFF8 8 = true ∧
     s.engWf (.node 0) 0xFFFFFFFFFFFFFFF8 = true) ∧
    ((seqOn s0 0).storeMade (.seq 0) 0x7FFC 4 = true ∧ (seqOn s0 0).engWf (.seq 0) 0x7FFC = true) ∧
    (let s := withReg s0 1 0x2000000000
     regionOf (s.effAddr kern 1 0) = .host ∧ s.effAddr kern 1 0 % 8 = 0) := by decide

/-- A branch of a sequencer to the last word of IMEM. -/
theorem meets_BranchesAndJumps : s0.runs kern = true ∧ targetOk kern 0 = true ∧ regsOk (.seq 0) [15, 15] = true ∧
    targetOk (.seq 0) ((seqOn s0 0).pcOf (.seq 0) + (0x1FFF : BitVec 26).signExtend 64 * 4) = true ∧ targetOk (.seq 0) 0x7FFC = true ∧
    targetOk (.seq 0) 0x8000 = false := by decide

theorem meets_AtomicsOnOneDoubleword :
    let s := withReg s0 1 0x3FFFFF8
    s.runs kern = true ∧ notSeq kern = true ∧ Memory.wf s.mem = true ∧ s.atomicFault kern 0x3FFFFF8 = none ∧ s.storeMade kern 0x3FFFFF8 8 = true ∧
    (s.rg kern 1).toNat = 0x3FFFFF8 := by decide

/-- Mailboxes 8, 14, 15 and 31 to send, 0 and one of each core to receive, 0 and 7, 8 and 15 of the host. -/
theorem meets_MailboxCommands :
    (∀ m ∈ [8, 14, 15, 31], let s := withReg s0 1 (BitVec.ofNat 64 m)
      s.runsOr kern (.mbsend (.hub .kernel) 2 1 3) = true ∧ s.runsOr kern (.mbrecv (.hub .kernel) 2 1 3) = true ∧ s.runsOr kern (.mbwait (.hub .kernel) 1) = true ∧
      s.runsOr kern (.mbstat (.hub .kernel) 2 1) = true ∧ s.top .kernel = true ∧ (s.rg kern 1).toNat = m ∧ (s.mbox m).msgs.length < 4 ∧
      s.rangeFault kern 0 64 false = none ∧ s.rangeFault kern 0 64 true = none ∧ s.clean 0 64 ∧ regionOf 0 ≠ .host) ∧
    (mboxCore 0 = some .kernel ∧ (s0.mbox 0).msgs = []) ∧
    (let s := s0.setMbox 8 { msgs := [⟨[], 0, false⟩] }
     (s.mbox 8).msgs = [⟨[], 0, false⟩] ∧ ((s.setMbox 15 (s.mbox 8)).mbox 15).msgs = [⟨[], 0, false⟩]) ∧
    (let s := s0.setMbox 0 { msgs := [⟨[], 0, false⟩] }
     (s.mbox 0).msgs = [⟨[], 0, false⟩] ∧ (s.mbox 7).msgs.length < 4) := by decide

/-- A unit that holds one visible item. -/
def itemAt (s : State) (q : Nat) : State := s.setQueue q { s.queue q with items := [{ body := [1, 2], visible := true }] }

/-- General unit 32 with the kernel as writer and reader, and unit 39 with sequencer 7. -/
def unitOn : State :=
  (((s0.set Fld.queueCfgWriters 0x7FF 32).set Fld.queueCfgReader 1 32).set Fld.queueCfgWriters 0x7FF 39).set Fld.queueCfgReader 11 39

/-- Items of 1 and 4096 bytes; units 0, 32, 39 and 47; a core and a sequencer. -/
theorem meets_QueueInstructions :
    (let s := withReg (withReg unitOn 1 32) 2 4096
     regsOk kern [3, 1, 0, 2] = true ∧ s.runs kern = true ∧ s.top .kernel = true ∧ (s.rg kern 1).toNat ≤ 47 ∧ (s.rg kern 2).toNat = 4096 ∧
     s.qWriter kern 32 = true ∧ s.rangeFault kern 0 4096 false = none ∧ s.rangeFault kern 0 1 false = none ∧ s.qReader kern 32 = true ∧
     (s.queue 32).ready = false ∧ s.qHubReader .kernel 32 = true) ∧
    (let s := itemAt unitOn 32
     (s.queue 32).items = [{ body := [1, 2], visible := true }] ∧ s.rangeFault kern 0 2 true = none ∧ (s.queue 32).ready = true) ∧
    (let s := seqOn unitOn 7
     s.runs (.seq 7) = true ∧ regsOk (.seq 7) [15, 15, 15, 15] = true ∧ s.qWriter (.seq 7) 39 = true ∧ s.qReader (.seq 7) 39 = true ∧
     s.rangeFault (.seq 7) 0 4096 false = none) ∧
    s0.qReader kern 47 = true := by decide

/-- Units 40 and 47 are privileged, 39 and 32 are not; room to the byte, and none. -/
theorem meets_QueueUnitPush :
    (let s := s0.set Fld.queueStatState 1 40
     s.get Fld.queueStatState 40 ≠ 0 ∧ qPrivileged 40 = true ∧ qPrivileged 47 = true ∧ (s.queue 40).held = [] ∧
     (s.queue 40).fill + qStored 2040 = s.qSize 40 ∧ s.qSize 40 < (s.queue 40).fill + qStored 2041) ∧
    (let s := s0.set Fld.queueStatState 1 39
     s.get Fld.queueStatState 39 ≠ 0 ∧ qPrivileged 39 = false ∧ (s.queue 39).marker = none ∧ (s.queue 39).fill + qStored 2024 + 16 = s.qSize 39 ∧
     s.qSize 39 < (s.queue 39).fill + qStored 2025 + 16) ∧ s0.get Fld.queueStatState 32 = 0 := by decide

theorem meets_ChestCommands :
    (let s := withReg s0 1 0xFFFF
     s.runs kern = true ∧ s.top .kernel = true ∧ (s.rg kern 1).toNat = 0xFFFF ∧ chestReadable .kernel 0xFFFF = true ∧
     (∀ p ∈ (s.core .kernel).chestQ, p.1 ≠ 0xFFFF)) ∧
    (let s := s0.setCore .kernel { s0.kernel with chestQ := [(0x8000, 1), (0x8000, 2)] }
     chestReadable .kernel 0x8000 = true ∧ (s.core .kernel).chestQ = [(0x8000, 1)] ++ (0x8000, 2) :: [] ∧ s.keywell.steps = [] ∧
     s.bell.resvDue = false ∧ s.tally.save = [] ∧ (s.core .kernel).chestLost = false) ∧
    (let s : State := { s0 with bell := { s0.bell with resvDue := true }, tally := { s0.tally with save := [(0x300, 1)] } }
     s.keywell.steps = [] ∧ s.bell.resvDue = true ∧ s.tally.save = [(0x300, 1)]) := by decide

theorem meets_KernelInstructions : s0.runs kern = true ∧ s0.top .kernel = true := by decide

/-- Core words 0 and 14, those that level U may read, a word of a node engine and of a sequencer. -/
theorem meets_SystemInstructions : s0.runs kern = true ∧ notSeq kern = true ∧ (nodeOn s0 0).runs (.node 0) = true ∧ s0.top .kernel = true ∧
    (14 : BitVec 5).toNat ≤ 14 ∧ ((nodeOn s0 0).nodeWord 0 0).isSome = true ∧ (seqOn s0 0).runs (.seq 0) = true ∧
    ((seqOn s0 0).seqWord 0 0).isSome = true ∧ s0.irqs .kernel = 0 ∧
    (let s : State := { s0 with l2 := [(1, { bytes := List.replicate 64 7, dirty := true })] }
     s.runs kern = true ∧ Map.find s.l2 1 = some { bytes := List.replicate 64 7, dirty := true } ∧ s.writable 64 64 = true ∧
     Memory.wf s.mem = true) := by decide
/-- 02 R52: DCINV drops the bytes that the core wrote, and DCFLUSH leaves them in memory. -/
theorem test_dcinv_drops :
    let s : State := { withReg s0 1 64 with l2 := [(1, { bytes := List.replicate 64 7, dirty := true })] }
    s.hubByte 65 = 7 ∧ (after (.dcinv kern 1) s).hubByte 65 = 0 ∧ memByte (after (.dcflush kern 1) s).mem 65 = 7 := by decide

/-- Sources 0 and 63. -/
theorem meets_ExceptionEntries :
    (s0.runs kern = true ∧ s0.kernel.status.getLsbD 2 = false ∧ s0.probe = false) ∧
    (∀ n ∈ [0, 63], let s := s0.setCore .kernel { s0.kernel with status := 3, imask := 1#64 <<< n, ipend := 1#64 <<< n }
      s.lockstepStopped = false ∧ s.kernel.run = .running ∧ s.writerStalled kern = false ∧ s.keywell.kgen = none ∧ s.kernel.status.getLsbD 1 = true ∧ s.kernel.status.getLsbD 2 = false ∧
      bitOf (s.irqs .kernel) n = true ∧ ∀ j, j < n → bitOf (s.irqs .kernel) j = false) ∧
    s0.kernel.tick.toNat < s0.kernel.tcmp.toNat ∧
    (let s := (s0.set Fld.debugStateOpen 1).set Fld.debugStateAttached 1
     s.probe = true ∧ s.runs kern = true ∧ (nodeOn s 23).runs (.node 23) = true ∧ (seqOn s 7).runs (.seq 7) = true) := by decide

theorem meets_HubFaultsTaken :
    (let s := s0.setCore .kernel { s0.kernel with status := 0 }
     s.runs kern = true ∧ s.kernel.status.getLsbD 2 = false ∧ s.top .kernel = false) ∧
    (let s := s0.setCore .core2 { s0.core2 with run := .running }
     s.runs (.hub .core2) = true ∧ s.core2.status.getLsbD 2 = false ∧ s.top .core2 = true) ∧
    (let s := s0.setCore .kernel { s0.kernel with pc := 0x2000000000 }
     s.hubReady .kernel = true ∧ s.addrFault s.kernel.pc.toNat false = none ∧ s.hubPoison s.kernel.pc.toNat 4 = false ∧
     regionOf s.kernel.pc.toNat = .host) ∧
    (let s : State := { s0.setCore .kernel { s0.kernel with pc := 64 } with mem := [(64, 0xFF), (65, 0xFF), (66, 0xFF), (67, 0xFF)] }
     s.hubReady .kernel = true ∧ s.addrFault 64 false = none ∧ s.hubPoison 64 4 = false ∧ decodeInsn kern (s.fetchWord kern) = none) ∧
    ((nodeOn s0 0).runs (.node 0) = true ∧ (seqOn s0 0).runs (.seq 0) = true) ∧
    (s0.effAddr kern 0 1 % 2 ≠ 0 ∧ s0.effAddr kern 0 2 % 4 ≠ 0 ∧ s0.effAddr kern 0 4 % 8 ≠ 0) := by decide

theorem meets_CoresStartAndStop : s0.lockstepStopped = false ∧ (s0.set Fld.hubEntryhiValid 1 0).getB Fld.hubEntryhiValid (coreInst .core2) = true ∧
    s0.core2.run = .inReset ∧ (s0.setCore .core3 { s0.core3 with run := .running }).core3.run = .running ∧ s0.runs kern = true ∧
    ((s0.setCore .kernel { s0.kernel with status := 5 }).core .kernel).status.getLsbD 2 = true := by decide

/-- An AES key, and a P-256 key, of every use. -/
def keyOf (type : Nat) : KeySlot := ⟨type, 1, 0x3E, 0, 0, 0, 0, 0, List.replicate 32 0, false, true⟩

/-- A job at the head of an idle Keywell's queue, on slot 40, whose key is given. -/
def jobState (type : Nat) (j : KwJob) : State :=
  { s0 with keywell := { s0.keywell with jobs := [j], slots := [(40, keyOf type)] } }

/-- A job of an operation and a mode on slot 40. -/
def jobAt (op mode : Nat) : KwJob := ⟨1, .kernel, op, mode, 40, 0, 16, 0x100, 0x200, 0x300, 44, 0, 0x3E, 2, 0xFF, 0⟩

/-- Slot 63, and a rise in progress and one that has ended. -/
theorem meets_KeywellInstructions :
    (let s : State := { withReg s0 2 63 with l2 := [(0, { bytes := List.replicate 64 0 }), (1, { bytes := List.replicate 64 0 })] }
     s.runs kern = true ∧ s.top .kernel = true ∧ s.rangeFault kern 0 128 false = none ∧ s.slotAwaited 63 = false ∧
     s.getB Fld.keywellStateError = false ∧ s.keywell.rootBlocked = false ∧ (s.rangeRead kern 0 128).2.getB Fld.keywellStateError = false ∧
     (s.rangeRead kern 0 64).2.inRam 0 64 = true ∧ s.rangeFault kern 0 64 false = none ∧ s.keywell.jobs.length < 16 ∧
     s.slotInUse 62 = false) ∧
    (({ s0 with keywell := { s0.keywell with kgen := some ⟨0xFF, some 0⟩ } } : State).keywell.kgen = some ⟨0xFF, some 0⟩ ∧
     s0.keywell.kgen = none ∧ s0.keywell.update = none ∧ s0.kgenCheck 0xFF = .inr 0) := by decide

theorem meets_JobReady : JobReady (jobState 1 (jobAt 1 0)) (jobAt 1 0) 1 ∧ JobReady (jobState 5 (jobAt 16 3)) (jobAt 16 3) 16 :=
  ⟨⟨by decide, rfl, rfl, by decide, by decide, by decide, by decide, by decide, by decide⟩,
    ⟨by decide, rfl, rfl, by decide, by decide, by decide, by decide, by decide, by decide⟩⟩

theorem meets_KeywellCipherJobs :
    (let j := jobAt 1 1
     let s := jobState 2 j
     s.slot j.slot = some (keyOf 2) ∧ s.ramAll [(j.src, j.len), (j.dst, j.len)] = true ∧ bitOf (keyOf 2).usage 1 = true ∧
     bitOf (keyOf 2).usage 2 = true ∧ bitOf (keyOf 2).usage 3 = true ∧ 16 ≤ j.auxlen ∧ s.inRam j.aux 16 = true ∧
     s.ramAll [(j.src, j.len), (j.dst, j.len), (j.aux, 44)] = true ∧ s.ramAll [(s.readLE (j.aux + 32) 8, s.readLE (j.aux + 40) 4)] = true ∧
     s.ramAll [(j.src, j.len), (j.aux, j.auxlen)] = true ∧ s.getB Fld.keywellStateEntropyOk = true ∧ s.ramAll [(j.dst, 16)] = true) ∧
    (let j := jobAt 6 0
     let s := jobState 5 j
     s.slot j.slot = some (keyOf 5) ∧ bitOf (keyOf 5).usage 4 = true ∧ bits (keyOf 5).usage 6 4 = 0 ∧
     s.ramAll [(j.src, j.len), (j.dst, 64)] = true ∧ s.ramAll [(j.src, j.len), (j.dst, 32)] = true) ∧
    (s0.set Fld.keywellCfgApproved 0).getB Fld.keywellCfgApproved = false := by decide

theorem meets_KeywellKeyJobs :
    (let j := jobAt 8 0
     let s := jobState 6 j
     s.slot j.slot = some (keyOf 6) ∧ bitOf (keyOf 6).usage 5 = true ∧ s.ramAll [(j.aux, j.auxlen)] = true ∧ s.slotInUse 40 = false ∧
     s.ramAll [(j.dst, 128)] = true ∧ bitOf j.usage 0 = false ∧ (s.parentKey 1 0).isSome = true ∧ s.lc < 4 ∧
     s.gixFree.isSome = true) ∧
    (s0.jobParent 0xFF).isRight = true ∧
    (s0.set Fld.keywellStateLc 2).lc = 2 ∧ recordOk (leBytes 0x524F574B 4 ++ leBytes 1 4 ++ leBytes 0 8 ++ List.replicate 32 0 ++ [3] ++
      List.replicate 7 0) = true := by decide

theorem meets_KeywellEvents :
    (let s := ({ jobState 1 (jobAt 16 0) with keywell := { (jobState 1 (jobAt 16 0)).keywell with executed := some 0x1000000000 } } : State)
     s.keywell.jobs = [jobAt 16 0] ∧ s.keywell.executed = some 0x1000000000 ∧ (0x1000000000 : Word).toNat % 65536 = 0) ∧
    ((s0.set Fld.keywellStateEntropyOk 0).getB Fld.keywellStateEntropyOk = false ∧ s0.getB Fld.keywellStateEntropyOk = true) ∧
    (let s := ({ s0 with us := 3600000000 } : State)
     s.reachUs (s.keywell.testUs + 100000) = some s ∧ s.reachUs (s.keywell.reseedUs + 1000000 * s.get Fld.keywellCfgReseedS) = some s ∧
     s.reachUs (s.keywell.sentUs + 10000) = some s ∧ s.keywell.partnerQ = [] ∧ s.keywell.stopped = false) ∧
    (let s := (s0.set Fld.keywellStateLc 3).set Fld.debugStateOpen 0
     s.lc = 3 ∧ s.getB Fld.debugStateOpen = false ∧ s.keywell.debugClosed = false) ∧
    (({ s0 with keywell := { s0.keywell with kgen := some ⟨1, none⟩ } } : State).keywell.kgen = some ⟨1, none⟩ ∧ s0.keywell.update = none) ∧
    ((s0.set Fld.plinkStateLink 2).linkUp = true ∧ (∀ t ∈ [((0x400 : Nat), (1 : Word)), (0xFFF, 2)], 0x400 ≤ t.1 ∧ t.1 < 0x1000) ∧
      ([((0 : Nat), (1 : Word)), (3071, 2)].map (·.1)).Nodup) := by decide

/-- Engine 0 with item 7 of class 0 in service, while the Mill runs. -/
def millState (run : ItemRun) : State :=
  let s := (s0.set Fld.millStateState 3).setMask Fld.kettleIslon0Engines 0 true
  let s := s.setNode 0 { s.node 0 with run := .service, item := some 7 }
  { s with mill := { s.mill with items := [(7, { flow := 1, seq := some 0, run := run })], ready := [(0, [7])] } }

/-- Engine 23, the 32nd token, the 64th request, an address of the local store. -/
theorem meets_NodeDataflow :
    (let s := nodeOn s0 23
     s.runs (.node 23) = true ∧ bits (0x8000000000000008 &&& 0x3FFFF : Nat) 18 2 = 0 ∧ (s.node 23).tokens.length < 32 ∧
     (s.node 23).cancels.length < 32 ∧ isLocal 0xFFFFFFFFFFFF8000 = true ∧ 0xFFFFFFFFFFFF8000 % 8 = 0 ∧ s.reeve.queue.length < 64 ∧
     (s.rg (.node 23) 0).toNat ≤ 64) ∧
    (let s := millState .service
     s.runs (.node 0) = true ∧ (s.node 0).item = some 7 ∧ (s.item 7).isSome = true ∧ (s.node 0).failRun < 7 ∧ s.millState ≠ 5 ∧
     (s.node 0).run = .service) := by decide

/-- Bytes of memory at addresses. -/
def withBytes (s : State) (a : Nat) (bs : List Byte) : State := { s with mem := memPutAll s.mem a bs }

theorem meets_MillScheduling :
    (let s := millState .ready
     let s := s.setNode 0 { s.node 0 with run := .taking, item := none, takeReg := 31 }
     let s : State := { s with mill := { s.mill with opTable := some 0 } }
     let s := withBytes s (s.libBase + 4) [1]
     s.millState = 3 ∧ s.mill.cutting = false ∧ (s.item 7).isSome = true ∧ (s.node 0).run = .taking ∧ bitOf (s.get Fld.millEnableEnable) 0 = true ∧
     s.islandAwake (.engine 0) = true ∧ s.nextItem = some 7 ∧ (s.opEntry (s.nodeEntryOf 7).1).isSome = true) ∧
    (let s := millState .service
     let s := s.setNode 0 { s.node 0 with run := .retiring }
     let freed : State := { s with mill := { s.mill with items := Map.del s.mill.items 7 } }
     (s.node 0).run = .retiring ∧ (s.node 0).item = some 7 ∧ s.writerStalled (.node 0) = false ∧ s.tokensCheck freed.mill.items (s.node 0).tokens = none ∧
     (s.flow 1).nextRel = 0 ∧ freed.retireFits 0 [] [] = true ∧ s.mill.results = [] ∧
     ((s.setFlow 1 { s.flow 1 with nextRel := 1 }).flow 1).nextRel ≠ 0 ∧ s.mill.parked.length < 256) ∧
    (let p : Parked := ⟨1, 0, 7, [], []⟩
     let s := millState .parked
     let s : State := { s with mill := { s.mill with parked := [p], tombs := [(9, { hole := some (1, 0, 0) })] } }
     let freed : State := { s with mill := { s.mill with items := Map.del s.mill.items 7 } }
     s.mill.parked.find? (fun p => p.flow = 1 && p.seq = (s.flow 1).nextRel) = some p ∧ freed.retireFits 0 p.tokens p.cancels = true ∧
     s.holeDue 1 = some (9, { hole := some (1, 0, 0) }) ∧ (s.flow 1).holeDest = 0) := by decide

/-- A layout that passes: a library in bank 0, a graph, a flow table and a ring behind it. -/
def millLaid : State :=
  ((((s0.set Fld.millGraphAddr 0x4000).set Fld.millFlowtabAddr 0x8000).set Fld.millInjbaseAddr 0xA000).set Fld.millInjlenEntries 16)

theorem meets_MillRunsAndCuts :
    (millLayoutOk millLaid (fun f => millLaid.get f) = true ∧ millReserveOk (fun f => millLaid.get f) = true ∧ millLaid.millState = 0) ∧
    ((millState .ready).millState = 3 ∧ ((millState .ready).mill.items.any fun p => p.2.run = .service) = false) ∧
    (let s := s0.set Fld.millStateState 1
     s.millState = 1 ∧ s.mill.cutPending = false ∧ s.mill.results = []) ∧
    (let s := s0.set Fld.millStateState 4
     let s : State := { s with mill := { s.mill with cutting := true, prev := 3 } }
     s.mill.cutting = true ∧ s.mill.stopPending = false ∧ s.millState = 4 ∧ s.mill.prev = 3) ∧
    (let s := (millState .ready).setMask Fld.millEngfailFail 0 true
     bitOf (s.get Fld.millEngfailFail) 0 = true ∧ bitOf (s.get Fld.millEnableEnable) 0 = true ∧ s.islandOn (.engine 0) = true ∧
     bitOf (s.get Fld.millEngupUp) 0 = false ∧ bitOf ((s.set Fld.millEnableEnable 0).get Fld.millEnableEnable) 0 = false) ∧
    (let s := withBytes s0 64 (leBytes 0xFFFF 8)
     s.millTakes = true ∧ s.tokenCheck s.mill.items (BitVec.ofNat 64 (s.readLE 64 8)) = none ∧
     s.retireFits (destClass 0xFFFF) [(0xFFFF, 0)] [] = true ∧ (withBytes s 0 [1]).readLE 0 4 = (s.get Fld.millInjgetGet + 1) % 2 ^ 32) := by
  decide

/-- An absolute action 4 clocks ahead and a relative one at the last clock of a cycle; time 0 reached; the last transfer of DMEM. -/
theorem meets_SequencerActions :
    (let s := seqOn s0 3
     let x := s.seq 3
     s.runs (.seq 3) = true ∧ regsOk (.seq 3) [15, 15, 15, 15] = true ∧ kindOk 3 15 = true ∧ bitOf 0x17F1F 7 = false ∧ x.freeSlot = some 0 ∧
     4 ≤ tdiff (s.tnow 3 + 4) (s.tnow 3) ∧ tdiff (s.cycbase 3 + cycleClocks 3) (s.cycbase 3) = cycleClocks 3 ∧ cycleClocks 3 - 1 < cycleClocks 3 ∧ bits (383 * 256 + 15) 8 10 < 384 ∧ x.slots = [] ∧
     0x1000 % 32 = 0 ∧ s.inRam 0 4096 = true ∧ 0x7000 + 0x1000 ≤ 0x8000 ∧ x.xfers.length < 4 ∧ s.poisonAt 0 4096 = false ∧ s.clean 0 4096) ∧
    (let s := (seqOn s0 0).setSeq 0 { (seqOn s0 0).seq 0 with xfers := [{ tag := 0, get := true, addr := 0, dmem := 0, len := 32 }], count := 2 ^ 20 }
     (s.seq 0).xfers = [{ tag := 0, get := true, addr := 0, dmem := 0, len := 32 }] ∧ s.xferStalled 0 = false ∧ s.writable 0 32 = true ∧
     2 ^ 20 ≤ (s.seq 0).count) := by decide

theorem meets_SequencerArithmetic : (seqOn s0 7).runs (.seq 7) = true ∧ regsOk (.seq 7) [15, 15, 15, 15] = true ∧
    ((seqOn s0 7).qr 7 1).toInt = 0 := by decide
/-- 03 Table 3.11: ADDS saturates at the largest number. -/
theorem test_adds_saturates : (after (.adds (.seq 0) 3 1 2) (((seqOn s0 0).wg (.seq 0) 1 0x7FFFFFFF).wg (.seq 0) 2 1)).qr 0 3 = 0x7FFFFFFF := by decide

/-- GPS L1 C/A, PRN 1, at one lane, in a running quadrant 0. -/
def chanState : State := (seqOn s0 0).setMask Fld.correlStateRun 0 true

theorem meets_SequencerUnits :
    (let s := chanState
     s.runs (.seq 0) = true ∧ s.quadRuns 0 = true ∧ (s.chan 0 383).next = none ∧ (s.seq 0).dumps = [] ∧ cfgOk 0xC000 = true ∧
     laneCost 0xC000 - laneCost (((s.chan 0 383).next).getD (s.chan 0 383).live) ≤ 768 - s.lanesUsed 0 ∧ (s.seq 0).active = true ∧ (s.seq 0).dumps.length < 512) ∧
    (let s := chanState.setChan 0 0 { chanState.chan 0 0 with live := 0 }
     cfgRate (s.chan 0 0).live ≠ 3 ∧ cfgRate (s.chan 0 1).live = 3) ∧
    (let s := (List.range 192).foldl (fun s k => s.setChan 0 k { s.chan 0 k with lanes := 4 }) chanState
     768 - s.lanesUsed 0 = 0 ∧ 0 < laneCost (defaultCfg 1 1)) ∧
    (let s := chanState.setSeq 0 { chanState.seq 0 with dumps := [⟨0, []⟩] }
     (s.seq 0).dumps = [⟨0, []⟩] ∧ 0x7FB0 + 80 ≤ 0x8000) ∧
    (let s := seqOn s0 4
     s.runs (.seq 4) = true ∧ regsOk (.seq 4) [15, 15, 15, 15] = true ∧ (s.qr 4 0).toNat < 4 ∧ (∀ p ∈ (s.seq 4).slots, p.2.kind = 1 → p.2.param % 4 ≠ 3) ∧
     3 ∉ (s.seq 4).onAir ∧ (s.port 0).wait.map (·.buf) ≠ some 3 ∧ (s.seq 4).rx = [] ∧ 0x7801 + 2047 ≤ 0x8000) ∧
    (let s := s0.setSeq 0 { s0.seq 0 with image := some 0 }
     (s.seq 0).image = some 0 ∧ (s.seq 0).run = .inReset) := by decide

/-- A receive window in slot 7 of sequencer 4, and an event of sequencer 0. -/
theorem meets_ActionsFire : ∀ kind ∈ [2, 3, 4, 15],
    let a : Action := ⟨kind, false, false, false, 0, 100, 1000, 0, 0, 0, 0⟩
    let s := ((seqOn s0 4).setSeq 4 { (seqOn s0 4).seq 4 with slots := [(7, a)] }).set Fld.radioStatState 1 0
    let u := s.passInCycle (s.clocksUntil 4 a.time)
    Map.find (s.seq 4).slots 7 = some a ∧ s.actionDue 4 7 a = true ∧ u.actionPass a = true ∧ u.portStopped 0 = false := by decide

theorem meets_CorrelatorQuadrants :
    (s0.quadRuns 3 = false ∧ (s0.set Fld.correlCalEn 1).getB Fld.correlCalEn = true ∧ chanState.quadRuns 0 = true) ∧
    (let s : State := { s0 with correl := { s0.correl with passes := [⟨3, none⟩] } }
     ∃ p ∈ s.correl.passes, p.quad = 3 ∧ p.paused = none) ∧
    (let s : State := { (chanState.set Fld.correlCalEn 1).set Fld.correlCalIntervalS 10 with us := 10000000 }
     s.reach ((Map.getD s.correl.calAt 0 0 + s.get Fld.correlCalIntervalS * 1000000) * 6000) = some s ∧ s.getB Fld.correlCalEn = true ∧
     s.quadRuns 0 = true ∧ ∀ p ∈ s.correl.passes, p.quad ≠ 0) ∧
    (let s := (chanState.set Fld.correlCalIntervalS 10).set Fld.correlCalstatAgeS 101 0
     0 ∉ s.correl.stale ∧ 10 * s.get Fld.correlCalIntervalS < s.get Fld.correlCalstatAgeS 0) := by decide

/-- A tracking image whose ring, at 0x100, holds one command for channel 383, and channel 382 in a state. -/
def trackState (op state : Nat) : State :=
  let s := chanState.setImage 0 { tcb := List.replicate 24 0 ++ leBytes 1 4 ++ leBytes 16 4 ++ List.replicate 544 0, late := some (0x2000, [1, 2]) }
  let s := withBytes s 0x100 (leBytes 1 4)
  let s := withBytes s (0x140) (leBytes op 1 ++ leBytes 0 1 ++ leBytes 383 2 ++ leBytes 0xC000 4)
  s.setTrack 0 382 { s.track 0 382 with state := state }

theorem meets_TrackingChannels :
    (∀ st ∈ [1, 2, 3, 4], let s := trackState 3 st
      s.tracks 0 = true ∧ (s.track 0 382).state = st ∧ (s.image 0).late = some (0x2000, [1, 2]) ∧ (s.moveTo 1950).writable 0x2000 2 = true ∧
      s.reach ((s.track 0 382).since + s.profileAt 0 0 8 2 * 6000000) = some s) ∧
    (let s := trackState 3 0
     let b := s.rd 0x140 48
     s.tcbAt 0 24 4 * 256 = 0x100 ∧ s.tcbAt 0 28 4 = 16 ∧ s.readLE 0x100 4 ≠ s.readLE 0x104 4 ∧ s.cmdReason 0 b = none ∧ descAt b 0 1 = 3) ∧
    (let s := withBytes (withBytes (trackState 1 0) 0x144 [0, 0, 0, 0]) 0x150 [0, 0, 0, 0, 1, 1]
     s.cmdReason 0 (s.rd 0x140 48) = none ∧ descAt (s.rd 0x140 48) 0 1 = 1) ∧
    (let s := withBytes (withBytes (trackState 2 3) 0x148 (leBytes 382 2)) 0x150 [1, 1]
     let s := s.setChan 0 382 { s.chan 0 382 with live := defaultCfg 1 1 }
     let s := withBytes s 0x144 [0, 0, 0, 0]
     s.cmdReason 0 (s.rd 0x140 48) = none ∧ descAt (s.rd 0x140 48) 0 1 = 2) := by decide

/-- Antenna 3 in a state, with every stream of it enabled. -/
def antIn (v : Nat) : State :=
  let s := [9, 10, 11].foldl (fun s k => s.setB Fld.gnssinCfgEn true k) s0
  s.set Fld.gnssinStateAnt v 3

/-- Each state of Table 5.2; an eye at the minimum and one below; a slip 17 beyond DEPTH on either side. -/
theorem meets_AntennaStates :
    (∀ v ∈ [0, 1, 2, 3, 4, 5], (antIn v).antState 3 = v) ∧
    ((antIn 1).get Fld.gnssinLaneEyeMin 3 ≤ 63 ∧ 0 < (antIn 1).get Fld.gnssinLaneEyeMin 3) ∧
    ((antIn 3).streamRuns 11 = true ∧ (antIn 3).get Fld.gnssinLaneDepth 3 + 16 < (antIn 3).get Fld.gnssinLaneDepth 3 + 17 ∧
     0 + 16 < (antIn 3).get Fld.gnssinLaneDepth 3) ∧
    (let s : State := { antIn 2 with gnssin := { (antIn 2).gnssin with runDue := [3] } }
     s.antState 3 = 2 ∧ 3 ∈ s.gnssin.runDue ∧ (s.reachSite ((s.msNow + 1) * 1000000000)).isSome = true) := by decide

/-- The last stream, with blanking and gain control on, at 63 of 64 gain codes. -/
theorem meets_StreamProcessing :
    let s := (((antIn 3).setB Fld.gnssinCfgPbEn true 11).setB Fld.gnssinCfgAgcEn true 11).setMask Fld.gnssinFegainMode 3 true
    let s := (s.set Fld.gnssinAgcstatGain 63 11).set Fld.gnssinPbThresh 1 11
    let x : GnssStream := { reading := true, window := List.replicate 16 {}, counted := 100, spec := some ([1], 5), learn := { ms := 10000 } }
    let s := s.setStream 11 x
    s.streamRuns 11 = true ∧ s.getB Fld.gnssinCfgPbEn 11 = true ∧ s.get Fld.gnssinPbThresh 11 ≤ (x.window.drop 1 ++ [sampleOf (some 0)]).countP (·.hot) ∧
    (s.stream 11) = x ∧ x.window.length = 16 ∧ (s.feed 11 []).stream 11 = x ∧ s.drivesGain (11 / 3) = true ∧
    s.getB Fld.gnssinCfgAgcEn 11 = true ∧ s.get Fld.gnssinAgcstatGain 11 < 64 ∧ (s.feed 11 []).gnssin.lastMs = 0 ∧
    1 * s.get Fld.gnssinAgcPeriod 11 * 10000000 < 1000000000 ∧ ((s.feed 11 []).reachSite (s.get Fld.gnssinAgcPeriod 11 * 10000000)).isSome = true ∧
    (s.reachSite 50000000).isSome = true ∧ (qround 26 x.learn.gain x.learn.ms).toNat < 64 ∧
    s.get Fld.gnssinJamstatWarn 11 = 0 ∧ s.get Fld.gnssinJamstatAlarm 11 = 0 ∧ s.get Fld.gnssinAgcrefLearning 11 = 0 ∧
    (s.set Fld.gnssinAgcrefLearning 1 11).get Fld.gnssinAgcrefLearning 11 ≠ 0 := by decide

/-- A valid search of antenna 3 for GPS L1 C/A, PRN 32. -/
def searchDesc : List Byte := [0, 0, 3, 1, 32, 0, 1, 64, 0, 0, 0, 0, 0, 0, 1, 0] ++ List.replicate 16 0

/-- A running Grinder whose ring, at 0x100 of the Granary, holds that search. -/
def grState1 : State :=
  let s := ((((antIn 3).set Fld.grinderStateState 1).set Fld.grinderRingAddr 1).set Fld.grinderRinglenEntries 16).set Fld.grinderReslenEntries 16
  withBytes (withBytes s 0x100 (leBytes 1 4)) 0x140 searchDesc

/-- Engine 1 with that search at a step, and perhaps a held result. -/
def grEngineState (st : SearchStep) (held : List (List Byte)) : State :=
  grState1.setGrEngine 1 { searches := [{ desc := searchDesc, cap := 0, step := st }], caps := [{ num := 0, stream := 9, high := false, ms := 64, from' := 0 }], held := held }

theorem meets_GrinderSearches :
    (s0.grState = 0 ∧ grState1.grState = 1 ∧ (∀ k, k < 2 → (grState1.grEngine k).searches = [] ∧ (grState1.grEngine k).held = []) ∧
     grState1.grinder.invalid = []) ∧
    (grEngineState .waiting []).grState = 1 ∧ ((grEngineState .waiting []).grEngine 1).searches ≠ [] ∧
    (grState1.readLE 0x100 4 = 0 + 1 ∧ 1 ≤ grState1.get Fld.grinderRinglenEntries ∧ descOk (grState1.searchEntry 0) = true) ∧
    (let s : State := { grState1 with grinder := { grState1.grinder with untaken := [0] } }
     (s.grEngine 1).held = [] ∧ s.nextEntry = some 0 ∧ bitOf (descAt (s.searchEntry 0) 5 1) 2 = false ∧ (s.grEngine 1).searches.length < 2) ∧
    (∀ st ∈ [SearchStep.waiting, .capturing, .ready], let s := grEngineState st []
      (((s.grEngine 1).searches.find? fun y => y.step = st).map (·.failed)) = some false ∧ s.streamRuns (descStream searchDesc).1 = true ∧
      s.resultRoom = true ∧ (s.grEngine 1).capOf { desc := searchDesc, cap := 0, step := st } =
        some { num := 0, stream := 9, high := false, ms := 64, from' := 0 } ∧ s.reachSite 0 = some s ∧
      (s.reach (searchNs searchDesc * 6)).isSome = true) ∧
    (let s : State := { grEngineState .capturing [] with gnssin := { (grEngineState .capturing []).gnssin with lastMs := 64 } }
     0 + 64 ≤ s.gnssin.lastMs) ∧
    (let s := grEngineState .ready [[0]]
     (s.grEngine 1).held = [[0]] ∧ s.resultRoom = true ∧ s.grinder.invalid = []) := by decide

/-- A servo in a state, whose ring, at 0x200 of the Granary, holds one entry of a kind with a value. -/
def feedState (servo kind : Nat) (t : List Byte) (value : Nat) : State :=
  let s := ((s0.set Fld.timeStateServo servo).set Fld.timeFeedbaseAddr 2).set Fld.timeFeedlenEntries 16
  let s := withBytes s 0x200 (leBytes 1 4)
  let s := withBytes s 0x240 (leBytes kind 1 ++ leBytes (s0.get Fld.timeServoSrc) 1 ++ leBytes 0 6 ++ t ++ leBytes 0 6 ++ leBytes value 8)
  { s with servo := { s.servo with put := 1 } }

/-- Whether the head entry of a state fits. -/
def feedFits (s : State) : Bool :=
  match s.feedHead with
  | some b => feedFormOk b && ((feedOf b).src = s.get Fld.timeServoSrc) && s.feedOk (feedOf b)
  | none => false

/-- A MEAS in TRACK at the outlier bound, a SLEW one below 1 ms, a STEP of 2 s, a HOLD and a SET of second 1. -/
theorem meets_FeedEntries :
    s0.feedHead = none ∧
    (let s := feedState 2 1 (leBytes 999999999 4 ++ leBytes 5 6) (s0.get Fld.timeOutlierOutlierNs * 1000)
     feedFits s = true ∧ s.servoState = 2 ∧ s.servo.put = s.get Fld.timeFeedgetCount + 1) ∧
    feedFits (feedState 1 2 (leBytes 0 10) 999999999) = true ∧ feedFits (feedState 1 3 (leBytes 0 10) 2000000000000) = true ∧
    feedFits (feedState 2 4 (leBytes 0 10) 0) = true ∧
    (let s := feedState 0 5 (leBytes 0 4 ++ leBytes 1 6) 0
     feedFits s = true ∧ s.servoState = 0 ∧ s.sysRunning = false) := by decide

/-- 12 R307: one more nanosecond of slew is beyond the bound. -/
theorem test_slew_bound : feedFits (feedState 1 2 (leBytes 0 10) 1000000000) = false := by decide

theorem meets_SiteTimeCounter :
    (let s : State := { s0 with servo := { s0.servo with setDue := some (2 ^ 48 - 1) }, site := { ns := 999999000 }, cyclePs := 990000000000 }
     s.servo.setDue = some (2 ^ 48 - 1) ∧ s.clock.afterSet = none ∧
     (s.reachSite (s.site.ps / 1000000000000 * 1000000000000 + 1000000000000)).isSome = true) ∧
    (let s : State := { s0.set Fld.timeStateSlewing 1 with servo := { s0.servo with slew := 5, slewFadj := 100000000 } }
     s.get Fld.timeStateSlewing ≠ 0 ∧ s.roots < s.slewEnd ∧ (s.reach s.slewEnd).isSome = true) ∧
    (let s : State := { s0.set Fld.timeStateServo 2 with us := 100000000 }
     s.servoState = 2 ∧ s.reachUs (s.servo.measUs + 1000 * s.get Fld.timeServoFeedToMs) = some s) := by decide

/-- Reference clocks at the bounds of the rules. -/
theorem meets_ReferenceStates :
    (∀ st ∈ [1, 3], let c : Clock := { state := st, unqual := 100, qual := 1000, qualRe := 1000, sums := 100, decided := true }
      (c.state = 1 ∨ c.state = 3) ∧ 100 ≤ c.unqual ∧ 1000 ≤ c.qual ∧ c.slewing = false ∧ 1000 ≤ c.qualRe) ∧
    (let c : Clock := { state := 3, sums := 100, sum := 100 * 9999999, unc := 2 ^ 50 }
     let s : State := { s0.set Fld.timeStateServo 2 with clock := c }
     c.decided = false ∧ s.tsbAt 28 4 * 1000 < c.unc ∧ s.get Fld.timeServoSrc = 0 ∧ s.servoState ≠ 0 ∧ c.mean.natAbs < 10000000 ∧
     (s.servo.slew - c.mean).natAbs < 1000000000) ∧
    (∀ sum ∈ [100 * 19999, (100 * 20000 : Int)], let c : Clock := { state := 0, sums := 100, sum := sum }
      (c.mean.natAbs < 20000 ↔ sum = 100 * 19999)) ∧
    (s0.servoState = 0 ∧ s0.get Fld.timeServoSrc = 0) := by decide

/-- Correction settings with SEQ 0, residuals on, a survey of 60 s to 1 dm, four satellites, 1 s before STOPPED. -/
def csb7 : List Byte :=
  leBytes 0 4 ++ leBytes 0 4 ++ leBytes 0 4 ++ leBytes 8 1 ++ List.replicate 75 0 ++ leBytes 60 4 ++ leBytes 100 2 ++ leBytes 0 1 ++ leBytes 4 1 ++
  leBytes 1 2 ++ List.replicate 158 0

/-- The corrections in a state, with those settings. -/
def corrIn (c : Corr) : State := { s0 with corr := { c with csb := csb7 } }

/-- The settings of an empty Granary have SEQ 0, wherever the region lies. -/
theorem meets_CorrectionStates_seq : descAt ((corrIn {}).rd Config.corrBase 256) 4 4 = (corrIn {}).csbAt 4 4 := by
  have hk : ∀ b, b ∈ List.range 16 → bitOf ((corrIn {}).get Fld.kettleIslon1Banks) b = true := by decide
  have hp : (corrIn {}).poisonAt Config.corrBase 256 = false := by
    have h0 : (corrIn {}).poisoned = [] := rfl
    simp only [State.poisonAt, h0, List.any_nil, Bool.false_or, State.bankOff, Bool.and_eq_false_iff, List.any_eq_false]
    right
    intro b hb
    simp [hk b hb]
  have hr : (corrIn {}).rd Config.corrBase 256 = List.replicate 256 0 := by
    have hs : (corrIn {}).decant.stalled = [] := rfl
    have hm : (corrIn {}).mem = [] := rfl
    have hb : readBytes (corrIn {}).mem Config.corrBase 256 = List.replicate 256 0 := by rw [hm]; decide
    simp only [State.rd, hp, hs]
    simpa using hb
  rw [hr]; decide

/-- Each state of Table 7.4 at the bounds of R170, R171; reports of 5 and of 48 residuals and one of 4. -/
theorem meets_CorrectionStates :
    (let s := corrIn {}
     s.corrRuns = true ∧ s.onTenth = true ∧ s.corr.lastEpoch ≠ some s.cyclePs ∧ s.corr.csb ≠ [] ∧ s.csbAt 95 1 ≠ 0 ∧ s.csbMode 3 = true ∧
     s.get Fld.sysPhasePhase < 2 ∧ s.clock.posFixed = false ∧ 2 ≤ (s.set Fld.sysPhasePhase 2).get Fld.sysPhasePhase) ∧
    (let s := corrIn { state := 0, used := 600 }
     s.corr.state = 0 ∧ s.csbAt 88 4 * 10 ≤ s.corr.used ∧ 100 ≤ s.csbAt 92 2) ∧
    (let s := corrIn { state := 1, short := 10 }
     s.corr.state = 1 ∧ 10 ≤ s.corr.short) ∧
    (let s : State := { corrIn { state := 2 } with us := 1000000 }
     s.corr.state = 2 ∧ s.corr.staleUs + s.csbAt 96 2 * 1000000 ≤ s.us) ∧
    (let s : State := { corrIn { state := 3, good := 10 } with clock := { s0.clock with corrOk := true } }
     s.corr.state = 3 ∧ s.clock.corrOk = true ∧ 10 ≤ s.corr.good) ∧
    (∀ n ∈ [5, 48], let b := leBytes 0 2 ++ leBytes 8 1 ++ leBytes 0 5 ++ leBytes n 1 ++ List.replicate 400 0
      bitOf (descAt b 2 1) 3 = true ∧ 5 ≤ descAt b 8 1 ∧ descAt b 8 1 ≤ 48 ∧ descAt b 3 1 = (corrIn {}).corr.gen) ∧
    ¬ 5 ≤ descAt (leBytes 0 8 ++ leBytes 4 1) 8 1 ∧
    (corrIn { batches := [[⟨3, 4, 4⟩], []] }).corr.batches = [[⟨3, 4, 4⟩], []] := by decide

/-- A claim request: its OP, holder, task and words. -/
def reqOf (op holder task : Nat) (words : List Nat) (tail : List Byte) : ClaimReq :=
  { dest := 0, c := words.length + tail.length / 4,
    bytes := leBytes op 1 ++ leBytes 0 3 ++ leBytes holder 2 ++ leBytes task 2 ++ leBytes 0 24 ++ words.flatMap (leBytes · 4) ++ tail }

/-- A Reeve that takes requests, with a graph of four segments, one request at its head. -/
def reeveState (v : Reeve) (r : ClaimReq) : State :=
  let s := ((s0.set Fld.reeveStateState 3).set Fld.reeveGraphsizeNodes 4).set Fld.reeveBudgetBudgetS 86400 2
  { s with reeve := { v with segs := [5, 6, 7, 8], window := true, queue := [r] } }

/-- Whether the head request of a state is well formed and not stale. -/
def reqFits (s : State) (op : Nat) : Bool :=
  s.reeveTakes && match s.headReq op with
    | some r => r.ok && !s.reqStale r
    | none => false

/-- A task on bay 2, open or assigned to robot 9, with or without a light recipe, one day away. -/
def taskAt (state recipe : Nat) : TaskRec := ⟨state, 1, 7, 2, 3, 9, recipe, 0xFF, 0, 86399, 7200, 0, 0⟩

/-- Nine operations; the site as a holder, the last segment, the last bucket of the horizon, a task post at the end of its ranges, an award with a
recipe at the light lead. -/
theorem meets_ReeveRequests :
    (let s := reeveState {} (reqOf 1 0xFFFF 0 [3 + 19 * 65536] [])
     reqFits s 1 = true ∧ s.reeve.segs[3]? = some 8 ∧ s.groupClosed 8 = false ∧ 19 < s.get Fld.reeveHorizonBuckets ∧
     0 ≤ bucketDiff 19 s.pNext ∧ bucketDiff 19 s.pNext < s.get Fld.reeveHorizonBuckets ∧ (freeWay s.reeve.table (resvSet 8 19)).isSome = true) ∧
    (let e : Resv := ⟨8, 19, 1023, 3, 1, 0, .held, 0⟩
     let s := reeveState { table := [(100, e)] } (reqOf 2 1023 0 [19 * 65536] [])
     reqFits s 2 = true ∧ 0 ≤ bucketDiff e.bucket 19 ∧ e.state = .held) ∧
    (let s := reeveState { revokes := [{ holder := 1023, from' := 19, cells := 1, resid := 5 }] } (reqOf 3 1023 0 [19 * 65536] [])
     reqFits s 3 = true ∧ s.reeve.revokes.find? (fun w => w.holder = 1023 && w.from' = 19) = some { holder := 1023, from' := 19, cells := 1, resid := 5 }) ∧
    reqFits (reeveState {} (reqOf 4 0xFFFF 0 [3] [])) 4 = true ∧ reqFits (reeveState {} (reqOf 5 0xFFFF 0 [3] [])) 5 = true ∧
    (let r := reqOf 6 0xFFFF 0 [] (leBytes 1 1 ++ leBytes 7 1 ++ leBytes 0 1 ++ leBytes 15 1 ++ leBytes 3 2 ++ leBytes 0 18)
     let s := reeveState {} r
     reqFits s 6 = true ∧ r.at 35 1 ≤ 15 ∧ r.at 34 1 < s.get Fld.reeveLightBays ∧ r.at 36 2 < s.get Fld.reeveGraphsizeNodes ∧
     Map.find s.reeve.tasks 0 = none) ∧
    (∀ recipe ∈ [0, 1], let r := reqOf 7 9 4095 [0, s0.get Fld.reeveLightLeadS] []
      let s := reeveState { tasks := [(4095, taskAt 1 recipe)] } r
      let a := secDiff (r.word 1) s.second
      reqFits s 7 = true ∧ Map.find s.reeve.tasks (r.at 6 2) = some (taskAt 1 recipe) ∧ r.word 0 = s.get Fld.reeveBucketRound ∧
      0 < secDiff 86399 s.second ∧ a + 7200 ≤ secDiff 86399 s.second ∧ s.get Fld.reeveLightLeadS ≤ a ∧ s.fitWindow 2 1 a (a + 7200) = .book 0 ∧
      s.get Fld.reeveUsedUsedS 2 + 7200 ≤ s.get Fld.reeveBudgetBudgetS 2 ∧ 0 < s.get Fld.reeveBudgetBudgetS 2 ∧
      s.get Fld.reeveBudgetBudgetS 2 < 2 ^ 17 ∧ s.dayStart ≤ a ∧ a + 7200 ≤ s.dayStart + 86400) ∧
    (∀ op ∈ [8, 9], let s := reeveState { tasks := [(4095, taskAt 2 0)] } (reqOf op 0xFFFF 4095 [0] [])
      reqFits s op = true ∧ Map.find s.reeve.tasks 4095 = some (taskAt 2 0)) := by decide

/-- A graph of two nodes and one segment each way, in the Granary; words that pass. -/
def graphState (st : Nat) : State :=
  let node := fun (first : Nat) => leBytes 0 8 ++ leBytes first 2 ++ leBytes 0 3 ++ leBytes 1 1 ++ leBytes 0 2
  let seg := fun (a b : Nat) => leBytes a 2 ++ leBytes b 2 ++ leBytes 5 2 ++ leBytes 0 10
  let s := [(Fld.reeveStateState, st), (Fld.reeveGraphAddr, 0x100), (Fld.reeveGraphsizeNodes, 2), (Fld.reeveGraphsizeSegs, 2),
    (Fld.reeveMirrorAddr, 0x1000), (Fld.reeveRevokeAddr, 0x3000), (Fld.reeveStateGraphOk, 1), (Fld.decantShlenLen, 0x100), (Fld.plinkStatePair, 2)].foldl (fun s p => s.set p.1 p.2) s0
  withBytes s 0x10000 (node 0 ++ node 1 ++ seg 0 1 ++ seg 1 0)

theorem meets_ReeveRunsAndLoads :
    (∀ st ∈ [0, 1, 2, 3, 4], (graphState st).get Fld.reeveStateState = st) ∧
    (let s := graphState 1
     let froms := (List.range 2).map fun k => s.readLE (0x10020 + 16 * k) 2
     (∀ k, k < 2 → s.graphNodeOk 0x10000 k froms = true) ∧ ∀ k, k < 2 → s.graphSegOk 0x10020 2 k = true) ∧
    (let s := graphState 0
     let live := fun f => s.get f
     s.reeveHeld = false ∧ s.getB Fld.reeveStateGraphOk = true ∧
     reeveLayoutOk s live = true ∧ reeveHorizonOk live = true ∧ reeveLightOk (fun f i => s.get f i) = true ∧ reeveAuctionOk live = true) ∧
    (s0.solo = true ∨ s0.get Fld.millCutbaseAddr = 0) ∧
    (let s := (s0.set Fld.plinkStatePair 0).set Fld.millCutbaseAddr 1
     s.millCutDue = true ∧ s.mill.cutting = false ∧ s.millState ≠ 1) := by decide

/-- A plan: a beacon in slots 0-1 and an uplink span in slots 10-11. -/
def plan10 : List Byte := [0x11] ++ List.replicate 9 0 ++ [0x15] ++ List.replicate 53 0

/-- A radio whose live words pass, with that plan at 0x30000 for each port, the neighbour table at 0x40000 and keys in slot 0. -/
def radioState : State :=
  let s := ((s0.set Fld.radioNbrbaseAddr 0x400).set Fld.radioPlanbaseAddr 0x300).set Fld.decantShlenLen 0x100
  let s := withBytes s 0x30000 (plan10 ++ plan10 ++ plan10 ++ plan10)
  { s with keywell := { s.keywell with slots := [(0, { keyOf 1 with usage := 0x40 })] } }

/-- Port 3 running. -/
def portState : State :=
  let s := radioState.set Fld.radioStatState 1 3
  s.setPort 3 { s.port 3 with planLive := plan10 }

/-- Port 3 stopped with words that pass; running, with a frame of the last fitting length under LBT; an outcome of buffer 3, of an image's own
gated beacon; a channel map with one bit. -/
theorem meets_RadioPorts :
    (let s := radioState
     let g := s.liveRead
     s.portStopped 3 = true ∧ s.radioLayoutOk g = true ∧ s.radioPortOk g 3 = true ∧ s.radioKeyOk g = true ∧
     radioRegOk (s.set Fld.radioRegMode 0 3).liveRead 3 = true) ∧
    (portState.portStopped 3 = false ∧ portState.get Fld.radioStatState 3 = 1) ∧
    ((s0.set Fld.radioRegMode 1 3).get Fld.radioRegMode 3 < 2 ∧ 2 ≤ (s0.set Fld.radioRegMode 2 3).get Fld.radioRegMode 3 ∧
     setBits (beaconMap s0.liveRead 3) ≠ [] ∧ setBits ((withBytes radioState (0x40000 + 64 * 1023 + 8) [1]).nbrAt 1023 8 8) ≠ []) ∧
    (let w : TxWait := { buf := 3, off := 200 * 2500 }
     let s := portState.setPort 3 { portState.port 3 with wait := some w }
     let s := s.setSeq 7 { s.seq 7 with tx := [(3, List.replicate 30 0)] }
     let b := Map.getD (s.seq 7).tx w.buf []
     let off := w.off + 200 * w.deferral
     (s.port 3).wait = some w ∧ b ≠ [] ∧ s.bellSlot0 3 w.off = false ∧ s.bellOverlap 3 off (b.length + 4) = false ∧
     s.fitsRest 3 w.off off (b.length + 4) = true ∧ s.dutyOk 3 (b.length + 4) false = true ∧ s.dwellOk 3 (b.length + 4) false = true ∧
     s.get Fld.radioRegMode 3 % 2 = 1) ∧
    (let o : TxOutcome := { buf := 3, word := 1, gated := false }
     let s := portState.setPort 3 { portState.port 3 with outcomes := [o] }
     (s.port 3).outcomes = [o] ∧ s.imgActive 3 = false ∧ Memory.wf (s.seq 7).dmem = true) ∧
    (let o : TxOutcome := { buf := 0, word := 32, gated := true }
     let s := (seqOn portState 7).setPort 3 { portState.port 3 with outcomes := [o] }
     let s := s.setRimg 3 { s.rimg 3 with rcb := List.replicate 15 0 ++ [1] }
     (s.port 3).outcomes = [o] ∧ s.imgActive 3 = true ∧ bitOf o.word 0 = false ∧ bitOf o.word 5 = true) := by decide

/-- An uplink of robot 1023 with a count, before its MIC. -/
def uplink (count : Nat) : List Byte := [0x2B, 0] ++ leBytes 1023 2 ++ leBytes count 4

/-- Port 3 with robot 1023 connected, owner of uplink 0, counter 5, and one frame in its unit, received 12 us and the sync time after 2,500 us. -/
def rxState (frame : List Byte) (good : Byte) : State :=
  let s := withBytes portState (0x40000 + 64 * 1023) ([45, 1] ++ leBytes 10 2 ++ leBytes 0 4 ++ leBytes 1 8 ++ leBytes 5 4 ++ leBytes 0 12)
  let s := s.setQueue 15 { items := [{ body := frame ++ [0, good], visible := true }] }
  s.setPort 3 { s.port 3 with stamps := [⟨0, 200 * 2512 + 12800, 0⟩], stamp := some ⟨0, 0, 0⟩ }

/-- The checks of a frame before its MIC, on a frame of 12 bytes. -/
def rxPasses (frame : List Byte) : Bool :=
  let s := rxState frame 1
  let src := descAt frame 2 2
  let sp := s.rxSpan 3 (200 * 2512 + 12800)
  rxTypeOk (descAt frame 0 1 / 16) (descAt frame 0 1 % 16) sp.type && s.rxAdmits 3 src (descAt frame 0 1 / 16) (descAt frame 0 1 % 16) sp 0 &&
    s.rxWindow 3 src (200 * 2512 + 12800) sp 0

/-- A frame with its MIC, and one of two MICs that fails, whatever the key. -/
theorem meets_mic (key : Nat) (count : Nat) :
    let f := fun (m : List Byte) => uplink count ++ m
    let ok := fun (m : List Byte) => (f m).drop ((f m).length - 4) = micOf key ((f m).take ((f m).length - 4)) 4
    ok (micOf key (uplink count) 4) ∧ (¬ ok [0, 0, 0, 0] ∨ ¬ ok [1, 0, 0, 0]) := by
  refine ⟨rfl, ?_⟩
  by_cases h : micOf key (uplink count) 4 = [0, 0, 0, 0]
  · exact .inr fun k => by
      have k' : [1, 0, 0, 0] = micOf key (uplink count) 4 := k
      rw [h] at k'
      exact absurd k' (by decide)
  · exact .inl fun k => h k.symm

/-- Frames ahead by 0, 1 and half the range; a lost connection; a held frame that expired and one that did not; an index beyond
the table and a full line. -/
theorem meets_FramesAndNeighbours :
    (let s := rxState (uplink 5 ++ [0, 0, 0, 0]) 0
     ((s.port 3).stamp.isSome = true ∧ s.portStopped 3 = false ∧ s.getB Fld.queueStatWm 15 = false ∧ s.portStopped 0 = true ∧
     (s.set Fld.queueStatState 1 15).get Fld.queueStatState 15 ≠ 0 ∧ (s.queue 15).marker = none ∧
     (s.queue 15).items.map (fun x => (x.visible, x.gap)) = [(true, false)] ∧ (s.port 3).parked = [] ∧
     (s.setB Fld.queueStatWm true 15).getB Fld.queueStatWm 15 = true ∧ (s.port 3).stamps.head? = some ⟨0, 200 * 2512 + 12800, 0⟩ ∧
     s.radio.nbrset = none ∧ s.portsStopped = false ∧ s.imgRuns 3 = false)) ∧
    (rxPasses (uplink 6 ++ [0, 0, 0, 0]) = true ∧ rxPasses ([0x2A] ++ (uplink 6).tail ++ [0, 0, 0, 0]) = false) ∧
    (let s := rxState [] 1
     ∀ c ∈ [5, 6, 5 + 2 ^ 31 - 1, 5 + 2 ^ 31], (((c : Nat) : Int) - s.nbrAt 1023 16 4) % (2 ^ 32 : Int) = (c : Int) - 5) ∧
    (({ s0 with radio := { s0.radio with nbrset := some (1023, 7) } } : State).radio.nbrset = some (1023, 7)) ∧
    (let s := (rxState [] 1).set Fld.sysCycleNumber 11
     s.nbrKind 1023 = 1 ∧ s.nbrState 1023 = 2 ∧ s.nbrAt 1023 2 2 < unsigned 32 ((s.cycle : Int) - s.nbrAt 1023 20 4) ∧ Memory.wf s.mem = true ∧
     s.decant.stalled = [] ∧ s.writable (s.nbrAddr 1023) 1 = true) ∧
    (let s : State := { (s0.setRimg 0 { s0.rimg 0 with held := [⟨1, [], 0⟩, ⟨1, [], 1⟩] }) with us := 1 }
     ((s.rimg 0).held[0]? = some ⟨1, [], 0⟩ ∧ 0 + s.rcbAt 0 26 2 * 1000000 < s.us) ∧
     ((s.rimg 0).held[1]? = some ⟨1, [], 1⟩ ∧ s.us ≤ 1 + s.rcbAt 0 26 2 * 1000000)) := by decide

/-- A stop command of this unit: its kind, its count, its MAC. -/
def cmdBody (kind : Nat) (mac : List Byte) : List Byte :=
  leBytes 0xB5 1 ++ leBytes kind 1 ++ leBytes 15 2 ++ leBytes (s0.get Fld.bellKeyEpoch) 1 ++ leBytes (2 ^ s0.get Fld.claimStateUnit) 1 ++
  leBytes 0 2 ++ leBytes 1 4 ++ leBytes 0 12 ++ mac

/-- A running Bell with input 3 enabled, tested and open on channel A. -/
def bellState : State :=
  let s := ((s0.setB Fld.bellEstEn true 3).setB Fld.bellEstTestEn true 3).setMask Fld.bellEststatAopen 3 true
  { s with bell := { s.bell with running := true } }

/-- A stop command with its MAC, and one of two MACs that fails, whatever the key. -/
theorem meets_mac (key : Nat) (kind : Nat) :
    let ok := fun (b : List Byte) => micOf key (b.take 24) 8 = (b.drop 24).take 8
    ok (cmdBody kind (micOf key ((cmdBody kind []).take 24) 8)) ∧ (¬ ok (cmdBody kind (leBytes 0 8)) ∨ ¬ ok (cmdBody kind (leBytes 1 8))) := by
  refine ⟨rfl, ?_⟩
  by_cases h : micOf key ((cmdBody kind []).take 24) 8 = leBytes 0 8
  · exact .inr fun k => by
      have k' : micOf key ((cmdBody kind []).take 24) 8 = leBytes 1 8 := k
      rw [h] at k'
      exact absurd k' (by decide)
  · exact .inl h

theorem meets_BellStates :
    (bellState.getB Fld.bellEstEn 3 = true ∧ s0.getB Fld.bellEstEn 0 = false ∧ bellState.bell.running = true ∧
     bellState.getB Fld.bellEstTestEn 3 = true ∧
     (let s : State := { bellState with us := 10 ^ 9 }
      s.reachUs (s.testEnds 3 false) = some s ∧ s.reachUs (s.testEnds 3 true) = some s) ∧
     (let s : State := { bellState with us := 10 ^ 9, bell := { bellState.bell with discFrom := [(3, 0)] } }
      Map.find s.bell.discFrom 3 = some 0 ∧ s.reachUs (0 + 1000 * s.get Fld.bellDiscDiscMs) = some s)) ∧
    (s0.bell.running = false ∧ s0.getB Fld.keywellStateError = false) ∧
    (∀ kind ∈ [1, 3], let s := bellState.setQueue 40 { items := [{ body := cmdBody kind (leBytes 0 8), visible := true }] }
      (s.queue 40).items.map (·.visible) = [true] ∧ s.cmdFormOk (cmdBody kind (leBytes 0 8)) = true ∧
      s.cmdFormOk (cmdBody 4 (leBytes 0 8)) = false ∧ cycleAfter 1 (s.chestAt 0x21F).toNat = true ∧ cycleAfter 0 0 = false) ∧
    (({ s0 with bell := { s0.bell with relPending := some (15, 1) } } : State).bell.relPending = some (15, 1)) ∧
    (2 ≤ (s0.set Fld.plinkStateLink 2).get Fld.plinkStateLink ∧ (s0.set Fld.plinkStateLink 1).get Fld.plinkStateLink < 2) ∧
    (let s : State := { s0.set Fld.bellStatePlive 1 with us := 3000 }
     s.getB Fld.bellStatePlive = true ∧ s.reachUs (s.bell.reportUs + 3000) = some s) ∧
    (let k : KeySlot := { keyOf 1 with usage := 0x180 }
     let s : State := { s0 with keywell := { s0.keywell with slots := [(s0.get Fld.bellKeyRoot, k), (s0.get Fld.bellKeyCmdroot, k)] } }
     s.slotUsage (s.get Fld.bellKeyRoot) 7 = true ∧ s.slotUsage (s.get Fld.bellKeyCmdroot) 8 = true ∧
     s0.slotUsage (s0.get Fld.bellKeyRoot) 7 = false) := by decide

/-- The Bell in HALT since time 0, 120 us later, with frame 7 naming robot 1023 sent on port 3 and one to be tried again. -/
def bellRing (pair : Nat) : State :=
  let s := ((((portState.set Fld.bellStateState 1).set Fld.plinkStatePair pair).set Fld.bellStateFit 15).set Fld.bellOwedOwed (2 ^ 31) 31)
  let s := (s.set Fld.bellWin2SecondUs 100 3).set Fld.bellWinBretryUs 10 3
  let f : BellFrame := { count := 7, cls := 1, names := [1023], episode := 0 }
  { s with us := 35000, bell := { s.bell with retry := [(3, 0)], built := [(3, f)], frames := [(3, f)] } }

/-- A frame that acknowledges, with its tag of 8 bytes. -/
def ackFrame (tag : List Byte) : List Byte := leBytes 0x29 1 ++ leBytes 1 1 ++ leBytes 1023 2 ++ leBytes 7 4 ++ tag

theorem meets_ack (key : Nat) : (ackFrame (micOf key ((ackFrame []).take 8) 8)).drop 8 =
    micOf key ((ackFrame (micOf key ((ackFrame []).take 8) 8)).take 8) 8 ∧ (ackFrame (micOf key ((ackFrame []).take 8) 8)).length = 16 ∧
    descAt (ackFrame (micOf key ((ackFrame []).take 8) 8)) 0 1 = 0x29 ∧ descAt (ackFrame (micOf key ((ackFrame []).take 8) 8)) 2 2 = 1023 ∧
    descAt (ackFrame (micOf key ((ackFrame []).take 8) 8)) 4 4 = 7 ∧ descAt (ackFrame (micOf key ((ackFrame []).take 8) 8)) 1 1 % 4 = 1 :=
  ⟨rfl, rfl, rfl, rfl, rfl, rfl⟩

/-- The first voice alone and the second voice of a pair; a clear and a busy channel at the threshold; a back-off that ends at BRETRY_US and
one that ends beyond. -/
theorem meets_BellOnAir :
    (let s := (bellRing 0).moveTo (max ((bellRing 0).get Fld.sysPhaseOffsetUs) 8000)
     s.bellRings = true ∧ (bellRing 0).firstVoice = true ∧ s.bellPort 3 = true ∧ s.bellPort 0 = false ∧ s0.bellRings = false) ∧
    (let s := bellRing 0
     Map.find s.bell.retry 3 = some 0 ∧ (Map.find s.bell.built 3).isSome = true ∧ s.get Fld.radioRegMode 3 % 2 = 1 ∧
     -76 < signed 8 (s.get Fld.radioRegCcaDbm 3) ∧ ¬ (-75 < signed 8 (s.get Fld.radioRegCcaDbm 3)) ∧
     0 + s.get Fld.radioLbtBoUs 3 ≤ s.get Fld.bellWinBretryUs 3 ∧
     (s.set Fld.bellWinBretryUs 0 3).get Fld.bellWinBretryUs 3 < 0 + s.get Fld.radioLbtBoUs 3) ∧
    (let s := bellRing 4
     s.firstVoice = false ∧ s.bellPort 3 = true ∧ s.get Fld.bellStateState = 1 ∧ s.get Fld.bellWin2SecondUs 3 ≠ 0 ∧
     bitOf (s.get Fld.bellStateFit) 3 = true ∧ s.bellHeard [] = false ∧ s.bell.since + 120 ≤ s.us) ∧
    (let s := bellRing 0
     (Map.find s.bell.frames 3).map (fun f => (f.names, f.count, f.cls, f.episode)) = some ([1023], 7, 1, s.bell.episode) ∧
     (List.range 1024).filter (fun i => s.owed i && !s.bell.overdue.contains i) = [1023] ∧ s.reachUs (s.bell.episodeUs + 35000) = some s ∧
     (let us := s.get Fld.radioTimTxlatUs 3 + s.get Fld.bellWinAoffUs 3 + s.get Fld.radioTimLeadpUs 3
      let rate := s.get Fld.radioPhyRateKbps 3
      s.ackNear 3 { count := 7, cls := 1, names := [1023], episode := 0 } 0 ((200 * us * rate + 3200000 * s.get Fld.radioPhySyncb 3) / rate) = true)) :=
  by decide

/-- Unit 39, enabled, written by the Mill ring at 0x50000, with items; unit 32 laid out at 0. -/
def unitState (u : QUnit) : State :=
  let s := ((s0.set Fld.queueCfgWriters 0x800 39).set Fld.queueCfgReader 1 39).set Fld.queueRingAddr 0x500 39
  let s := (((s.set Fld.queueBaseAddr 0x1000 39).set Fld.queueStatState 1 39).set Fld.queueCfgWriters 2 32).set Fld.queueCfgReader 1 32
  withBytes (s.setQueue 39 u) 0x50042 [1]

theorem meets_QueueUnitControl :
    (let s := unitState { marker := some (3, 7), items := [{ body := [1], visible := true }, { body := [2] }], held := [[4]] }
     s.get Fld.queueStatState 32 = 0 ∧ qLayoutOk s (fun f i => s.get f i) 32 = true ∧ s.get Fld.queueStatState 39 ≠ 0 ∧
     (s.queue 39).items = [{ body := [1], visible := true }] ++ { body := [2] } :: [] ∧ (s.queue 39).held = [[4]] ∧
     (s.queue 39).fill + qStored 1 ≤ s.qSize 39 ∧ bitOf (s.get Fld.queueCfgWriters 39) 11 = true ∧ Memory.wf s.mem = true ∧
     s.decant.stalled = [] ∧ s.poisonAt 0x50000 4160 = false ∧ s.writable 0x50000 4160 = true ∧ memByte s.mem 0x50042 = 1 ∧ s.get Fld.queueRingAddr 39 * 256 = 0x50000) ∧
    (∀ raised ∈ [true, false], let s : State := { s0.setQueue 47 { stallUs := some 0, stallRaised := raised } with us := 100 }
      (s.queue 47).stallUs = some 0 ∧ (s.queue 47).stallRaised = raised ∧ s.reachUs (0 + 100) = some s) := by decide

/-- An Ethernet frame: destination, source 02-00-00-00-00-05, type, and 46 bytes. -/
def ethFrame (dst type : Nat) (body : List Byte) : List Byte :=
  (leBytes dst 6).reverse ++ (leBytes 0x020000000005 6).reverse ++ (leBytes type 2).reverse ++ body ++ List.replicate (46 - body.length) 0

/-- Ports 0 and 3 up at 1 Gb/s, port 1 starting, units 32 and 33 the hub's ways out. -/
def netState (rest : List QItem) : State :=
  let s := (((s0.set Fld.netStatePort 2 0).set Fld.netStatePort 2 3).set Fld.netPstatSpeed 2 0).set Fld.netPstatSpeed 2 3
  let s := (((s.set Fld.netStatePort 1 1).set Fld.netHubOutg 32).set Fld.netHubOutu 33).set Fld.netMacloAddr 1
  s.setQueue 33 { items := rest }

theorem meets_NetPorts :
    (∀ k ∈ [(0, 2), (1, 1), (2, 0), (3, 2)], (netState []).get Fld.netStatePort k.1 = k.2) ∧
    (let s : State := { netState [] with us := 10000 }
     s.reachUs (Map.getD s.net.trainUs 1 0 + 10000) = some s ∧ s.getB Fld.netPstatLock 1 = false) ∧
    (let s := netState []
     ((s.set Fld.queueStatState 1 28).qCross 28 (ethFrame 0xFFFFFFFFFFFF 0x0800 [])).1 = true ∧
     ((s.set Fld.queueStatState 0 28).qCross 28 (ethFrame 0xFFFFFFFFFFFF 0x0800 [])).1 = false ∧ s.getB Fld.netPstatLock 1 = false ∧ s.getB Fld.netPortPtpEn 0 = true ∧
     (∀ f ∈ [ethFrame 0xFFFFFFFFFFFF 0x0800 [], ethFrame 0x020000000006 0x0800 [], ethFrame 0xFFFFFFFFFFFF 0x88B5 [],
         ethFrame 0x0180C200000F 0x0800 []], 14 ≤ f.length ∧ f.length ≤ 1518 ∧ ptpAt (s.getB Fld.netPtpUdp) f = none ∧ beAt f 0 6 ≠ s.hubMac) ∧
     beAt (ethFrame 0x0180C200000F 0x0800 []) 0 6 / 16 = 0x0180C200000 ∧ beAt (ethFrame s.hubMac 0x0800 []) 0 6 = s.hubMac ∧
     ptpAt (s.getB Fld.netPtpUdp) (ethFrame s.hubMac 0x0800 []) = none ∧
     beAt (ethFrame 0x020000000006 0x0800 []) 0 1 % 2 = 0 ∧ etherType (ethFrame 0 0x88B5 []) = 0x88B5 ∧
     (s.learn (beAt (ethFrame 0x020000000005 0x0800 []) 6 6) 0).net.macs = [(0x020000000005, (0, s.us))]) ∧
    (let s := netState []
     let f := ethFrame 0x011B19000000 0x88F7 [0x10, 2, 0, 44, 1]
     ptpAt (s.getB Fld.netPtpUdp) f = some (14, none) ∧ beAt f 0 1 % 2 = 1 ∧ beAt f 14 1 % 16 = 0 ∧ beAt f 18 1 ≠ s.get Fld.netPtpDomain ∧
     s.get Fld.netPtpProfile = 0 ∧ s.getB Fld.netPtpTcEn = true ∧ s.stamps 0 = true ∧ s.stamps 3 = true ∧ s.netPort 3 = 2) ∧
    (∀ b ∈ [ethFrame 0xFFFFFFFFFFFF 0x88B5 [], ethFrame 0xFFFFFFFFFFFF 0x0800 []],
      let s := (netState [{ body := [0x2F] ++ List.replicate 7 0 ++ b, visible := true }]).set Fld.claimStateStage 2
      s.holding = true ∧ ((s.queue (s.get Fld.netHubOutu)).items.map fun it => (it.visible, it.gap, etherType (it.body.drop 8))) =
        [(true, false, etherType b)] ∧ ptpAt (s.getB Fld.netPtpUdp) b = none) ∧
    (netState []).holding = false ∧ 32 ≤ (netState []).get Fld.netHubOutg ∧
    (({ s0 with net := { s0.net with returns := [⟨[1]⟩] } } : State).net.returns = [⟨[1]⟩]) := by decide

/-- A control message of the partner, unit 1, of the same stepping, pair identity and layout. -/
def partnerMsg (kind pair arg : Nat) : CtlMsg := ⟨kind, 1, true, pair, false, false, 0, 5, 5, 0, arg, s0.stepCode, 0, 0, s0.chestAt 0x0010⟩

/-- This unit in a pair state, a stage and a link state. -/
def pairIn (pair stage link : Nat) : State := ((s0.set Fld.plinkStatePair pair).set Fld.claimStateStage stage).set Fld.plinkStateLink link

/-- Every pair state at a claim stage, with the link up and down; WHMAX 4 and START_WAIT_S 60; one item of 64 bytes and two credits; a HELLO
that is refused, one that is not. -/
theorem meets_PairLink :
    (∀ p ∈ [0, 1, 2, 3, 4, 5], ∀ l ∈ [0, 1, 2, 3], (pairIn p 0 l).pair = p ∧ (pairIn p 0 l).get Fld.plinkStateLink = l) ∧
    (let s := (s0.set Fld.plinkCfgWhmax 4).set Fld.plinkCfgStartWaitS 60
     4 ≤ s.get Fld.plinkCfgWhmax ∧ s.get Fld.plinkCfgStartWaitS ≤ 60 ∧ (s.set Fld.plinkCfgWhmax 3).get Fld.plinkCfgWhmax < 4) ∧
    (outUnitOf 46 = some 45 ∧
     (let s := (pairIn 3 0 2).setQueue 45 { items := [{ body := List.replicate 56 0, visible := true }, { body := List.replicate 57 0, visible := true }] }
      (s.queue 45).items.map (fun it => (qStored it.body.length + 63) / 64) = [1, 2])) ∧
    (let s : State := { s0 with pairing := { s0.pairing with aliveUs := some 0, helloDue := some 0 } }
     s.alive = true ∧ s.pairing.helloDue = some 0 ∧ s.reachUs 0 = some s ∧ s.nextBeat < s.boundaryPs ∧ (s.reachSite s.nextBeat).isSome = true ∧
     s0.alive = false) ∧
    (let s : State := { pairIn 4 0 2 with us := 3000 }
     (s.reachUs s.beatLimit).isSome = true) ∧
    (∀ pref ∈ [0, 1], let s := (s0.set Fld.claimStatePref pref).set Fld.plinkStatePair 1
     let s : State := { s with us := 400000000, pairing := { s0.pairing with seekUs := some 0 } }
     s.pair = 1 ∧ s.seekEnd.bind s.reachUs = some s) ∧
    (let m := partnerMsg 1 2 s0.layoutHash
     let s := pairIn 1 0 2
     m.step = s.stepCode ∧ m.pairid = s.chestAt 0x0010 ∧ m.unit ≠ s.unit ∧ m.arg = s.layoutHash ∧ (partnerMsg 1 2 (s0.layoutHash + 1)).arg ≠ s.layoutHash ∧
     s.pairing.helloSeen = false ∧ s.getB Fld.claimStatePartwire = false) ∧
    (let s := pairIn 3 2 2
     let s : State := { (s.set Fld.plinkHCycle 7) with pairing := { s.pairing with giving := true, partHolding := true } }
     s.pairing.giving = true ∧ s.get Fld.plinkHCycle ≠ 0 ∧ s.get Fld.claimStateStage = 2 ∧ (s0.set Fld.claimStateUnit 1).unit = 1) := by decide

/-- The body of a journal of cycle 7 that follows cycle 6 and carries line 0, up to its tag. -/
def journalBody : List Byte :=
  let b := leBytes 0x4C4E4A44 4 ++ leBytes 7 4 ++ leBytes 6 4 ++ leBytes 5 4 ++ leBytes 0 4 ++ leBytes 360 4 ++ leBytes 1 4 ++
    leBytes s0.layoutHash 4 ++ leBytes 0 4 ++ leBytes 0 28 ++ leBytes 0 4 ++ leBytes 1 2 ++ leBytes 0 2 ++ List.replicate 256 0xA5
  b ++ leBytes (crc32c b) 4 ++ leBytes 0 12

theorem meets_journal_tag (s : State) (body : List Byte) :
    let b := body ++ s.journalTag body
    b.length = body.length + 16 ∧ s.journalTag (b.take (b.length - 16)) = b.drop (b.length - 16) := by
  have h : (s.journalTag body).length = 16 := by simp [State.journalTag]
  simp [h]

/-- A journal that is sound, of the newest claim and in sequence; its form; one line of the only shadow region to commit. -/
theorem meets_journal : ∀ tag ∈ [List.replicate 16 (0 : Byte)], let b := journalBody ++ tag
    b.length = 360 ∧ descAt b 0 4 = 0x4C4E4A44 ∧ descAt b 20 4 = 360 ∧ descAt b 28 4 = s0.layoutHash ∧
    descAt b 328 4 = crc32c (b.take 328) ∧ descAt b 12 4 = 5 ∧ cycleAfter (descAt b 4 4) 6 = true ∧ descAt b 8 4 = 6 ∧ descAt b 24 4 = 1 ∧
    descAt b 64 4 = 0 ∧ descAt b 68 2 = 1 ∧ 72 + 256 * 1 ≤ b.length := by decide

/-- Stages and pair states with the claims at their bounds; a journal sent and acknowledged at 9,899 and 9,900 us; a stalled write; a declared
loss; a yield whose hold is over, by the partner's rise and by time. -/
theorem meets_ClaimsAndHandover :
    (let s := (pairIn 3 1 2).set Fld.claimHeldClaim 5 |>.set Fld.claimSeenClaim 5
     s.get Fld.claimHeldClaim ≠ 0 ∧ s.get Fld.claimSeenClaim ≤ s.get Fld.claimHeldClaim ∧ s.pairing.holdBlocked = false ∧
     s.getB Fld.keywellStateError = false ∧ s.get Fld.claimStateStage = 1 ∧ s.get Fld.claimStateStage ≠ 2 ∧ s0.get Fld.claimHeldClaim = 0 ∧
     s.boot.restart = none ∧ s.get Fld.plinkHCycle = 0 ∧ 5 ≤ s.get Fld.claimSeenClaim) ∧
    (let s : State := { (s0.set Fld.decantShlenLen 1 0) with decant := { s0.decant with rx := some journalBody } }
     s.decant.rx = some journalBody ∧ s.decant.rxStale = false ∧ s.decant.stalled = [] ∧ Memory.wf s.mem = true ∧ s.shadowRegions = [(0, 65536)] ∧ 0 + 1 ≤ 65536 / 256) ∧
    (∀ off ∈ [9899, 9900], let j : Journal := { cycle := 7, complete := true, bytes := [] }
     let s : State := { (((pairIn 3 2 2).set Fld.sysCycleNumber 7).set Fld.sysPhaseOffsetUs off) with decant := { s0.decant with sent := some j } }
     s.decant.sent = some j ∧ s.pair = 3 ∧ j.cycle = s.cycle ∧ (s.get Fld.sysPhaseOffsetUs < s.deadline ↔ off = 9899)) ∧
    (let w : StalledWrite := { addr := 0x3FFFF00, bytes := [1, 2], writer := some kern }
     let s : State := { s0 with decant := { s0.decant with stalled := [w] } }
     s.decant.stalled = [w] ∧ s.bankOff w.addr w.bytes.length = false ∧ (s.set Fld.decantStateLocked 0).getB Fld.decantStateLocked = false) ∧
    (let s : State := { (pairIn 5 0 2) with pairing := { s0.pairing with lost := some 7 } }
     s.pairing.lost = some 7 ∧ s.pair = 5 ∧ s.decant.rx = none ∧ s.pairing.takeT = none) ∧
    (let s : State := { s0 with us := 20000, pairing := { s0.pairing with yielding := some 0 } }
     s.pairing.yielding = some 0 ∧ s.yieldOver 0 = some s ∧
       ({ s0 with pairing := { s0.pairing with partRise := some 6000, yielding := some 1 } } : State).yieldOver 1 =
         some { s0 with pairing := { s0.pairing with partRise := some 6000, yielding := some 1 } } ∧ s0.pairing.yielding = none) ∧
    (let s : State := { (pairIn 3 0 2) with pairing := { s0.pairing with withheld := s0.get Fld.plinkCfgWhmax } }
     s.get Fld.plinkCfgWhmax ≤ s.pairing.withheld ∧ s.get Fld.sysPhaseOffsetUs < s.deadline ∧ (pairIn 3 0 2).pairing.withheld < (pairIn 3 0 2).get Fld.plinkCfgWhmax) := by decide

/-- A flash of 16 MB with slots of 1 MB and 16 GB of DRAM. -/
def flashState : State :=
  let d := leBytes 0x44585157 4 ++ leBytes 1 4 ++ leBytes 16 4 ++ leBytes 16 4 ++ leBytes 16 4 ++ leBytes 0 40
  withBytes s0 flashBase (d ++ leBytes (crc32c d) 4)

/-- A descriptor at 0x100: operation, offset, length; the source is 0x1000. -/
def reqState (op off len : Nat) : State :=
  let s := withBytes flashState 0x100 (leBytes op 1 ++ leBytes 0 3 ++ leBytes off 4 ++ leBytes 0x1000 8 ++ leBytes len 4)
  withReg { s with boot := { s.boot with erased := [4095] } } 1 0x100

/-- Each operation by the kernel; the last block and the last page of a slot and one beyond; a boot record in every state; a running request and
four; recovery messages of 1 and 56 bytes, the last up to the slot's end. -/
theorem meets_BootRequests :
    (∀ op ∈ [0, 1, 2, 3, 4, 5, 6, 7, 8], let s := reqState op 0 0
      s.runs kern = true ∧ s.top .kernel = true ∧ s.rangeFault kern 0x100 32 false = none ∧ s.boot.reqs = [] ∧
      numAt (s.rangeRead kern 0x100 32).1 0 1 = op ∧ (s.rangeRead kern 0x100 32).2.inRam 0x1000 16 = true ∧
      (s.rangeRead kern 0x100 32).2.boot.flashProt = false) ∧
    (let s := reqState 1 0xF0000 65536
     let b := (s.rangeRead kern 0x100 32).1
     rangeOk (numAt b 4 4) (numAt b 16 4) 65536 s.slotLen = true ∧ rangeOk 0x100000 65536 65536 s.slotLen = false ∧
     rangeOk 0xFFF00 256 256 s.slotLen = true ∧ rangeOk 0xFFF00 512 256 s.slotLen = false ∧ (∀ p ∈ pagesOf 0xFFF00 256, p ∈ s.boot.erased)) ∧
    (∀ v ∈ [0, 1, 3, 4], (flashState.setRec v 0).bootRec = v) ∧ bitOf ((flashState.setRecBit 5 true).chestAt 0).toNat 5 = true ∧
    flashState.directoryOk = true ∧ s0.directoryOk = false ∧ s0.boot.recovery = false ∧ bitOf (s0.chestAt 0).toNat 5 = false ∧
    (s0.bundleCheck goldenOff true = some 0x0C16 ∧ ¬ 0 < numAt s0.boot.manifest 6 1) ∧
    (let r : BootReq := ⟨1, 0, [], some 0⟩
     let s : State := { s0 with us := 500000, boot := { s0.boot with reqs := [r, r, r], fwload := [(3, (2, 0))] } }
     s.boot.reqs = r :: [r, r] ∧ [r, r].length < 3 ∧ Map.find s.boot.fwload 3 = some (2, 0) ∧ s.reachUs (0 + 500000) = some s) ∧
    (let s : State := { flashState with boot := { flashState.boot with recovery := true } }
     s.boot.recovery = true ∧ numAt (leBytes 0xFFFC8 4 ++ leBytes 56 4 ++ List.replicate 56 1) 4 4 = 56 ∧ 0xFFFC8 + 56 ≤ s.slotLen ∧
     Memory.wf s.mem = true) := by decide

/-- A manifest in force with an entry for target 1 of profile 3 (a GNSS sequencer), a trial of 60 s and 60 s more, and a deadline of 10 minutes. -/
def trialState (rec' seconds : Nat) : State :=
  let m := leBytes 0 6 ++ leBytes 1 1 ++ leBytes 0 1 ++ leBytes 9 4 ++ leBytes 0 10 ++ leBytes 60 2 ++ leBytes 60 2 ++ leBytes 10 2 ++ leBytes 0 38 ++
    leBytes 0 8 ++ leBytes 3 1 ++ leBytes 1 1
  let s := ((s0.setRec rec' 0).set Fld.bootServiceSeconds seconds).set Fld.bootStateSlot 1
  { s with boot := { s.boot with manifest := m } }

/-- A device in reset with nothing else that holds it, with and without a directory, asleep in REST; a pair state on either side; SYS stopped
and running; a trial one second before and at its confirmation and its end. -/
theorem meets_StartsAndRestarts :
    (∀ dir ∈ [true, false], let f := if dir then flashState else s0
      let s : State := { f with kettle := { f.kettle with inReset := true, holds := [.pin] } }
      s.kettle.inReset = true ∧ (s.freeReset .pin).kettle.holds = [] ∧ s.boot.recovery = false ∧ s.lockstepStopped = false ∧ s.kettle.device ≠ .rest ∧
      ((((s.freeReset .pin).fuseCheck false).journalResolve).startWords).directoryOk = dir) ∧
    (let s : State := { s0 with kettle := { s0.kettle with inReset := true, device := .rest } }
     s.kettle.device = .rest ∧ (s.freeReset .pin).kettle.holds = []) ∧ s0.kettle.inReset = false ∧
    (s0.pair ≤ 2 ∧ (pairIn 5 0 1).pair = 5 ∧ (pairIn 5 0 1).get Fld.plinkStateLink < 2 ∧ (pairIn 3 0 2).pair = 3 ∧ s0.boot.restart = none ∧
     (s0.set Fld.sysReleaseGate 0).gateOpen = false) ∧
    (s0.sysRunning = false ∧ (s0.setB Fld.bootStateSysrun true).sysRunning = true ∧ ({ s0 with boot := { s0.boot with cycStart := some 0 } } : State).boot.cycStart = some 0 ∧ 0 ≤ s0.cyclePs ∧ s0.onSecond = true ∧
     s0.get Fld.timeStateServo = 0 ∧
     (s0.set Fld.timeStateServo 1).get Fld.timeStateServo ≠ 0 ∧ (s0.set Fld.plinkCfgPairEn 0).getB Fld.plinkCfgPairEn = false) ∧
    (∀ sec ∈ [59, 60, 119, 120], let s := trialState 3 sec
      s.bootRec = 3 ∧ s.get Fld.bootStateSlot = 1 ∧ (s.trialS ≤ s.get Fld.bootServiceSeconds ↔ 60 ≤ sec) ∧
      (s.trialS + numAt s.boot.manifest 0x18 2 ≤ s.get Fld.bootServiceSeconds ↔ 120 ≤ sec) ∧ numAt s.boot.manifest 0x1C 1 = 0) ∧
    (let s : State := { trialState 3 0 with us := 600000000 }
     s.reachUs (s.boot.entryUs + 60000000 * numAt s.boot.manifest 0x1A 2) = some s ∧ numAt s.boot.manifest 0x1A 2 = 10) ∧
    ((trialState 0 0).bootRec = 0 ∧ ((trialState 4 0).set Fld.bootStateSlot 0).get Fld.bootStateSlot = 0) := by decide

/-- A running loop engine with slot 31 in a state, fed by channel 15 of port 7, its cut at 0x60000. -/
def loopState (st : Nat) (word : Word32) : State :=
  let s := (((s0.set Fld.loopStateRunning 1).set Fld.loopStatState st 31).set Fld.loopCfgSport 7 31).set Fld.loopCfgChan 15 31
  let s := (((s.set Fld.loopCutbaseAddr 0x600).setB Fld.loopSpEn true 7).set Fld.loopFbTmo 1 31).setB Fld.loopCfgAutorec false 31
  { s with loop := { s.loop with frames := [(7, { num := 2, words := List.replicate 16 word, before := List.replicate 16 word })] } }

/-- Running and stopped, as a standby and not; frames of the right and of a wrong length; a valid cut and none; every state of a slot with the
feedback fresh and lost; starters of both kinds. -/
theorem meets_ControlLoops :
    (s0.getB Fld.loopStateRunning = false ∧ (loopState 0 0).getB Fld.loopStateRunning = true ∧ (pairIn 5 0 2).standby = true ∧ s0.standby = false ∧
     loopLayoutOk s0 (fun f i => s0.get f i) = true ∧
     (let s := s0.set Fld.loopStaggerUs 9
      loopLayoutOk s (fun f i => s.get f i) = false)) ∧
    (let s := withBytes (s0.set Fld.loopCutbaseAddr 0x600) 0x60000 (leBytes 0x5455434C 4 ++ leBytes 0 4 ++ leBytes 1 1)
     s.readLE 0x60000 4 = 0x5455434C ∧ s.readLE 0x60008 1 = 1 ∧ s0.get Fld.loopCutbaseAddr = 0) ∧
    (let s := loopState 0 0
     s.getB Fld.loopSpEn 7 = true ∧ s.getB Fld.loopSpEn 0 = false ∧ [(0 : Word32)].length ≠ s.get Fld.loopSpWords 7 ∧
     (List.replicate 16 (0 : Word32)).length = s.get Fld.loopSpWords 7 ∧ Memory.wf s.mem = true ∧ (s.moveTo 5990).writable 0x60000 8320 = true ∧
     ((s.set Fld.queueStatState 1 27).qCross 27 (frameBytes [0])).1 = true ∧ ((s.set Fld.queueStatState 0 27).qCross 27 (frameBytes [0])).1 = false) ∧
    (∀ st ∈ [0, 1, 2, 3], let s := loopState st 5
     s.get Fld.loopStatState 31 = st ∧ s.getB Fld.loopCfgAutorec 31 = false ∧ s.reach (s.sampleDue 31) = some s ∧ s.get Fld.loopCfgSnk 31 ≠ 2 ∧ s.outerOf 31 = none ∧ s.getB Fld.loopStatWaitstart 31 = false ∧
     (s.feedback 31).1 = true ∧ 1 ≤ s.get Fld.loopFbTmo 31 ∧ s.get Fld.loopFbFrzK 31 = 0 ∧ (s.lslot 31).closing = false ∧
     s.f64 Fld.loopSlew 31 = 0) ∧
    (let s := loopState 1 0x80000000
     (s.feedback 31).1 = false ∧ s.get Fld.loopFbTmo 31 ≤ (s.lslot 31).lost + 1) ∧
    ((s0.set Fld.loopCfgSnk 2 31).get Fld.loopCfgSnk 31 = 2 ∧ s0.starts = [] ∧ (s0.set Fld.kettleStatePfw 0).getB Fld.kettleStatePfw = false) ∧
    (let s : State := { (loopState 1 0).set Fld.axisStatState 1 7 with starts := [.slot 31, .axis 7] }
     s.starts = .slot 31 :: [.axis 7] ∧ s.axState 7 = 1 ∧ s.reachUs s.startDue = some s ∧ s.gpioTaken (s.get Fld.loopCfgEngpio 31) = false ∧
     ({ s with loop := { s.loop with grantUs := some 20000 } } : State).reachUs 20000 = none) := by decide

theorem loop_cut_length : ((loopState 0 0).moveTo 5990).loopCut.length = 8320 := by decide

/-- Axis 7 in a state and a motion. -/
def axisIn (st : Nat) (m : AxisMotion) : State :=
  let s := (s0.set Fld.axisStatState st 7).setB Fld.axisCfgReqhome false 7
  s.setAxis 7 { s.axis 7 with motion := m }

/-- Every state and motion; a target on a microstep of 256; an external source with and without its limit; both homing directions; a pin that
becomes active. -/
theorem meets_StepperAxes :
    (∀ st ∈ [0, 1, 2, 3, 4, 5], ((axisIn st .rest).axSync 7).axState 7 = st) ∧
    (∀ m ∈ [AxisMotion.rest, .move, .vel, .stopTo 5 2, .settle, .turn, .search, .latched], let u := (axisIn 4 m).axSync 7
      (u.axis 7).motion = m ∧ (u.axis 7).armed = true ∧ u.getB Fld.axisCfgHsrc 7 = false) ∧
    (s0.getB Fld.axisStateRunning = false ∧ (s0.set Fld.axisStateRunning 1).getB Fld.axisStateRunning = true ∧ s0.standby = false ∧
     axisLayoutOk s0 (s0.get Fld.axisCutbaseAddr) = true ∧ axisLayoutOk s0 0x600 = false) ∧
    (let s := withBytes ((s0.set Fld.axisCutbaseAddr 0x600).set Fld.axisStateRunning 1) 0x60000 (leBytes 0x54554341 4 ++ leBytes 0 4 ++ leBytes 1 1)
     s.readLE 0x60000 4 = 0x54554341 ∧ s.readLE 0x60008 1 = 1 ∧ Memory.wf s.mem = true ∧
     (let v := (s.moveTo 5990).axesSync
      v.writable 0x60000 v.axisCut.length = true)) ∧
    (∀ st ∈ [2, 3, 5], let s := ((axisIn st .rest).set Fld.axisTgtTgt 0x7FFFFF00 7).axSync 7
      s.getB Fld.axisCfgReqhome 7 = false ∧ s.motionRefused 7 true = false ∧ s.motionRefused 7 false = false ∧
      signed 32 (s.get Fld.axisTgtTgt 7) % 256 = 0 ∧ s.pos 7 ≤ signed 32 (s.get Fld.axisTgtTgt 7) ∧ s.homeSource 7 = false ∧
      (s.set Fld.axisTgtTgt 1 7).get Fld.axisTgtTgt 7 % 256 ≠ 0) ∧
    (let s := (s0.setB Fld.axisCfgSrc true 7).setB Fld.axisStatLp true 7
     s.getB Fld.axisCfgSrc 7 = true ∧ s0.getB Fld.axisCfgSrc 7 = false ∧ s.reach (s.roots + 60 * 10 ^ 9) = none ∧
     (s.reach (s.roots + 60 * 10)).map (fun v => ((v.axSync 7).limitActive 7 true, (v.axSync 7).limitActive 7 false)) = some (true, false)) ∧
    (let s := axisIn 3 .move
     true = bitOf (s.get Fld.axisCfgPol 7) 1 ∨ false = bitOf (s.get Fld.axisCfgPol 7) 1) ∧
    (((axisIn 3 .move).axis 7).positive = true ∧ (axisIn 3 .move).inputActive 7 0 = false) := by decide

/-- A coarse step at the present clock, and one further away than the generator looks; a microstep of an external step that is due in the cycle; and
every motion that ends in its next PWM period. -/
theorem meets_StepperAxes_steps :
    (let s := (axisIn 3 .vel).setAxis 7 { (axisIn 3 .vel).axis 7 with vel := 100 * 2 ^ 149 * 10 ^ 10, plan := 1 }
     let u := s.axSync 7
     (u.axis 7).coarse = (s.axis 7).coarse ∧ (u.axis 7).motion = .vel ∧ u.getB Fld.axisCfgSrc 7 = false ∧
     u.genFind 7 Axis.crosses genAhead (u.axis 7) = some 0 ∧ (u.reach 0).isSome = true) ∧
    (let s := (s0.setB Fld.axisCfgSrc true 7).setAxis 7 { s0.axis 7 with coarse := 256, stepPeriod := 60000 }
     let u := s.axSync 7
     u.pos 7 = s.pos 7 ∧ u.pos 7 ≠ (u.axis 7).coarse ∧ u.getB Fld.axisCfgSrc 7 = true ∧ (u.reach (u.microDue 7)).isSome = true ∧
     (u.axis 7).stepAt = 0) ∧
    (∀ m ∈ [AxisMotion.stopTo 5 2, .settle, .turn, .latched], let s := axisIn 4 m
     let u := s.axSync 7
     (u.axis 7).motion = (s.axis 7).motion ∧ u.getB Fld.axisCfgSrc 7 = false ∧ u.genStands 7 (u.genPeriod 7 (u.axis 7)) = true ∧
     u.roots ≤ (u.axis 7).genAt ∧ (u.reach (u.axis 7).genAt).isSome = true ∧ (u.genPeriod 7 (u.axis 7)).positive = (u.axis 7).positive ∧
     u.limitActive 7 (u.hdir 7) = false ∧ u.limitActive 7 (!u.hdir 7) = false ∧ (u.axis 7).crosses (u.genPeriod 7 (u.axis 7)) = none) := by
  decide

/-- A move at its target, which VMAX 0 keeps there whatever velocity it aims at. -/
theorem meets_StepperAxes_move :
    let u := ((axisIn 4 .move).set Fld.axisVmax 0 7).axSync 7
    (u.axis 7).motion = .move ∧ u.genStands 7 (u.genPeriod 7 (u.axis 7)) = true ∧ u.roots ≤ (u.axis 7).genAt ∧
    (u.reach (u.axis 7).genAt).isSome = true ∧ (u.genPeriod 7 (u.axis 7)).positive = (u.axis 7).positive := by
  intro u
  have hv : u.axVmax 7 = 0 := by decide
  have hx : u.axis 7 = { motion := .move, duties := (u.axis 7).duties } := by rfl
  have ht : u.axTarget 7 = 0 := by decide
  have ha : u.genAim 7 { motion := .move, duties := (u.axis 7).duties } = 0 := by
    simp only [State.genAim, hv]
    omega
  have hg : u.genVel 7 { motion := .move, duties := (u.axis 7).duties } = (0, 0) := by
    have hf : (0 : Int) ≤ f32Fixed 0x461C4000 * 10 ^ 5 := by decide
    simp only [State.genVel, ha, hv, true_or, if_true, rampStep, Int.le_refl, Int.zero_add, Int.min_eq_left hf, Int.neg_zero]
    rfl
  have hp : u.genPeriod 7 { motion := .move, duties := (u.axis 7).duties } =
      { motion := .move, genAt := 60000, duties := (u.axis 7).duties } := by
    simp only [State.genPeriod, hg, ht]
    rfl
  have hr : u.roots ≤ 0 ∧ (u.reach 0).isSome = true := by decide
  generalize (u.axis 7).duties = d at hx hp
  rw [hx, hp]
  refine ⟨rfl, ?_, hr.1, hr.2, rfl⟩
  simp only [State.genStands, ht]
  decide

/-- The channels of a Tally with channel 15 enabled, running and measuring; a save and a flush to be written. -/
theorem meets_TallyMeters :
    (let s := ((s0.set Fld.tallyStateRunning 1).setB Fld.tallyCfgEn true 15).setB Fld.tallyCfgHpf false 15
     let s : State := { s with tally := { s.tally with measuring := true } }
     s.getB Fld.tallyStateRunning = true ∧ s.tally.stopping = false ∧ s.tally.measuring = true ∧ s.getB Fld.tallyCfgEn 15 = true ∧
     s.cycle % 10 = 0 ∧ s.tally.ended ≠ some s.cycleRoots ∧
     ({ s with tally := { s.tally with ended := some s.cycleRoots } } : State).tally.ended = some s.cycleRoots ∧
     s.get Fld.tallyCfgPort 15 < 8 ∧ s.getB Fld.tallyCfgHpf 15 = false ∧ (s.tchan 15).volts.length < 63 ∧ s.keywell.steps = [] ∧
     s.getB Fld.tallyCfgEn 0 = (s0.getB Fld.tallyCfgEn 0) ∧ s0.getB Fld.tallyStateRunning = false ∧ s0.tally.measuring = false) ∧
    ((s0.setB Fld.tallyCfgEn false 0).getB Fld.tallyCfgEn 0 = false ∧ (s0.set Fld.tallyStateSaving 1).getB Fld.tallyStateSaving = true ∧
     s0.getB Fld.tallyStateSaving = false ∧ (s0.set Fld.kettleStatePfw 0).getB Fld.kettleStatePfw = false) ∧
    (let y : Tally := { save := [(0x1000, 1), (0x107E, 2)], flush := [(0x1080, 1), (0x10FE, 2)] }
     (y.save.map Prod.fst).Nodup ∧ y.flush ≠ [] ∧ (y.flush.map Prod.fst).Nodup) := by decide

/-- The Kettle changed. -/
def kettleIn (f : Kettle → Kettle) : State := { s0 with kettle := f s0.kettle }

/-- A device that has nothing left to do and is to wake some seconds ahead. -/
def sleepyState (seconds : Nat) : State :=
  let s := ((s0.set Fld.kettleWakeloSeconds seconds).set Fld.kettleResumehiValid 1).set Fld.kettleResumeloAddrLo 0x40
  ((s.set Fld.kettleStatePfw 0).set Fld.claimStateStage 0).set Fld.tallyStateRunning 0

/-- Rails 2 and 8 to come up; a missed poll before the third; codes at PM_MIN, one below and one above PM_TGT + 16, at the
ceiling and below it. -/
theorem meets_PowerHeatAndSleep :
    (let s := kettleIn fun k => { k with railsOn := 1, holds := [.rails] }
     HoldCause.rails ∈ s.kettle.holds ∧ s.kettle.seq = [] ∧ s.kettle.retry = false ∧ s.kettle.device = .none ∧ s.kettle.railsOn.getLsbD 2 = false ∧
     HoldCause.rails ∉ s0.kettle.holds ∧ s0.kettle.offList = []) ∧
    (let s := kettleIn fun k => { k with railsOn := 1, seq := [7], retry := true, offList := [8], missed := [(8, 2)] }
     s.kettle.seq = 7 :: [] ∧ s.kettle.offList = 8 :: [] ∧ s.kettle.retry = true ∧ Map.getD s.kettle.missed 8 0 = 2 ∧
     s0.kettle.railsOn.getLsbD 8 = true ∧ [RailPoll.mk true false, ⟨true, false⟩, ⟨true, false⟩, ⟨true, false⟩, ⟨true, false⟩, ⟨true, false⟩, ⟨false, false⟩][8 - 2]? =
       some ⟨false, false⟩) ∧
    (∀ c ∈ [559, 560, 616, 617], let s := s0.set Fld.kettleAvsEn 1
      let codes : List (Option Nat) := List.replicate 31 none ++ [some c]
      codes[31]? = some (some c) ∧ c < 1024 ∧ s.getB Fld.kettleAvsEn = true ∧ (c < s.get Fld.kettleAvsPmMin ↔ c = 559) ∧
      (c ≤ s.get Fld.kettleAvsPmTgt + 16 ↔ c ≠ 617) ∧ s.get Fld.kettleVcoreMv ≤ 850) ∧
    ((s0.set Fld.kettleVcoreMv 850).get Fld.kettleVcoreMv = 850 ∧ (s0.set Fld.kettleVcoreMv 849).get Fld.kettleVcoreMv = 849 ∧
     s0.getB Fld.kettleStateAvslim = false ∧ (s0.set Fld.kettleAvsEn 0).getB Fld.kettleAvsEn = false ∧
     (kettleIn fun k => { k with avsHigh := 9 }).kettle.avsHigh = 9) := by decide

/-- Sleeping 2 s and 120 s ahead; a wake pin; temperatures at each threshold; a rail 3 % and 6 % out; PFW. -/
theorem meets_PowerHeatAndSleep_sleep_and_heat :
    (∀ sec ∈ [2, 120], let s := sleepyState sec
      s.get Fld.claimStateStage = 0 ∧ s.getB Fld.tallyStateRunning = false ∧ s.keywell.steps = [] ∧ s.boot.reqs = [] ∧ s.getB Fld.kettleStatePfw = false ∧
      s.getB Fld.kettleResumehiValid = true ∧ inGranary s.resumeAddr 4 = true ∧ s.get Fld.kettleSleepcfgDepth = 0 ∧
      s.site.total + sec * 1000000000 ≤ s.wakeTime * 1000000000) ∧
    ¬ (sleepyState 1).site.total + 2 * 1000000000 ≤ (sleepyState 1).wakeTime * 1000000000 ∧
    (∀ d ∈ [DeviceSleep.rest, .anchor], let s := kettleIn fun k => { k with device := d, holds := [.sleep], wakePins := 128, wakeAt := 1 }
      s.kettle.device ≠ .none ∧ HoldCause.sleep ∈ s.kettle.holds ∧ bitOf s.kettle.wakePins 7 = true ∧ 1 ≤ s.kettle.wakeAt) ∧
    (∀ v ∈ [(1599 : Nat), 1600, 1680, 1760, 1919, 1920, 2160], let temps : List (BitVec 16) := List.replicate 15 0 ++ [BitVec.ofNat 16 v]
      temps[15]? = some (BitVec.ofNat 16 v) ∧ (BitVec.ofNat 16 v).toInt = v) ∧
    (s0.get Fld.kettleThermWarnC * 16 = 1600 ∧ s0.kettle.critHold = false ∧ (kettleIn fun k => { k with critHold := true }).kettle.critHold = true ∧
     s0.kettle.inReset = false) ∧
    (let s : State := { kettleIn (fun k => { k with critHold := true }) with us := 10 ^ 9 }
     s.reachUs (s.kettle.critUs + 1000 * s.get Fld.kettleCritholdMs) = some s) ∧
    (let s : State := { s0.set Fld.kettleStatePfw 1 with us := 10 ^ 6 }
     s.reachUs (s.kettle.pfwUs + s.get Fld.kettlePfwPfwResetUs) = some s ∧
     (kettleIn fun k => { k with pfwUs := 10 ^ 6, critUs := 10 ^ 9 }).reachUs (10 ^ 6) = none) ∧
    (let mv := [800, 3300, 1800, 1800, 800, s0.get Fld.kettleVcoreMv, 850, 1050, 500]
     mv[8]? = some 500 ∧ ¬ (485 * 1000 < 500 * (1000 - 30)) ∧ 484 * 1000 < 500 * (1000 - 30) ∧ ¬ (470 * 1000 < 500 * (1000 - 60)) ∧
     469 * 1000 < 500 * (1000 - 60)) ∧
    ((s0.set Fld.kettleStatePfw 1).getB Fld.kettleStatePfw = true ∧ s0.getB Fld.kettlePfwPinEn = true ∧ s0.tally.stopping = false ∧
     (s0.set Fld.tallyStateRunning 1).getB Fld.tallyStateRunning = true ∧ s0.tally.flush = []) := by decide

/-- Engine 23 idle and awake, bank 15; a grant; NAP; a failed island; a window around, before and behind the present time. -/
theorem meets_IslandsAndScrub :
    (let i : Island := .engine 23
     let s := kettleIn fun k => { k with islandQ := [i], granted := [.bank 15] }
     s0.oneBit = [] ∧ s0.poisoned = [] ∧ s.kettle.islandQ = i :: [] ∧ s.reachUs s.grantDue = some s ∧
     ((kettleIn fun k => { k with stepUs := some 20000 }).reachUs ((kettleIn fun k => { k with stepUs := some 20000 }).grantDue)) = none ∧
     ({ s with us := 50 } : State).reachUs (Map.getD s.kettle.grantedUs (islandKey (.bank 15)) 0 + 50) = some { s with us := 50 } ∧ Island.bank 15 ∈ s.kettle.granted ∧ i ∉ s.kettle.granted ∧ s0.kettle.islandQ = [] ∧ s0.sleepOf i = .awake) ∧
    (let i : Island := .engine 23
     let s := kettleIn fun k => { k with sleep := [(islandKey i, .nap), (islandKey (.bank 15), .doze)] }
     s.sleepOf i = .nap ∧ s.sleepOf (.bank 15) = .doze ∧ Map.find s.kettle.wakeUs (islandKey i) = none ∧
     (let t : State := { s with us := 2000, kettle := { s.kettle with wakeUs := [(islandKey i, 2000)] } }
      Map.find t.kettle.wakeUs (islandKey i) = some 2000 ∧ t.getB Fld.timeStateStepPending = false ∧ t.reachUs (2000 - 0) = some t) ∧
     bitOf ((s.setMask (islandFailBit i).1 (islandFailBit i).2 true).get (islandFailBit i).1) (islandFailBit i).2 = true ∧
     bitOf (s.get (islandFailBit i).1) (islandFailBit i).2 = false) ∧
    (let i : Island := .engine 4
     napState.islandAwake i = true ∧ (napState.node 4).run = .taking ∧ napState.nextItem = none ∧ napState.sysRunning = true ∧
     napState.getB Fld.kettleNapNapMill = true ∧ Map.find napState.kettle.keepUntil (islandKey i) = none ∧
     napState.get Fld.kettleCalbGroup 1 = 1 ∧ bitOf (napState.get Fld.kettleCalbMask 1) 4 = true ∧
     napState.get Fld.kettleCalaStartUs 1 + 10000 - napState.get Fld.sysPhaseOffsetUs = 5700) ∧
    (let s := s0.setMask Fld.kettleIslon1Banks 15 true
     s.islandAwake (.bank 15) = true ∧ 15 ∉ s.kettle.scrubHold) ∧
    (let t := napState.setNode 23 { napState.node 23 with run := .taking }
     let s := t.set Fld.kettleStateThrottle 1
     s.getB Fld.kettleStateThrottle = true ∧ s.get Fld.kettleThermKeep ≤ 23 ∧ bitOf (s.get Fld.millEnableEnable) 23 = true ∧ (s.node 23).run = .taking) := by decide

/-- Mailbox 14 with a held message; a unit that runs cycles in SOLO, one in PAIRED; a step of 1 ms that is due at a second's end. -/
theorem meets_FleetCyclePhases :
    ((s0.setB Fld.bootStateSysrun true).sysRunning = true ∧ s0.sysRunning = false ∧ s0.boot.restart = none ∧ s0.stepping = false ∧
     (s0.set Fld.sysReleaseMode 1).solo = true ∧ (s0.set Fld.sysReleaseMode 0).solo = false ∧ (s0.set Fld.sysReleaseGate 1).gateOpen = true ∧
     (s0.set Fld.reeveStateState 3).get Fld.reeveStateState = 3 ∧ (pairIn 3 0 2).pair = 3) ∧
    (let s := millState .ready
     let s : State := { s with mill := { s.mill with items := [(7, { flow := 1, cls := 2, run := .ready })], cutting := true } }
     (∃ p ∈ s.mill.items, (p.2.cls = 1 ∨ p.2.cls = 2) ∧ (p.2.run = .ready ∨ p.2.run = .service) ∧ p.2.cycle = s.cycle) ∧ s.overrunRaised = false ∧ s.mill.cutLate = false) ∧
    (let s := s0.setB Fld.bootStateSysrun true
     let s : State := { s with cyclePs := 5990000000000, cycleStep := -1000000000, servo := { s.servo with step := -1000000000 } }
     s.endsSecond = true ∧ s.stepPart = -1000000000 ∧ s.stepPart ≠ 0) ∧
    (let s : State := { s0 with servo := { s0.servo with step := 1 } }
     s.stepPart = 1 ∧ s0.stepPart = 0) := by decide

/-- Word 0x010 of the Kettle by its owner and by another core; an unknown block, a word that does not exist, a word with a fixed field; an apply
that is pending and one whose number lies ahead and behind; a stopped block. -/
theorem meets_ControlWordAccess :
    (let s := withReg s0 1 0x3C010
     s.runs kern = true ∧ s.top .kernel = true ∧ bits (s.rg kern 1).toNat 12 8 = 0x3C ∧ bits (s.rg kern 1).toNat 0 12 = 0x010 ∧
     (withReg s0 1 0x3C).rg kern 1 = 0x3C ∧ (s.core .kernel).status.getLsbD 2 = false) ∧
    (blockKnown 0x3C = true ∧ wordExists 0x3C 0x010 = true ∧ wordExists 0x3C 0xFFF = false ∧ blockKnown 0xFF = false ∧ kernelOnly 0x3C = true ∧
     kernelOnly 0x10 = false ∧ s0.ownerOf 0x3C = some .kernel ∧ s0.ownerOf 1 = some .kernel) ∧
    (∀ p ∈ fieldsAt 0x3C 0x010, p.1.acc = .S) ∧
    ((fieldsAt 1 1).any fun p => p.1.acc = .L && bits 1 (p.1.bit p.2.1) p.1.width ≠ 0) = true ∧
    (let s := s0.setApplies 0x3C { done := 6, results := [(6, 0)], pending := some 0 }
     (s.appliesOf 0x3C).pending = some 0 ∧ ((s.appliesOf 0x3C).results.find? fun p => p.1 = 6) = some (6, 0) ∧
     (∀ p ∈ (s.appliesOf 0x3C).results, p.1 ≠ 8 ∧ p.1 ≠ 1) ∧ (8 + 65536 - 7) % 65536 < 32768 ∧ ¬ (1 + 65536 - 7) % 65536 < 32768 ∧
     s.sysRunning = false ∧ s0.millState = 0 ∧ s0.get Fld.reeveStateState = 0 ∧ s0.get Fld.correlStateRun = 0 ∧ s0.get Fld.plinkStateLink = 0 ∧
     s0.getB Fld.loopStateRunning = false ∧ s0.getB Fld.axisStateRunning = false) ∧
    ((s0.applyCheck 0x3C).2 = true ∧ ((s0.setStaged Fld.kettleThermWarnC 200).applyCheck 0x3C).2 = false) ∧
    ((s0.set Fld.hubOwnOwner 1 0x10).ownerOf 0x10 = none ∧ (s0.set Fld.hubOwnOwner 2 0x10).ownerOf 0x10 = some .core2) := by decide


/-! ### Instruction words -/

/-- 02 Table 2.23: the twelve words of the worked example. -/
theorem test_decode_table_2_23 :
    [0x28A00004#32, 0x28C08000#32, 0x18C60010#32, 0x11000002#32, 0xF4A04040#32, 0xF4C04042#32, 0xF8E80008#32, 0xF9283809#32, 0x1569FFFF#32,
      0x85600006#32, 0x11400004#32, 0xF5404048#32].map (decodeInsn kern) =
    [some (.lui kern 5 4), some (.lui kern 6 0x8000), some (.ori kern 6 6 0x10), some (.addi kern 8 0 2), some (.cws kern 5 2 0x20),
      some (.cws kern 6 2 0x21), some (.cwapply kern 7 8), some (.cwwait kern 9 8 7), some (.andi kern 11 9 0xFFFF), some (.bne kern 11 0 6),
      some (.addi kern 10 0 4), some (.cws kern 10 2 0x24)] := by decide

/-- A word of format A from its fields (02 Table 2.5). -/
def wordA (major : BitVec 6) (d a b c : BitVec 5) (fn : BitVec 6) : BitVec 32 := major ++ d ++ a ++ b ++ c ++ fn

/-- 02 Tables 2.7 to 2.9 and 2.11: format A of the arithmetic, floating point, atomic and control word instructions. -/
theorem test_decode_hub_arith :
    decodeInsn kern (wordA 0x00 1 2 3 0 0x01) = some (.sub kern 1 2 3) ∧ decodeInsn kern (wordA 0x00 1 2 3 4 0x16) = some (.sel kern 1 2 3 4) ∧
    decodeInsn kern (wordA 0x00 1 2 0 0 0x13) = some (.ctz kern 1 2) ∧ decodeInsn kern (wordA 0x01 1 2 3 0 0x07) = some (.remu kern 1 2 3) ∧
    decodeInsn kern (wordA 0x01 1 2 3 4 0x08) = some (.madd kern 1 2 3 4) ∧ decodeInsn kern (wordA 0x02 1 2 3 4 0x06) = some (.fmsub kern 1 2 3 4) ∧
    decodeInsn kern (wordA 0x02 1 2 0 0 0x11) = some (.fdtoi kern 1 2) ∧ decodeInsn kern (wordA 0x30 1 2 3 4 0x04) = some (.amocas kern 1 2 3 4) ∧
    decodeInsn kern (wordA 0x3E 0 2 3 0 0x02) = some (.cwsx kern 2 3) ∧ decodeInsn kern (wordA 0x3E 1 2 0 0 0x0C) = some (.cwstat kern 1 2) := by
  decide

/-- 02 Tables 2.14, 2.17 and 2.18: mailboxes, queues, Chest, Keywell, Bell, claim and system instructions. -/
theorem test_decode_hub_system :
    decodeInsn kern (wordA 0x34 1 2 3 0 0x00) = some (.mbsend kern 1 2 3) ∧ decodeInsn kern (wordA 0x35 1 2 3 4 0x00) = some (.qpush kern 1 2 3 4) ∧
    decodeInsn kern (wordA 0x36 0 2 3 0 0x01) = some (.chwr kern 2 3) ∧ decodeInsn kern (wordA 0x37 1 0 0 0 0x03) = some (.krand kern 1) ∧
    decodeInsn kern (wordA 0x38 1 2 0 0 0x00) = some (.bring kern 1 2) ∧ decodeInsn kern (wordA 0x39 1 0 0 0 0x02) = some (.clmnext kern 1) ∧
    decodeInsn kern (wordA 0x3F 1 0 3 0 0x06) = some (.mfc kern 1 3) ∧ decodeInsn kern (wordA 0x3F 0 2 3 0 0x07) = some (.mtc kern 2 3) ∧
    decodeInsn kern (wordA 0x3F 0 0 0 0 0x0A) = some (.wfi kern) := by decide

/-- 02 Table 2.6: formats I, B, J and C. -/
theorem test_decode_hub_formats :
    decodeInsn kern (0x13#6 ++ 1#5 ++ 2#5 ++ 0xFFF8#16) = some (.ld kern 1 2 0xFFF8) ∧ decodeInsn kern (0x1B#6 ++ 1#5 ++ 2#5 ++ 8#16) = some (.sd kern 1 2 8) ∧
    decodeInsn kern (0x25#6 ++ 1#5 ++ 2#5 ++ 0x8000#16) = some (.bgeu kern 1 2 0x8000) ∧ decodeInsn kern (0x29#6 ++ 0x2000000#26) = some (.jal kern 0x2000000) ∧
    decodeInsn kern (0x2A#6 ++ 1#5 ++ 2#5 ++ 4#16) = some (.jalr kern 1 2 4) ∧
    decodeInsn kern (0x3C#6 ++ 1#5 ++ 0x02#8 ++ 0x020#12 ++ 1#1) = some (.cwrl kern 1 2 0x20) ∧ decodeInsn kern (0x0D#6 ++ 1#5 ++ 2#5 ++ 63#16) = some (.srai kern 1 2 63) := by
  decide

/-- 03 Tables 3.3, 3.6 and 3.11: the words of node engines and sequencers. -/
theorem test_decode_engines :
    decodeInsn (.node 0) (wordA 0x31 1 0 0 0 0x00) = some (.take (.node 0) 1) ∧ decodeInsn (.node 0) (wordA 0x31 0 2 3 0 0x01) = some (.emit (.node 0) 2 3) ∧
    decodeInsn (.seq 0) (wordA 0x32 1 2 3 4 0x01) = some (.xput (.seq 0) 1 2 3 4) ∧ decodeInsn (.seq 0) (wordA 0x33 1 2 3 0 0x02) = some (.shrr (.seq 0) 1 2 3) ∧
    decodeInsn (.seq 0) (wordA 0x3A 1 2 3 0 0x00) = some (.arm (.seq 0) 1 2 3) ∧ decodeInsn (.seq 0) (wordA 0x3B 0 2 3 4 0x00) = some (.ncow (.seq 0) 2 3 4) ∧
    decodeInsn (.seq 0) (wordA 0x3B 1 2 3 4 0x08) = some (.txload (.seq 0) 1 2 3 4) := by decide

/-- 02 R46, 03 R71 and R80: an unassigned code, a 1 in a zero bit, a group that a profile drops and a register that a sequencer lacks. -/
theorem test_decode_rejects :
    decodeInsn kern (wordA 0x00 1 2 3 0 0x05) = none ∧ decodeInsn kern (wordA 0x00 1 2 3 1 0x00) = none ∧
    decodeInsn kern (0x0B#6 ++ 1#5 ++ 2#5 ++ 64#16) = none ∧ decodeInsn kern (0x3D#6 ++ 1#5 ++ 0x02#8 ++ 0x020#12 ++ 1#1) = none ∧
    decodeInsn kern (wordA 0x31 1 0 0 0 0x00) = none ∧ decodeInsn (.node 0) (wordA 0x34 1 2 3 0 0x00) = none ∧
    decodeInsn (.node 0) (wordA 0x3F 0 0 0 0 0x09) = none ∧ decodeInsn (.seq 0) (wordA 0x02 1 2 3 0 0x00) = none ∧
    decodeInsn (.seq 0) (wordA 0x00 16 2 3 0 0x00) = none ∧ decodeInsn (.seq 0) (0x13#6 ++ 1#5 ++ 2#5 ++ 0#16) = none := by decide

end Sys2Proof.Tests
end

section
/-! PROOFS. Bit operations, multiplication and division (02 Table 2.7, R46, R48). -/

namespace Sys2Proof.Machine

/-- A high half of a product of unsigned words is taken in the natural numbers. -/
theorem mulHigh_toNat (w x y : Nat) : mulHigh w x y = BitVec.ofNat w (x * y / 2 ^ w) := by
  unfold mulHigh
  rw [← Nat.cast_mul, ← Int.natCast_ediv, BitVec.ofInt_natCast]

/-- ADDW, SUBW and MULW act on the low words of their operands. -/
theorem word32_mul (x y : Word) : word32 (x * y) = (x.setWidth 32 * y.setWidth 32).signExtend 64 := by
  unfold word32
  exact congrArg (BitVec.signExtend 64) (BitVec.setWidth_mul x y (by decide))

/-- R48's quotient, with the one that overflows named. -/
theorem divS_eq (x y : Word) : divS x y = if y = 0 then BitVec.allOnes 64
    else if x.toInt = -(2 : Int) ^ 63 ∧ y.toInt = -1 then BitVec.ofInt 64 (-(2 : Int) ^ 63) else BitVec.ofInt 64 (x.toInt.tdiv y.toInt) := by
  unfold divS
  split
  · rfl
  · split
    · rename_i h; rw [h.1, h.2]; decide
    · rfl

/-- R48's remainder, with that of the quotient that overflows named. -/
theorem remS_eq (x y : Word) : remS x y = if y = 0 then x
    else if x.toInt = -(2 : Int) ^ 63 ∧ y.toInt = -1 then 0 else BitVec.ofInt 64 (x.toInt.tmod y.toInt) := by
  unfold remS
  split
  · rfl
  · split
    · rename_i h; rw [h.1, h.2]; decide
    · rfl

theorem divU_eq (x y : Word) : divU x y = if y = 0 then BitVec.allOnes 64 else BitVec.ofNat 64 (x.toNat / y.toNat) := by
  unfold divU
  split
  · rfl
  · exact BitVec.eq_of_toNat_eq (by simp [Nat.mod_eq_of_lt (lt_of_le_of_lt (Nat.div_le_self ..) x.isLt)])

theorem remU_eq (x y : Word) : remU x y = if y = 0 then x else BitVec.ofNat 64 (x.toNat % y.toNat) := by
  unfold remU
  split
  · rfl
  · exact BitVec.eq_of_toNat_eq (by simp [Nat.mod_eq_of_lt (lt_of_le_of_lt (Nat.mod_le ..) x.isLt)])

/-- A sequencer's register is held in 32 bits, whether it is read as 32 or as 64. -/
theorem rg_seq_widened (s : State) (q : Fin 8) (r : Reg) : ((s.rg (.seq q) r).setWidth 32).setWidth 64 = s.rg (.seq q) r := by
  rw [rg_seq]; rfl

/-- A select picks the same operand on 32 bits as on 64. -/
theorem onEngine_sel (s : State) (e : Engine) (a b c : Reg) :
    onEngine e (if s.rg e c ≠ 0 then s.rg e a else s.rg e b)
      (if (s.rg e c).setWidth 32 ≠ 0 then (s.rg e a).setWidth 32 else (s.rg e b).setWidth 32) =
    if s.rg e c ≠ 0 then s.rg e a else s.rg e b := by
  cases e with
  | hub k => rfl
  | node n => rfl
  | seq q =>
    have hc : (s.rg (.seq q) c).setWidth 32 = 0 ↔ s.rg (.seq q) c = 0 :=
      ⟨fun h => by rw [← rg_seq_widened, h]; rfl, fun h => by rw [h]; rfl⟩
    simp only [onEngine, ne_eq, hc]
    split <;> exact rg_seq_widened ..

/-- Settles O7: every one of these instructions is `State.alu` of its operation, and the operation gives R48's result. -/
theorem bitsMultiplyAndDivide : Obligations.BitsMultiplyAndDivide := by
  refine ⟨fun s e d a b c hr hk => ?_, fun s e d a b hr hk => ?_⟩
  · have h3 : regsOk e [d, a, b, 0] = true := by cases e <;> simp_all [regsOk]
    have h2 : regsOk e [d, a, 0, 0] = true := by cases e <;> simp_all [regsOk]
    refine ⟨⟨_, rfl, alu_writes s e d a 0 0 _ _ hr h2⟩, ⟨_, rfl, alu_writes s e d a 0 0 _ _ hr h2⟩,
      ⟨_, rfl, alu_writes s e d a 0 0 _ _ hr h2⟩, ⟨_, rfl, alu_writes s e d a 0 0 _ _ hr h2⟩, ⟨_, rfl, ?sel⟩,
      ⟨_, rfl, alu_writes s e d a b 0 _ _ hr h3⟩, ⟨_, rfl, ?mulh⟩, ⟨_, rfl, ?mulhu⟩, ⟨_, rfl, alu_writes s e d a b c _ _ hr hk⟩⟩
    case sel => rw [← onEngine_sel]; exact alu_writes s e d a b c _ _ hr hk
    case mulh => exact alu_writes s e d a b 0 _ _ hr h3
    case mulhu => simp only [← mulHigh_toNat]; exact alu_writes s e d a b 0 _ _ hr h3
  · have wide := fun h => alu_writes_wide s e d a b 0 h none hr hk
    refine ⟨⟨_, rfl, ?mulw⟩, ⟨_, rfl, ?div⟩, ⟨_, rfl, ?divu⟩, ⟨_, rfl, ?rem⟩, ⟨_, rfl, ?remu⟩⟩
    case mulw => rw [← word32_mul]; exact wide _
    case div => rw [← divS_eq]; exact wide _
    case divu => rw [← divU_eq]; exact wide _
    case rem => rw [← remS_eq]; exact wide _
    case remu => rw [← remU_eq]; exact wide _

end Sys2Proof.Machine
end

section
/-! PROOFS. What control word instructions share: completing with a result or without one, waiting, and completing with a fault (02 R54-R57,
R63, R66). -/

namespace Sys2Proof.Machine

variable {s : State} {c : Core}

/-! ### The core that executes -/

theorem hubReady_of_runs (hr : s.runs (.hub c) = true) : s.hubReady c = true := by
  simp only [State.runs, State.ready, Bool.and_eq_true] at hr
  exact hr.1

theorem runsOr_of_runs (i : Instr) (hr : s.runs (.hub c) = true) : s.runsOr (.hub c) i = true := by
  unfold State.runsOr
  rw [hr, Bool.true_or]

/-- At the top level an instruction that the core may execute does what it says. -/
theorem topInsn_eq {i : Instr} (f : State → State) (hr : s.runsOr (.hub c) i = true) (ht : s.top c = true) : s.topInsn c i f = f s := by
  unfold State.topInsn
  rw [hr, ht]
  rfl

/-! ### Completing and waiting -/

/-- A result in `d`: the instruction has ended, waited for or not. -/
theorem done_answers (s : State) (c : Core) (d : Reg) (v : Nat) : Answers s (.hub c) d (BitVec.ofNat 64 v) (s.done c d v) :=
  ⟨regWrite (s.core c).g d (BitVec.ofNat 64 v), by simp [State.done, State.unblock, State.wg, State.adv, State.setCore_setCore],
    fun r => regRead_write ..⟩

theorem coreRetire_goesOn (h : s.hubReady c = true) : GoesOn s (.hub c) (s.coreRetire c) := by
  unfold State.coreRetire
  rw [if_pos h]
  simp [GoesOn, State.unblock, State.adv, State.setCore_setCore]

/-! ### Faults -/

theorem bitOf_toNat {w : Nat} (v : BitVec w) (n : Nat) : bitOf v.toNat n = v.getLsbD n := by
  rw [BitVec.getLsbD, Nat.testBit_eq_decide_div_mod_eq, bitOf]

theorem enter_enters (s : State) (c : Core) (epc : Word) (cause eval eaddr off : Nat) :
    Enters s c epc cause eval eaddr off (s.enter c epc cause eval eaddr off) := by
  refine ⟨entryStatus (s.core c).status, rfl, fun i => ?_⟩
  unfold entryStatus
  rw [bitOf_toNat, bitOf_toNat]
  have low : ∀ n < 32, 5 ≤ i → (BitVec.ofNat 64 n).getLsbD i = false := fun n hn hi => by
    rw [BitVec.getLsbD_ofNat, Nat.testBit_lt_two_pow (lt_of_lt_of_le hn (Nat.pow_le_pow_right (n := 2) (by decide) hi)), Bool.and_false]
  match i, low with
  | 0, _ | 1, _ | 2, _ | 3, _ | 4, _ => cases (s.core c).status.getLsbD 0 <;> cases (s.core c).status.getLsbD 1 <;> rfl
  | i + 5, low => exact low _ (by cases (s.core c).status.getLsbD 0 <;> cases (s.core c).status.getLsbD 1 <;> decide) (by omega)

/-- With EXL 0 a synchronous exception enters the handler (R63). -/
theorem except_enters (epc : Word) (cause eval eaddr : Nat) (h : (s.core c).status.getLsbD 2 = false) :
    Enters s c epc cause eval eaddr 0 (s.except c epc cause eval eaddr) := by
  unfold State.except
  rw [bitOf_toNat, h]
  exact enter_enters ..

/-- A completing fault (R56) of an instruction without a result. -/
theorem hubFaultDone_enters (code : Nat) (h : (s.core c).status.getLsbD 2 = false) :
    Enters s c ((s.core c).pc + 4) (causeOf code) code 0 0 (s.hubFaultDone c code) := except_enters _ _ _ _ h

/-- A completing fault of an instruction with a result: `d` reads 0. -/
theorem cwFault_enters (d : Reg) (code : Nat) (h : (s.core c).status.getLsbD 2 = false) :
    ∃ u, (∃ g, u = s.setCore c { s.core c with g := g } ∧ ∀ y, regRead g y = if y = d then 0 else regRead (s.core c).g y) ∧
      Enters u c ((s.core c).pc + 4) (causeOf code) code 0 0 (s.cwFault c d code) := by
  refine ⟨s.wg (.hub c) d 0, ⟨regWrite (s.core c).g d 0, rfl, fun y => ?_⟩, ?_⟩
  · rw [regRead_write]
    split
    · rw [if_pos ‹y = d ∧ d ≠ 0›.1]
    · split
      · rename_i hn hy
        have h0 : y = 0 := by by_contra h0; exact hn ⟨hy, hy ▸ h0⟩
        rw [h0]; rfl
      · rfl
  · have e : ((s.wg (.hub c) d 0).core c).pc = (s.core c).pc := by simp [State.wg]
    rw [← e]
    exact hubFaultDone_enters code (by simpa [State.wg] using h)

end Sys2Proof.Machine
end

section
/-! PROOFS. The control word space as programs reach it: what a read brings up to date, what a write of a plain word stages, what a 1 in a
trigger does, and what a change of owner does (00 R7-R11; 02 R43, R54-R56, R64). -/

namespace Sys2Proof.Machine

/-! ### Reads -/

/-- Only present values of fields have changed. -/
def PresOnly (s u : State) : Prop := u = { s with cw := { s.cw with pres := u.cw.pres } }

theorem PresOnly.refl (s : State) : PresOnly s s := rfl

theorem PresOnly.set {s u : State} (h : PresOnly s u) {f : Fld} (hf : f.acc ≠ .S) (v i j : Nat) : PresOnly s (u.set f v i j) := by
  unfold PresOnly at h ⊢
  unfold State.set
  split
  · contradiction
  · exact h
  · exact h
  · rw [h]

theorem PresOnly.setB {s u : State} (h : PresOnly s u) {f : Fld} (hf : f.acc ≠ .S) (v : Bool) (i j : Nat) : PresOnly s (u.setB f v i j) :=
  h.set hf ..

theorem hubSync_presOnly (s : State) : PresOnly s s.hubSync :=
  (((PresOnly.refl s).set (by decide) ..).set (by decide) ..).set (by decide) ..

theorem keywellSync_presOnly (s : State) (index : Nat) : PresOnly s (s.keywellSync index) := by
  unfold State.keywellSync
  split
  · exact (((PresOnly.refl s).setB (by decide) ..).set (by decide) ..).set (by decide) ..
  · split
    · exact (((((((PresOnly.refl s).setB (by decide) ..).setB (by decide) ..).setB (by decide) ..).set (by decide) ..).set
        (by decide) ..).set (by decide) ..).set (by decide) ..
    · exact .refl s

theorem bootReadSync_presOnly (s : State) : PresOnly s s.bootReadSync := by
  unfold State.bootReadSync State.bootSync
  exact (((((((PresOnly.refl s).set (by decide) ..).set (by decide) ..).setB (by decide) ..).setB (by decide) ..).setB
    (by decide) ..).set (by decide) ..).set (by decide) ..

/-- What is brought up to date before a read are present values. -/
theorem readSync_presOnly (s : State) (b index : Nat) : PresOnly s (s.readSync b index) := by
  unfold State.readSync
  split
  · exact hubSync_presOnly s
  · split
    · exact keywellSync_presOnly s index
    · split
      · exact bootReadSync_presOnly s
      · exact .refl s

/-- Only HUB, KEYWELL and BOOT have words that are brought up to date. -/
theorem readSync_eq (s : State) {b : Nat} (index : Nat) (h : b ∉ [Blk.hub, Blk.keywell, Blk.boot]) : s.readSync b index = s := by
  simp only [List.mem_cons, List.not_mem_nil, not_or, or_false] at h
  obtain ⟨h1, h2, h3⟩ := h
  simp only [State.readSync, if_neg h1, if_neg h2, if_neg h3]

theorem getStaged_cw {s t : State} (h : t.cw = s.cw) (f : Fld) (i j : Nat) : t.getStaged f i j = s.getStaged f i j := by
  unfold State.getStaged
  rw [h, State.get_cw h]

/-- A control word reads what the control words hold, and nothing else. -/
theorem readWord_cw {s t : State} (h : t.cw = s.cw) (b index : Nat) (live : Bool) : t.readWord b index live = s.readWord b index live := by
  simp only [State.readWord, State.get_cw h, getStaged_cw h]

theorem unpend_cw (s : State) (c : Core) (n : Nat) : (s.unpend c n).cw = s.cw := State.setCore_cw ..

theorem causeRead_cw (s : State) (c : Core) (b index : Nat) : (s.causeRead c b index).cw = s.cw := by
  unfold State.causeRead
  split
  · split
    · exact unpend_cw ..
    · rfl
  · rfl

/-- A read of a word that the block implements answers its value. -/
theorem cwRead_answers (s : State) (c : Core) (d : Reg) {b index : Nat} (live : Bool) (hb : blockKnown b = true)
    (hx : wordExists b index = true) :
    Answers ((s.readSync b index).causeRead c b index) (.hub c) d (BitVec.ofNat 64 ((s.readSync b index).readWord b index live))
      (s.cwRead c d b index live) := by
  unfold State.cwRead
  rw [hb, hx, ← readWord_cw (causeRead_cw (s.readSync b index) c b index)]
  exact done_answers ..

/-- A read of a word that does not exist completes with 0x0201 (R56). -/
theorem cwRead_eq_fault (s : State) (c : Core) (d : Reg) {b index : Nat} (live : Bool)
    (h : ¬ (blockKnown b = true ∧ wordExists b index = true)) : s.cwRead c d b index live = s.cwFault c d 0x0201 := by
  unfold State.cwRead
  rw [if_pos]
  cases hb : blockKnown b <;> cases hx : wordExists b index <;> simp_all

/-- KETTLE.NAP: NAP_MILL in bit 0, NAP_BANK in bit 1, LEAD_US in bits [15:8]. -/
theorem fieldsAt_kettle_nap :
    fieldsAt 0x3C 0x010 = [(Fld.kettleNapNapMill, 0, 0), (Fld.kettleNapNapBank, 0, 0), (Fld.kettleNapLeadUs, 0, 0)] := by decide

/-- KETTLE.NAP gives the cause of no interrupt. -/
theorem causeRead_kettle_nap (s : State) (c : Core) : s.causeRead c 0x3C 0x010 = s := by
  have h : ¬ (c = .kernel ∧ causeWord 0x3C 0x010 = true) := fun h => absurd h.2 (by decide)
  show (if c = .kernel ∧ causeWord 0x3C 0x010 = true then s.unpend .kernel 57 else s) = s
  rw [if_neg h]

/-! ### Who may write -/

theorem mayWrite_cases (s : State) (c : Core) (b : Nat) :
    (¬ blockKnown b = true → s.mayWrite c b = some 0x0201) ∧
    (blockKnown b = true → ¬ (kernelOnly b = true → c = .kernel) → s.mayWrite c b = some 0x0202) ∧
    (blockKnown b = true → (kernelOnly b = true → c = .kernel) → ¬ s.ownerOf b = some c → s.mayWrite c b = some 0x0203) ∧
    (blockKnown b = true → (kernelOnly b = true → c = .kernel) → s.ownerOf b = some c → s.mayWrite c b = none) := by
  unfold State.mayWrite
  cases blockKnown b <;> cases kernelOnly b <;> by_cases hc : c = .kernel <;> simp_all

/-- The kernel may write each block it owns. -/
theorem mayWrite_kernel (s : State) {b : Nat} (hk : blockKnown b = true) (ho : s.ownerOf b = some .kernel) :
    s.mayWrite .kernel b = none := by
  obtain ⟨-, -, -, may⟩ := mayWrite_cases s .kernel b
  exact may hk (fun _ => rfl) ho

theorem writesFixed_iff (b index w : Nat) : writesFixed b index w = true ↔
    ∃ p ∈ fieldsAt b index, (p.1.acc = .L ∨ p.1.acc = .N) ∧ bits w (p.1.bit p.2.1) p.1.width ≠ 0 := by
  simp [writesFixed]

/-- A write passes exactly when the core may write the block, the word exists and no fixed field would take a 1 (R55, R56). -/
theorem writeFault_eq_none (s : State) (c : Core) {b index w : Nat} (hm : s.mayWrite c b = none) (hx : wordExists b index = true)
    (hf : ¬ writesFixed b index w = true) : s.writeFault c b index w = none := by
  simp [State.writeFault, hm, hx, hf]

theorem writeFault_of_mayWrite (s : State) (c : Core) {b k : Nat} (index w : Nat) (hm : s.mayWrite c b = some k) :
    s.writeFault c b index w = some k := by
  simp [State.writeFault, hm]

theorem writeFault_of_word (s : State) (c : Core) {b index w : Nat} (hm : s.mayWrite c b = none)
    (h : ¬ wordExists b index = true ∨ writesFixed b index w = true) : s.writeFault c b index w = some 0x0201 := by
  rcases h with h | h <;> simp [State.writeFault, hm, h]

theorem writeFault_refused (s : State) (c : Core) {b index : Nat} (w : Nat)
    (h : ¬ (blockKnown b = true ∧ wordExists b index = true) ∨ ¬ (kernelOnly b = true → c = .kernel) ∨ ¬ s.ownerOf b = some c ∨
      writesFixed b index w = true) : ∃ k, s.writeFault c b index w = some k := by
  obtain ⟨unknown, notKernel, notOwner, may⟩ := mayWrite_cases s c b
  by_cases hk : blockKnown b = true
  · by_cases ha : kernelOnly b = true → c = .kernel
    · by_cases ho : s.ownerOf b = some c
      · refine ⟨_, writeFault_of_word s c (may hk ha ho) (h.imp (fun h hx => h ⟨hk, hx⟩) fun h => ?_)⟩
        exact (h.resolve_left (not_not.2 ha)).resolve_left (not_not.2 ho)
      · exact ⟨_, writeFault_of_mayWrite s c _ _ (notOwner hk ha ho)⟩
    · exact ⟨_, writeFault_of_mayWrite s c _ _ (notKernel hk ha)⟩
  · exact ⟨_, writeFault_of_mayWrite s c _ _ (unknown hk)⟩

/-! ### Writes of plain words -/

theorem getStaged_setStaged_ne (s : State) {f g : Fld} (v i j k l : Nat) (h : g.key k l ≠ f.key i j) :
    (s.setStaged f v i j).getStaged g k l = s.getStaged g k l := by
  unfold State.setStaged State.getStaged State.get
  cases f.acc <;> cases g.acc <;> simp [Map.find_put_ne _ _ h]

theorem getStaged_setStaged_eq (s : State) (f : Fld) (v i j : Nat) (hw : f.width ≤ 32) (hS : f.acc = .S) :
    (s.setStaged f v i j).getStaged f i j = v % 2 ^ f.width := by
  simp [State.setStaged, State.getStaged, hS, State.fitField_toNat f v hw]

/-- Only staged copies of the fields listed have changed. -/
structure StagedOnly (fs : List (Fld × Nat × Nat)) (s u : State) : Prop where
  rest : u = { s with cw := { s.cw with staged := u.cw.staged } }
  others : ∀ f i j, (∀ p ∈ fs, f.key i j ≠ p.1.key p.2.1 p.2.2) → u.getStaged f i j = s.getStaged f i j

theorem StagedOnly.setStaged {fs : List (Fld × Nat × Nat)} {s u : State} (h : StagedOnly fs s u) {p : Fld × Nat × Nat} (hp : p ∈ fs)
    (v : Nat) : StagedOnly fs s (u.setStaged p.1 v p.2.1 p.2.2) := by
  refine ⟨?_, fun f i j hk => (getStaged_setStaged_ne u v _ _ _ _ (hk p hp)).trans (h.others f i j hk)⟩
  have hr := h.rest
  unfold State.setStaged
  split
  · rw [hr]
  · exact hr

/-- Every field stands in the table of its block. -/
theorem block_of_mem_fieldsAt {b index : Nat} {p : Fld × Nat × Nat} (h : p ∈ fieldsAt b index) : p.1.block = b := by
  simp only [fieldsAt, List.mem_flatMap, List.mem_map] at h
  obtain ⟨f, hf, q, -, rfl⟩ := h
  show f.block = b
  by_cases hb : b ∈ Blk.all
  · exact (by decide : ∀ b ∈ Blk.all, ∀ f ∈ Fld.ofBlock b, f.block = b) b hb f hf
  · simp only [Blk.all, List.mem_cons, List.not_mem_nil, or_false, not_or] at hb
    simp [Fld.ofBlock, hb] at hf

/-- Only MODEs of LOOP and CMDa of AXIS are noted when written. -/
theorem noteWrite_eq (s : State) {f : Fld} (i : Nat) (hl : f.block ≠ Blk.loop) (ha : f.block ≠ Blk.axis) : s.noteWrite f i = s := by
  unfold State.noteWrite
  rw [if_neg (by rintro rfl; exact hl rfl), if_neg (by rintro rfl; exact ha rfl)]

/-- A write of a word that holds S fields only, outside LOOP and AXIS, stages its fields in their order. -/
theorem writeWord_plain (s : State) {b index : Nat} (w : Nat) (hS : ∀ p ∈ fieldsAt b index, p.1.acc = .S) (hl : b ≠ Blk.loop)
    (ha : b ≠ Blk.axis) : s.writeWord b index w =
      (fieldsAt b index).foldl (fun s p => s.setStaged p.1 (bits w (p.1.bit p.2.1) p.1.width) p.2.1 p.2.2) s := by
  have hX : (fieldsAt b index).filter (fun p => p.1.acc = .X) = [] :=
    List.filter_eq_nil_iff.2 fun p hp => by simp [hS p hp]
  have hN : (fieldsAt b index).filter (fun p => p.1.acc ≠ .X) = fieldsAt b index :=
    List.filter_eq_self.2 fun p hp => by simp [hS p hp]
  unfold State.writeWord
  simp only [hX, hN, List.foldl_nil]
  refine List.foldl_ext _ _ _ fun u p hp => ?_
  unfold State.writeField
  have hb := block_of_mem_fieldsAt hp
  rw [hS p hp]
  exact noteWrite_eq _ _ (hb ▸ hl) (hb ▸ ha)

theorem writeWord_stagedOnly (s : State) {b index : Nat} (w : Nat) (hS : ∀ p ∈ fieldsAt b index, p.1.acc = .S) (hl : b ≠ Blk.loop)
    (ha : b ≠ Blk.axis) : StagedOnly (fieldsAt b index) s (s.writeWord b index w) := by
  rw [writeWord_plain s w hS hl ha]
  exact List.foldlRecOn _ _ ⟨rfl, fun _ _ _ _ => rfl⟩ fun _ h _ hp => h.setStaged hp _

/-- What a write of KETTLE.NAP stages. -/
theorem writeWord_kettle_nap (s : State) (v : Nat) : let u := s.writeWord 0x3C 0x010 v
    u.getStaged Fld.kettleNapNapMill = v % 2 ∧ u.getStaged Fld.kettleNapNapBank = v / 2 % 2 ∧
      u.getStaged Fld.kettleNapLeadUs = v / 256 % 256 := by
  simp only [writeWord_plain s v (by decide : ∀ p ∈ fieldsAt 0x3C 0x010, p.1.acc = .S) (by decide) (by decide), fieldsAt_kettle_nap,
    List.foldl_cons, List.foldl_nil]
  refine ⟨?_, ?_, ?_⟩
  · rw [getStaged_setStaged_ne _ _ _ _ _ _ (by decide), getStaged_setStaged_ne _ _ _ _ _ _ (by decide),
      getStaged_setStaged_eq _ _ _ _ _ (by decide) (by decide)]
    simp [bits, Fld.bit, Fld.kettleNapNapMill]
  · rw [getStaged_setStaged_ne _ _ _ _ _ _ (by decide), getStaged_setStaged_eq _ _ _ _ _ (by decide) (by decide)]
    simp [bits, Fld.bit, Fld.kettleNapNapBank]
  · rw [getStaged_setStaged_eq _ _ _ _ _ (by decide) (by decide)]
    simp [bits, Fld.bit, Fld.kettleNapLeadUs]

/-! ### Clears and triggers -/

/-- A 1 written to SYS.RELEASE.WITHHELD clears it, and source 5 with it (log 22). -/
theorem writeWord_withheld (s : State) : s.writeWord 1 3 4 = (s.set Fld.sysReleaseWithheld 0).unpendAll 5 := rfl

end Sys2Proof.Machine
end

section
/-! PROOFS. Owners of blocks, and apply requests and what CWWAIT answers (00 R12; 02 R43, R55, R57). -/

namespace Sys2Proof.Machine

/-! ### Ranges of tables -/

theorem Map.find_filter_key {α : Type} (m : Map α) (p : Nat → Bool) (n : Nat) :
    Map.find (m.filter fun x => p x.1) n = if p n then Map.find m n else none := by
  induction m with
  | nil => simp [Map.find]
  | cons x m ih =>
    obtain ⟨k, v⟩ := x
    by_cases hk : k = n
    · subst hk
      cases hp : p k <;> simp_all [Map.find]
    · cases hp : p k <;> simp_all [Map.find]

theorem Map.find_append {α : Type} (a b : Map α) (n : Nat) : Map.find (a ++ b) n = (Map.find a n).or (Map.find b n) := by
  induction a with
  | nil => simp [Map.find]
  | cons x a ih =>
    obtain ⟨k, v⟩ := x
    simp only [List.cons_append, Map.find, ih]
    split <;> rfl

/-- A copied range reads what the source holds there. -/
theorem Map.find_copyRange {α : Type} (src dst : Map α) {lo hi n : Nat} (hl : lo ≤ n) (hh : n < hi) :
    Map.find (Map.copyRange lo hi src dst) n = Map.find src n := by
  have below := Map.find_filter_key dst (fun k => decide (k < lo)) n
  have within := Map.find_filter_key src (fun k => decide (lo ≤ k) && decide (k < hi)) n
  have above := Map.find_filter_key dst (fun k => decide (hi ≤ k)) n
  unfold Map.copyRange
  rw [Map.find_append, Map.find_append, below, within, above]
  simp [hl, hh, Nat.not_lt.2 hl, Nat.not_le.2 hh]

/-! ### Changes of owner (R55) -/

/-- Only control words have changed, so the core stands as it stood. -/
theorem hubReady_of_cw {s u : State} (h : u = { s with cw := u.cw }) (c : Core) : u.hubReady c = s.hubReady c := by
  rw [h]; cases c <;> rfl

/-- A block that changes hands: only control words change, the live set stands, the staged set of the block takes the live values, and of
the other fields every value stands. -/
structure Passes (s : State) (b : Nat) (u : State) : Prop where
  rest : u = { s with cw := u.cw }
  live : u.cw.live = s.cw.live
  staged : ∀ y, b * 131072 ≤ y → y < (b + 1) * 131072 → Map.find u.cw.staged y = Map.find s.cw.live y
  others : ∀ f i j, f.key i j ≠ Fld.hubOwnOwner.key b 0 → u.get f i j = s.get f i j

theorem setOwner_passes (s : State) (b code : Nat) : Passes s b (s.setOwner b code) where
  rest := rfl
  live := rfl
  staged _ hl hh := Map.find_copyRange _ _ hl hh
  others f i j h := (show _ = (s.set Fld.hubOwnOwner code b).get f i j by
    unfold State.get; rfl).trans (State.get_set_ne s code b 0 i j h)

/-- HUB.OWN reads the code of the new owner. -/
theorem get_owner_setOwner (s : State) (b code : Nat) : (s.setOwner b code).get Fld.hubOwnOwner b = code % 4 :=
  State.get_set_eq s Fld.hubOwnOwner code b 0 (by decide) (by decide) (by decide)

theorem ownerOf_setOwner_core (s : State) (b : Nat) (c : Core) : (s.setOwner b (coreId c)).ownerOf b = some c := by
  unfold State.ownerOf
  rw [get_owner_setOwner]
  cases c <;> rfl

theorem ownerOf_setOwner_none (s : State) (b : Nat) : (s.setOwner b 1).ownerOf b = none := by
  unfold State.ownerOf
  rw [get_owner_setOwner]
  rfl

/-! ### Apply requests (R12, R57) -/

/-- A second request before the boundary is the first one. -/
theorem requestApply_pending (s : State) {b : Nat} (h : (s.appliesOf b).pending.isSome = true) : s.requestApply b = s := by
  obtain ⟨n, hn⟩ := Option.isSome_iff_exists.1 h
  simp [State.requestApply, hn]

theorem requestApply_none (s : State) {b : Nat} (h : (s.appliesOf b).pending = none) :
    s.requestApply b = s.setApplies b { s.appliesOf b with pending := some (s.requestCycle b) } := by
  simp [State.requestApply, h]

/-! ### What CWWAIT answers (R57) -/

theorem answer_next (a : Applies) : a.answer a.nextNum = none := if_pos rfl

theorem answer_kept {a : Applies} {num v : Nat} (hn : num ≠ a.nextNum) (h : (a.results.find? fun p => p.1 = num) = some (num, v)) :
    a.answer num = some v := by
  simp [Applies.answer, hn, h]

/-- A difference of 16-bit numbers is positive where it lies in the half after 0. -/
theorem signed_unsigned_pos (v : Int) : 0 < signed 16 (unsigned 16 v) ↔ 0 < v % 65536 ∧ v % 65536 < 32768 := by
  have hu : ((unsigned 16 v : Nat) : Int) = v % 65536 := Int.toNat_of_nonneg (Int.emod_nonneg v (by decide))
  unfold signed
  norm_num
  split <;> omega

/-- A number that is not kept lies ahead of the next apply, or is older than those kept. -/
theorem answer_lost {a : Applies} {num : Nat} (hn : num ≠ a.nextNum) (hl : num < 65536) (h : ∀ p ∈ a.results, p.1 ≠ num) :
    a.answer num = some (if (num + 65536 - a.nextNum) % 65536 < 32768 then 0x0212 else 0x0281) := by
  have hf : (a.results.find? fun p => p.1 = num) = none := List.find?_eq_none.2 fun p hp => by simpa using h p hp
  have hnext : a.nextNum < 65536 := Nat.mod_lt _ (by decide)
  have ahead : 0 < signed 16 (unsigned 16 ((num : Int) - a.nextNum)) ↔ (num + 65536 - a.nextNum) % 65536 < 32768 := by
    rw [signed_unsigned_pos]; omega
  simp only [Applies.answer, hn, hf, if_false, ahead]
  split <;> rfl

end Sys2Proof.Machine
end

section
/-! PROOFS. What an apply that is made moves in MILL, PLINK, LOOP and AXIS, and the PWM periods before an apply of AXIS, leave the apply
records, the live and staged sets, the owners and source 63 as they are (00 R12; 02 R57; 04 R102, R114; 16 R391; 17 R410-R417). -/

namespace Sys2Proof.Machine

/-- Between two states no apply has been requested or made, no copy of an S field has changed, no block has changed hands and source 63 of no
core has been cleared. -/
structure KeepsApplies (s t : State) : Prop where
  applies : t.applies = s.applies
  live : t.cw.live = s.cw.live
  staged : t.cw.staged = s.cw.staged
  owner : ∀ b < 256, t.ownerOf b = s.ownerOf b
  source : ∀ c, (s.core c).ipend.getLsbD 63 = true → (t.core c).ipend.getLsbD 63 = true

namespace KeepsApplies

/- The side conditions of `set` and `upd` are default arguments, and finding such an argument waits for all declarations before it: one
declaration after another, or each waits in a thread of its own. -/
set_option Elab.async false

variable {s₀ s t : State}

/-! ### Forms of meanings -/

theorem refl (s : State) : KeepsApplies s s := ⟨rfl, rfl, rfl, fun _ _ => rfl, fun _ => id⟩

theorem trans (h : KeepsApplies s₀ s) (k : KeepsApplies s t) : KeepsApplies s₀ t where
  applies := k.applies.trans h.applies
  live := k.live.trans h.live
  staged := k.staged.trans h.staged
  owner b hb := (k.owner b hb).trans (h.owner b hb)
  source c hc := k.source c (h.source c hc)

theorem ite {a b : State} {p : Prop} [Decidable p] (ha : KeepsApplies s₀ a) (hb : KeepsApplies s₀ b) :
    KeepsApplies s₀ (if p then a else b) := by
  split <;> assumption

theorem foldl {α : Type} {l : List α} {f : State → α → State} (h : KeepsApplies s₀ s)
    (hf : ∀ t x, KeepsApplies s₀ t → KeepsApplies s₀ (f t x)) : KeepsApplies s₀ (l.foldl f s) :=
  List.foldlRecOn l f h fun t ht x _ => hf t x ht

/-- An update that touches neither control words, nor apply records, nor a core. -/
theorem upd (h : KeepsApplies s₀ s) (hc : t.cw = s.cw := by rfl) (ha : t.applies = s.applies := by rfl)
    (h0 : t.kernel = s.kernel := by rfl) (h2 : t.core2 = s.core2 := by rfl) (h3 : t.core3 = s.core3 := by rfl) : KeepsApplies s₀ t where
  applies := ha.trans h.applies
  live := by rw [hc]; exact h.live
  staged := by rw [hc]; exact h.staged
  owner b hb := by
    rw [← h.owner b hb]
    unfold State.ownerOf
    rw [State.get_cw hc]
  source c hs := by
    have e : t.core c = s.core c := by cases c <;> assumption
    rw [e]
    exact h.source c hs

/-! ### Shared operations -/

/-- HUB.OWN has words 0x100 to 0x1FF of block 0x02. -/
theorem owner_key_lt {b : Nat} (hb : b < 256) : Fld.hubOwnOwner.key b 0 < 3 * 131072 := by
  simp only [Fld.key, Fld.word, Fld.bit, Fld.hubOwnOwner, Blk.hub]
  omega

theorem owner_key_ge (b : Nat) : 2 * 131072 ≤ Fld.hubOwnOwner.key b 0 := by
  simp only [Fld.key, Fld.word, Fld.bit, Fld.hubOwnOwner, Blk.hub]
  omega

theorem key_ge {f : Fld} (i j : Nat) (hf : 2 < f.block) : 3 * 131072 ≤ f.key i j := by
  unfold Fld.key
  omega

/-- A write of a present value that is no word of HUB.OWN. -/
theorem set_key (h : KeepsApplies s₀ s) {f : Fld} {v i j : Nat} (hf : f.acc ≠ .S) (hk : ∀ b < 256, Fld.hubOwnOwner.key b 0 ≠ f.key i j) :
    KeepsApplies s₀ (s.set f v i j) where
  applies := (State.set_applies ..).trans h.applies
  live := by rw [← h.live]; unfold State.set; split <;> first | contradiction | rfl
  staged := by rw [← h.staged]; unfold State.set; split <;> rfl
  owner b hb := by
    rw [← h.owner b hb]
    unfold State.ownerOf
    rw [State.get_set_ne s v i j b 0 (hk b hb)]
  source c hc := by rw [State.set_core]; exact h.source c hc

theorem set (h : KeepsApplies s₀ s) {f : Fld} {v i j : Nat} (hf : f.acc ≠ .S ∧ 2 < f.block := by decide) :
    KeepsApplies s₀ (s.set f v i j) :=
  h.set_key hf.1 fun _ hb => ne_of_lt (lt_of_lt_of_le (owner_key_lt hb) (key_ge i j hf.2))

theorem setB (h : KeepsApplies s₀ s) {f : Fld} {v : Bool} {i j : Nat} (hf : f.acc ≠ .S ∧ 2 < f.block := by decide) :
    KeepsApplies s₀ (s.setB f v i j) := h.set hf

theorem setMask (h : KeepsApplies s₀ s) {f : Fld} {n i : Nat} {v : Bool} (hf : f.acc ≠ .S ∧ 2 < f.block := by decide) :
    KeepsApplies s₀ (s.setMask f n v i) := h.set hf

theorem bump (h : KeepsApplies s₀ s) {f : Fld} {i n : Nat} (hf : f.acc ≠ .S ∧ 2 < f.block := by decide) :
    KeepsApplies s₀ (s.bump f i n) := h.set hf

theorem setF (h : KeepsApplies s₀ s) {f : Fld} {v : Word} {i : Nat} (hf : f.acc ≠ .S ∧ 2 < f.block := by decide) :
    KeepsApplies s₀ (s.setF f v i) := h.set hf

theorem pend (h : KeepsApplies s₀ s) {c : Core} {n : Nat} : KeepsApplies s₀ (s.pend c n) where
  applies := (State.pend_applies ..).trans h.applies
  live := by rw [State.pend_cw]; exact h.live
  staged := by rw [State.pend_cw]; exact h.staged
  owner b hb := by
    rw [← h.owner b hb]
    unfold State.ownerOf
    rw [State.pend_get]
  source k hk := by
    have hs := h.source k hk
    by_cases e : k = c
    · subst e
      rw [State.pend_core_eq, BitVec.getLsbD_or, hs, Bool.true_or]
    · rw [State.pend_core_ne s n e]
      exact hs

/-- FAULT words are present values of blocks above HUB. -/
theorem faultFields_ok {b : Nat} {p : Fld × Option Fld} (h : faultFields b = some p) :
    (p.1.acc ≠ .S ∧ 2 < p.1.block) ∧ ∀ x ∈ p.2, x.acc ≠ .S ∧ 2 < x.block := by
  by_cases hb : b ∈ Blk.all
  · exact (by decide : ∀ b ∈ Blk.all, ∀ p ∈ faultFields b,
      (p.1.acc ≠ .S ∧ 2 < p.1.block) ∧ ∀ x ∈ p.2, x.acc ≠ .S ∧ 2 < x.block) b hb p h
  · simp only [Blk.all, List.mem_cons, List.not_mem_nil, or_false, not_or] at hb
    simp [faultFields, hb] at h

theorem raise (h : KeepsApplies s₀ s) {code index : Nat} {owner : Option Nat} : KeepsApplies s₀ (s.raise code index owner) := by
  unfold State.raise
  dsimp only
  generalize owner.getD (code / 256) = b
  have noted : KeepsApplies s₀ { s with lastCode := Map.put s.lastCode b code } := h.upd
  cases hf : faultFields b with
  | none => cases blockSource b with
    | none => exact noted
    | some src => exact noted.pend
  | some p =>
    obtain ⟨f, x⟩ := p
    obtain ⟨hc, hx⟩ := faultFields_ok hf
    cases x with
    | none => cases blockSource b with
      | none => exact noted.set hc
      | some src => exact (noted.set hc).pend
    | some x => cases blockSource b with
      | none => exact (noted.set hc).set (hx x rfl)
      | some src => exact ((noted.set hc).set (hx x rfl)).pend

theorem askStart (h : KeepsApplies s₀ s) {w : Starter} : KeepsApplies s₀ (s.askStart w) := by
  unfold State.askStart
  exact .ite h h.upd

theorem dropStart (h : KeepsApplies s₀ s) {w : Starter} : KeepsApplies s₀ (s.dropStart w) := h.upd

/-! ### Axes -/

theorem setAxis (h : KeepsApplies s₀ s) {a : Nat} {x : Axis} : KeepsApplies s₀ (s.setAxis a x) := h.upd

theorem setPos (h : KeepsApplies s₀ s) {a : Nat} {p : Int} : KeepsApplies s₀ (s.setPos a p) := h.set

theorem axFollow (h : KeepsApplies s₀ s) {a : Nat} : KeepsApplies s₀ (s.axFollow a) := by
  unfold State.axFollow
  exact h.setAxis.setB

theorem putAxState (h : KeepsApplies s₀ s) {a st reason : Nat} : KeepsApplies s₀ (s.putAxState a st reason) := by
  unfold State.putAxState
  exact (KeepsApplies.ite h h.dropStart).set.set.axFollow

theorem setHomed (h : KeepsApplies s₀ s) {a : Nat} {b : Bool} : KeepsApplies s₀ (s.setHomed a b) := by
  unfold State.setHomed
  exact h.setB.setMask

theorem standAt (h : KeepsApplies s₀ s) {a : Nat} {p : Int} : KeepsApplies s₀ (s.standAt a p) := by
  unfold State.standAt
  exact h.setPos.setAxis.set.axFollow

theorem beginMotion (h : KeepsApplies s₀ s) {a : Nat} {m : AxisMotion} {up : Bool} : KeepsApplies s₀ (s.beginMotion a m up) := h.setAxis

theorem hardStop (h : KeepsApplies s₀ s) {a : Nat} : KeepsApplies s₀ (s.hardStop a) := h.standAt

theorem rampTo (h : KeepsApplies s₀ s) {a st reason : Nat} {fast : Bool} : KeepsApplies s₀ (s.rampTo a st reason fast) := h.setAxis

theorem limitEnd (h : KeepsApplies s₀ s) {a st reason : Nat} : KeepsApplies s₀ (s.limitEnd a st reason) := by
  unfold State.limitEnd
  exact .ite h.rampTo h.hardStop.putAxState

theorem homeDone (h : KeepsApplies s₀ s) {a : Nat} : KeepsApplies s₀ (s.homeDone a) := by
  unfold State.homeDone
  exact h.standAt.setHomed.putAxState

theorem homeEdge (h : KeepsApplies s₀ s) {a : Nat} : KeepsApplies s₀ (s.homeEdge a) := by
  unfold State.homeEdge
  exact .ite h.set.setAxis h

theorem homeFail (h : KeepsApplies s₀ s) {a : Nat} : KeepsApplies s₀ (s.homeFail a) := by
  unfold State.homeFail
  exact h.setHomed.raise.limitEnd

theorem startAway (h : KeepsApplies s₀ s) {a : Nat} {m : AxisMotion} : KeepsApplies s₀ (s.startAway a m) := by
  unfold State.startAway
  exact h.beginMotion.setAxis

theorem limitStop (h : KeepsApplies s₀ s) {a : Nat} : KeepsApplies s₀ (s.limitStop a) := by
  unfold State.limitStop
  dsimp only
  refine .ite h (.ite ?homing ?moving)
  case homing =>
    split
    · exact .ite (.ite h.homeEdge.setAxis h.homeEdge.hardStop.homeDone)
        (.ite (.ite h.setAxis.setAxis h.setAxis.hardStop.startAway) h.homeFail)
    · exact .ite h h.homeFail
    · exact .ite h h.homeFail
    · exact .ite h.setAxis h.hardStop.homeDone
    · exact h
  case moving =>
    split
    · exact h
    · exact h.raise.limitEnd

theorem startLimit (h : KeepsApplies s₀ s) {a : Nat} : KeepsApplies s₀ (s.startLimit a) := by
  unfold State.startLimit
  exact .ite h.limitStop h

theorem standstill (h : KeepsApplies s₀ s) {a : Nat} : KeepsApplies s₀ (s.standstill a) := by
  unfold State.standstill
  dsimp only
  split
  · exact h.standAt.putAxState
  · exact h.standAt.putAxState
  · exact h.standAt.beginMotion.startLimit
  · exact h.standAt.homeDone
  · exact h.standAt.startAway.startLimit
  all_goals exact h

theorem coarseStep (h : KeepsApplies s₀ s) {a : Nat} {up : Bool} {dst : Int} {at' period : Nat} :
    KeepsApplies s₀ (s.coarseStep a up dst at' period) := by
  unfold State.coarseStep
  exact (KeepsApplies.ite h h.setPos).setAxis.bump.axFollow

theorem microNow (h : KeepsApplies s₀ s) {a : Nat} : KeepsApplies s₀ (s.microNow a) := by
  unfold State.microNow
  exact .ite h.setPos.axFollow h

theorem genTick (h : KeepsApplies s₀ s) {a : Nat} : KeepsApplies s₀ (s.genTick a) := by
  unfold State.genTick
  dsimp only
  refine .ite h ?_
  generalize s.genPeriod a (s.axis a) = y
  have moved : KeepsApplies s₀ ((s.setAxis a y).setF Fld.axisVel (Float64.divN (Float64.ofIntN y.vel) (Float64.ofIntN (2 ^ 149 * 10 ^ 10))) a) :=
    h.setAxis.setF
  generalize State.setF _ _ _ _ = u at moved ⊢
  cases (s.axis a).crosses y with
  | some t =>
    exact .ite (KeepsApplies.ite moved.coarseStep.startLimit moved.coarseStep).standstill
      (.ite moved.coarseStep.startLimit moved.coarseStep)
  | none => exact .ite (KeepsApplies.ite moved.startLimit moved).standstill (.ite moved.startLimit moved)

theorem axRun (h : KeepsApplies s₀ s) {a : Nat} {through : Bool} : KeepsApplies s₀ (s.axRun a through) := by
  unfold State.axRun
  exact .ite h.microNow (h.foldl fun _ _ ht => ht.genTick).microNow

theorem axSync (h : KeepsApplies s₀ s) {a : Nat} : KeepsApplies s₀ (s.axSync a) := h.axRun

theorem axesSync (h : KeepsApplies s₀ s) : KeepsApplies s₀ s.axesSync := h.foldl fun _ _ ht => ht.axSync

theorem takeRamp (h : KeepsApplies s₀ s) {a : Nat} : KeepsApplies s₀ (s.takeRamp a) := h.setAxis

theorem turnTest (h : KeepsApplies s₀ s) {a : Nat} : KeepsApplies s₀ (s.turnTest a) := by
  unfold State.turnTest
  exact .ite h.setAxis h

theorem rampTest (h : KeepsApplies s₀ s) {a : Nat} : KeepsApplies s₀ (s.rampTest a) := by
  unfold State.rampTest
  exact .ite h (.ite (.ite h h.takeRamp) (.ite h.takeRamp h.setB.raise))

theorem inputsFollow (h : KeepsApplies s₀ s) {a : Nat} : KeepsApplies s₀ (s.inputsFollow a) := h.setB.setB.setB

theorem axisCmd (h : KeepsApplies s₀ s) {a cmd : Nat} : KeepsApplies s₀ (s.axisCmd a cmd) := by
  unfold State.axisCmd
  dsimp only
  have k : KeepsApplies s₀ (s.axSync a) := h.axSync
  split
  · exact .ite k.setAxis.putAxState.askStart (.ite k.putAxState k.raise)
  · exact .ite k.rampTo k.hardStop.putAxState
  · exact .ite k.raise (.ite k.raise k.takeRamp.setB.beginMotion.turnTest.putAxState)
  · exact .ite k.raise k.takeRamp.beginMotion.putAxState
  · exact .ite k.raise k.takeRamp.beginMotion.setAxis.putAxState
  · exact .ite k.rampTo k.raise
  · exact .ite k.standAt.setHomed.axFollow k.raise
  · exact k

/-- What follows an apply of AXIS. -/
theorem axisApplied (h : KeepsApplies s₀ s) : KeepsApplies s₀ s.axisApplied := by
  unfold State.axisApplied
  exact (h.foldl fun _ _ ht => ht.inputsFollow.rampTest.turnTest).foldl fun _ _ ht => .ite ht.setAxis.axisCmd ht

/-! ### Queue units and loop slots -/

theorem setQueue (h : KeepsApplies s₀ s) {q : Nat} {u : QUnit} : KeepsApplies s₀ (s.setQueue q u) := by
  unfold State.setQueue
  have put : KeepsApplies s₀ { s with queues := Map.put s.queues q u } := h.upd
  exact .ite put.set.setB.setB.setB.setB put.set.setB.setB.setB.setB.set

theorem unitStart (h : KeepsApplies s₀ s) {q : Nat} : KeepsApplies s₀ (s.unitStart q) := by
  unfold State.unitStart
  exact h.set.setQueue

theorem unitStop (h : KeepsApplies s₀ s) {q : Nat} : KeepsApplies s₀ (s.unitStop q) := by
  unfold State.unitStop
  exact h.set.setQueue

theorem setLoop (h : KeepsApplies s₀ s) {x : Loop} : KeepsApplies s₀ { s with loop := x } := h.upd

theorem setLslot (h : KeepsApplies s₀ s) {n : Nat} {x : LoopSlot} : KeepsApplies s₀ (s.setLslot n x) := h.upd

theorem driveSlot (h : KeepsApplies s₀ s) {n : Nat} {u : Word} : KeepsApplies s₀ (s.driveSlot n u) := by
  unfold State.driveSlot
  exact .ite h.setLslot.setF.setLoop h.setLslot.setF

theorem slotGpio (h : KeepsApplies s₀ s) {n : Nat} : KeepsApplies s₀ (s.slotGpio n) := by
  unfold State.slotGpio
  exact .ite h.upd h

theorem countClosed (h : KeepsApplies s₀ s) : KeepsApplies s₀ s.countClosed := h.set

theorem putSlotState (h : KeepsApplies s₀ s) {n st reason : Nat} : KeepsApplies s₀ (s.putSlotState n st reason) := by
  unfold State.putSlotState
  exact (KeepsApplies.ite h.set.set h.set.set.set.dropStart).slotGpio.countClosed

theorem holdOuter (h : KeepsApplies s₀ s) {n : Nat} : KeepsApplies s₀ (s.holdOuter n) := by
  unfold State.holdOuter
  split
  · exact .ite h.putSlotState h
  · exact h

theorem enterClosed (h : KeepsApplies s₀ s) {n : Nat} {stagger : Bool} : KeepsApplies s₀ (s.enterClosed n stagger) := by
  unfold State.enterClosed
  exact .ite h.putSlotState (.ite h.setLslot.setB.setB.putSlotState.askStart h.setLslot.setB.setB.putSlotState)

theorem enterOpen (h : KeepsApplies s₀ s) {n : Nat} : KeepsApplies s₀ (s.enterOpen n) := h.putSlotState.driveSlot.holdOuter

theorem enterHeld (h : KeepsApplies s₀ s) {n reason : Nat} : KeepsApplies s₀ (s.enterHeld n reason) :=
  h.setLslot.putSlotState.holdOuter

theorem slotMode (h : KeepsApplies s₀ s) {n : Nat} : KeepsApplies s₀ (s.slotMode n) := by
  unfold State.slotMode
  dsimp only
  split
  · exact .ite h h.enterOpen
  · exact .ite h h.enterClosed
  · exact .ite h.enterHeld h
  · exact h

/-- What follows an apply of LOOP. -/
theorem loopApplied (h : KeepsApplies s₀ s) {old : State} : KeepsApplies s₀ (s.loopApplied old) := by
  unfold State.loopApplied
  exact (h.foldl fun _ _ ht => .ite ht (.ite ht.unitStart ht.unitStop)).setLoop.foldl fun _ _ ht => .ite ht.slotMode ht

/-! ### The Mill and the pair -/

theorem eccFix (h : KeepsApplies s₀ s) {found : Nat → Bool} : KeepsApplies s₀ (s.eccFix found) := by
  unfold State.eccFix
  dsimp only
  split
  · exact h
  · exact h.upd.bump.set.raise

theorem eccRead (h : KeepsApplies s₀ s) {a n : Nat} : KeepsApplies s₀ (s.eccRead a n) := h.eccFix

theorem eccBad (h : KeepsApplies s₀ s) {a n : Nat} : KeepsApplies s₀ (s.eccBad a n) := by
  unfold State.eccBad
  exact h.setB.set.raise

theorem touch (h : KeepsApplies s₀ s) {a n : Nat} : KeepsApplies s₀ (s.touch a n) := by
  unfold State.touch
  exact .ite h.eccRead.eccBad h.eccRead

theorem setFlow (h : KeepsApplies s₀ s) {f : Nat} {x : MillFlow} : KeepsApplies s₀ (s.setFlow f x) := h.upd

theorem readFlows (h : KeepsApplies s₀ s) {fresh : Bool} : KeepsApplies s₀ (s.readFlows fresh) := by
  unfold State.readFlows
  exact h.touch.foldl fun _ _ ht => .ite ht.upd ht.setFlow

theorem setNode (h : KeepsApplies s₀ s) {n : Nat} {x : NodeEngine} : KeepsApplies s₀ (s.setNode n x) := h.upd

theorem millJoined (h : KeepsApplies s₀ s) : KeepsApplies s₀ s.millJoined := by
  unfold State.millJoined
  exact .ite h.set (.ite h.upd h)

theorem engineJoin (h : KeepsApplies s₀ s) {n : Nat} : KeepsApplies s₀ (s.engineJoin n) := by
  unfold State.engineJoin
  exact .ite h.setNode.setMask.set.millJoined h

theorem askIsland (h : KeepsApplies s₀ s) {i : Island} : KeepsApplies s₀ (s.askIsland i) := by
  unfold State.askIsland
  exact .ite h h.upd

theorem engineIn (h : KeepsApplies s₀ s) {n : Fin 24} : KeepsApplies s₀ (s.engineIn n) := by
  unfold State.engineIn
  exact .ite h.engineJoin h.askIsland

theorem engineOut (h : KeepsApplies s₀ s) {n : Nat} : KeepsApplies s₀ (s.engineOut n) := by
  unfold State.engineOut
  exact h.setMask.setNode.set

/-- What follows an apply of MILL. -/
theorem millApplied (h : KeepsApplies s₀ s) : KeepsApplies s₀ s.millApplied := by
  unfold State.millApplied
  have flows : KeepsApplies s₀ ((s.set Fld.millStateMode (s.get Fld.millModeMode)).readFlows false) := h.set.readFlows
  exact .ite flows (flows.foldl fun _ _ ht => .ite (.ite ht ht.engineIn) (.ite ht.engineOut ht)).millJoined

theorem setPairing (h : KeepsApplies s₀ s) {x : Pairing} : KeepsApplies s₀ { s with pairing := x } := h.upd

/-- Pair state 0 is entered with RELEASE.MODE 1, no Decant and no lock (Table 13.3). -/
theorem setPair_zero (s : State) : ∃ x, s.setPair 0 =
    (({ (((s.set Fld.plinkStatePair 0).setB Fld.sysReleaseMode true).set Fld.decantStateState 0).setB Fld.decantStateLocked false with
      pairing := x } : State).set Fld.plinkStateSyncrun 0).setB Fld.plinkStatePinsync false := ⟨_, rfl⟩

/-- What follows an apply of PLINK: a pair that is no longer enabled is left (Table 13.3). -/
theorem plinkApplied (h : KeepsApplies s₀ s) : KeepsApplies s₀ s.plinkApplied := by
  unfold State.plinkApplied
  refine .ite ?_ h
  obtain ⟨x, e⟩ := setPair_zero s
  rw [e]
  have mode : KeepsApplies s₀ ((s.set Fld.plinkStatePair 0).setB Fld.sysReleaseMode true) :=
    h.set.set_key (by decide) fun b _ => ne_of_gt (lt_of_lt_of_le (by decide) (owner_key_ge b))
  exact mode.set.setB.setPairing.set.setB

end KeepsApplies

end Sys2Proof.Machine
end

section
/-! PROOFS. Applies at their boundaries (00 R12-R14; 02 R57; 16 R395, 17 R417). -/

namespace Sys2Proof.Machine

/-! ### Completing an apply -/

/-- The next apply of a block completes with a result, and its owner's source 63 is pending (R57). -/
def State.applyCompletes (s : State) (b result : Nat) : State :=
  let s := s.setApplies b ((s.appliesOf b).complete result)
  match s.ownerOf b with
  | some c => s.pend c 63
  | none => s

theorem makeApply_eq (s : State) {b : Nat} (code : Nat) (ok : Bool) (h : (s.appliesOf b).pending.isSome = true) :
    s.makeApply b code ok =
      (if ok then s.stagedToLive (blockLo b) (blockHi b) else s.raise code).applyCompletes b (if ok then 0 else code) := by
  obtain ⟨n, hn⟩ := Option.isSome_iff_exists.1 h
  unfold State.makeApply
  rw [hn]
  rfl

theorem KeepsApplies.appliesOf {s t : State} (k : KeepsApplies s t) (b : Nat) : t.appliesOf b = s.appliesOf b := by
  unfold State.appliesOf; rw [k.applies]

theorem applyWithheld_eq (s : State) (b code : Nat) : s.applyWithheld b code = (s.raise code).applyCompletes b code := by
  have raised : KeepsApplies s (s.raise code) := (KeepsApplies.refl s).raise
  unfold State.applyWithheld State.applyCompletes
  rw [raised.appliesOf b] <;> rfl

theorem applyCompletes_cw (s : State) (b result : Nat) : (s.applyCompletes b result).cw = s.cw := by
  unfold State.applyCompletes
  dsimp only
  split
  · exact State.pend_cw ..
  · rfl

/-- What an apply of a block that was pending at `s` leaves when it completes: its record, and source 63 of the block's owner. -/
structure Made (s : State) (b result : Nat) (t : State) : Prop where
  record : t.appliesOf b = (s.appliesOf b).complete result
  source : ∀ o, s.ownerOf b = some o → (t.core o).ipend.getLsbD 63 = true

theorem applyCompletes_made {s u : State} {b : Nat} (result : Nat) (ha : u.appliesOf b = s.appliesOf b) (ho : u.ownerOf b = s.ownerOf b) :
    Made s b result (u.applyCompletes b result) := by
  have record : (u.setApplies b ((u.appliesOf b).complete result)).appliesOf b = (s.appliesOf b).complete result := by
    rw [ha]; exact Map.getD_put_eq ..
  have owner : (u.setApplies b ((u.appliesOf b).complete result)).ownerOf b = s.ownerOf b := ho
  unfold State.applyCompletes
  dsimp only
  rw [owner]
  cases hs : s.ownerOf b with
  | none => exact ⟨record, fun o h => by rw [hs] at h; cases h⟩
  | some c =>
    refine ⟨?_, fun o h => ?_⟩
    · rw [← record]; unfold State.appliesOf; rw [State.pend_applies]
    · rw [hs] at h; cases h
      rw [State.pend_core_eq, BitVec.getLsbD_or]
      simp

/-- What follows an apply does not undo its completion. -/
theorem Made.keeps {s t u : State} {b result : Nat} (h : Made s b result t) (k : KeepsApplies t u) : Made s b result u where
  record := by rw [← h.record]; unfold State.appliesOf; rw [k.applies]
  source o ho := k.source o (h.source o ho)

/-! ### The blocks that take an apply at once while they are stopped, and else at the fleet-cycle boundary -/

/-- The blocks whose apply depends on whether they are stopped alone, with what stopped means. -/
def stopTests (s : State) : List (Nat × Prop) :=
  [(Blk.mill, s.millState = 0), (Blk.reeve, s.get Fld.reeveStateState = 0), (Blk.correl, s.get Fld.correlStateRun = 0),
    (Blk.plink, s.get Fld.plinkStateLink = 0), (Blk.loop, s.getB Fld.loopStateRunning = false),
    (Blk.axis, s.getB Fld.axisStateRunning = false), (Blk.kettle, s.sysRunning = false)]

variable {s : State} {p : Nat × Prop}

/-- Their block IDs, all of blocks with staged fields. -/
theorem stopTests_block (hp : p ∈ stopTests s) :
    p.1 ∈ [Blk.mill, Blk.reeve, Blk.correl, Blk.plink, Blk.loop, Blk.axis, Blk.kettle] := by
  have h := List.mem_map_of_mem (f := Prod.fst) hp
  exact h

theorem stopTests_hasStaged (hp : p ∈ stopTests s) : hasStaged p.1 = true :=
  (by decide : ∀ b ∈ [Blk.mill, Blk.reeve, Blk.correl, Blk.plink, Blk.loop, Blk.axis, Blk.kettle], hasStaged b = true) _ (stopTests_block hp)

theorem stopTests_id (hp : p ∈ stopTests s) : p.1 < 256 ∧ p.1 ≠ Blk.queue ∧ p.1 ≠ Blk.tally :=
  (by decide : ∀ b ∈ [Blk.mill, Blk.reeve, Blk.correl, Blk.plink, Blk.loop, Blk.axis, Blk.kettle],
    b < 256 ∧ b ≠ Blk.queue ∧ b ≠ Blk.tally) _ (stopTests_block hp)

/-- When their apply is due. -/
theorem applyDue_iff (hp : p ∈ stopTests s) (cyc : Nat) :
    s.applyDue p.1 cyc = true ↔ p.2 ∨ s.get Fld.sysPhaseOffsetUs = 0 ∧ cyc ≠ s.cycle := by
  simp only [stopTests, List.mem_cons, List.not_mem_nil, or_false] at hp
  rcases hp with rfl | rfl | rfl | rfl | rfl | rfl | rfl <;>
    simp [State.applyDue, Blk.hub, Blk.grinder, Blk.gseq, Blk.mill, Blk.reeve, Blk.gnssin, Blk.correl, Blk.radio, Blk.bell, Blk.claim,
      Blk.decant, Blk.plink, Blk.net, Blk.time, Blk.keywell, Blk.loop, Blk.axis, Blk.tally, Blk.kettle]

/-- Whether the gate of the cycle in which an apply was requested stayed shut (16 R395, 17 R417). -/
def Shut (s : State) (p : Nat × Prop) (cyc : Nat) : Prop :=
  (p.1 = Blk.loop ∨ p.1 = Blk.axis) ∧ ¬ p.2 ∧ s.get Fld.sysLastrelCycle ≠ cyc

/-- What follows an apply of theirs. -/
theorem applyMade_keeps (hp : p ∈ stopTests s) (t old : State) : KeepsApplies t (t.applyMade old p.1) := by
  have h := stopTests_block hp
  have k := KeepsApplies.refl t
  simp only [List.mem_cons, List.not_mem_nil, or_false] at h
  rcases h with h | h | h | h | h | h | h <;> rw [h] <;>
    simp only [State.applyMade, Blk.mill, Blk.reeve, Blk.correl, Blk.plink, Blk.loop, Blk.axis, Blk.kettle, Blk.gnssin, Blk.radio, Blk.bell,
      Blk.decant, Blk.time, Nat.reduceEqDiff, if_true, if_false]
  exacts [k.millApplied, k, k, k.plinkApplied, k.loopApplied, k.axisApplied, k]

/-- The state an apply of theirs is checked on. -/
def applyView (s : State) (b : Nat) : State := if b = Blk.axis then s.axesSync else s

theorem applyView_keeps (s : State) (b : Nat) : KeepsApplies s (applyView s b) := .ite (KeepsApplies.refl s).axesSync (.refl s)

theorem applyBlock_eq {b : Nat} (hb : b ≠ Blk.tally) : s.applyBlock b =
    let v := applyView s b
    let t := v.makeApply b (v.applyCheck b).1 (v.applyCheck b).2
    if (v.applyCheck b).2 then t.applyMade v b else t := by
  unfold State.applyBlock
  rw [if_neg hb]
  rfl

/-- An apply whose staged set fails a check: the code is its result, and both sets stand. -/
theorem applyBlock_rejected (hp : p ∈ stopTests s) (ha : (s.appliesOf p.1).pending.isSome = true)
    (hc : ((applyView s p.1).applyCheck p.1).2 = false) : let t := s.applyBlock p.1
    Made s p.1 ((applyView s p.1).applyCheck p.1).1 t ∧ t.cw.live = s.cw.live ∧ t.cw.staged = s.cw.staged := by
  obtain ⟨hid, -, ht⟩ := stopTests_id hp
  have view := applyView_keeps s p.1
  rw [applyBlock_eq ht]
  dsimp only
  rw [hc, makeApply_eq _ _ _ (by rw [view.appliesOf]; exact ha)]
  simp only [Bool.false_eq_true, if_false]
  have raised : KeepsApplies s ((applyView s p.1).raise ((applyView s p.1).applyCheck p.1).1) := view.raise
  exact ⟨applyCompletes_made _ (raised.appliesOf _) (raised.owner _ hid), by rw [← raised.live]; exact congrArg _ (applyCompletes_cw ..),
    by rw [← raised.staged]; exact congrArg _ (applyCompletes_cw ..)⟩

/-- An apply whose staged set passes: the staged set of the block is live whole. -/
theorem applyBlock_made (hp : p ∈ stopTests s) (ha : (s.appliesOf p.1).pending.isSome = true)
    (hc : ((applyView s p.1).applyCheck p.1).2 = true) : let t := s.applyBlock p.1
    Made s p.1 0 t ∧ ∀ y, p.1 * 131072 ≤ y → y < (p.1 + 1) * 131072 → Map.find t.cw.live y = Map.find s.cw.staged y := by
  obtain ⟨hid, -, ht⟩ := stopTests_id hp
  have view := applyView_keeps s p.1
  rw [applyBlock_eq ht]
  dsimp only
  rw [hc, makeApply_eq _ _ _ (by rw [view.appliesOf]; exact ha)]
  simp only [if_true]
  have after := applyMade_keeps hp (((applyView s p.1).stagedToLive (blockLo p.1) (blockHi p.1)).applyCompletes p.1 0) (applyView s p.1)
  have made : Made s p.1 0 (((applyView s p.1).stagedToLive (blockLo p.1) (blockHi p.1)).applyCompletes p.1 0) :=
    applyCompletes_made 0 (view.appliesOf _) (view.owner _ hid)
  refine ⟨made.keeps after, fun y hl hh => ?_⟩
  rw [after.live, applyCompletes_cw, ← view.staged]
  exact Map.find_copyRange _ _ hl hh

/-- An apply that is not made because the gate stayed shut. -/
theorem applyWithheld_made {b : Nat} (code : Nat) (hb : b < 256) :
    Made s b code (s.applyWithheld b code) ∧ (s.applyWithheld b code).cw.live = s.cw.live := by
  have raised : KeepsApplies s (s.raise code) := (KeepsApplies.refl s).raise
  rw [applyWithheld_eq]
  exact ⟨applyCompletes_made code (raised.appliesOf b) (raised.owner b hb), by rw [applyCompletes_cw]; exact raised.live⟩

/-- Of LOOP and AXIS alone, while they run. -/
theorem shut_iff (hp : p ∈ stopTests s) (cyc : Nat) : Shut s p cyc ↔
    (p.1 = Blk.loop ∧ s.getB Fld.loopStateRunning = true ∧ s.get Fld.sysLastrelCycle ≠ cyc) ∨
    (p.1 = Blk.axis ∧ s.getB Fld.axisStateRunning = true ∧ s.get Fld.sysLastrelCycle ≠ cyc) := by
  simp only [stopTests, List.mem_cons, List.not_mem_nil, or_false] at hp
  rcases hp with rfl | rfl | rfl | rfl | rfl | rfl | rfl <;>
    simp [Shut, Blk.mill, Blk.reeve, Blk.correl, Blk.plink, Blk.loop, Blk.axis, Blk.kettle]

/-- Without a request there is nothing to apply. -/
theorem exec_applyAtBoundary_none {b : BitVec 8} (h : (s.appliesOf b.toNat).pending = none) : exec (.applyAtBoundary b) s = .next s := by
  show execApplyAtBoundary b s = _
  simp only [execApplyAtBoundary, h]

section
variable {b : BitVec 8} {cyc : Nat} (hp : p ∈ stopTests s) (hb : b.toNat = p.1) (ha : (s.appliesOf b.toNat).pending = some cyc)
include hp hb ha

/-- A request that is not due stays pending. -/
theorem exec_applyAtBoundary_early (hd : ¬ s.applyDue p.1 cyc = true) : exec (.applyAtBoundary b) s = .next s := by
  show execApplyAtBoundary b s = _
  obtain ⟨-, hq, -⟩ := stopTests_id hp
  simp only [execApplyAtBoundary, ha]
  rw [hb, stopTests_hasStaged hp, if_neg hd, if_neg hq]
  rfl

theorem exec_applyAtBoundary_shut (hd : s.applyDue p.1 cyc = true) (hs : Shut s p cyc) :
    exec (.applyAtBoundary b) s = .next (s.applyWithheld p.1 (p.1 * 256 + 3)) := by
  show execApplyAtBoundary b s = _
  simp only [execApplyAtBoundary, ha]
  rw [hb, stopTests_hasStaged hp, if_neg (by decide), if_pos hd]
  rcases (shut_iff hp cyc).1 hs with ⟨h, hr⟩ | ⟨h, hr⟩
  · rw [h, if_pos ⟨rfl, hr⟩]; rfl
  · rw [h, if_neg (fun k => absurd k.1 (by decide)), if_pos ⟨rfl, hr⟩]; rfl

theorem exec_applyAtBoundary_due (hd : s.applyDue p.1 cyc = true) (hs : ¬ Shut s p cyc) :
    exec (.applyAtBoundary b) s = .next (s.applyBlock p.1) := by
  show execApplyAtBoundary b s = _
  rw [shut_iff hp cyc, not_or] at hs
  simp only [execApplyAtBoundary, ha]
  rw [hb, stopTests_hasStaged hp, if_pos hd, if_neg hs.1, if_neg hs.2]
  rfl

end

end Sys2Proof.Machine
end

section
/-! PROOFS. The control word instructions on a core that executes them at the top level, and the statement about them (02 Table 2.11). -/

namespace Sys2Proof.Machine

variable {s : State} {c : Core} {d a r : Reg}

/-! ### What each instruction comes to -/

theorem onHub_topInsn (i : Core → Instr) (f : Core → State → State) (hr : s.runsOr (.hub c) (i c) = true) (ht : s.top c = true) :
    (s.onHub (.hub c) fun c => s.topInsn c (i c) (f c)) = f c s := topInsn_eq _ hr ht

/-- The four reads are one operation, on the word that the instruction or register `a` names. -/
theorem exec_reads {p : Instr × Bool} {b : BitVec 8} {x : BitVec 12} (hr : s.runs (.hub c) = true) (ht : s.top c = true)
    (hp : p ∈ [(.cwr (.hub c) d b x, false), (.cwrl (.hub c) d b x, true)] ∨
      (bits (s.rg (.hub c) a).toNat 12 8 = b.toNat ∧ bits (s.rg (.hub c) a).toNat 0 12 = x.toNat) ∧
        p ∈ [(.cwrx (.hub c) d a, false), (.cwrlx (.hub c) d a, true)]) :
    exec p.1 s = .next (s.cwRead c d b.toNat x.toNat p.2) := by
  simp only [List.mem_cons, List.not_mem_nil, or_false] at hp
  rcases hp with (rfl | rfl) | ⟨⟨hb, hx⟩, rfl | rfl⟩
  · exact congrArg Host.Outcome.next (onHub_topInsn _ _ (runsOr_of_runs _ hr) ht)
  · exact congrArg Host.Outcome.next (onHub_topInsn _ _ (runsOr_of_runs _ hr) ht)
  · rw [← hb, ← hx]; exact congrArg Host.Outcome.next (onHub_topInsn _ _ (runsOr_of_runs _ hr) ht)
  · rw [← hb, ← hx]; exact congrArg Host.Outcome.next (onHub_topInsn _ _ (runsOr_of_runs _ hr) ht)

/-- So are the two writes. -/
theorem exec_writes {p : Instr × Nat} {b : BitVec 8} {x : BitVec 12} (hr : s.runs (.hub c) = true) (ht : s.top c = true)
    (hp : p = (.cws (.hub c) r b x, (s.rg (.hub c) r).toNat % 2 ^ 32) ∨
      (bits (s.rg (.hub c) a).toNat 12 8 = b.toNat ∧ bits (s.rg (.hub c) a).toNat 0 12 = x.toNat) ∧
        p = (.cwsx (.hub c) a r, (s.rg (.hub c) r).toNat % 2 ^ 32)) :
    exec p.1 s = .next (s.cwWrite c b.toNat x.toNat p.2) := by
  rcases hp with rfl | ⟨⟨hb, hx⟩, rfl⟩
  · exact congrArg Host.Outcome.next (onHub_topInsn _ _ (runsOr_of_runs _ hr) ht)
  · rw [← hb, ← hx]; exact congrArg Host.Outcome.next (onHub_topInsn _ _ (runsOr_of_runs _ hr) ht)

theorem readWord_kettle_nap (s : State) (live : Bool) : let rd := fun f : Fld => if live then s.get f else s.getStaged f
    s.readWord 0x3C 0x010 live = rd Fld.kettleNapNapMill + 2 * rd Fld.kettleNapNapBank + 256 * rd Fld.kettleNapLeadUs := by
  simp only [State.readWord, fieldsAt_kettle_nap, List.foldl_cons, List.foldl_nil]
  cases live <;> simp [Fld.bit, Fld.kettleNapNapMill, Fld.kettleNapNapBank, Fld.kettleNapLeadUs] <;> omega

/-- A write that passes is made, and the core goes on. -/
theorem cwWrite_goesOn {b index w : Nat} (hr : s.runs (.hub c) = true) (hf : s.writeFault c b index w = none)
    (hu : s.writeWord b index w = { s with cw := (s.writeWord b index w).cw }) :
    GoesOn (s.writeWord b index w) (.hub c) (s.cwWrite c b index w) := by
  unfold State.cwWrite
  rw [hf]
  exact coreRetire_goesOn (by rw [hubReady_of_cw hu]; exact hubReady_of_runs hr)

/-- A write that does not pass completes with its code. -/
theorem cwWrite_enters {b index w k : Nat} (hq : (s.core c).status.getLsbD 2 = false) (hf : s.writeFault c b index w = some k) :
    Enters s c ((s.core c).pc + 4) (causeOf k) k 0 0 (s.cwWrite c b index w) := by
  unfold State.cwWrite
  rw [hf]
  exact hubFaultDone_enters k hq

theorem exec_cwWrite_made {b : BitVec 8} {x : BitVec 12} {w : Word32} (hf : s.writeFault c b.toNat x.toNat w.toNat = none) :
    exec (.cwWrite c b x w) s = .next (s.writeWord b.toNat x.toNat w.toNat) := by
  show execCwWrite c b x w s = _
  unfold execCwWrite
  rw [hf]

theorem exec_cwWrite_refused {b : BitVec 8} {x : BitVec 12} {w : Word32} {k : Nat}
    (hf : s.writeFault c b.toNat x.toNat w.toNat = some k) : exec (.cwWrite c b x w) s = .next s := by
  show execCwWrite c b x w s = _
  unfold execCwWrite
  rw [hf]

section
variable {b : Nat} (hb : (s.rg (.hub c) a).toNat % 256 = b) (ht : s.top c = true)
include hb ht

theorem exec_cwapply_fault {k : Nat} (hr : s.runs (.hub c) = true) (hm : s.mayWrite c b = some k) :
    exec (.cwapply (.hub c) d a) s = .next (s.cwFault c d k) := by
  show execCwapply (.hub c) d a s = _
  unfold execCwapply State.onHub
  simp only [topInsn_eq _ (runsOr_of_runs _ hr) ht, hb, hm]

theorem exec_cwapply_done (hr : s.runs (.hub c) = true) (hm : s.mayWrite c b = none) :
    exec (.cwapply (.hub c) d a) s = .next ((s.requestApply b).done c d (s.appliesOf b).nextNum) := by
  show execCwapply (.hub c) d a s = _
  unfold execCwapply State.onHub
  simp only [topInsn_eq _ (runsOr_of_runs _ hr) ht, hb, hm]

theorem exec_cwwait_unknown (hr : s.runsOr (.hub c) (.cwwait (.hub c) d a r) = true) (hk : ¬ blockKnown b = true) :
    exec (.cwwait (.hub c) d a r) s = .next (s.cwFault c d 0x0201) := by
  show execCwwait (.hub c) d a r s = _
  unfold execCwwait State.onHub
  simp only [topInsn_eq _ hr ht, hb, hk, Bool.not_false, if_true]

theorem exec_cwwait_waits (hr : s.runsOr (.hub c) (.cwwait (.hub c) d a r) = true) (hk : blockKnown b = true)
    (h : (s.appliesOf b).answer ((s.rg (.hub c) r).toNat % 65536) = none) :
    exec (.cwwait (.hub c) d a r) s = .next (s.block (.hub c) (.cwwait (.hub c) d a r)) := by
  show execCwwait (.hub c) d a r s = _
  unfold execCwwait State.onHub
  simp only [topInsn_eq _ hr ht, hb, hk, h, Bool.not_true, Bool.false_eq_true, if_false]

theorem exec_cwwait_answers (hr : s.runsOr (.hub c) (.cwwait (.hub c) d a r) = true) (hk : blockKnown b = true) {v : Nat}
    (h : (s.appliesOf b).answer ((s.rg (.hub c) r).toNat % 65536) = some v) :
    exec (.cwwait (.hub c) d a r) s = .next ((s.unpend c 63).done c d ((s.rg (.hub c) r).toNat % 65536 * 65536 + v)) := by
  show execCwwait (.hub c) d a r s = _
  unfold execCwwait State.onHub
  simp only [topInsn_eq _ hr ht, hb, hk, h, Bool.not_true, Bool.false_eq_true, if_false]

theorem exec_cwstat_unknown (hr : s.runs (.hub c) = true) (hk : ¬ blockKnown b = true) :
    exec (.cwstat (.hub c) d a) s = .next (s.cwFault c d 0x0201) := by
  show execCwstat (.hub c) d a s = _
  unfold execCwstat State.onHub
  simp only [topInsn_eq _ (runsOr_of_runs _ hr) ht, hb, hk, Bool.not_false, if_true]

/-- CWSTAT gives the number of the last apply and its result, and whether one is pending. -/
theorem exec_cwstat_done (hr : s.runs (.hub c) = true) (hk : blockKnown b = true) : let x := s.appliesOf b
    exec (.cwstat (.hub c) d a) s = .next ((s.unpend c 63).done c d
      (x.done * 65536 + ((x.results.head?.map (·.2)).getD 0) + x.pending.isSome.toNat * 2 ^ 32)) := by
  show execCwstat (.hub c) d a s = _
  unfold execCwstat State.onHub
  simp only [topInsn_eq _ (runsOr_of_runs _ hr) ht, hb, hk, Bool.not_true, Bool.false_eq_true, if_false]
  cases (s.appliesOf b).results <;> rfl

/-- CWOWN, in the order of its checks (log 74). -/
theorem exec_cwown_cases (hr : s.runs (.hub c) = true) :
    let gives := fun u => exec (.cwown (.hub c) a) s = .next u
    let allowed := kernelOnly b = true → c = .kernel
    (¬ blockKnown b = true → gives (s.hubFaultDone c 0x0201)) ∧
    (blockKnown b = true → ¬ allowed → gives (s.hubFaultDone c 0x0202)) ∧
    (blockKnown b = true → allowed → s.ownerOf b = some c → gives (s.coreRetire c)) ∧
    (blockKnown b = true → allowed → ∀ o, c ≠ .kernel → s.ownerOf b = some o → o ≠ c → gives (s.hubFaultDone c 0x0204)) ∧
    (blockKnown b = true → allowed → s.ownerOf b = none ∨ ¬ s.ownerOf b = some c ∧ c = .kernel →
      gives ((s.setOwner b (coreId c)).coreRetire c)) := by
  intro gives allowed
  have e : gives (if !blockKnown b then s.hubFaultDone c 0x0201
      else if kernelOnly b = true ∧ c ≠ .kernel then s.hubFaultDone c 0x0202
      else if s.ownerOf b = some c then s.coreRetire c
      else if (s.ownerOf b).isSome = true ∧ c ≠ .kernel then s.hubFaultDone c 0x0204
      else (s.setOwner b (coreId c)).coreRetire c) := by
    show execCwown (.hub c) a s = _
    unfold execCwown State.onHub
    simp only [topInsn_eq _ (runsOr_of_runs _ hr) ht, hb]
  refine ⟨fun hk => ?_, fun hk ha => ?_, fun hk ha ho => ?_, fun hk ha o hc ho hoc => ?_, fun hk ha h => ?_⟩
  · rwa [if_pos (by simp [hk])] at e
  all_goals rw [if_neg (by simp [hk])] at e
  · rwa [if_pos (Classical.not_imp.1 ha)] at e
  all_goals rw [if_neg fun h => h.2 (ha h.1)] at e
  · rwa [if_pos ho] at e
  · rwa [ho, if_neg (by simpa using hoc), if_pos ⟨rfl, hc⟩] at e
  · rcases h with h | ⟨ho, hc⟩
    · rwa [h, if_neg nofun, if_neg (fun k => Bool.false_ne_true k.1)] at e
    · rwa [if_neg ho, if_neg (fun k => k.2 hc)] at e

/-- CWDISOWN, in the order of its checks (log 74); HUB stays with the kernel (log 78). -/
theorem exec_cwdisown_cases (hr : s.runs (.hub c) = true) :
    let gives := fun u => exec (.cwdisown (.hub c) a) s = .next u
    let allowed := kernelOnly b = true → c = .kernel
    (¬ blockKnown b = true → gives (s.hubFaultDone c 0x0201)) ∧
    (blockKnown b = true → ¬ allowed → gives (s.hubFaultDone c 0x0202)) ∧
    (blockKnown b = true → allowed → b = Blk.hub ∨ s.ownerOf b ≠ some c → gives (s.coreRetire c)) ∧
    (blockKnown b = true → allowed → b ≠ Blk.hub → s.ownerOf b = some c → gives ((s.setOwner b 1).coreRetire c)) := by
  intro gives allowed
  have e : gives (if !blockKnown b then s.hubFaultDone c 0x0201
      else if kernelOnly b = true ∧ c ≠ .kernel then s.hubFaultDone c 0x0202
      else if b = Blk.hub ∨ s.ownerOf b ≠ some c then s.coreRetire c
      else (s.setOwner b 1).coreRetire c) := by
    show execCwdisown (.hub c) a s = _
    unfold execCwdisown State.onHub
    simp only [topInsn_eq _ (runsOr_of_runs _ hr) ht, hb]
  refine ⟨fun hk => ?_, fun hk ha => ?_, fun hk ha h => ?_, fun hk ha hn ho => ?_⟩
  · rwa [if_pos (by simp [hk])] at e
  all_goals rw [if_neg (by simp [hk])] at e
  · rwa [if_pos (Classical.not_imp.1 ha)] at e
  all_goals rw [if_neg fun h => h.2 (ha h.1)] at e
  · rwa [if_pos h] at e
  · rwa [if_neg (not_or.2 ⟨hn, not_not.2 ho⟩)] at e

end

/-! ### The statement -/

/-- Words 0 with a single trigger set, and the command that stands for the trigger. -/
def triggerWords : List (BitVec 8 × Word32 × Instr) :=
  [(0x3C, 1, .sleep), (0x31, 2, .timeSnap), (0x10, 1, .millRun), (0x14, 1, .reeveRun), (0x3A, 1, .tallyRun), (0x3A, 8, .tallySnap),
    (0x38, 1, .loopRun), (0x39, 1, .axisRun), (0x24, 1, .bellRun), (0x2E, 1, .plinkRun)]

theorem triggerWords_pass : ∀ p ∈ triggerWords,
    blockKnown p.1.toNat = true ∧ wordExists p.1.toNat 0 = true ∧ ¬ writesFixed p.1.toNat 0 p.2.1.toNat = true := by decide

/-- A trigger does what its command does. -/
theorem exec_trigger (s : State) : ∀ p ∈ triggerWords, exec p.2.2 s = .next (s.writeWord p.1.toNat 0 p.2.1.toNat) := by
  simp only [triggerWords, List.forall_mem_cons, List.not_mem_nil, false_imp_iff, implies_true, and_true]
  exact ⟨rfl, rfl, rfl, rfl, rfl, rfl, rfl, rfl, rfl, rfl⟩


theorem requestCycle_eq (s : State) (b : BitVec 8) : s.requestCycle b.toNat =
    if (b = 0x38 ∨ b = 0x39) ∧ 5990 < s.get Fld.sysPhaseOffsetUs then nextCycle s.cycle else s.cycle := by
  have hl : b.toNat = Blk.loop ↔ b = 0x38 := BitVec.toNat_inj (y := 0x38)
  have ha : b.toNat = Blk.axis ↔ b = 0x39 := BitVec.toNat_inj (y := 0x39)
  simp only [State.requestCycle, hl, ha]

theorem setCore_set (s : State) (c : Core) (h : HubCore) (f : Fld) (v i j : Nat) :
    (s.set f v i j).setCore c h = (s.setCore c h).set f v i j := by
  unfold State.set
  split <;> cases c <;> rfl

/-- Clearing the cause of a source and writing a field do not touch each other. -/
theorem unpendAll_set (s : State) (n : Nat) (f : Fld) (v i j : Nat) : (s.set f v i j).unpendAll n = (s.unpendAll n).set f v i j := by
  simp only [State.unpendAll, State.unpend, setCore_set, State.set_core]

/-- What a word of WITHHELD written by the kernel leaves (R11; log 22). -/
theorem withheld_sets (s : State) :
    SetsWords (s.unpendAll 5) [(Fld.sysReleaseWithheld, 0, 0)] (s.writeWord 1 3 4) := by
  rw [writeWord_withheld, unpendAll_set]
  refine ⟨rfl, fun w hw => ?_, fun f i j h => State.get_set_ne _ _ _ _ _ _ (h (Fld.sysReleaseWithheld, 0, 0) (List.mem_singleton.2 rfl))⟩
  rw [List.mem_singleton.1 hw]
  exact State.get_set_eq _ _ _ _ _ (by decide) (by decide) (by decide)

/-- Settles O60: a clause for each instruction and event of the control word space, from what each of them comes to. -/
theorem controlWordAccess : Obligations.ControlWordAccess := by
  intro s c d a r b x w k ready ra rr named byReg same quiet next known implemented allowed own fs fixed ends zero faults0 staged plain ap num asked
  have hfixed (v : Nat) : writesFixed b.toNat x.toNat v = true ↔ fixed v := writesFixed_iff ..
  obtain ⟨hUnknown, hKernel, hOwner, hMay⟩ := mayWrite_cases s c b.toNat
  have hWrites (v : Nat) (hi : implemented) (ha : allowed) (ho : own) (hf : ¬ fixed v) : s.writeFault c b.toNat x.toNat v = none :=
    writeFault_eq_none s c (hMay hi.1 ha ho) hi.2 fun h => hf ((hfixed v).1 h)
  have hWord (v : Nat) (hk : known) (ha : allowed) (ho : own) (h : ¬ implemented ∨ fixed v) :
      s.writeFault c b.toNat x.toNat v = some 0x0201 :=
    writeFault_of_word s c (hMay hk ha ho) (h.imp (fun h hx => h ⟨hk, hx⟩) (hfixed v).2)
  have hStaged (v : Nat) (hp : plain) : staged v (s.writeWord b.toNat x.toNat v) := by
    obtain ⟨allStaged, notLoop, notAxis⟩ := hp
    obtain ⟨rest, others⟩ := writeWord_stagedOnly s v allStaged notLoop notAxis
    refine ⟨rest, others, fun hb hx => ?_⟩
    rw [hb, hx]
    exact writeWord_kettle_nap s v
  refine ⟨?kernelOnly, ?reads, ?writes, ?commandWrites, ?commandRefused, ?withheld, ?triggers, ?apply, ?wait, ?stat,
    ?owners, ?noRequest, ?boundary⟩
  case kernelOnly =>
    exact (by decide : ∀ b : BitVec 8, kernelOnly b.toNat = true ↔
      b ∈ ([0x01, 0x02, 0x0A, 0x0C, 0x24, 0x2C, 0x2D, 0x2E, 0x34, 0x3C, 0x3F] : List (BitVec 8))) b
  case reads =>
    rintro p hp ⟨hr, ht⟩
    have e := exec_reads hr ht hp
    refine ⟨fun hi => ⟨_, e, s.readSync b.toNat x.toNat, readSync_presOnly .., readSync_eq s x.toNat, cwRead_answers s c d p.2 hi.1 hi.2⟩,
      fun hb hx => ⟨_, e, ?_⟩, fun hi hq => ⟨_, e, ?_⟩⟩
    · have answer := cwRead_answers s c d (b := 0x3C) (index := 0x010) p.2 (by decide) (by decide)
      rw [readSync_eq s _ (by decide), causeRead_kettle_nap, readWord_kettle_nap] at answer
      rw [hb, hx]
      exact answer
    · rw [cwRead_eq_fault s c d p.2 hi]
      exact cwFault_enters d 0x0201 hq
  case writes =>
    rintro p hp ⟨hr, ht⟩
    have e := exec_writes hr ht hp
    refine ⟨fun hi ha ho hf hp => ⟨_, e, _, hStaged p.2 hp, cwWrite_goesOn hr (hWrites p.2 hi ha ho hf) ?_⟩, fun hq => ⟨?_, ?_, ?_, ?_⟩⟩
    · rw [(hStaged p.2 hp).1]
    · exact fun hk => ⟨_, e, cwWrite_enters hq (writeFault_of_mayWrite s c _ _ (hUnknown hk))⟩
    · exact fun hk ha => ⟨_, e, cwWrite_enters hq (writeFault_of_mayWrite s c _ _ (hKernel hk ha))⟩
    · exact fun hk ha ho => ⟨_, e, cwWrite_enters hq (writeFault_of_mayWrite s c _ _ (hOwner hk ha ho))⟩
    · exact fun hk ha ho h => ⟨_, e, cwWrite_enters hq (hWord p.2 hk ha ho h)⟩
  case commandWrites => exact fun hi ha ho hf hp => ⟨_, exec_cwWrite_made (hWrites _ hi ha ho hf), hStaged _ hp⟩
  case commandRefused =>
    intro h
    obtain ⟨k, hf⟩ := writeFault_refused s c w.toNat (h.imp id (Or.imp id (Or.imp id (hfixed w.toNat).2)))
    exact ⟨_, exec_cwWrite_refused hf, rfl⟩
  case withheld =>
    intro ho
    have hf : s.writeFault .kernel 1 3 4 = none :=
      writeFault_eq_none s .kernel (mayWrite_kernel s (by decide) ho) (by decide) (by decide)
    exact ⟨_, exec_cwWrite_made hf, withheld_sets s⟩
  case triggers =>
    intro p hp ho
    obtain ⟨hk, hx, hf⟩ := triggerWords_pass p hp
    rw [exec_cwWrite_made (x := 0) (writeFault_eq_none s .kernel (mayWrite_kernel s hk ho) hx hf)]
    exact (exec_trigger s p hp).symm
  case apply =>
    rintro hreg ⟨hr, ht⟩
    refine ⟨fun hk hq => ⟨_, exec_cwapply_fault hreg ht hr (hUnknown hk), cwFault_enters d _ hq⟩,
      fun hk ha hq => ⟨_, exec_cwapply_fault hreg ht hr (hKernel hk ha), cwFault_enters d _ hq⟩,
      fun hk ha ho hq => ⟨_, exec_cwapply_fault hreg ht hr (hOwner hk ha ho), cwFault_enters d _ hq⟩,
      fun hk ha ho => ⟨_, exec_cwapply_done hreg ht hr (hMay hk ha ho), _, done_answers .., requestApply_pending s, fun h => ?_⟩⟩
    rw [requestApply_none s h, requestCycle_eq]
  case wait =>
    intro hreg hr ht want answer
    refine ⟨fun hk hq => ⟨_, exec_cwwait_unknown hreg ht hr hk, cwFault_enters d _ hq⟩,
      fun hk => ⟨fun hn => ⟨_, ?_, rfl⟩, fun hn => ⟨?_, ?_⟩⟩⟩
    · refine exec_cwwait_waits hreg ht hr hk ?_
      rw [show (s.rg (.hub c) r).toNat % 65536 = ap.nextNum from hn]
      exact answer_next _
    · exact fun v hv => ⟨_, exec_cwwait_answers hreg ht hr hk (answer_kept hn hv), done_answers ..⟩
    · intro hl ahead
      have lost : ap.answer want = some (if ahead < 32768 then 0x0212 else 0x0281) := answer_lost hn (Nat.mod_lt _ (by decide)) hl
      by_cases h : ahead < 32768
      · rw [if_pos h] at lost ⊢
        exact ⟨_, exec_cwwait_answers hreg ht hr hk lost, done_answers ..⟩
      · rw [if_neg h] at lost ⊢
        exact ⟨_, exec_cwwait_answers hreg ht hr hk lost, done_answers ..⟩
  case stat =>
    rintro hreg ⟨hr, ht⟩
    exact ⟨fun hk hq => ⟨_, exec_cwstat_unknown hreg ht hr hk, cwFault_enters d _ hq⟩,
      fun hk => ⟨_, exec_cwstat_done hreg ht hr hk, done_answers ..⟩⟩
  case owners =>
    rintro hreg ⟨hr, ht⟩ owner passes
    obtain ⟨ownUnknown, ownRefused, ownOwned, ownTaken, ownFree⟩ := exec_cwown_cases hreg ht hr
    obtain ⟨disownUnknown, disownRefused, disownOther, disownOwned⟩ := exec_cwdisown_cases hreg ht hr
    have hready := hubReady_of_runs hr
    have handed (code : Nat) : GoesOn (s.setOwner b.toNat code) k ((s.setOwner b.toNat code).coreRetire c) ∧ passes (s.setOwner b.toNat code) := by
      obtain ⟨rest, live, staged, others⟩ := setOwner_passes s b.toNat code
      exact ⟨coreRetire_goesOn (by rw [hubReady_of_cw rest]; exact hready), rest, live, staged, others⟩
    have hHub : b.toNat = Blk.hub ↔ b = 0x02 := BitVec.toNat_inj (y := 0x02)
    refine ⟨fun hq => ⟨fun hk => ⟨?_, ?_⟩, fun hk ha => ⟨?_, ?_⟩, fun hk ha hc ⟨o, ho, hoc⟩ => ?_⟩,
      fun hk ha => ⟨fun ho => ?_, fun h => ?_, fun h => ?_, fun hn ho => ?_⟩⟩
    · exact ⟨_, ownUnknown hk, hubFaultDone_enters 0x0201 hq⟩
    · exact ⟨_, disownUnknown hk, hubFaultDone_enters 0x0201 hq⟩
    · exact ⟨_, ownRefused hk ha, hubFaultDone_enters 0x0202 hq⟩
    · exact ⟨_, disownRefused hk ha, hubFaultDone_enters 0x0202 hq⟩
    · exact ⟨_, ownTaken hk ha o hc ho hoc, hubFaultDone_enters 0x0204 hq⟩
    · exact ⟨_, ownOwned hk ha ho, coreRetire_goesOn hready⟩
    · exact ⟨_, ownFree hk ha h, _, (handed _).1, (handed _).2, ownerOf_setOwner_core s b.toNat c⟩
    · exact ⟨_, disownOther hk ha (h.imp hHub.2 id), coreRetire_goesOn hready⟩
    · exact ⟨_, disownOwned hk ha (fun h => hn (hHub.1 h)) ho, _, (handed _).1, (handed _).2, ownerOf_setOwner_none s b.toNat⟩
  case noRequest => exact fun h => ⟨s, exec_applyAtBoundary_none h, rfl⟩
  case boundary =>
    intro p hp hb cyc ha v due shut made
    have hpend : (s.appliesOf p.1).pending = some cyc := hb ▸ ha
    have hsome : (s.appliesOf p.1).pending.isSome = true := by rw [hpend]; rfl
    have hdue : s.applyDue p.1 cyc = true ↔ due := applyDue_iff hp cyc
    have hmade {v : Nat} {t : State} (h : Made s p.1 v t) : made v t := ⟨by rw [h.record, ← hb]; rfl, h.source⟩
    refine ⟨fun hd => ?_, fun hd hs => ?_, fun hd hs hc => ?_, fun hd hs hc => ?_⟩
    · exact ⟨s, exec_applyAtBoundary_early hp hb ha (fun h => hd (hdue.1 h)), rfl⟩
    · have h := applyWithheld_made (s := s) (p.1 * 256 + 3) (stopTests_id hp).1
      exact ⟨_, exec_applyAtBoundary_shut hp hb ha (hdue.2 hd) hs, hmade h.1, h.2⟩
    · have h := applyBlock_rejected hp hsome hc
      exact ⟨_, exec_applyAtBoundary_due hp hb ha (hdue.2 hd) hs, hmade h.1, h.2⟩
    · have h := applyBlock_made hp hsome hc
      exact ⟨_, exec_applyAtBoundary_due hp hb ha (hdue.2 hd) hs, hmade h.1, h.2⟩

end Sys2Proof.Machine
end

section
/-! PROOFS. Tables written entry by entry, and what the updates of the Tally's words leave (00 R7, R10, R16; 18 Table 18.5). -/

namespace Sys2Proof.Machine

/-! ### Tables written entry by entry -/

section
variable {α : Type}

/-- A table with a list of entries written into it, first entry first. -/
def Map.putAll (m : Map α) (l : List (Nat × α)) : Map α := l.foldl (fun m p => Map.put m p.1 p.2) m

theorem Map.find_putAll_of_not_mem (m : Map α) {l : List (Nat × α)} {n : Nat} (h : ∀ p ∈ l, p.1 ≠ n) :
    Map.find (Map.putAll m l) n = Map.find m n := by
  induction l generalizing m with
  | nil => rfl
  | cons p l ih =>
    exact (ih (Map.put m p.1 p.2) fun q hq => h q (.tail _ hq)).trans (Map.find_put_ne m p.2 (h p (.head _)).symm)

/-- A key reads the value that every entry of that key writes. -/
theorem Map.find_putAll_of_mem (m : Map α) {l : List (Nat × α)} {p : Nat × α} (hp : p ∈ l)
    (h : ∀ q ∈ l, q.1 = p.1 → q.2 = p.2) : Map.find (Map.putAll m l) p.1 = some p.2 := by
  induction l generalizing m with
  | nil => cases hp
  | cons q l ih =>
    by_cases hl : p ∈ l
    · exact ih (Map.put m q.1 q.2) hl fun r hr => h r (.tail _ hr)
    · have hq : p = q := (List.mem_cons.1 hp).resolve_right hl
      subst hq
      have hn : ∀ r ∈ l, r.1 ≠ p.1 := fun r hr e => hl (Prod.ext e (h r (.tail _ hr) e) ▸ hr)
      exact (Map.find_putAll_of_not_mem (Map.put m p.1 p.2) hn).trans (Map.find_put_eq ..)

theorem Map.find_putAll_of_nodup (m : Map α) {l : List (Nat × α)} (hl : (l.map Prod.fst).Nodup) {p : Nat × α} (hp : p ∈ l) :
    Map.find (Map.putAll m l) p.1 = some p.2 :=
  Map.find_putAll_of_mem m hp fun _ hq e => congrArg Prod.snd (List.inj_on_of_nodup_map hl hq hp e)

theorem Map.find_map_snd (m : Map α) (g : α → α) (n : Nat) : Map.find (m.map fun p => (p.1, g p.2)) n = (Map.find m n).map g := by
  induction m with
  | nil => rfl
  | cons p m ih =>
    simp only [List.map_cons, Map.find, ih]
    split <;> rfl

/-- The places of the seven accumulators of some channels from a base on, each with a value. -/
def meterTable (base : Nat) (ms : List Nat) (v : Nat → Nat → α) : List (Nat × α) :=
  ms.flatMap fun m => (List.range 7).map fun k => (base + 8 * m + k, v m k)

variable {base : Nat} {ms : List Nat} {v : Nat → Nat → α}

theorem mem_meterTable {p : Nat × α} : p ∈ meterTable base ms v ↔ ∃ m ∈ ms, ∃ k < 7, p = (base + 8 * m + k, v m k) := by
  simp [meterTable, eq_comm]

/-- An accumulator has a place of its own. -/
theorem place_inj {m m' k k' : Nat} (hk : k < 8) (hk' : k' < 8) (h : base + 8 * m + k = base + 8 * m' + k') : m = m' ∧ k = k' := by
  omega

theorem mem_meterTable_iff {m k : Nat} (hk : k < 7) : (base + 8 * m + k, v m k) ∈ meterTable base ms v ↔ m ∈ ms := by
  refine mem_meterTable.trans ⟨fun ⟨m', hm', k', hk', e⟩ => ?_, fun hm => ⟨m, hm, k, hk, rfl⟩⟩
  rwa [(place_inj (by omega) (by omega) (congrArg Prod.fst e)).1]

theorem find_putAll_meterTable (c : Map α) {m k : Nat} (hm : m ∈ ms) (hk : k < 7) :
    Map.find (Map.putAll c (meterTable base ms v)) (base + 8 * m + k) = some (v m k) := by
  refine Map.find_putAll_of_mem c ((mem_meterTable_iff hk).2 hm) fun q hq e => ?_
  obtain ⟨m', -, k', hk', rfl⟩ := mem_meterTable.1 hq
  obtain ⟨rfl, rfl⟩ := place_inj (by omega) (by omega) e
  rfl

theorem find_putAll_meterTable_ne (c : Map α) {n : Nat} (h : ∀ m ∈ ms, ∀ k < 7, base + 8 * m + k ≠ n) :
    Map.find (Map.putAll c (meterTable base ms v)) n = Map.find c n := by
  refine Map.find_putAll_of_not_mem c fun p hp => ?_
  obtain ⟨m, hm, k, hk, rfl⟩ := mem_meterTable.1 hp
  exact h m hm k hk

end

/-- Chest locations written one after the other. -/
theorem foldl_chestSet (s : State) (l : List (Nat × Word)) :
    l.foldl (fun s p => s.chestSet p.1 p.2) s = { s with chest := Map.putAll s.chest l } := by
  induction l generalizing s with
  | nil => rfl
  | cons p l ih => exact ih (s.chestSet p.1 p.2)

/-! ### A channel among those of a fold -/

/-- What a fold over different channels does around one of them, where it leaves that one otherwise as it is. -/
theorem foldl_around {R : State → State → Prop} {f : State → Nat → State} {l : List Nat} (hl : l.Nodup) {m : Nat} (hm : m ∈ l)
    (hf : ∀ l' ⊆ l, m ∉ l' → ∀ s, R s (l'.foldl f s)) (s : State) : ∃ u, R s u ∧ R (f u m) (l.foldl f s) := by
  obtain ⟨before, after, rfl⟩ := List.append_of_mem hm
  rw [List.nodup_middle, List.nodup_cons, List.mem_append, not_or] at hl
  refine ⟨before.foldl f s, hf before (by simp) hl.1.1 s, ?_⟩
  rw [List.foldl_append, List.foldl_cons]
  exact hf after (fun n hn => by simp [hn]) hl.1.2 _

/-! ### Words left as they are -/

/-- Every field reads as before but those, not staged ones, under the keys `K`. -/
def WordsKept (K : Nat → Prop) (s t : State) : Prop :=
  ∀ (f : Fld) (i j : Nat), f.acc = .S ∨ ¬ K (f.key i j) → t.get f i j = s.get f i j

theorem get_set_of_staged (s : State) {f g : Fld} (v i j k l : Nat) (hf : f.acc ≠ .S) (hg : g.acc = .S) :
    (s.set f v i j).get g k l = s.get g k l := by
  unfold State.set State.get
  cases h : f.acc <;> simp_all

namespace WordsKept

variable {K L : Nat → Prop} {s₀ s t : State}

theorem refl (s : State) : WordsKept K s s := fun _ _ _ _ => rfl

theorem trans (h : WordsKept K s₀ s) (k : WordsKept K s t) : WordsKept K s₀ t :=
  fun f i j hf => (k f i j hf).trans (h f i j hf)

theorem mono (h : WordsKept K s t) (hK : ∀ n, K n → L n) : WordsKept L s t :=
  fun f i j hf => h f i j (hf.imp_right fun hn hk => hn (hK _ hk))

theorem upd (h : WordsKept K s₀ s) (hc : t.cw = s.cw := by rfl) : WordsKept K s₀ t :=
  h.trans fun f i j _ => State.get_cw hc f i j

theorem set (h : WordsKept K s₀ s) {f : Fld} {v i j : Nat} (hf : f.acc ≠ .S) (hk : K (f.key i j)) : WordsKept K s₀ (s.set f v i j) := by
  refine h.trans fun g k l hg => ?_
  obtain hg | hn := hg
  · exact get_set_of_staged s v i j k l hf hg
  · refine State.get_set_ne s v i j k l fun e => hn ?_
    rw [e]
    exact hk

theorem getB (h : WordsKept K s t) {f : Fld} {i j : Nat} (hf : f.acc = .S ∨ ¬ K (f.key i j)) : t.getB f i j = s.getB f i j :=
  congrArg (· != 0) (h f i j hf)

end WordsKept

/-- The keys of a block. -/
def InBlock (b n : Nat) : Prop := n / 131072 = b

/-! ### TALLY.FAULT -/

/-- The keys of TALLY.FAULT. -/
def InFault (n : Nat) : Prop := n / 32 = 0x3A006

/-- A fault or warning of the Tally: its FAULT word, the record of its last code and its interrupt source. -/
theorem raise_tally_eq (s : State) {code : Nat} (index : Nat) (h : code / 256 = Blk.tally) : s.raise code index =
    ((({ s with lastCode := Map.put s.lastCode Blk.tally code } : State).set Fld.tallyFaultCode code).set
      Fld.tallyFaultChan index).pend .kernel 56 := by
  unfold State.raise
  rw [Option.getD_none, h]
  rfl

section
variable (s : State) {code : Nat} (index : Nat) (h : code / 256 = Blk.tally)
include h

theorem raise_tally : (s.raise code index).tally = s.tally := by
  simp [raise_tally_eq s index h]

theorem raise_chest : (s.raise code index).chest = s.chest := by
  simp [raise_tally_eq s index h]

theorem get_fault_raise : (s.raise code index).get Fld.tallyFaultCode = code % 65536 := by
  rw [raise_tally_eq s index h, State.pend_get, State.get_set_ne _ _ _ _ _ _ (by decide),
    State.get_set_eq _ _ _ _ _ (by decide) (by decide) (by decide)]
  rfl

theorem raise_words : WordsKept InFault s (s.raise code index) := by
  rw [raise_tally_eq s index h]
  refine WordsKept.upd ?_ (State.pend_cw ..)
  refine WordsKept.set (WordsKept.set (WordsKept.refl s).upd ?_ ?_) ?_ ?_
  · decide
  · rfl
  · decide
  · rfl

end

/-- A warning is raised, or not, by its rate. -/
theorem warnOnce_cases (s : State) (code key index : Nat) :
    s.warnOnce code key index = s ∨ ∃ w, s.warnOnce code key index = { s.raise code index with warned := w } := by
  unfold State.warnOnce
  dsimp only
  split
  · split
    · exact .inl rfl
    · exact .inr ⟨_, rfl⟩
  · exact .inr ⟨_, rfl⟩

theorem warnOnce_words (s : State) {code : Nat} (key index : Nat) (h : code / 256 = Blk.tally) :
    WordsKept InFault s (s.warnOnce code key index) := by
  obtain e | ⟨w, e⟩ := warnOnce_cases s code key index <;> rw [e]
  · exact .refl s
  · exact (raise_words s index h).upd

theorem warnOnce_tally (s : State) {code : Nat} (key index : Nat) (h : code / 256 = Blk.tally) :
    (s.warnOnce code key index).tally = s.tally := by
  obtain e | ⟨w, e⟩ := warnOnce_cases s code key index <;> rw [e]
  exact raise_tally s index h

/-! ### The words of a channel -/

/-- The keys of the 32 words of a channel. -/
def InChan (m n : Nat) : Prop := n / 1024 = 0x1D08 + m

/-- The offset of a channel's field among the bits of its 32 words. -/
abbrev resultOffset (f : Fld) : Nat := f.index * 32 + f.lsb - 8192

/-- A result of a channel: an L field of the 32 words that TALLY has for each. -/
abbrev IsResult (f : Fld) : Prop :=
  f.acc = .L ∧ f.block = Blk.tally ∧ f.s1 = 32 ∧ f.bs = 0 ∧ 8192 ≤ f.index * 32 + f.lsb ∧ resultOffset f < 1024

theorem IsResult.key {f : Fld} (h : IsResult f) (m : Nat) : f.key m 0 = (0x1D08 + m) * 1024 + resultOffset f := by
  obtain ⟨-, hb, hs, hw, ho, -⟩ := h
  unfold resultOffset
  simp only [Fld.key, Fld.word, Fld.bit, hb, hs, hw, Blk.tally]
  omega

theorem IsResult.inChan {f : Fld} (h : IsResult f) (m : Nat) : InChan m (f.key m 0) := by
  have ⟨_, _, _, _, _, ho⟩ := h
  unfold InChan
  rw [h.key]
  omega

theorem IsResult.not_inFault {f : Fld} (h : IsResult f) (m : Nat) : ¬ InFault (f.key m 0) := by
  unfold InFault
  rw [h.key]
  omega

/-- Another result of the same channel. -/
theorem get_set_result_ne (s : State) {f g : Fld} (v m : Nat) (hf : IsResult f) (hg : IsResult g) (h : resultOffset g ≠ resultOffset f) :
    (s.set f v m).get g m = s.get g m :=
  State.get_set_ne s v m 0 m 0 (by rw [hf.key, hg.key]; omega)

theorem get_set_result_eq (s : State) {f : Fld} (v m : Nat) (hf : IsResult f) (hw : f.width ≤ 32) :
    (s.set f v m).get f m = v % 2 ^ f.width :=
  State.get_set_eq s f v m 0 hw (by rw [hf.1]; decide) (by rw [hf.1]; decide)

theorem get_warnOnce_result (s : State) {code : Nat} (key index : Nat) {g : Fld} (m : Nat) (h : code / 256 = Blk.tally) (hg : IsResult g) :
    (s.warnOnce code key index).get g m = s.get g m :=
  warnOnce_words s key index h g m 0 (.inr (hg.not_inFault m))

end Sys2Proof.Machine
end

section
/-! PROOFS. The end of a metering interval and the save it makes (18 R427-R435; log 240). -/

namespace Sys2Proof.Machine

/-! ### What the end of a channel's interval leaves -/

/-- The keys that ending the interval of the channels `C` writes. -/
def InClose (C : Nat → Prop) (n : Nat) : Prop := InFault n ∨ ∃ m < 16, C m ∧ InChan m n

/-- Only the results, totals and remainders of the channels `C` have changed, and TALLY.FAULT. -/
structure Closes (C : Nat → Prop) (s t : State) : Prop where
  words : WordsKept (InClose C) s t
  tally : t.tally = { s.tally with totals := t.tally.totals, rems := t.tally.rems }
  total : ∀ m k, ¬ C m → k < 8 → t.total m k = s.total m k

namespace Closes

variable {C : Nat → Prop} {s₀ s t : State} {m : Nat}

theorem refl (s : State) : Closes C s s := ⟨.refl s, rfl, fun _ _ _ _ => rfl⟩

theorem trans (h : Closes C s₀ s) (k : Closes C s t) : Closes C s₀ t where
  words := h.words.trans k.words
  tally := by rw [k.tally, h.tally]
  total m i hm hi := (k.total m i hm hi).trans (h.total m i hm hi)

/-- An update of words alone. -/
theorem ofWords (h : WordsKept (InClose C) s t) (ht : t.tally = s.tally) : Closes C s t where
  words := h
  tally := by rw [ht]
  total m i _ _ := by unfold State.total; rw [ht]

theorem setResult (h : Closes C s₀ s) (hC : C m) (hm : m < 16) {f : Fld} {v : Nat} (hf : IsResult f) : Closes C s₀ (s.set f v m) :=
  h.trans (.ofWords ((WordsKept.refl s).set (by rw [hf.1]; decide) (.inr ⟨m, hm, hC, hf.inChan m⟩)) (State.set_tally ..))

theorem warnOnce (h : Closes C s₀ s) {code key index : Nat} (hc : code / 256 = Blk.tally) : Closes C s₀ (s.warnOnce code key index) :=
  h.trans (.ofWords ((warnOnce_words s key index hc).mono fun _ => .inl) (warnOnce_tally s key index hc))

theorem ite {p : Prop} [Decidable p] {t' : State} (h : Closes C s t) (h' : Closes C s t') : Closes C s (if p then t else t') := by
  split <;> assumption

/-- An accumulator takes energy; those of the other channels keep theirs. -/
theorem accumulate (h : Closes C s₀ s) (hC : C m) {k : Nat} (hk : k < 8) (e : Word) : Closes C s₀ (s.accumulate m k e) := by
  refine h.trans ⟨(WordsKept.refl s).upd, rfl, fun m' k' hm' hk' => ?_⟩
  refine Map.getD_put_ne _ _ _ fun e => hm' ?_
  rwa [show m' = m by omega]

end Closes

theorem quadOf_lt (p q : Word) : quadOf p q < 4 := by
  unfold quadOf
  split <;> split <;> decide

/-- What is written to the results of a channel, one after the other. -/
def State.setResults (s : State) (m : Nat) (rs : List (Fld × Nat)) : State := rs.foldl (fun s p => s.set p.1 p.2 m) s

/-- The results that the end of an interval writes (Table 18.1, R430), of `c` the sums and of `nexp` the pairs expected; apparent power,
power factor, frequency, quadrant and FVALID are named only. -/
def chanResults (c : ChanSums) (nexp sv pf fr qd fv : Nat) : List (Fld × Nat) :=
  let mean := fun v => if c.n = 0 then 0 else Float64.divN v (Float64.ofIntN c.n)
  [(Fld.tallyVrms, Float64.toF32 (Float64.sqrtN (mean c.sumVV))), (Fld.tallyIrms, Float64.toF32 (Float64.sqrtN (mean c.sumII))),
    (Fld.tallyP, Float64.toF32 (mean c.sumVI)), (Fld.tallyQ, Float64.toF32 (mean c.sumHI)), (Fld.tallyS, sv), (Fld.tallyPf, pf),
    (Fld.tallyFreq, fr), (Fld.tallyStatQuad, qd), (Fld.tallyStatFvalid, fv),
    (Fld.tallyStatRate, (decide (nexp < 100 * (c.r - nexp) ∨ nexp < 100 * (nexp - c.r))).toNat),
    (Fld.tallyStatFill, (decide (c.n = 0) || !decide (nexp ≤ c.n + 8)).toNat), (Fld.tallyStatN, c.n)]

/-- The fields of those results. -/
def resultFields : List Fld :=
  [Fld.tallyVrms, Fld.tallyIrms, Fld.tallyP, Fld.tallyQ, Fld.tallyS, Fld.tallyPf, Fld.tallyFreq, Fld.tallyStatQuad, Fld.tallyStatFvalid,
    Fld.tallyStatRate, Fld.tallyStatFill, Fld.tallyStatN]

theorem map_fst_chanResults (c : ChanSums) (nexp sv pf fr qd fv : Nat) :
    (chanResults c nexp sv pf fr qd fv).map Prod.fst = resultFields := rfl

theorem resultFields_ok : ∀ f ∈ resultFields, IsResult f ∧ f.width ≤ 32 ∧ resultOffset f ≠ resultOffset Fld.tallyStatCreep := by decide

/-- The end of a channel's interval in its three parts: the results, the warnings of R430, and the energies. -/
theorem intervalChan_eq (s : State) (m clks : Nat) : ∃ (sv pf fr qd fv : Nat) (rate fill : Bool) (p q v ep eq es : Word),
    s.intervalChan m clks =
      (let u := s.setResults m (chanResults (s.tchan m).sums ((clks + 6250) / 12500) sv pf fr qd fv)
       let u := if rate then u.warnOnce 0x3A81 m m else u
       if fill then u.warnOnce 0x3A82 m m else u).accumulateAll m p q v ep eq es :=
  ⟨_, _, _, _, _, _, _, _, _, _, _, _, _, rfl⟩

/-- Of words, the energies change CREEP only. -/
theorem accumulateAll_words (s : State) (m : Nat) (p q sv ep eq es : Word) :
    WordsKept (· = Fld.tallyStatCreep.key m 0) s (s.accumulateAll m p q sv ep eq es) := by
  unfold State.accumulateAll
  refine WordsKept.set (WordsKept.upd (.refl s) ?_) (by decide) rfl
  split <;> split <;> split <;> rfl

section
variable {C : Nat → Prop} {s₀ s : State} {m : Nat} (hC : C m) (hm : m < 16)
include hC hm

theorem accumulateAll_closes (h : Closes C s₀ s) (p q sv ep eq es : Word) : Closes C s₀ (s.accumulateAll m p q sv ep eq es) := by
  have hq := quadOf_lt p q
  unfold State.accumulateAll
  refine Closes.setResult ?_ hC hm (by decide)
  refine .ite (.ite (.ite h ?p) (.accumulate (.ite h ?p) hC ?q _)) (.accumulate (.ite (.ite h ?p) (.accumulate (.ite h ?p) hC ?q _)) hC (by decide) _)
  case p => exact h.accumulate hC (by split <;> decide) _
  case q => split <;> [split; skip] <;> omega

/-- Results written to their words. -/
theorem setResults_closes (h : Closes C s₀ s) {rs : List (Fld × Nat)} (hr : ∀ f ∈ rs.map Prod.fst, IsResult f) :
    Closes C s₀ (s.setResults m rs) := by
  induction rs generalizing s with
  | nil => exact h
  | cons r rs ih =>
    rw [List.map_cons, List.forall_mem_cons] at hr
    exact ih (h.setResult hC hm hr.1) hr.2

/-- The end of a channel's interval writes that channel's results and accumulators. -/
theorem intervalChan_closes (h : Closes C s₀ s) (clks : Nat) : Closes C s₀ (s.intervalChan m clks) := by
  obtain ⟨sv, pf, fr, qd, fv, rate, fill, p, q, v, ep, eq, es, e⟩ := intervalChan_eq s m clks
  rw [e]
  have ht : Closes C s₀ (s.setResults m (chanResults (s.tchan m).sums ((clks + 6250) / 12500) sv pf fr qd fv)) := by
    refine setResults_closes hC hm h ?_
    rw [map_fst_chanResults]
    exact fun f hf => (resultFields_ok f hf).1
  have warned {r : Bool} {code : Nat} {t : State} (hc : code / 256 = Blk.tally) (ht : Closes C s₀ t) :
      Closes C s₀ (if r then t.warnOnce code m m else t) := .ite (ht.warnOnce hc) ht
  exact accumulateAll_closes hC hm (warned rfl (warned rfl ht)) ..

end

/-! ### The results of a channel's interval -/

theorem get_setResults_ne (s : State) (m : Nat) {rs : List (Fld × Nat)} {g : Fld} (hg : IsResult g)
    (hr : ∀ f ∈ rs.map Prod.fst, IsResult f ∧ resultOffset g ≠ resultOffset f) : (s.setResults m rs).get g m = s.get g m := by
  induction rs generalizing s with
  | nil => rfl
  | cons r rs ih =>
    rw [List.map_cons, List.forall_mem_cons] at hr
    exact (ih (s.set r.1 r.2 m) hr.2).trans (get_set_result_ne s r.2 m hr.1.1 hg hr.1.2)

/-- A result reads what was written to its own word. -/
theorem get_setResults (s : State) (m : Nat) {rs : List (Fld × Nat)} (hr : ∀ f ∈ rs.map Prod.fst, IsResult f ∧ f.width ≤ 32)
    (hd : ((rs.map Prod.fst).map resultOffset).Nodup) {p : Fld × Nat} (hp : p ∈ rs) :
    (s.setResults m rs).get p.1 m = p.2 % 2 ^ p.1.width := by
  induction rs generalizing s with
  | nil => cases hp
  | cons r rs ih =>
    rw [List.map_cons, List.forall_mem_cons] at hr
    rw [List.map_cons, List.map_cons, List.nodup_cons] at hd
    obtain ⟨⟨hf, hw⟩, hr⟩ := hr
    obtain rfl | hp := List.mem_cons.1 hp
    · refine (get_setResults_ne (s.set p.1 p.2 m) m hf fun f hf' => ⟨(hr f hf').1, fun e => hd.1 ?_⟩).trans
        (get_set_result_eq s p.2 m hf hw)
      rw [e]
      exact List.mem_map_of_mem hf'
    · exact ih (s.set r.1 r.2 m) hr hd.2 hp

/-- What the end of an interval leaves in the words of a channel (Table 18.1). -/
theorem get_intervalChan (s : State) (m clks : Nat) : let c := (s.tchan m).sums
    ∃ sv pf fr qd fv, ∀ p ∈ chanResults c ((clks + 6250) / 12500) sv pf fr qd fv, (s.intervalChan m clks).get p.1 m = p.2 % 2 ^ p.1.width := by
  intro c
  obtain ⟨sv, pf, fr, qd, fv, rate, fill, p, q, v, ep, eq, es, e⟩ := intervalChan_eq s m clks
  refine ⟨sv, pf, fr, qd, fv, fun r hr => ?_⟩
  have hf : r.1 ∈ resultFields := by
    rw [← map_fst_chanResults c ((clks + 6250) / 12500) sv pf fr qd fv]
    exact List.mem_map_of_mem hr
  have unwarned {b : Bool} {code : Nat} {t : State} (hc : code / 256 = Blk.tally) :
      (if b then t.warnOnce code m m else t).get r.1 m = t.get r.1 m := by
    split
    · exact get_warnOnce_result t m m m hc (resultFields_ok _ hf).1
    · rfl
  rw [e, accumulateAll_words _ m p q v ep eq es r.1 m 0 (.inr fun e => ?_), unwarned rfl, unwarned rfl]
  · refine get_setResults s m ?_ ?_ hr <;> rw [map_fst_chanResults]
    · exact fun f hf => ⟨(resultFields_ok f hf).1, (resultFields_ok f hf).2.1⟩
    · decide
  · obtain ⟨hok, -, hne⟩ := resultFields_ok _ hf
    rw [hok.key, IsResult.key (by decide)] at e
    omega

end Sys2Proof.Machine
end

section
/-! PROOFS. The boundary of a tenth cycle and STOP: the interval that ends and the save it makes (18 R427, R433, R435; log 240). -/

namespace Sys2Proof.Machine

/-! ### The channels of an interval that ends -/

theorem not_inClose {C : Nat → Prop} {m : Nat} (hm : ¬ C m) {f : Fld} (hf : IsResult f) : ¬ InClose C (f.key m 0) := by
  rintro (h | ⟨m', -, hC, h⟩)
  · exact hf.not_inFault m h
  · have he := hf.inChan m
    unfold InChan at h he
    obtain rfl : m = m' := by omega
    exact hm hC

theorem inBlock_of_inClose {C : Nat → Prop} (n : Nat) (h : InClose C n) : InBlock Blk.tally n := by
  unfold InBlock Blk.tally
  obtain h | ⟨m, hm, -, h⟩ := h
  · unfold InFault at h; omega
  · unfold InChan at h; omega

theorem Closes.tchan {C : Nat → Prop} {s t : State} (h : Closes C s t) (m : Nat) : t.tchan m = s.tchan m := by
  unfold State.tchan
  rw [h.tally]

/-- The end of the interval of every enabled channel of a list (irreducible, so that no proof evaluates the sixteen channels). -/
@[irreducible] def State.closeChans (s : State) (l : List Nat) (clks : Nat) : State :=
  l.foldl (fun s m => if s.getB Fld.tallyCfgEn m then s.intervalChan m clks else s) s

/-- The enabled channels of a list are all that changes. -/
theorem closeChans_closes {C : Nat → Prop} (s : State) {l : List Nat} (clks : Nat)
    (hl : ∀ m ∈ l, m < 16 ∧ (s.getB Fld.tallyCfgEn m = true → C m)) : Closes C s (s.closeChans l clks) := by
  suffices ∀ u, Closes C s u → Closes C s (u.closeChans l clks) from this s (.refl s)
  unfold State.closeChans
  induction l with
  | nil => exact fun u hu => hu
  | cons m l ih =>
    rw [List.forall_mem_cons] at hl
    refine fun u hu => ih hl.2 _ ?_
    dsimp only
    split
    · rename_i hen
      exact intervalChan_closes (hl.1.2 (by rwa [hu.words.getB (.inl rfl)] at hen)) hl.1.1 hu clks
    · exact hu

/-- An enabled channel ends its interval once, with the sums it came with. -/
theorem closeChans_at (s : State) {m : Nat} (clks : Nat) (hm : m < 16) (hen : s.getB Fld.tallyCfgEn m = true) :
    ∃ u, Closes (· ≠ m) s u ∧ Closes (· ≠ m) (u.intervalChan m clks) (s.closeChans (List.range 16) clks) := by
  have others : ∀ l' ⊆ List.range 16, m ∉ l' → ∀ s : State, Closes (· ≠ m) s (s.closeChans l' clks) := fun l' hl' hm' s =>
    closeChans_closes s clks fun n hn => ⟨List.mem_range.1 (hl' hn), fun _ e => hm' (e ▸ hn)⟩
  unfold State.closeChans at others ⊢
  obtain ⟨u, hu, ht⟩ := foldl_around List.nodup_range (List.mem_range.2 hm) others s
  refine ⟨u, hu, ?_⟩
  rwa [hu.words.getB (.inl rfl), hen] at ht

theorem closeInterval_idle {s : State} (at' : Nat) (h : s.tally.measuring = false) : s.closeInterval at' = s :=
  if_neg (by rw [h]; decide)

theorem closeInterval_eq {s : State} (at' : Nat) (h : s.tally.measuring = true) :
    s.closeInterval at' = (s.closeChans (List.range 16) ((at' - s.tally.began) / 60)).beginInterval at' := by
  unfold State.closeInterval State.closeChans
  rw [if_pos h]

theorem beginInterval_cw (s : State) (at' : Nat) : (s.beginInterval at').cw = s.cw := rfl

theorem closeChans_range_closes (s : State) (clks : Nat) :
    Closes (fun m => s.getB Fld.tallyCfgEn m = true) s (s.closeChans (List.range 16) clks) :=
  closeChans_closes s clks fun _ hm => ⟨List.mem_range.1 hm, id⟩

theorem closeInterval_words (s : State) (at' : Nat) : WordsKept (InBlock Blk.tally) s (s.closeInterval at') := by
  cases h : s.tally.measuring
  · rw [closeInterval_idle at' h]
    exact .refl s
  · rw [closeInterval_eq at' h]
    exact ((closeChans_range_closes s _).words.mono inBlock_of_inClose).upd (beginInterval_cw ..)

/-- The sums of every channel begin anew. -/
theorem sums_beginInterval (s : State) (at' m : Nat) : ((s.beginInterval at').tchan m).sums = {} := by
  unfold State.tchan State.beginInterval Map.getD
  rw [Map.find_map_snd s.tally.chans (fun c => { c with sums := {} })]
  cases Map.find s.tally.chans m <;> rfl

/-! ### The save -/

/-- A save is being made of the totals of the channels `en`, and of no others. -/
def Saves (en : Nat → Bool) (t : State) : Prop :=
  t.getB Fld.tallyStateSaving = true ∧
    ∀ (j : Fin 16) (i : Fin 7), (0x1000 + 8 * j.val + i.val, t.total j i) ∈ t.tally.save ↔ en j = true

theorem startSave_saves (s : State) : Saves (fun j => s.getB Fld.tallyCfgEn j) s.startSave := by
  refine ⟨?_, fun j i => ?_⟩
  · exact congrArg (· != 0) (State.get_setB_eq s Fld.tallyStateSaving true 0 0 rfl (by decide) (by decide))
  · refine (mem_meterTable_iff (v := s.total) i.isLt).trans ?_
    simp

/-- A save still running at the end of an interval (R433). -/
def State.late (s : State) : State := if s.getB Fld.tallyStateSaving then s.raise 0x3A84 else s

/-- What the end of an interval comes to after the results (R433, R434): a save still running raises SAVE_LATE, and a new one starts unless
PFW is asserted. -/
def State.saveAtEnd (s : State) : State := if s.late.getB Fld.kettleStatePfw then s.late else s.late.startSave

/-- The keys of TALLY.STATE and TALLY.FAULT. -/
def InState (n : Nat) : Prop := n / 32 = 0x3A001 ∨ InFault n

theorem startSave_words (s : State) : WordsKept InState s s.startSave :=
  ((WordsKept.refl s).set (f := Fld.tallyStateSaving) (by decide) (.inl rfl)).upd

theorem startSave_tally (s : State) : s.startSave.tally = { s.tally with save := s.startSave.tally.save } := by
  unfold State.startSave
  simp

theorem late_words (s : State) : WordsKept InState s s.late := by
  unfold State.late
  split
  · exact (raise_words s 0 rfl).mono fun _ => .inr
  · exact .refl s

theorem late_tally (s : State) : s.late.tally = s.tally := by
  unfold State.late
  split
  · exact raise_tally s 0 rfl
  · rfl

theorem not_inState_of_inChan {m n : Nat} (h : InChan m n) : ¬ InState n := by
  unfold InState InFault
  unfold InChan at h
  omega

theorem saveAtEnd_words (s : State) : WordsKept InState s s.saveAtEnd := by
  unfold State.saveAtEnd
  split
  · exact late_words s
  · exact (late_words s).trans (startSave_words _)

theorem saveAtEnd_tally (s : State) : s.saveAtEnd.tally = { s.tally with save := s.saveAtEnd.tally.save } := by
  unfold State.saveAtEnd
  split
  · rw [late_tally]
  · rw [startSave_tally, late_tally]

theorem saveAtEnd_saves {s : State} (h : s.getB Fld.kettleStatePfw = false) : Saves (fun j => s.getB Fld.tallyCfgEn j) s.saveAtEnd := by
  have hp : s.late.getB Fld.kettleStatePfw = false := ((late_words s).getB (.inr (by unfold InState InFault; decide))).trans h
  have he : ∀ j, s.late.getB Fld.tallyCfgEn j = s.getB Fld.tallyCfgEn j := fun j => (late_words s).getB (.inl rfl)
  have hs := startSave_saves s.late
  simp only [he] at hs
  unfold State.saveAtEnd
  rw [hp]
  exact hs

theorem saveAtEnd_late {s : State} (h : s.getB Fld.tallyStateSaving = true) : s.saveAtEnd.get Fld.tallyFaultCode = 0x3A84 := by
  have hl : s.late.get Fld.tallyFaultCode = 0x3A84 := by
    unfold State.late
    rw [if_pos h]
    exact get_fault_raise s 0 rfl
  unfold State.saveAtEnd
  split
  · exact hl
  · rw [← hl]
    exact State.get_setB_ne (f := Fld.tallyStateSaving) (g := Fld.tallyFaultCode) s.late true 0 0 0 0 (by decide)

/-! ### The end of an interval -/

/-- Whether a boundary of a tenth cycle has come that has not yet ended an interval. -/
def State.intervalDue (s : State) : Prop := s.cycle % 10 = 0 ∧ s.tally.ended ≠ some s.cycleRoots

theorem intervalEnd_idle {s : State}
    (h : s.getB Fld.tallyStateRunning = false ∨ s.tally.stopping = true ∨ ¬ s.intervalDue) : s.intervalEnd = s := by
  refine if_pos ?_
  unfold State.intervalDue at h
  rw [Bool.not_eq_true']
  tauto

/-- The state as it is when a boundary has been taken for the end of an interval. -/
def State.boundaryTaken (s : State) : State := { s with tally := { s.tally with ended := some s.cycleRoots } }

section
variable {s : State} (hr : s.getB Fld.tallyStateRunning = true) (hs : s.tally.stopping = false) (hd : s.intervalDue)
include hr hs hd

theorem intervalEnd_due : s.intervalEnd = if s.tally.measuring then (s.boundaryTaken.closeInterval s.cycleRoots).saveAtEnd
    else s.boundaryTaken.beginInterval s.cycleRoots := by
  have hn : ¬ (!s.getB Fld.tallyStateRunning ∨ s.tally.stopping ∨ s.cycle % 10 ≠ 0 ∨ s.tally.ended = some s.cycleRoots) := by
    obtain ⟨hcycle, hended⟩ := hd
    simp [hr, hs, hcycle, hended]
  refine (if_neg hn).trans ?_
  by_cases h : s.tally.measuring = true
  · rw [if_pos h]
    exact if_neg (by rw [h]; decide)
  · rw [if_neg h]
    exact if_pos (by simpa using h)

end

theorem intervalEnd_words (s : State) : WordsKept (InBlock Blk.tally) s s.intervalEnd := by
  by_cases h : s.getB Fld.tallyStateRunning = false ∨ s.tally.stopping = true ∨ ¬ s.intervalDue
  · rw [intervalEnd_idle h]
    exact .refl s
  · simp only [not_or, not_not, Bool.not_eq_true, Bool.not_eq_false] at h
    obtain ⟨hr, hs, hd⟩ := h
    rw [intervalEnd_due hr hs hd]
    have ht : WordsKept (InBlock Blk.tally) s s.boundaryTaken := (WordsKept.refl s).upd
    split
    · refine (ht.trans (closeInterval_words _ _)).trans ((saveAtEnd_words _).mono fun n hn => ?_)
      unfold InState InFault at hn
      unfold InBlock Blk.tally
      omega
    · exact ht.upd (beginInterval_cw ..)

end Sys2Proof.Machine
end

section
/-! PROOFS. What INTERVAL_END and TALLY_STOP come to (18 R427-R435). -/

namespace Sys2Proof.Machine

/-- The channels as they stand when the interval that a boundary ends has given its results. -/
def State.endedChans (s : State) : State := s.boundaryTaken.closeChans (List.range 16) ((s.cycleRoots - s.tally.began) / 60)

theorem endedChans_closes (s : State) : Closes (fun m => s.getB Fld.tallyCfgEn m = true) s.boundaryTaken s.endedChans :=
  closeChans_range_closes s.boundaryTaken _

theorem endedChans_words (s : State) : WordsKept (InClose fun m => s.getB Fld.tallyCfgEn m = true) s s.endedChans :=
  WordsKept.trans (s := s.boundaryTaken) ((WordsKept.refl s).upd) (endedChans_closes s).words

/-- A word of another block keeps its value. -/
theorem endedChans_getB (s : State) (f : Fld) (hf : ¬ InBlock Blk.tally (f.key 0 0)) : s.endedChans.getB f = s.getB f :=
  (endedChans_words s).getB (.inr fun h => hf (inBlock_of_inClose _ h))

theorem endedChans_saving (s : State) : s.endedChans.getB Fld.tallyStateSaving = s.getB Fld.tallyStateSaving := by
  refine (endedChans_words s).getB (.inr ?_)
  have hk : Fld.tallyStateSaving.key 0 0 = 0x3A001 * 32 + 1 := rfl
  unfold InClose InFault InChan
  rw [hk]
  rintro (h | ⟨m, -, -, h⟩) <;> omega

section
variable {s : State} (hr : s.getB Fld.tallyStateRunning = true) (hs : s.tally.stopping = false) (hd : s.intervalDue)
  (hm : s.tally.measuring = true)
include hr hs hd hm

theorem intervalEnd_measuring : s.intervalEnd = (s.endedChans.beginInterval s.cycleRoots).saveAtEnd := by
  rw [intervalEnd_due hr hs hd, if_pos hm, closeInterval_eq (s := s.boundaryTaken) _ hm]
  rfl

theorem intervalEnd_tally : s.intervalEnd.tally = { (s.endedChans.beginInterval s.cycleRoots).tally with save := s.intervalEnd.tally.save } := by
  rw [intervalEnd_measuring hr hs hd hm]
  exact saveAtEnd_tally _

/-- A word outside TALLY.STATE and TALLY.FAULT keeps what the channels' results left in it. -/
theorem intervalEnd_state_words : WordsKept InState s.endedChans s.intervalEnd := by
  rw [intervalEnd_measuring hr hs hd hm]
  exact WordsKept.trans ((WordsKept.refl _).upd (beginInterval_cw ..)) (saveAtEnd_words _)

/-- The next interval begins at the boundary. -/
theorem intervalEnd_begins (m : Nat) : s.intervalEnd.tally.endTotals = s.intervalEnd.tally.totals ∧
    s.intervalEnd.tally.endCycle = s.cycle ∧ s.intervalEnd.tally.began = s.cycleRoots ∧ (s.intervalEnd.tchan m).sums = {} := by
  have ht := intervalEnd_tally hr hs hd hm
  refine ⟨by rw [ht]; rfl, ?_, by rw [ht]; rfl, ?_⟩
  · rw [ht]
    exact (endedChans_closes s).words Fld.sysCycleNumber 0 0 (.inr fun h => absurd (inBlock_of_inClose _ h) (by unfold InBlock; decide))
  · rw [State.tchan, ht]
    exact sums_beginInterval s.endedChans s.cycleRoots m

theorem intervalEnd_saves (hp : s.getB Fld.kettleStatePfw = false) : Saves (fun j => s.getB Fld.tallyCfgEn j) s.intervalEnd := by
  have hb := saveAtEnd_saves (s := s.endedChans.beginInterval s.cycleRoots)
    ((endedChans_getB s Fld.kettleStatePfw (by unfold InBlock; decide)).trans hp)
  rw [intervalEnd_measuring hr hs hd hm]
  refine ⟨hb.1, fun j i => (hb.2 j i).trans ?_⟩
  exact Eq.to_iff (congrArg (· = true) ((endedChans_words s).getB (f := Fld.tallyCfgEn) (.inl rfl)))

theorem intervalEnd_late (hl : s.getB Fld.tallyStateSaving = true) : s.intervalEnd.get Fld.tallyFaultCode = 0x3A84 := by
  rw [intervalEnd_measuring hr hs hd hm]
  exact saveAtEnd_late ((endedChans_saving s).trans hl)

/-- A channel that is not enabled keeps its totals and its results. -/
theorem intervalEnd_disabled {m : Nat} (hen : s.getB Fld.tallyCfgEn m = false) : (∀ k < 8, s.intervalEnd.total m k = s.total m k) ∧
    ∀ f, IsResult f → s.intervalEnd.get f m = s.get f m := by
  have hc := endedChans_closes s
  have hne : ¬ s.getB Fld.tallyCfgEn m = true := by rw [hen]; decide
  refine ⟨fun k hk => ?_, fun f hf => ?_⟩
  · rw [State.total, intervalEnd_tally hr hs hd hm]
    exact hc.total m k hne hk
  · rw [intervalEnd_state_words hr hs hd hm f m 0 (.inr (not_inState_of_inChan (hf.inChan m)))]
    exact hc.words f m 0 (.inr (not_inClose hne hf))

/-- The results of an enabled channel, from the sums it came with. -/
theorem intervalEnd_enabled {m : Nat} (hm16 : m < 16) (hen : s.getB Fld.tallyCfgEn m = true) : ∃ sv pf fr qd fv,
    ∀ p ∈ chanResults (s.tchan m).sums (((s.cycleRoots - s.tally.began) / 60 + 6250) / 12500) sv pf fr qd fv,
      s.intervalEnd.get p.1 m = p.2 % 2 ^ p.1.width := by
  obtain ⟨u, hu, hv⟩ := closeChans_at s.boundaryTaken ((s.cycleRoots - s.tally.began) / 60) hm16 hen
  obtain ⟨sv, pf, fr, qd, fv, hres⟩ := get_intervalChan u m ((s.cycleRoots - s.tally.began) / 60)
  rw [hu.tchan m] at hres
  refine ⟨sv, pf, fr, qd, fv, fun p hp => ?_⟩
  have hf : IsResult p.1 := by
    refine (resultFields_ok p.1 ?_).1
    rw [← map_fst_chanResults]
    exact List.mem_map_of_mem hp
  calc s.intervalEnd.get p.1 m = s.endedChans.get p.1 m :=
        intervalEnd_state_words hr hs hd hm p.1 m 0 (.inr (not_inState_of_inChan (hf.inChan m)))
    _ = (u.intervalChan m ((s.cycleRoots - s.tally.began) / 60)).get p.1 m := hv.words p.1 m 0 (.inr (not_inClose (fun h => h rfl) hf))
    _ = p.2 % 2 ^ p.1.width := hres p hp

end

/-! ### STOP -/

/-- The state that STOP leaves before its save. -/
def State.stopClosed (s : State) : State :=
  let u := s.intervalEnd.closeInterval s.intervalEnd.roots
  { u with tally := { u.tally with stopping := true, measuring := false } }

theorem tallyStop_idle {s : State} (h : s.getB Fld.tallyStateRunning = false ∨ s.tally.stopping = true) : s.tallyStop = s := by
  refine if_neg fun hc => ?_
  obtain h | h := h <;> simp_all

theorem tallyStop_eq {s : State} (hr : s.getB Fld.tallyStateRunning = true) (hs : s.tally.stopping = false) :
    s.tallyStop = if s.stopClosed.getB Fld.kettleStatePfw then s.stopClosed else s.stopClosed.startSave :=
  if_pos ⟨hr, by rw [hs]; decide⟩

theorem stopClosed_words (s : State) : WordsKept (InBlock Blk.tally) s s.stopClosed :=
  ((intervalEnd_words s).trans (closeInterval_words _ _)).upd

theorem tallyStop_tally {s : State} (hr : s.getB Fld.tallyStateRunning = true) (hs : s.tally.stopping = false) :
    s.tallyStop.tally = { s.stopClosed.tally with save := s.tallyStop.tally.save } := by
  rw [tallyStop_eq hr hs]
  split
  · rfl
  · exact startSave_tally _

theorem tallyStop_saves {s : State} (hr : s.getB Fld.tallyStateRunning = true) (hs : s.tally.stopping = false)
    (hp : s.getB Fld.kettleStatePfw = false) : Saves (fun j => s.getB Fld.tallyCfgEn j) s.tallyStop := by
  have hw := stopClosed_words s
  rw [tallyStop_eq hr hs, hw.getB (.inr (by unfold InBlock; decide)), hp]
  obtain ⟨hsave, hlocs⟩ := startSave_saves s.stopClosed
  exact ⟨hsave, fun j i => (hlocs j i).trans (Eq.to_iff (congrArg (· = true) (hw.getB (f := Fld.tallyCfgEn) (.inl rfl))))⟩

/-- With no interval measured and none due, STOP finds the totals as they are. -/
theorem tallyStop_totals {s : State} (hr : s.getB Fld.tallyStateRunning = true) (hs : s.tally.stopping = false)
    (hm : s.tally.measuring = false) (hd : ¬ s.intervalDue) : s.tallyStop.tally.totals = s.tally.totals := by
  rw [tallyStop_tally hr hs]
  unfold State.stopClosed
  rw [intervalEnd_idle (.inr (.inr hd)), closeInterval_idle _ hm]

end Sys2Proof.Machine
end

section
/-! PROOFS. RUN, CLEAR, the snapshot, and the saves and flushes that become durable (18 R432-R437). -/

namespace Sys2Proof.Machine

/-! ### RUN (R435) -/

theorem loadTotal_eq (s : State) (m k : Nat) : s.loadTotal m k =
    if (s.chestAt 0x10FF).toNat / 2 ^ 32 % 65536 = 0x464C ∧ (s.chestAt (0x1000 + 8 * m + k)).toNat < (s.chestAt (0x1080 + 8 * m + k)).toNat
    then s.chestAt (0x1080 + 8 * m + k) else s.chestAt (0x1000 + 8 * m + k) := by
  simp only [State.loadTotal, State.rowValid, decide_eq_true_eq]

/-- The totals that RUN loads are a table of all channels. -/
theorem loadedTotals_eq (v : Nat → Nat → Word) :
    ((List.range 16).flatMap fun m => (List.range 7).map fun k => (m, k)).foldl (fun t p => Map.put t (8 * p.1 + p.2) (v p.1 p.2)) [] =
      Map.putAll [] (meterTable 0 (List.range 16) v) := by
  simp only [Map.putAll, meterTable, List.foldl_flatMap, List.foldl_map, Nat.zero_add]

/-- The state with ROWUSED set when the row is valid. -/
def State.rowSeen (s : State) : State := if s.rowValid then s.setB Fld.tallyStateRowused true else s

/-- The state with ROWUSED set, and the warning of R435 raised or not. -/
def State.rowWarned (s : State) (taken : Bool) : State := if taken then s.rowSeen.raise 0x3A86 else s.rowSeen

theorem tallyRun_stopped {s : State} (h : ¬ s.getB Fld.tallyStateRunning = true) : ∃ taken,
    s.tallyRun = { (s.rowWarned taken).setB Fld.tallyStateRunning true with
      tally := { s.tally with
        totals := Map.putAll [] (meterTable 0 (List.range 16) s.loadTotal)
        endTotals := Map.putAll [] (meterTable 0 (List.range 16) s.loadTotal)
        rems := [], measuring := false, stopping := false, chans := [], ended := some s.cycleRoots } } := by
  rw [← loadedTotals_eq]
  exact ⟨_, if_neg h⟩

theorem rowWarned_chest (s : State) (taken : Bool) : (s.rowWarned taken).chest = s.chest := by
  have hs : s.rowSeen.chest = s.chest := by unfold State.rowSeen; split <;> simp
  unfold State.rowWarned
  split
  · rw [raise_chest s.rowSeen 0 rfl, hs]
  · exact hs

theorem rowWarned_rowused {s : State} (taken : Bool) (h : s.rowValid = true) : (s.rowWarned taken).get Fld.tallyStateRowused = 1 := by
  have hs : s.rowSeen.get Fld.tallyStateRowused = 1 := by
    unfold State.rowSeen
    rw [if_pos h]
    exact State.get_setB_eq s Fld.tallyStateRowused true 0 0 rfl (by decide) (by decide)
  unfold State.rowWarned
  split
  · rw [raise_words s.rowSeen 0 rfl _ 0 0 (.inr (by unfold InFault; decide)), hs]
  · exact hs

/-- What RUN leaves on a stopped Tally. -/
theorem tallyRun_loads {s : State} (h : ¬ s.getB Fld.tallyStateRunning = true) {m k : Nat} (hm : m < 16) (hk : k < 7) :
    s.tallyRun.get Fld.tallyStateRunning = 1 ∧ s.tallyRun.total m k = s.loadTotal m k ∧ s.tallyRun.tally.rems = [] ∧
    s.tallyRun.tally.measuring = false ∧ (s.rowValid = true → s.tallyRun.get Fld.tallyStateRowused = 1) ∧ s.tallyRun.chest = s.chest := by
  obtain ⟨taken, e⟩ := tallyRun_stopped h
  have hf := find_putAll_meterTable (base := 0) (v := s.loadTotal) [] (List.mem_range.2 hm) hk
  rw [Nat.zero_add] at hf
  generalize Map.putAll [] (meterTable 0 (List.range 16) s.loadTotal) = totals at e hf
  rw [e]
  refine ⟨?_, ?_, rfl, rfl, fun hv => ?_, ?_⟩
  · exact State.get_setB_eq (s.rowWarned taken) Fld.tallyStateRunning true 0 0 rfl (by decide) (by decide)
  · rw [State.total, Map.getD, hf]
  · rw [← rowWarned_rowused taken hv]
    exact State.get_setB_ne (f := Fld.tallyStateRunning) (g := Fld.tallyStateRowused) (s.rowWarned taken) true 0 0 0 0 (by decide)
  · exact (State.setB_chest ..).trans (rowWarned_chest s taken)

/-! ### CLEAR (R436) -/

/-- Chest locations of a table of channels, written channel by channel. -/
theorem foldl_chestSet_table (s : State) (base : Nat) (ms : List Nat) (v : Nat → Nat → Word) :
    ms.foldl (fun t m => (List.range 7).foldl (fun t k => t.chestSet (base + 8 * m + k) (v m k)) t) s =
      { s with chest := Map.putAll s.chest (meterTable base ms v) } := by
  rw [← foldl_chestSet, meterTable, List.foldl_flatMap]
  simp only [List.foldl_map]

/-- The Chest after the three steps of CLEAR: the channels that stay, the row with its header invalid, the channels of the mask. -/
def State.clearedChest (s : State) : Map Word :=
  let mask := s.get Fld.tallyClearmaskMask
  let kept := Map.putAll s.chest (meterTable 0x1000 ((List.range 16).filter fun m => !bitOf mask m) s.loadTotal)
  let row := Map.put (Map.putAll kept (meterTable 0x1080 (List.range 16) s.total)) 0x10FF (BitVec.ofNat 64 (s.cycle % 2 ^ 32 + 0 * 2 ^ 32))
  Map.putAll row (meterTable 0x1000 ((List.range 16).filter fun m => bitOf mask m) fun _ _ => 0)

theorem Map.putAll_concat {α : Type} (m : Map α) (l : List (Nat × α)) (p : Nat × α) :
    Map.putAll m (l ++ [p]) = Map.put (Map.putAll m l) p.1 p.2 := List.foldl_concat ..

theorem flushRow_eq (s : State) (magic : Nat) : s.flushRow magic =
    meterTable 0x1080 (List.range 16) s.total ++ [(0x10FF, BitVec.ofNat 64 (s.cycle % 2 ^ 32 + magic * 2 ^ 32))] := rfl

theorem tallyClear_stopped {s : State} (h : ¬ s.getB Fld.tallyStateRunning = true) : s.tallyClear = { s with chest := s.clearedChest } := by
  refine (if_neg h).trans ?_
  simp only [foldl_chestSet_table, foldl_chestSet]
  rw [flushRow_eq, Map.putAll_concat]
  rfl

section
variable {s : State} {m k : Nat} (hm : m < 16) (hk : k < 7)
include hm hk

theorem clearedChest_saved : Map.getD s.clearedChest (0x1000 + 8 * m + k) 0 =
    if bitOf (s.get Fld.tallyClearmaskMask) m then 0 else s.loadTotal m k := by
  unfold State.clearedChest Map.getD
  by_cases hb : bitOf (s.get Fld.tallyClearmaskMask) m = true
  · rw [if_pos hb, find_putAll_meterTable _ (by simp [hm, hb]) hk]
  · rw [if_neg hb, find_putAll_meterTable_ne, Map.find_put_ne _ _ (by omega), find_putAll_meterTable_ne,
      find_putAll_meterTable _ (by simp [hm, hb]) hk]
    · intros; omega
    · intro m' hm' k' hk' e
      obtain ⟨rfl, -⟩ := place_inj (by omega) (by omega) e
      exact hb (List.mem_filter.1 hm').2

theorem clearedChest_row : Map.getD s.clearedChest (0x1080 + 8 * m + k) 0 = s.total m k := by
  unfold State.clearedChest Map.getD
  rw [find_putAll_meterTable_ne, Map.find_put_ne _ _ (by omega), find_putAll_meterTable _ (List.mem_range.2 hm) hk]
  intro m' hm' k' hk'
  have := List.mem_range.1 (List.mem_filter.1 hm').1
  omega

end

theorem clearedChest_header (s : State) : (Map.getD s.clearedChest 0x10FF 0).toNat / 2 ^ 32 = 0 := by
  unfold State.clearedChest Map.getD
  rw [find_putAll_meterTable_ne, Map.find_put_eq]
  · simp only [BitVec.toNat_ofNat]
    omega
  · intro m' hm' k' hk'
    have := List.mem_range.1 (List.mem_filter.1 hm').1
    omega

theorem clearedChest_other (s : State) {l : Nat} (h : l < 0x1000 ∨ 0x1100 ≤ l) : Map.getD s.clearedChest l 0 = s.chestAt l := by
  have apart : ∀ {base : Nat} {sel : Nat → Bool}, base = 0x1000 ∨ base = 0x1080 →
      ∀ m ∈ (List.range 16).filter sel, ∀ k < 7, base + 8 * m + k ≠ l := fun hb m hm k hk => by
    have := List.mem_range.1 (List.mem_filter.1 hm).1
    omega
  have all : ∀ m ∈ List.range 16, ∀ k < 7, 0x1080 + 8 * m + k ≠ l := fun m hm k hk => by
    have := List.mem_range.1 hm
    omega
  unfold State.clearedChest State.chestAt Map.getD
  rw [find_putAll_meterTable_ne _ (apart (.inl rfl)), Map.find_put_ne _ _ (by omega), find_putAll_meterTable_ne _ all,
    find_putAll_meterTable_ne _ (apart (.inl rfl))]

/-! ### The snapshot (R437) -/

/-- L fields written one after the other. -/
theorem foldl_set_eq (s : State) {f : Fld} (hf : f.acc = .L) (v : Nat × Nat → Nat) (l : List (Nat × Nat)) :
    l.foldl (fun t p => t.set f (v p) p.1 p.2) s =
      { s with cw := { s.cw with pres := Map.putAll s.cw.pres (l.map fun p => (f.key p.1 p.2, fitField f (v p))) } } := by
  induction l generalizing s with
  | nil => rfl
  | cons p l ih =>
    have hp : s.set f (v p) p.1 p.2 =
        { s with cw := { s.cw with pres := Map.put s.cw.pres (f.key p.1 p.2) (fitField f (v p)) } } := by
      unfold State.set
      rw [hf]
    rw [List.foldl_cons, ih, hp]
    rfl

theorem get_of_find {s : State} {f : Fld} {i j : Nat} {v : Word32} (hf : f.acc = .L) (h : Map.find s.cw.pres (f.key i j) = some v) :
    s.get f i j = v.toNat := by
  unfold State.get
  rw [hf]
  simp only [h]

/-- The snapshot counters, by channel and accumulator. -/
def snapIndices : List (Nat × Nat) := (List.range 16).flatMap fun m => (List.range 7).map fun k => (m, k)

theorem mem_snapIndices {p : Nat × Nat} : p ∈ snapIndices ↔ p.1 < 16 ∧ p.2 < 7 := by
  obtain ⟨m, k⟩ := p
  simp [snapIndices]

/-- A snapshot counter of `s`, before it is cut to its width. -/
def State.snapCount (s : State) (p : Nat × Nat) : Nat :=
  (Map.getD s.tally.endTotals (8 * p.1 + p.2) 0).toNat / 2 ^ s.get Fld.tallySnapcfgShift

/-- The state with every snapshot counter latched. -/
def State.snapLatched (s : State) : State := snapIndices.foldl (fun t p => t.set Fld.tallySnapCount (s.snapCount p) p.1 p.2) s

theorem tallySnap_eq (s : State) : s.tallySnap = s.snapLatched.set Fld.tallySnapcycCycle s.tally.endCycle := by
  unfold State.tallySnap State.snapLatched snapIndices
  simp only [List.foldl_flatMap, List.foldl_map]
  rfl

/-- Every counter reads what was latched in it. -/
theorem get_foldl_snapCount (s : State) (v : Nat × Nat → Nat) {l : List (Nat × Nat)} (hl : ∀ q ∈ l, q.2 < 7) {p : Nat × Nat} (hp : p ∈ l) :
    (l.foldl (fun t p => t.set Fld.tallySnapCount (v p) p.1 p.2) s).get Fld.tallySnapCount p.1 p.2 = v p % 2 ^ 32 := by
  have hkey : ∀ m k, Fld.tallySnapCount.key m k = (0x3A10D + 32 * m + k) * 32 := fun m k => by
    simp only [Fld.key, Fld.word, Fld.bit, Fld.tallySnapCount, Blk.tally]
    omega
  have hf := Map.find_putAll_of_mem s.cw.pres
    (List.mem_map_of_mem (f := fun p => (Fld.tallySnapCount.key p.1 p.2, fitField Fld.tallySnapCount (v p))) hp) fun q hq e => ?_
  · rw [foldl_set_eq s rfl]
    exact (get_of_find rfl hf).trans (State.fitField_toNat _ _ (by decide))
  · obtain ⟨r, hr, rfl⟩ := List.mem_map.1 hq
    have hp7 := hl p hp
    have hr7 := hl r hr
    simp only [hkey] at e
    rw [show r = p from Prod.ext (by omega) (by omega)]

/-- What SNAP changes, and what it latches. -/
theorem tallySnap_latches (s : State) {m k : Nat} (hm : m < 16) (hk : k < 7) : s.tallySnap = { s with cw := s.tallySnap.cw } ∧
    s.tallySnap.get Fld.tallySnapcycCycle = s.tally.endCycle % 2 ^ 32 ∧ s.tallySnap.get Fld.tallySnapCount m k = s.snapCount (m, k) % 2 ^ 32 := by
  have hw : ∀ (u : State) (f : Fld) (v : Nat), u.set f v = { u with cw := (u.set f v).cw } := fun u f v => by
    unfold State.set
    split <;> rfl
  refine ⟨?_, ?_, ?_⟩
  · rw [tallySnap_eq, hw, State.snapLatched, foldl_set_eq s rfl]
  · rw [tallySnap_eq]
    exact State.get_set_eq s.snapLatched Fld.tallySnapcycCycle _ 0 0 (by decide) (by decide) (by decide)
  · rw [tallySnap_eq, ← get_foldl_snapCount s s.snapCount (fun _ hq => (mem_snapIndices.1 hq).2) (mem_snapIndices.2 ⟨hm, hk⟩)]
    refine State.get_set_ne _ _ _ _ _ _ ?_
    simp only [Fld.key, Fld.word, Fld.bit, Fld.tallySnapCount, Fld.tallySnapcycCycle, Blk.tally]
    omega

/-! ### Saves and flushes (R432-R434) -/

/-- Every location of a list without repetitions reads what was written to it. -/
theorem chestAt_putAll {t : State} {c : Map Word} {l : List (Nat × Word)} (ht : t.chest = Map.putAll c l) (hl : (l.map Prod.fst).Nodup)
    (p : Nat × Word) (hp : p ∈ l) : t.chestAt p.1 = p.2 := by
  rw [State.chestAt, Map.getD, ht, Map.find_putAll_of_nodup c hl hp]

/-- SAVING is cleared and SAVES advances. -/
def State.saveCounted (s : State) : State := (s.setB Fld.tallyStateSaving false).bump Fld.tallyStateSaves

theorem get_saving_saveCounted (s : State) : s.saveCounted.get Fld.tallyStateSaving = 0 :=
  (State.get_set_ne _ (f := Fld.tallyStateSaves) (g := Fld.tallyStateSaving) _ 0 0 0 0 (by decide)).trans
    (State.get_setB_eq s Fld.tallyStateSaving false 0 0 rfl (by decide) (by decide))

theorem get_saves_saveCounted (s : State) : s.saveCounted.get Fld.tallyStateSaves = (s.get Fld.tallyStateSaves + 1) % 65536 := by
  refine (State.get_set_eq _ Fld.tallyStateSaves _ 0 0 (by decide) (by decide) (by decide)).trans ?_
  rw [State.get_setB_ne (f := Fld.tallyStateSaving) (g := Fld.tallyStateSaves) s false 0 0 0 0 (by decide)]
  rfl

theorem saveCounted_tally (s : State) : s.saveCounted.tally = s.tally := by simp [State.saveCounted, State.bump]
theorem saveCounted_chest (s : State) : s.saveCounted.chest = s.chest := by simp [State.saveCounted, State.bump]

/-- The end of a save: for STOP it stops the Tally. -/
theorem saveDone_cases (s : State) :
    (s.tally.stopping = false ∧ s.saveDone = { s.saveCounted with tally := { s.tally with save := [] } }) ∨
    (s.tally.stopping = true ∧ s.saveDone = { s.saveCounted.setB Fld.tallyStateRunning false with
      tally := { s.tally with save := [], stopping := false, measuring := false } }) := by
  have e : s.saveDone = if s.saveCounted.tally.stopping then { s.saveCounted.setB Fld.tallyStateRunning false with
      tally := { s.saveCounted.tally with save := [], stopping := false, measuring := false } }
    else { s.saveCounted with tally := { s.saveCounted.tally with save := [] } } := rfl
  rw [saveCounted_tally] at e
  cases h : s.tally.stopping <;> rw [e, h]
  · exact .inl ⟨rfl, rfl⟩
  · exact .inr ⟨rfl, rfl⟩

theorem saveDone_reads (s : State) : s.saveDone.chest = s.chest ∧ s.saveDone.tally.save = [] ∧ s.saveDone.get Fld.tallyStateSaving = 0 ∧
    s.saveDone.get Fld.tallyStateSaves = (s.get Fld.tallyStateSaves + 1) % 65536 ∧
    (s.tally.stopping = true → s.saveDone.get Fld.tallyStateRunning = 0) := by
  obtain ⟨h, e⟩ | ⟨h, e⟩ := saveDone_cases s <;> rw [e]
  · exact ⟨saveCounted_chest s, rfl, get_saving_saveCounted s, get_saves_saveCounted s, fun hs => absurd (h ▸ hs) (by decide)⟩
  · have other {g : Fld} (hg : g.key 0 0 ≠ Fld.tallyStateRunning.key 0 0) :
        (s.saveCounted.setB Fld.tallyStateRunning false).get g = s.saveCounted.get g := State.get_setB_ne _ _ _ _ _ _ hg
    refine ⟨(State.setB_chest ..).trans (saveCounted_chest s), rfl, ?_, ?_, fun _ => ?_⟩
    · exact (other (by decide)).trans (get_saving_saveCounted s)
    · exact (other (by decide)).trans (get_saves_saveCounted s)
    · exact State.get_setB_eq s.saveCounted Fld.tallyStateRunning false 0 0 rfl (by decide) (by decide)

end Sys2Proof.Machine
end

section
/-! PROOFS. A frame of a sample port: its way through the port's unit, and its pairs (11 R278-R281; 18 R425-R428; log 241). -/

namespace Sys2Proof.Machine

/-! ### The port's unit -/

theorem qPush_written {s : State} {q : Nat} {body : List Byte} (h : (s.qPush q body).1 = .written) :
    ∃ u, (s.qPush q body).2 = s.setQueue q u := by
  unfold State.qPush at h ⊢
  dsimp only at h ⊢
  split at h
  · cases h
  · split at h
    · split at h
      · rename_i h1 h2 h3
        simp only [if_neg h1, if_pos h2, if_pos h3]
        exact ⟨_, rfl⟩
      · cases h
    · split at h
      · cases h
      · split at h
        · rename_i h1 h2 h3 h4
          simp only [if_neg h1, if_neg h2, if_neg h3, if_pos h4]
          exact ⟨_, rfl⟩
        · cases h

/-- A frame that a unit took at once has changed that unit, twice. -/
theorem qCross_took {s : State} {q : Nat} {f : List Byte} (h : (s.qCross q f).1 = true) :
    ∃ u v, (s.qCross q f).2 = (s.setQueue q u).setQueue q v := by
  unfold State.qCross at h ⊢
  split at h
  · rename_i t ht
    obtain ⟨u, hu⟩ := qPush_written (s := s) (q := q) (body := f) (by rw [ht])
    rw [ht] at hu
    change t = s.setQueue q u at hu
    subst hu
    exact ⟨u, _, rfl⟩
  · cases h

theorem setQueue_words (s : State) {q : Nat} (u : QUnit) (hq : q < 48) : WordsKept (InBlock Blk.queue) s (s.setQueue q u) := by
  have ok {f : Fld} (hf : f.acc = .L ∧ f.block = Blk.queue ∧ f.index < 16 ∧ f.s1 = 16 ∧ f.bs = 0 ∧ f.lsb < 32) {s t : State} {v : Nat}
      (h : WordsKept (InBlock Blk.queue) s t) : WordsKept (InBlock Blk.queue) s (t.set f v q) := by
    obtain ⟨ha, hb, hi, hs, hw, hl⟩ := hf
    refine h.set (by rw [ha]; decide) ?_
    simp only [InBlock, Fld.key, Fld.word, Fld.bit, hb, hs, hw, Blk.queue]
    omega
  have five {t : State} (h : WordsKept (InBlock Blk.queue) s t) (fill : Nat) (wm full empty marked : Bool) : WordsKept (InBlock Blk.queue) s
      (((((t.set Fld.queueStatFill fill q).setB Fld.queueStatWm wm q).setB Fld.queueStatFull full q).setB
        Fld.queueStatEmpty empty q).setB Fld.queueStatMarkopen marked q) :=
    ok (f := Fld.queueStatMarkopen) (by decide) (ok (f := Fld.queueStatEmpty) (by decide) (ok (f := Fld.queueStatFull) (by decide)
      (ok (f := Fld.queueStatWm) (by decide) (ok (f := Fld.queueStatFill) (by decide) h))))
  unfold State.setQueue
  dsimp only
  split
  · exact five (.upd (.refl s)) _ _ _ _ _
  · exact ok (f := Fld.queueStatState) (by decide) (five (.upd (.refl s)) _ _ _ _ _)

theorem setQueue_tally (s : State) (q : Nat) (u : QUnit) : (s.setQueue q u).tally = s.tally := by
  unfold State.setQueue
  dsimp only
  split <;> simp

theorem setQueue_cycleRoots (s : State) (q : Nat) (u : QUnit) : (s.setQueue q u).cycleRoots = s.cycleRoots := by
  unfold State.setQueue
  dsimp only
  split <;> simp

/-! ### The pair of a channel -/

theorem pairIn_kept {K : Nat → Prop} {s t : State} (h : WordsKept K s t) (m : Nat) (wv wi : Word32) (c : TallyChan) :
    t.pairIn m wv wi c = s.pairIn m wv wi c := by
  unfold State.pairIn State.f64
  simp only [h.getB (f := Fld.tallyCfgIinv) (.inl rfl), h.getB (f := Fld.tallyCfgHpf) (.inl rfl), h Fld.tallyVgain m 0 (.inl rfl),
    h Fld.tallyIgain m 0 (.inl rfl)]

/-- With HPF 0 the newest voltage and current are the scaled words. -/
theorem pairIn_unfiltered (s : State) (m : Nat) (wv wi : Word32) (c : TallyChan) (h : s.getB Fld.tallyCfgHpf m = false) :
    let ok := wv.toNat < 2 ^ 31 ∧ wi.toNat < 2 ^ 31
    let v := if ok then Float64.mulN (s.f64 Fld.tallyVgain m) (Float64.ofIntN (signed 24 wv.toNat)) else 0
    let i := if ok then Float64.mulN (s.f64 Fld.tallyIgain m) (Float64.ofIntN (signed 24 wi.toNat)) else 0
    (s.pairIn m wv wi c).volts = ((v, decide ok) :: c.volts).take 127 ∧
    (s.pairIn m wv wi c).amps = ((if s.getB Fld.tallyCfgIinv m then Float64.neg i else i) :: c.amps).take 127 ∧
    (s.pairIn m wv wi c).sums = c.sums := by
  unfold State.pairIn
  simp only [h, dcStep, decide_eq_true_eq]
  exact ⟨rfl, rfl, trivial⟩

theorem cross_r (c : ChanSums) (x : Option Word) : (c.cross x).r = c.r := by cases x <;> rfl

/-- Every pair is counted as received. -/
theorem pair_r (c : ChanSums) (out : Option (Word × Word × Word × Bool)) (was : Word) : (c.pair out was).r = c.r + 1 := by
  match out with
  | none => rfl
  | some (v, i, h, true) => rfl
  | some (v, i, h, false) => rfl

/-- Until 64 samples have come there is no pair to sum. -/
theorem pairOut_none (s : State) (m : Nat) {c : TallyChan} (h : c.volts.length < 64) : s.pairOut m c = none := by
  unfold State.pairOut
  rw [List.getElem?_eq_none (by omega)]

/-- A channel with a pair in its filters, and in its sums while an interval is measured. -/
def State.pairedChan (s : State) (m : Nat) (c : TallyChan) : TallyChan :=
  if s.tally.measuring then { c with sums := c.sums.pair (s.pairOut m c) (c.volts.getD 64 (0, false)).1 } else c

theorem tchan_tallyPair (s : State) (m : Nat) (ws : List Word32) : (s.tallyPair m ws).tchan m =
    s.pairedChan m (s.pairIn m (ws.getD (s.get Fld.tallyCfgVchan m) 0) (ws.getD (s.get Fld.tallyCfgIchan m) 0) (s.tchan m)) :=
  Map.getD_put_eq ..

theorem pairedChan_filters (s : State) (m : Nat) (c : TallyChan) :
    (s.pairedChan m c).volts = c.volts ∧ (s.pairedChan m c).amps = c.amps := by
  unfold State.pairedChan
  split <;> exact ⟨rfl, rfl⟩

theorem pairedChan_received (s : State) (m : Nat) (c : TallyChan) :
    (s.pairedChan m c).sums.r = c.sums.r + (if s.tally.measuring then 1 else 0) := by
  unfold State.pairedChan
  split
  · exact pair_r ..
  · rfl

theorem pairedChan_unsummed (s : State) (m : Nat) {c : TallyChan} (h : c.volts.length < 64) : (s.pairedChan m c).sums.n = c.sums.n := by
  unfold State.pairedChan
  rw [pairOut_none s m h]
  split <;> rfl

/-! ### The channels of a frame -/

/-- Only what channels other than `m` have gathered has changed. -/
structure PairsBeside (m : Nat) (s t : State) : Prop where
  cw : t.cw = s.cw
  tally : t.tally = { s.tally with chans := t.tally.chans }
  tchan : t.tchan m = s.tchan m

theorem PairsBeside.tallyPair {m n : Nat} {s t : State} (h : PairsBeside m s t) (ws : List Word32) (hn : m ≠ n) :
    PairsBeside m s (t.tallyPair n ws) where
  cw := h.cw
  tally := by
    have ht := h.tally
    simp only [State.tallyPair]
    rw [ht]
  tchan := (Map.getD_put_ne _ _ _ hn).trans h.tchan

/-- The pairs of a frame for the channels of a list that its port feeds (irreducible, so that no proof evaluates the sixteen channels). -/
@[irreducible] def State.framePairs (s : State) (port : Nat) (ws : List Word32) (l : List Nat) : State :=
  l.foldl (fun s m => if s.getB Fld.tallyCfgEn m ∧ s.get Fld.tallyCfgPort m = port then s.tallyPair m ws else s) s

theorem framePairs_beside (s : State) (port : Nat) (ws : List Word32) {m : Nat} {l : List Nat} (hm : m ∉ l) :
    PairsBeside m s (s.framePairs port ws l) := by
  suffices ∀ t, PairsBeside m s t → PairsBeside m s (t.framePairs port ws l) from this s ⟨rfl, rfl, rfl⟩
  unfold State.framePairs
  induction l with
  | nil => exact fun t ht => ht
  | cons n l ih =>
    rw [List.mem_cons, not_or] at hm
    refine fun t ht => ih hm.2 _ ?_
    dsimp only
    split
    · exact ht.tallyPair ws hm.1
    · exact ht

/-- A channel that the port feeds takes the frame's pair once. -/
theorem framePairs_at {s : State} {m port : Nat} (ws : List Word32) (hm : m < 16) (hen : s.getB Fld.tallyCfgEn m = true)
    (hp : s.get Fld.tallyCfgPort m = port) :
    ∃ u, PairsBeside m s u ∧ PairsBeside m (u.tallyPair m ws) (s.framePairs port ws (List.range 16)) := by
  have others : ∀ l' ⊆ List.range 16, m ∉ l' → ∀ s : State, PairsBeside m s (s.framePairs port ws l') :=
    fun _ _ hm' s => framePairs_beside s port ws hm'
  unfold State.framePairs at others ⊢
  obtain ⟨u, hu, ht⟩ := foldl_around List.nodup_range (List.mem_range.2 hm) others s
  have hu' : u.getB Fld.tallyCfgEn m = true ∧ u.get Fld.tallyCfgPort m = port := by
    unfold State.getB at hen ⊢
    simp only [State.get_cw hu.cw]
    exact ⟨hen, hp⟩
  refine ⟨u, hu, ?_⟩
  rwa [if_pos hu'] at ht

/-- The state in which a port's frame has crossed its unit and become the port's newest. -/
def State.frameTaken (s : State) (port : Nat) (ws : List Word32) : State :=
  let u := (s.qCross (20 + port) (frameBytes ws)).2
  let fr := Map.getD u.loop.frames port {}
  { u with loop := { u.loop with
      frames := Map.put u.loop.frames port { num := fr.num + 1, words := ws, done := u.roots, before := fr.words } } }

section
variable {s : State} {port : Fin 8} {ws : List Word32} (hq : (s.qCross (20 + port.val) (frameBytes ws)).1 = true)
include hq

theorem frameTaken_words : WordsKept (InBlock Blk.queue) s (s.frameTaken port ws) := by
  obtain ⟨u, v, e⟩ := qCross_took hq
  have hw := (setQueue_words s (q := 20 + port.val) u (by omega)).trans (setQueue_words _ (q := 20 + port.val) v (by omega))
  rw [← e] at hw
  exact hw.upd

theorem frameTaken_tally : (s.frameTaken port ws).tally = s.tally ∧ (s.frameTaken port ws).cycleRoots = s.cycleRoots := by
  obtain ⟨u, v, e⟩ := qCross_took hq
  unfold State.frameTaken
  rw [e]
  exact ⟨(setQueue_tally ..).trans (setQueue_tally ..), (setQueue_cycleRoots ..).trans (setQueue_cycleRoots ..)⟩

theorem exec_sampleFrame_took (hen : s.getB Fld.loopSpEn port = true) (hl : ws.length = s.get Fld.loopSpWords port) :
    exec (.sampleFrame port (.frame ws)) s = .next ((s.frameTaken port ws).tallyFrame port ws) := by
  have hw := frameTaken_words hq Fld.loopSpWords port 0 (.inl rfl)
  change execSampleFrame port (.frame ws) s = _
  unfold execSampleFrame
  dsimp only
  rw [hen]
  unfold State.frameTaken at hw ⊢
  generalize s.qCross (20 + port.val) (frameBytes ws) = r at hq hw ⊢
  obtain ⟨took, u⟩ := r
  cases hq
  exact if_pos (hl.trans hw.symm)

/-- While no boundary is due, a frame comes to the pairs of its channels. -/
theorem tallyFrame_frameTaken (hr : s.getB Fld.tallyStateRunning = true) (hd : ¬ s.intervalDue) :
    (s.frameTaken port ws).tallyFrame port ws = (s.frameTaken port ws).framePairs port ws (List.range 16) := by
  have hw := frameTaken_words hq
  obtain ⟨ht, hc⟩ := frameTaken_tally hq
  have hd' : ¬ (s.frameTaken port ws).intervalDue := by
    unfold State.intervalDue State.cycle at hd ⊢
    rwa [ht, hc, hw Fld.sysCycleNumber 0 0 (.inr (by unfold InBlock; decide))]
  have hr' := (hw.getB (f := Fld.tallyStateRunning) (i := 0) (j := 0) (.inr (by unfold InBlock; decide))).trans hr
  unfold State.tallyFrame State.framePairs
  rw [if_pos hr', intervalEnd_idle (.inr (.inr hd'))]

/-- A channel of the port with the frame's pair, and the totals as they were. -/
theorem tchan_frame (hr : s.getB Fld.tallyStateRunning = true) (hd : ¬ s.intervalDue) {m : Nat} (hm : m < 16)
    (hen : s.getB Fld.tallyCfgEn m = true) (hp : s.get Fld.tallyCfgPort m = port) :
    let t := (s.frameTaken port ws).tallyFrame port ws
    t.tally.totals = s.tally.totals ∧ ∃ u : State, u.tally.measuring = s.tally.measuring ∧ t.tchan m =
      u.pairedChan m (s.pairIn m (ws.getD (s.get Fld.tallyCfgVchan m) 0) (ws.getD (s.get Fld.tallyCfgIchan m) 0) (s.tchan m)) := by
  have hw := frameTaken_words hq
  obtain ⟨ht, -⟩ := frameTaken_tally hq
  obtain ⟨u, hu, hv⟩ := framePairs_at ws hm ((hw.getB (.inl rfl)).trans hen) ((hw Fld.tallyCfgPort m 0 (.inl rfl)).trans hp)
  have hwu : WordsKept (InBlock Blk.queue) s u := hw.upd hu.cw
  have hut : u.tally = { s.tally with chans := u.tally.chans } := ht ▸ hu.tally
  have huc : u.tchan m = s.tchan m := hu.tchan.trans (by unfold State.tchan; rw [ht])
  rw [tallyFrame_frameTaken hq hr hd]
  refine ⟨?_, u, by rw [hut], ?_⟩
  · rw [hv.tally]
    change u.tally.totals = s.tally.totals
    rw [hut]
  · rw [hv.tchan, tchan_tallyPair, pairIn_kept hwu, huc, hwu Fld.tallyCfgVchan m 0 (.inl rfl), hwu Fld.tallyCfgIchan m 0 (.inl rfl)]

end

end Sys2Proof.Machine
end

section
/-! PROOFS. The statement about the Tally, clause by clause (18 R425-R437). -/

namespace Sys2Proof.Machine

/-- A one-bit result. -/
theorem toNat_mod_two (p : Prop) [Decidable p] : (decide p).toNat % 2 ^ 1 = if p then 1 else 0 := by
  by_cases h : p <;> simp [h]

/-- FLUSH_DONE (R434): the flush row is durable. -/
theorem flushDone_writes {s : State} (h : s.tally.flush ≠ []) (hl : (s.tally.flush.map Prod.fst).Nodup) : Gives .flushDone s fun t =>
    (∀ p ∈ s.tally.flush, t.chestAt p.1 = p.2) ∧ t.tally.flush = [] ∧ t.get Fld.tallyStateFlushed = 1 ∧ t.get Fld.tallyFaultCode = 0x3A85 := by
  refine ⟨_, if_neg h, ?_⟩
  rw [foldl_chestSet]
  generalize hu : ({ s with chest := Map.putAll s.chest s.tally.flush, tally := { s.tally with flush := [] } } : State) = u
  have hc : u.chest = Map.putAll s.chest s.tally.flush := by rw [← hu]
  have ht : u.tally.flush = [] := by rw [← hu]
  refine ⟨chestAt_putAll ((raise_chest _ 0 rfl).trans ((State.setB_chest ..).trans hc)) hl, ?_, ?_, get_fault_raise _ 0 rfl⟩
  · rw [raise_tally _ 0 rfl, State.setB_tally, ht]
  · rw [raise_words _ 0 rfl Fld.tallyStateFlushed 0 0 (.inr (by unfold InFault; decide))]
    exact State.get_setB_eq u Fld.tallyStateFlushed true 0 0 rfl (by decide) (by decide)

/-- TALLY_SAVE_DONE (R433, R435): the save's remaining locations are durable. -/
theorem tallySaveDone_writes {s : State} (h : s.getB Fld.tallyStateSaving = true ∧ (s.keywell.steps = [] ∨ s.keywell.stopped = true))
    (hl : (s.tally.save.map Prod.fst).Nodup) : Gives .tallySaveDone s fun t => (∀ p ∈ s.tally.save, t.chestAt p.1 = p.2) ∧
      t.tally.save = [] ∧ t.get Fld.tallyStateSaving = 0 ∧ t.get Fld.tallyStateSaves = (s.get Fld.tallyStateSaves + 1) % 65536 ∧
      (s.tally.stopping = true → t.get Fld.tallyStateRunning = 0) := by
  refine ⟨_, if_pos h, ?_⟩
  rw [foldl_chestSet]
  obtain ⟨hc, reads⟩ := saveDone_reads { s with chest := Map.putAll s.chest s.tally.save }
  exact ⟨chestAt_putAll hc hl, reads⟩

/-- SAMPLE_FRAME (R425, R426): a frame's pair enters the filters and the sums of a channel of its port. -/
theorem sampleFrame_pairs {s : State} {port : Fin 8} {ws : List Word32} {m : Nat} (hm : m < 16)
    (hr : s.getB Fld.tallyStateRunning = true) (hen : s.getB Fld.tallyCfgEn m = true) (hp : s.get Fld.tallyCfgPort m = port)
    (hf : s.getB Fld.tallyCfgHpf m = false) (hd : ¬ s.intervalDue) (hsp : s.getB Fld.loopSpEn port = true)
    (hl : ws.length = s.get Fld.loopSpWords port) (hq : (s.qCross (20 + port.val) (frameBytes ws)).1 = true) :
    let wv := ws.getD (s.get Fld.tallyCfgVchan m) 0
    let wi := ws.getD (s.get Fld.tallyCfgIchan m) 0
    let ok := wv.toNat < 2 ^ 31 ∧ wi.toNat < 2 ^ 31
    let v := if ok then Float64.mulN (s.f64 Fld.tallyVgain m) (Float64.ofIntN (signed 24 wv.toNat)) else 0
    let i := if ok then Float64.mulN (s.f64 Fld.tallyIgain m) (Float64.ofIntN (signed 24 wi.toNat)) else 0
    let old := s.tchan m
    Gives (.sampleFrame port (.frame ws)) s fun t => t.tally.totals = s.tally.totals ∧
      (t.tchan m).volts = ((v, decide ok) :: old.volts).take 127 ∧
      (t.tchan m).amps = ((if s.getB Fld.tallyCfgIinv m then Float64.neg i else i) :: old.amps).take 127 ∧
      (t.tchan m).sums.r = old.sums.r + (if s.tally.measuring then 1 else 0) ∧
      (s.tally.measuring = true → old.volts.length < 63 → (t.tchan m).sums.n = old.sums.n) := by
  intro wv wi ok v i old
  obtain ⟨htot, u, hmeas, hch⟩ := tchan_frame hq hr hd hm hen hp
  obtain ⟨hv, hi, hsums⟩ := pairIn_unfiltered s m wv wi old hf
  obtain ⟨hvolts, hamps⟩ := pairedChan_filters u m (s.pairIn m wv wi old)
  refine ⟨_, exec_sampleFrame_took hq hsp hl, htot, ?_⟩
  rw [hch]
  refine ⟨hvolts.trans hv, hamps.trans hi, ?_, fun _ hlen => ?_⟩
  · rw [← hmeas, ← hsums]
    exact pairedChan_received u m _
  · rw [← hsums]
    refine pairedChan_unsummed u m ?_
    rw [hv, List.length_take, List.length_cons]
    omega

/-- The results of an enabled channel (Table 18.1, R430), field by field. -/
theorem intervalEnd_results {s : State} (hr : s.getB Fld.tallyStateRunning = true) (hs : s.tally.stopping = false) (hd : s.intervalDue)
    (hm : s.tally.measuring = true) {m : Nat} (hm16 : m < 16) (hen : s.getB Fld.tallyCfgEn m = true) :
    let c := (s.tchan m).sums
    let nexp := ((s.cycleRoots - s.tally.began) / 60 + 6250) / 12500
    let mean := fun (v : Word) => if c.n = 0 then 0 else Float64.divN v (Float64.ofIntN c.n)
    let t := s.intervalEnd
    t.get Fld.tallyVrms m = Float64.toF32 (Float64.sqrtN (mean c.sumVV)) % 2 ^ 32 ∧
    t.get Fld.tallyIrms m = Float64.toF32 (Float64.sqrtN (mean c.sumII)) % 2 ^ 32 ∧
    t.get Fld.tallyP m = Float64.toF32 (mean c.sumVI) % 2 ^ 32 ∧ t.get Fld.tallyQ m = Float64.toF32 (mean c.sumHI) % 2 ^ 32 ∧
    t.get Fld.tallyStatN m = c.n % 65536 ∧ t.get Fld.tallyStatFill m = (if c.n = 0 ∨ c.n + 8 < nexp then 1 else 0) ∧
    t.get Fld.tallyStatRate m = (if nexp < 100 * (c.r - nexp) ∨ nexp < 100 * (nexp - c.r) then 1 else 0) := by
  intro c nexp mean t
  obtain ⟨sv, pf, fr, qd, fv, hres⟩ := intervalEnd_enabled hr hs hd hm hm16 hen
  simp only [chanResults, List.forall_mem_cons] at hres
  obtain ⟨hvrms, hirms, hp, hq, -, -, -, -, -, hrate, hfill, hn, -⟩ := hres
  have few : (decide (c.n = 0) || !decide (nexp ≤ c.n + 8)) = decide (c.n = 0 ∨ c.n + 8 < nexp) := by
    simp only [Bool.decide_or, ← decide_not, Nat.not_le]
  exact ⟨hvrms, hirms, hp, hq, hn, hfill.trans ((congrArg (fun b => b.toNat % 2 ^ 1) few).trans (toNat_mod_two _)), hrate.trans (toNat_mod_two _)⟩

/-- Settles O56: the end of an interval changes channels one at a time (`Closes`), a frame feeds them one at a time (`PairsBeside`), and the
Chest is written location by location (`Map.putAll`). -/
theorem tallyMeters : Obligations.TallyMeters := by
  intro s port ws m k y running same f32 loc row valid larger saves due c nexp mean
  have hload : s.loadTotal m k = larger := loadTotal_eq s m k
  have hvalid : s.rowValid = true ↔ valid := decide_eq_true_iff
  have off {h : Prop} (hn : ¬ running ∨ h) : s.getB Fld.tallyStateRunning = false ∨ h := hn.imp_left Bool.eq_false_iff.2
  have refused : (s.raise 0x3A02).get Fld.tallyFaultCode = 0x3A02 := get_fault_raise s 0 rfl
  refine ⟨fun hr => ⟨_, rfl, ?runRefused⟩, fun hr => ⟨_, rfl, ?run⟩, fun hn => ⟨⟨_, rfl, tallyStop_idle (off hn)⟩, ⟨_, rfl, ?ended⟩⟩,
    fun hr hs => ⟨_, rfl, ?stop⟩, fun hd => ⟨_, rfl, intervalEnd_idle (.inr (.inr hd))⟩, fun hr hs hd hm => ⟨_, rfl, ?first⟩,
    fun hr hs hd hm => ⟨_, rfl, ?next⟩, fun hr hen hp hf hd hsp hl hq => sampleFrame_pairs m.isLt hr hen hp hf hd hsp hl hq,
    fun hr => ⟨_, rfl, ?clearRefused⟩, fun hr => ⟨_, rfl, ?clear⟩, ⟨_, rfl, tallySnap_latches s m.isLt k.isLt⟩,
    ⟨fun h => ⟨_, if_neg h, rfl⟩, fun h hl => tallySaveDone_writes h hl⟩, fun h => ⟨_, if_pos h, rfl⟩, fun h hl => flushDone_writes h hl⟩
  case runRefused =>
    rw [show s.tallyRun = s.raise 0x3A02 from if_pos hr]
    exact ⟨refused, raise_tally s 0 rfl⟩
  case run =>
    rw [← hload]
    simpa only [hvalid] using tallyRun_loads hr m.isLt k.isLt
  case ended => exact intervalEnd_idle ((off hn).imp_right .inl)
  case stop =>
    refine ⟨?_, ?_, tallyStop_saves hr hs, tallyStop_totals hr hs⟩ <;> rw [tallyStop_tally hr hs] <;> rfl
  case first =>
    rw [intervalEnd_due hr hs hd, if_neg (Bool.eq_false_iff.1 hm)]
    rfl
  case next =>
    obtain ⟨hend, hcyc, hbegan, hsums⟩ := intervalEnd_begins hr hs hd hm m
    refine ⟨hend, hcyc, hbegan, hsums, intervalEnd_saves hr hs hd hm, intervalEnd_late hr hs hd hm, fun hen => ?_, fun hen => ?_⟩
    · obtain ⟨htot, hres⟩ := intervalEnd_disabled hr hs hd hm hen
      exact ⟨htot k (by omega), hres Fld.tallyP (by decide)⟩
    · exact intervalEnd_results hr hs hd hm m.isLt hen
  case clearRefused =>
    rw [show s.tallyClear = s.raise 0x3A02 from if_pos hr]
    exact ⟨refused, raise_chest s 0 rfl⟩
  case clear =>
    rw [tallyClear_stopped hr, ← hload]
    exact ⟨rfl, clearedChest_saved m.isLt k.isLt, clearedChest_row m.isLt k.isLt, clearedChest_header s, fun _ => clearedChest_other s⟩

end Sys2Proof.Machine
end
